-- ==== Sys2Proof/Word.lean ====
section
/-! DEFINITION. The word types of the hub: what the spec treats as bits is a bit vector, every address,
count and index is a `Nat`. -/

namespace Sys2Proof

/-- One byte (spec 00_scope.md R4: multi-byte fields are little-endian lists of these). -/
abbrev Byte := BitVec 8

/-- A 64-bit register or scalar register (R7, R54). -/
abbrev W64 := BitVec 64

/-- A 32-bit register or vector lane (R7, R54). -/
abbrev W32 := BitVec 32

/-- The 320-bit fixed-point sum of one exact-accumulator lane (R155). -/
abbrev Acc320 := BitVec 320

end Sys2Proof
end

