-- ==== Sys2Proof/Syntax.lean ====
section
/-! DEFINITION. The commands of the block: one constructor per row of spec/opcode_table.json with the row's operands, and
the operand types they share with the state. -/

namespace Sys2Proof

/-- The fields of a coach instruction word below OP (R95, Table 4.1). -/
structure Fields where
  d   : BitVec 6
  a   : BitVec 6
  b   : BitVec 6
  c   : BitVec 6
  fmt : BitVec 4
  rf  : BitVec 4
  imm : BitVec 24
  deriving DecidableEq, Repr

/-- The errors that a read of a block meets (R319): the symbols of its codeword that differ from what was stored, by number (0 to
67, rising), and the difference of each, not zero. -/
abbrev MemErrors := List (Nat × Byte)

/-- How a Carriage message came (R355): on the role's control ring, or in a datagram from `src`: the source address
as 128 bits, IPv4 mapped into IPv6, × 2^16 + the source port (R354, R384), by Ethernet port `port` with the tag `vlan` (R331, R334). -/
inductive Via where
  | ring
  | udp (port vlan src : Nat)
  deriving DecidableEq, Repr

/-- The header of a Carriage request (Table 12.4): the role of the port it came in on (R331; 0 host, 1 rack manager), its
SEQ, and whether TYPE, STATUS, LENGTH, RETRY_MS and DETAIL are as the table gives them for a request. -/
structure Req where
  role : Nat
  seq  : Nat
  via  : Via
  wellFormed : Bool
  deriving DecidableEq, Repr

/-- A flit as it arrives on a port (R285): header word, 240 payload bytes and CRC. It carries no number of its own: the link
words before it give that (R288). -/
structure Flit where
  port    : Nat
  header  : W64
  payload : List Byte
  crc     : W64
  deriving DecidableEq, Repr

/-- One control message of a CTRL flit (R297): the flit, and the message's place in it. -/
structure Ctl where
  flit  : Flit
  index : Nat
  deriving DecidableEq, Repr

/-- The port on which the message arrives. -/
def Ctl.port (c : Ctl) : Nat := c.flit.port

/-- The virtual channel of its flit. -/
def Ctl.vc (c : Ctl) : Nat := c.flit.header.toNat / 2 ^ 58 % 4

/-- The 16 bytes of the message. -/
def Ctl.msg (c : Ctl) : List Byte := (c.flit.payload.drop (16 * c.index)).take 16

/-- Why flits fail (R274, R289): the CRC of one, or errors in `symbols` symbols of one codeword, the second of its pair or the
first. -/
inductive FlitFault where
  | crc (f : Flit)
  | codeword (second : Bool) (symbols : Nat)
  deriving DecidableEq, Repr

/-- How a PTP message arrives (R256): the Ethernet port, the UDP port it came to (none: Ethernet transport) and the PTP domain. -/
structure PtpIn where
  port   : Nat
  udp    : Option Nat
  domain : Nat
  deriving DecidableEq, Repr

/-- A packet on a connection (R334, R336): the connection and the packet's VLAN tag. Here and in every operand of that name, the tag
0x1000, which no frame can carry, stands for a frame that Table 12.1 leaves out for another reason (log 137). -/
structure Packet where
  conn : Nat
  vlan : Nat
  deriving DecidableEq, Repr

/-- A packet on a connection that the network may have marked CE (R337). -/
structure CePacket extends Packet where
  ce : Bool
  deriving DecidableEq, Repr

/-- What a read of a partner's LINK_STATE shows, and whether it is the second read of R311. -/
structure LinkPoll where
  state  : Nat
  second : Bool
  deriving DecidableEq, Repr

/-- An in-band interrupt (R310): its mandatory data byte, and what the read of LINK_STATE shows that it leads to. -/
structure Interrupt where
  data  : Nat
  state : Nat
  deriving DecidableEq, Repr

/-- Who posted a descriptor: host ring r, or the partner of port n through its ring of the service (Table 10.13). -/
inductive Origin where
  | ring (r : Nat)
  | port (n : Nat)
  deriving DecidableEq, Repr

/-- The commands: one constructor per row of spec/opcode_table.json, in its order (R1). -/
inductive Instr where
  /-- REGISTER_WRITE (R7). -/
  | registerWrite (src addr width : Nat) (value : W64)
  /-- XXX_COMMIT (R50). -/
  | commit (src addr : Nat) (value : W64)
  /-- STANDBY_POWER_ON_RESET (R478). -/
  | standbyPowerOnReset
  /-- STANDBY_RESET_EXIT (R478). -/
  | standbyResetExit (puf flow vin54 vin12 : Bool) (lead : Nat) (bad : List Nat)
  /-- MAIN_DOMAIN_RESET (R327). -/
  | mainDomainReset
  /-- MAIN_RESET_RELEASE (R460). -/
  | mainResetRelease (bad : List Nat)
  /-- SUPPLY_OUT_OF_RANGE (R476). -/
  | supplyOutOfRange (input mv : Nat)
  /-- SUPPLY_IN_RANGE (R476). -/
  | supplyInRange (input mv : Nat)
  /-- WAKE_ASSERT (R477). -/
  | wakeAssert (low : Bool)
  /-- CONSIST_BOOT_APPLY (R27). -/
  | consistBootApply
  /-- CONSIST_DATA (R356). -/
  | consistData (q : Req) (body : List Byte)
  /-- CONSIST_LOAD (R43). -/
  | consistLoad (q : Req) (body : List Byte)
  /-- CONSIST_SLOT_WRITTEN (R42). -/
  | consistSlotWritten
  /-- CONSIST_APPLY (R45). -/
  | consistApply (q : Req) (body : List Byte)
  /-- APPLY_COMPLETE (R46). -/
  | applyComplete
  /-- APPLY_BEAT (R47). -/
  | applyBeat
  /-- ADD (R106). -/
  | add (seat : Nat) (w : Fields)
  /-- SUB (R106). -/
  | sub (seat : Nat) (w : Fields)
  /-- AND (R106). -/
  | and (seat : Nat) (w : Fields)
  /-- OR (R106). -/
  | or (seat : Nat) (w : Fields)
  /-- XOR (R106). -/
  | xor (seat : Nat) (w : Fields)
  /-- SHL (R106). -/
  | shl (seat : Nat) (w : Fields)
  /-- SHR (R106). -/
  | shr (seat : Nat) (w : Fields)
  /-- SRA (R106). -/
  | sra (seat : Nat) (w : Fields)
  /-- ADDI (R106). -/
  | addi (seat : Nat) (w : Fields)
  /-- ANDI (R106). -/
  | andi (seat : Nat) (w : Fields)
  /-- ORI (R106). -/
  | ori (seat : Nat) (w : Fields)
  /-- XORI (R106). -/
  | xori (seat : Nat) (w : Fields)
  /-- SHLI (R106). -/
  | shli (seat : Nat) (w : Fields)
  /-- SHRI (R106). -/
  | shri (seat : Nat) (w : Fields)
  /-- SRAI (R106). -/
  | srai (seat : Nat) (w : Fields)
  /-- MOVI (R106). -/
  | movi (seat : Nat) (w : Fields)
  /-- MOVK (R106). -/
  | movk (seat : Nat) (w : Fields)
  /-- SLT (R106). -/
  | slt (seat : Nat) (w : Fields)
  /-- SLTU (R106). -/
  | sltu (seat : Nat) (w : Fields)
  /-- SEL (R106). -/
  | sel (seat : Nat) (w : Fields)
  /-- MIN (R106). -/
  | min (seat : Nat) (w : Fields)
  /-- MAX (R106). -/
  | max (seat : Nat) (w : Fields)
  /-- MINU (R106). -/
  | minu (seat : Nat) (w : Fields)
  /-- MAXU (R106). -/
  | maxu (seat : Nat) (w : Fields)
  /-- MUL (R106). -/
  | mul (seat : Nat) (w : Fields)
  /-- MULH (R106). -/
  | mulh (seat : Nat) (w : Fields)
  /-- MULHU (R106). -/
  | mulhu (seat : Nat) (w : Fields)
  /-- DIV (R107). -/
  | div (seat : Nat) (w : Fields)
  /-- DIVU (R107). -/
  | divu (seat : Nat) (w : Fields)
  /-- REM (R107). -/
  | rem (seat : Nat) (w : Fields)
  /-- REMU (R107). -/
  | remu (seat : Nat) (w : Fields)
  /-- BEQ (R108). -/
  | beq (seat : Nat) (w : Fields)
  /-- BNE (R108). -/
  | bne (seat : Nat) (w : Fields)
  /-- BLT (R108). -/
  | blt (seat : Nat) (w : Fields)
  /-- BGE (R108). -/
  | bge (seat : Nat) (w : Fields)
  /-- BLTU (R108). -/
  | bltu (seat : Nat) (w : Fields)
  /-- BGEU (R108). -/
  | bgeu (seat : Nat) (w : Fields)
  /-- BMANY (R108). -/
  | bmany (seat : Nat) (w : Fields)
  /-- BMNONE (R108). -/
  | bmnone (seat : Nat) (w : Fields)
  /-- JAL (R108). -/
  | jal (seat : Nat) (w : Fields)
  /-- JALR (R108). -/
  | jalr (seat : Nat) (w : Fields)
  /-- LOOP (R108). -/
  | loop (seat : Nat) (w : Fields)
  /-- VADD (R149). -/
  | vadd (seat : Nat) (w : Fields)
  /-- VSUB (R149). -/
  | vsub (seat : Nat) (w : Fields)
  /-- VMUL (R149). -/
  | vmul (seat : Nat) (w : Fields)
  /-- VFMA (R149). -/
  | vfma (seat : Nat) (w : Fields)
  /-- VFNMA (R149). -/
  | vfnma (seat : Nat) (w : Fields)
  /-- VDOT (R109). -/
  | vdot (seat : Nat) (w : Fields)
  /-- VMIN (R150). -/
  | vmin (seat : Nat) (w : Fields)
  /-- VMAX (R150). -/
  | vmax (seat : Nat) (w : Fields)
  /-- VABS (R109). -/
  | vabs (seat : Nat) (w : Fields)
  /-- VNEG (R109). -/
  | vneg (seat : Nat) (w : Fields)
  /-- VDIV (R110). -/
  | vdiv (seat : Nat) (w : Fields)
  /-- VSQRT (R110). -/
  | vsqrt (seat : Nat) (w : Fields)
  /-- VCMP (R150). -/
  | vcmp (seat : Nat) (w : Fields)
  /-- VIADD (R112). -/
  | viadd (seat : Nat) (w : Fields)
  /-- VISUB (R112). -/
  | visub (seat : Nat) (w : Fields)
  /-- VIMUL (R112). -/
  | vimul (seat : Nat) (w : Fields)
  /-- VIDOT (R112). -/
  | vidot (seat : Nat) (w : Fields)
  /-- VAND (R112). -/
  | vand (seat : Nat) (w : Fields)
  /-- VOR (R112). -/
  | vor (seat : Nat) (w : Fields)
  /-- VXOR (R112). -/
  | vxor (seat : Nat) (w : Fields)
  /-- VSHL (R112). -/
  | vshl (seat : Nat) (w : Fields)
  /-- VSHR (R112). -/
  | vshr (seat : Nat) (w : Fields)
  /-- VSRA (R112). -/
  | vsra (seat : Nat) (w : Fields)
  /-- VICMP (R112). -/
  | vicmp (seat : Nat) (w : Fields)
  /-- VSEL (R112). -/
  | vsel (seat : Nat) (w : Fields)
  /-- VMOVS (R112). -/
  | vmovs (seat : Nat) (w : Fields)
  /-- SMOVV (R112). -/
  | smovv (seat : Nat) (w : Fields)
  /-- VIOTA (R112). -/
  | viota (seat : Nat) (w : Fields)
  /-- VPERM (R112). -/
  | vperm (seat : Nat) (w : Fields)
  /-- MAND (R112). -/
  | mand (seat : Nat) (w : Fields)
  /-- MOR (R112). -/
  | mor (seat : Nat) (w : Fields)
  /-- MXOR (R112). -/
  | mxor (seat : Nat) (w : Fields)
  /-- MNOT (R112). -/
  | mnot (seat : Nat) (w : Fields)
  /-- MSET (R112). -/
  | mset (seat : Nat) (w : Fields)
  /-- MGET (R112). -/
  | mget (seat : Nat) (w : Fields)
  /-- MCNT (R112). -/
  | mcnt (seat : Nat) (w : Fields)
  /-- MFIRST (R112). -/
  | mfirst (seat : Nat) (w : Fields)
  /-- CVT (R113). -/
  | cvt (seat : Nat) (w : Fields)
  /-- XALLOC (R59). -/
  | xalloc (seat : Nat) (w : Fields)
  /-- XALLOC_GRANT (R59). -/
  | xallocGrant (coach : Nat)
  /-- XFREE (R60). -/
  | xfree (seat : Nat) (w : Fields)
  /-- XACC (R115). -/
  | xacc (seat : Nat) (w : Fields)
  /-- XZERO (R114). -/
  | xzero (seat : Nat) (w : Fields)
  /-- XRD (R116). -/
  | xrd (seat : Nat) (w : Fields)
  /-- XADD (R156). -/
  | xadd (seat : Nat) (w : Fields)
  /-- XLDA (R156). -/
  | xlda (seat : Nat) (w : Fields)
  /-- XST (R160). -/
  | xst (seat : Nat) (w : Fields)
  /-- LD (R118). -/
  | ld (seat : Nat) (w : Fields)
  /-- ST (R118). -/
  | st (seat : Nat) (w : Fields)
  /-- VLD (R118). -/
  | vld (seat : Nat) (w : Fields)
  /-- VST (R118). -/
  | vst (seat : Nat) (w : Fields)
  /-- AADD (R120). -/
  | aadd (seat : Nat) (w : Fields)
  /-- AMIN (R120). -/
  | amin (seat : Nat) (w : Fields)
  /-- AMAX (R120). -/
  | amax (seat : Nat) (w : Fields)
  /-- ASWAP (R120). -/
  | aswap (seat : Nat) (w : Fields)
  /-- ACAS (R120). -/
  | acas (seat : Nat) (w : Fields)
  /-- ALD (R120). -/
  | ald (seat : Nat) (w : Fields)
  /-- LOAD_RETURN (R66). -/
  | loadReturn (coach id : Nat)
  /-- TRANSACTION_PERFORMED (R64). -/
  | transactionPerformed (coach id block : Nat)
  /-- DSUB (R121). -/
  | dsub (seat : Nat) (w : Fields)
  /-- DWAIT (R121). -/
  | dwait (seat : Nat) (w : Fields)
  /-- DCNT (R121). -/
  | dcnt (seat : Nat) (w : Fields)
  /-- DRAY_TRANSACTION (R67). -/
  | drayTransaction (coach engine : Nat)
  /-- DRAY_DESCRIPTOR_COMPLETE (R69). -/
  | drayDescriptorComplete (coach engine : Nat)
  /-- VGATHER (R122). -/
  | vgather (seat : Nat) (w : Fields)
  /-- VSCATTER (R123). -/
  | vscatter (seat : Nat) (w : Fields)
  /-- XSCADD (R124). -/
  | xscadd (seat : Nat) (w : Fields)
  /-- FENCE (R125). -/
  | fence (seat : Nat) (w : Fields)
  /-- FENCE_COMPLETE (R79). -/
  | fenceComplete (seat : Nat)
  /-- BAR (R126). -/
  | bar (seat : Nat) (w : Fields)
  /-- BARRIER_RELEASE (R126). -/
  | barrierRelease (coach scope : Nat)
  /-- LAUNCH (R127). -/
  | launch (seat : Nat) (w : Fields)
  /-- BWAIT (R128). -/
  | bwait (seat : Nat) (w : Fields)
  /-- BREAD (R128). -/
  | bread (seat : Nat) (w : Fields)
  /-- RPOP (R130). -/
  | rpop (seat : Nat) (w : Fields)
  /-- RPUSH (R130). -/
  | rpush (seat : Nat) (w : Fields)
  /-- RCTX (R131). -/
  | rctx (seat : Nat) (w : Fields)
  /-- RAND (R131). -/
  | rand (seat : Nat) (w : Fields)
  /-- NOP (R132). -/
  | nop (seat : Nat) (w : Fields)
  /-- HALT (R132). -/
  | halt (seat : Nat) (w : Fields)
  /-- TRAP (R132). -/
  | trap (seat : Nat) (w : Fields)
  /-- LAUNCH_BLOCK_START (R87). -/
  | launchBlockStart (train : Nat)
  /-- KERNEL_CODE_LOADED (R87). -/
  | kernelCodeLoaded (train : Nat)
  /-- KERNEL_COMPLETE (R88). -/
  | kernelComplete (train : Nat)
  /-- KERNEL_TIMEOUT (R89). -/
  | kernelTimeout (train : Nat)
  /-- KERNELS_STOPPED (R90). -/
  | kernelsStopped
  /-- REDUCE (R163). -/
  | reduce (src : Origin) (raw : List Byte)
  /-- ALL_REDUCE (R163). -/
  | allReduce (src : Origin) (raw : List Byte)
  /-- REDUCE_SCATTER (R163). -/
  | reduceScatter (src : Origin) (raw : List Byte)
  /-- ALL_GATHER (R163). -/
  | allGather (src : Origin) (raw : List Byte)
  /-- BROADCAST (R163). -/
  | broadcast (src : Origin) (raw : List Byte)
  /-- ALL_TO_ALL (R163). -/
  | allToAll (src : Origin) (raw : List Byte)
  /-- COLL_UNMATCHED (R168). -/
  | collUnmatched (id : Nat)
  /-- COLL_WINDOW_OPEN (R171). -/
  | collWindowOpen (slot : Nat)
  /-- COLL_CHUNK_REDUCE (R177). -/
  | collChunkReduce (slot : Nat)
  /-- COLL_COMPLETE (R170). -/
  | collComplete (slot : Nat)
  /-- COLL_STALL (R182). -/
  | collStall (slot : Nat)
  /-- COLL_DATA (R298). -/
  | collData (f : Flit)
  /-- DISPATCH (R300). -/
  | dispatch (f : Flit)
  /-- DISPATCH_END (R300). -/
  | dispatchEnd (f : Flit)
  /-- DISPATCH_CREDIT (R186). -/
  | dispatchCredit (src dst : Nat)
  /-- XH_POST (R302). -/
  | xhPost (c : Ctl)
  /-- XH_STEP (R302). -/
  | xhStep (c : Ctl)
  /-- COLL_CREDIT (R302). -/
  | collCredit (c : Ctl)
  /-- TABLE_DEFINE (R197). -/
  | tableDefine (src : Origin) (raw : List Byte)
  /-- TABLE_RELEASE (R197). -/
  | tableRelease (src : Origin) (raw : List Byte)
  /-- STEP_LINKED (R202). -/
  | stepLinked (src : Origin) (raw : List Byte)
  /-- STEP_BUFFERED (R202). -/
  | stepBuffered (src : Origin) (raw : List Byte)
  /-- STEP_EMIT_ONLY (R202). -/
  | stepEmitOnly (src : Origin) (raw : List Byte)
  /-- EMB_GATHER (R218). -/
  | embGather (src : Origin) (raw : List Byte)
  /-- EMB_SCATTER_ADD (R219). -/
  | embScatterAdd (src : Origin) (raw : List Byte)
  /-- EMB_APPLY (R220). -/
  | embApply (src : Origin) (raw : List Byte)
  /-- EMB_APPLY_BEGIN (R222). -/
  | embApplyBegin (table : Nat)
  /-- STATE_COMMAND_HEAD (R199). -/
  | stateCommandHead (table : Nat)
  /-- STEP_END (R213). -/
  | stepEnd (table : Nat)
  /-- STATE_COMMAND_COMPLETE (R200). -/
  | stateCommandComplete (table : Nat)
  /-- TAKE (R235). -/
  | take (src : Origin) (raw : List Byte)
  /-- RESTORE (R244). -/
  | restore (src : Origin) (raw : List Byte)
  /-- DRAIN (R242). -/
  | drain (src : Origin) (raw : List Byte)
  /-- IMPORT_OPEN (R243). -/
  | importOpen (src : Origin) (raw : List Byte)
  /-- IMPORT_CHECK (R243). -/
  | importCheck (src : Origin) (raw : List Byte)
  /-- SNAP_MANIFEST (R235). -/
  | snapManifest (c : Ctl)
  /-- SNAP_MANIFEST_DEADLINE (R235). -/
  | snapManifestDeadline
  /-- SNAP_CUT (R236). -/
  | snapCut
  /-- SNAP_DATA (R301). -/
  | snapData (f : Flit)
  /-- SNAP_SENT (R235). -/
  | snapSent (c : Ctl)
  /-- SNAP_COMMIT (R235). -/
  | snapCommit
  /-- SNAP_RESUME (R235). -/
  | snapResume
  /-- SNAP_PCREDIT (R301). -/
  | snapPcredit (c : Ctl)
  /-- SNAP_LOADED_ACK (R245). -/
  | snapLoadedAck (c : Ctl)
  /-- MIR_BEGIN (R240). -/
  | mirBegin (c : Ctl)
  /-- MIR_END (R240). -/
  | mirEnd (c : Ctl)
  /-- MIR_ACK (R240). -/
  | mirAck (c : Ctl)
  /-- MIR_NAK (R240). -/
  | mirNak (c : Ctl)
  /-- MIR_CREDIT (R301). -/
  | mirCredit (c : Ctl)
  /-- MIR_SLOTS (R301). -/
  | mirSlots (c : Ctl)
  /-- DRUM_BEAT (R249). -/
  | drumBeat
  /-- BEAT_SYNC (R258). -/
  | beatSync (port : Nat) (header : W64) (seq echoSeq txCount txPhase rxCount rxPhase info : Nat) (rest : List Byte) (crc : W64)
      (phase : Nat)
  /-- PTP_SYNC (R256). -/
  | ptpSync (p : PtpIn) (master : Nat) (twoStep : Bool) (t1 : Int) (phase : Nat)
  /-- PTP_FOLLOW_UP (R256). -/
  | ptpFollowUp (p : PtpIn) (master : Nat) (t1 : Int)
  /-- PTP_DELAY_RESP (R256). -/
  | ptpDelayResp (p : PtpIn) (master : Nat) (own : Bool) (t4 : Int)
  /-- PTP_ANNOUNCE (R256). -/
  | ptpAnnounce (p : PtpIn) (master rank : Nat)
  /-- DRUM_SOURCE_LOST (R259). -/
  | drumSourceLost
  /-- DRUM_REPORT (R252). -/
  | drumReport (c : Ctl)
  /-- PORT_ENABLE (R275). -/
  | portEnable (port : Nat)
  /-- TRAINING_FRAME (R276). -/
  | trainingFrame (port lane : Nat) (word : W64) (ready : Bool) (reqOp reqTap : Nat)
  /-- TRAINING_TIMEOUT (R275). -/
  | trainingTimeout (port : Nat)
  /-- LANE_TEST_END (R278). -/
  | laneTestEnd (port : Nat) (errors snr : List Nat) (closing : List (Nat × W64))
  /-- ALIGN (R279). -/
  | align (f : Flit) (lock : Bool)
  /-- CONFIG (R280). -/
  | config (port : Nat) (header : W64) (rest : List Byte)
  /-- PORT_FAILED_RETRY (R275). -/
  | portFailedRetry (port : Nat)
  /-- CPL_LANE_LOST (R283). -/
  | cplLaneLost (port lane : Nat)
  /-- LINK_WORD (R288). -/
  | linkWord (port : Nat) (word : W64) (later : Bool)
  /-- CPL_LINK_DOWN (R291). -/
  | cplLinkDown (port : Nat)
  /-- COMPENSATION_FRAME (R293). -/
  | compensationFrame (port : Nat)
  /-- WRITE (R303). -/
  | write (f : Flit)
  /-- READ_REQ (R303). -/
  | readReq (f : Flit)
  /-- RING_SUB (R305). -/
  | ringSub (f : Flit)
  /-- RING_FREE (R306). -/
  | ringFree (c : Ctl)
  /-- JOB_ABORT (R308). -/
  | jobAbort (c : Ctl)
  /-- JOB_ABORT_ACK (R308). -/
  | jobAbortAck (c : Ctl)
  /-- LINK_STATE_POLL (R311). -/
  | linkStatePoll (n : Nat) (read : LinkPoll)
  /-- IN_BAND_INTERRUPT (R310). -/
  | inBandInterrupt (n : Nat) (i : Interrupt)
  /-- CPL_RETEST (R284). -/
  | cplRetest (port : Nat)
  /-- MEMORY_READ (R320). -/
  | memoryRead (addr : Nat) (found : MemErrors) (checked : Bool)
  /-- MEMORY_WRITE (R321). -/
  | memoryWrite (addr off : Nat) (data : List Byte) (poisoned : Bool) (found : MemErrors)
  /-- MR4_POLL (R322). -/
  | mr4Poll (hot : List Nat)
  /-- SCRUB_READ (R323). -/
  | scrubRead (addr : Nat) (found : MemErrors)
  /-- MEMORY_TRAINING_COMPLETE (R325). -/
  | memoryTrainingComplete (failed : List Nat) (devs : List (Nat × Int)) (ms : Nat)
  /-- MEMORY_FILL_COMPLETE (R326). -/
  | memoryFillComplete
  /-- MEM_ERROR_RATE_SECOND (R328). -/
  | memErrorRateSecond (channel : Nat)
  /-- ETH_LINK_CHANGE (R330). -/
  | ethLinkChange (port : Nat) (up : Bool)
  /-- ARP_REQUEST (R334). -/
  | arpRequest (port vlan target senderIp senderMac : Nat)
  /-- ICMP_ECHO_REQUEST (R334). -/
  | icmpEchoRequest (port vlan : Nat) (v6 : Bool) (dst src : Nat) (data : List Byte)
  /-- NEIGHBOR_SOLICITATION (R334). -/
  | neighborSolicitation (port vlan target src : Nat)
  /-- ROUTER_ADVERTISEMENT (R334). -/
  | routerAdvertisement (port vlan router lifetime : Nat)
  /-- PFC_PAUSE (R334). -/
  | pfcPause (port priority quanta : Nat)
  /-- RDMA_WRITE (R336). -/
  | rdmaWrite (k : Packet) (psn pos addr key : Nat) (data : List Byte) (ce : Bool)
  /-- RDMA_READ (R336). -/
  | rdmaRead (k : Packet) (psn addr key len : Nat) (ce : Bool)
  /-- RDMA_ACK (R337). -/
  | rdmaAck (k : CePacket) (psn : Nat)
  /-- CNP (R337). -/
  | cnp (k : Packet)
  /-- RDMA_ACK_TIMEOUT (R337). -/
  | rdmaAckTimeout (conn : Nat)
  /-- RDMA_RATE_RECOVERY (R337). -/
  | rdmaRateRecovery (conn : Nat)
  /-- DOORBELL (R344). -/
  | doorbell (k : CePacket) (ring : Nat) (value : W64)
  /-- RING_ENTRY_TAKE (R349). -/
  | ringEntryTake (consumer : Nat)
  /-- STATUS_GET (R357). -/
  | statusGet (q : Req) (body : List Byte)
  /-- IDENTITY_GET (R393). -/
  | identityGet (q : Req) (body : List Byte)
  /-- REG_READ (R500). -/
  | regRead (q : Req) (body : List Byte)
  /-- REG_WRITE (R500). -/
  | regWrite (q : Req) (body : List Byte)
  /-- RING_SETUP (R347). -/
  | ringSetup (q : Req) (body : List Byte)
  /-- NOTIFY_SET (R346). -/
  | notifySet (q : Req) (body : List Byte)
  /-- CONN_OPEN (R339). -/
  | connOpen (q : Req) (body : List Byte)
  /-- CONN_CLOSE (R339). -/
  | connClose (q : Req) (body : List Byte)
  /-- ADDR_SET (R335). -/
  | addrSet (q : Req) (body : List Byte)
  /-- HEARTBEAT (R367). -/
  | heartbeat (q : Req) (body : List Byte)
  /-- ROLE_SILENT (R367). -/
  | roleSilent (role : Nat)
  /-- JOB_START (R363). -/
  | jobStart (q : Req) (body : List Byte)
  /-- JOB_END (R365). -/
  | jobEnd (q : Req) (body : List Byte)
  /-- POWER_SET_ON (R359). -/
  | powerSetOn (q : Req) (body : List Byte)
  /-- POWER_SET_OFF (R359). -/
  | powerSetOff (q : Req) (body : List Byte)
  /-- CAP_SET (R360). -/
  | capSet (q : Req) (body : List Byte)
  /-- ENERGY_GET (R433). -/
  | energyGet (q : Req) (body : List Byte)
  /-- TELEMETRY_GET (R445). -/
  | telemetryGet (q : Req) (body : List Byte)
  /-- ENROL (R394). -/
  | enrol (q : Req) (body : List Byte)
  /-- UPD_BEGIN (R384). -/
  | updBegin (q : Req) (body : List Byte)
  /-- UPD_DATA (R384). -/
  | updData (q : Req) (body : List Byte)
  /-- UPD_DATA_PROGRAMMED (R384). -/
  | updDataProgrammed (ok : Bool) (addr : Nat)
  /-- UPD_END (R384). -/
  | updEnd (q : Req) (body : List Byte)
  /-- UPD_VERIFY_COMPLETE (R384). -/
  | updVerifyComplete (intact : Bool)
  /-- UPD_ACTIVATE (R386). -/
  | updActivate (q : Req) (body : List Byte)
  /-- UPD_ABORT (R384). -/
  | updAbort (q : Req) (body : List Byte)
  /-- UPD_SESSION_TIMEOUT (R384). -/
  | updSessionTimeout
  /-- UPD_DEFERRAL_END (R387). -/
  | updDeferralEnd
  /-- TRIAL_TIMEOUT (R388). -/
  | trialTimeout
  /-- STANDBY_TRIAL_CONFIRM (R388). -/
  | standbyTrialConfirm
  /-- GET_VERSION (R396). -/
  | getVersion (q : Req) (body : List Byte)
  /-- GET_CAPABILITIES (R396). -/
  | getCapabilities (q : Req) (body : List Byte)
  /-- NEGOTIATE_ALGORITHMS (R396). -/
  | negotiateAlgorithms (q : Req) (body : List Byte)
  /-- GET_DIGESTS (R396). -/
  | getDigests (q : Req) (body : List Byte)
  /-- GET_CERTIFICATE (R396). -/
  | getCertificate (q : Req) (body : List Byte)
  /-- CHALLENGE (R396). -/
  | challenge (q : Req) (body : List Byte)
  /-- GET_MEASUREMENTS (R397). -/
  | getMeasurements (q : Req) (body : List Byte)
  /-- FAULT_READ (R455). -/
  | faultRead (q : Req) (body : List Byte)
  /-- FAULT_ACK (R459). -/
  | faultAck (q : Req) (body : List Byte)
  /-- LOG_READ (R416). -/
  | logRead (q : Req) (body : List Byte)
  /-- SERVICE_OPEN (R358). -/
  | serviceOpen (svc : Nat)
  /-- COMPARTMENT_FAULT (R371). -/
  | compartmentFault (guard index owns : Nat)
  /-- COMPARTMENT_WATCHDOG_EXPIRY (R371). -/
  | compartmentWatchdogExpiry (guard index owns : Nat)
  /-- GUARD_WATCHDOG_EXPIRY (R373). -/
  | guardWatchdogExpiry (guard : Nat)
  /-- GUARD_KERNEL_FAULT (R373). -/
  | guardKernelFault (guard : Nat)
  /-- SCTL_WATCHDOG_EXPIRY (R373). -/
  | sctlWatchdogExpiry
  /-- PSEQ_LOAD_GO (R401). -/
  | pseqLoadGo (value : W64)
  /-- PEAL_LOAD_COMPLETE (R401). -/
  | pealLoadComplete
  /-- PEAL_UPPER_RUN_START (R409). -/
  | pealUpperRunStart
  /-- END (R403). -/
  | pealEnd
  /-- EN (R403). -/
  | pealEn
  /-- DIS (R403). -/
  | pealDis
  /-- WAIT (R403). -/
  | pealWait
  /-- CHK (R403). -/
  | pealChk
  /-- JMP (R403). -/
  | pealJmp
  /-- JFAIL (R403). -/
  | pealJfail
  /-- STAGGER (R403). -/
  | pealStagger
  /-- PEAL_STEP_TIMEOUT (R404). -/
  | pealStepTimeout (chatter : List (Nat × Nat))
  /-- PEAL_WAIT_EXPIRY (R403). -/
  | pealWaitExpiry
  /-- POWER_GOOD_QUALIFIED (R406). -/
  | powerGoodQualified (slot chatter : Nat) (bad : List Nat)
  /-- PEAL_RAIL_FAULT (R407). -/
  | pealRailFault (slot : Nat)
  /-- DISCHARGE_DONE (R412). -/
  | dischargeDone (slot mv : Nat)
  /-- DISCHARGE_TIMEOUT (R412). -/
  | dischargeTimeout
  /-- RETRY_WAIT_EXPIRY (R410). -/
  | retryWaitExpiry
  /-- ATTEMPT_COUNT_RESET (R410). -/
  | attemptCountReset
  /-- HUB_CAP_PERIOD (R420). -/
  | hubCapPeriod (core : Nat) (share : List Nat) (cycles : Nat)
  /-- TRAY_SCAN (R427). -/
  | trayScan (pin core : Nat) (slots : List (Nat × Nat))
  /-- OP_EVALUATION (R422). -/
  | opEvaluation
  /-- OP_STEP_COMPLETE (R423). -/
  | opStepComplete
  /-- DROOP_DETECT (R425). -/
  | droopDetect (detectors stretched : Nat)
  /-- SLOPE_REQUEST (R429). -/
  | slopeRequest (n phase : Nat)
  /-- TEMP_SWEEP (R431). -/
  | tempSweep (rakes : List Nat)
  /-- RAIL_STATUS_POLL (R431). -/
  | railStatusPoll (slot status mv : Nat)
  /-- LEAK_SAMPLE (R442). -/
  | leakSample (input mv : Nat)
  /-- EMERGENCY_CLEAR (R431). -/
  | emergencyClear (code : Nat)
  /-- AGEING_TRIM (R434). -/
  | ageingTrim (slack : Int) (below : Bool)
  /-- COOLING_UPDATE (R438). -/
  | coolingUpdate
  /-- FAN_PULSE_SEEN (R439). -/
  | fanPulseSeen (k period : Nat) (steady : Bool)
  /-- FAN_SPINUP_TIMEOUT (R439). -/
  | fanSpinupTimeout (k : Nat)
  /-- FAN_STALL_DETECT (R439). -/
  | fanStallDetect (k : Nat)
  /-- FAN_KICK_START (R440). -/
  | fanKickStart (k : Nat)
  /-- FAN_KICK_END (R440). -/
  | fanKickEnd (k : Nat)
  /-- FLOW_OK_LOW (R442). -/
  | flowOkLow
  /-- TRIP_CLEAR (R442). -/
  | tripClear (which : Nat)
  /-- FAULT_MESSAGE (R450). -/
  | faultMessage (source kind cls addr : Nat)
  /-- BLOCK_RESET (R460). -/
  | blockReset (source : Nat)
  /-- DOMAIN_QUIET_EXPIRY (R463). -/
  | domainQuietExpiry (domain : Nat)
  /-- FLT_ACK (R459). -/
  | fltAck (value : W64)
  /-- FLT_QPOP_HI (R455). -/
  | fltQpopHi
  /-- FLT_GFIFO_HI (R460). -/
  | fltGfifoHi (guard : Nat)
  /-- BIST_SLICE_START (R466). -/
  | bistSliceStart
  /-- BIST_BUDGET_EXPIRY (R471). -/
  | bistBudgetExpiry
  /-- BIST_SLICE_END (R473): the unit's responses to the patterns applied, and the signatures of the march test's two passes (R469). -/
  | bistSliceEnd (responses : List W64) (reading verifying : W64)
  /-- BIST_REQ_GO (R470). -/
  | bistReqGo (slice : Nat)
  /-- PARTNER_RESET_RELEASE (R485). -/
  | partnerResetRelease (n : Nat)
  /-- SIDE_CTL_HOLD (R485). -/
  | sideCtlHold (n : Nat)
  /-- SIDE_CTL_PULSE (R485). -/
  | sideCtlPulse (n : Nat)
  /-- ACC_FAULT_ASSERT (R486). -/
  | accFaultAssert (n : Nat) (low : Bool)
  /-- I3C_ADDRESS_ASSIGN (R490). -/
  | i3cAddressAssign (n : Nat) (taken : Bool)
  /-- HOT_JOIN (R490). -/
  | hotJoin (n : Nat)
  /-- PARTNER_WATCH_POLL (R492). -/
  | partnerWatchPoll (n temp : Nat) (fw : Option (Nat × Nat × Nat))
  /-- SIDE_NORESP (R492). -/
  | sideNoresp (n : Nat)
  /-- FAILED_FLIT (R289). -/
  | failedFlit (port : Nat) (fault : FlitFault) (kinds : List Nat)
  /-- FEC_RATE_SECOND (R309). -/
  | fecRateSecond (port symbols : Nat)
  /-- RAIL_LOST_DOWN (R411). -/
  | railLostDown (slot : Nat)
  /-- EMB_APPLY_COMPLETE (R222). -/
  | embApplyComplete (table : Nat)
  /-- RESTORE_COMPLETE (R247). -/
  | restoreComplete
  /-- UNKNOWN_CODE (R357). -/
  | unknownCode (q : Req) (code : Nat) (body : List Byte)
  /-- UNSUPPORTED_REQUEST (R396). -/
  | unsupportedRequest (q : Req) (body : List Byte)
  deriving DecidableEq, Repr

end Sys2Proof
end

