-- ==== Sys2Proof/Config.lean ====
section
/-! DEFINITION. What no rule of the spec fixes: free values, and the cryptographic functions that the spec names by their
standards and the model leaves uninterpreted. No value here has a body, so no proof can see it; what is fixed is the length of a
byte string. -/

namespace Sys2Proof

/-- Free values in the order in which the machine takes them: `State.free` numbers them. -/
opaque Config.freeValue : Nat → W64

/-- The `n` bytes of a value. -/
def Config.bytes (n : Nat) (v : BitVec (8 * n)) : List Byte := (List.range n).map fun i => v.extractLsb' (8 * i) 8

/-- SHA-512 (R29, R393): the 64-byte digest of a byte string. -/
opaque Config.digest : List Byte → BitVec 512
def Config.sha512 (l : List Byte) : List Byte := Config.bytes 64 (Config.digest l)

/-- Ed25519 verification (RFC 8032; R29): key, message, signature. -/
opaque Config.edVerify : List Byte → List Byte → List Byte → Bool

/-- Ed25519 signature with the hub's identity key (R393, R396). -/
opaque Config.signature : List Byte → BitVec 512
def Config.edSign (l : List Byte) : List Byte := Config.bytes 64 (Config.signature l)

/-- The device identity public key derived from the PUF seed (R392). -/
opaque Config.identity : BitVec 256
def Config.identityKey : List Byte := Config.bytes 32 Config.identity

/-- Osonmar's vendor public key in mask ROM (R382). -/
opaque Config.vendor : BitVec 256
def Config.vendorKey : List Byte := Config.bytes 32 Config.vendor

/-- The digest of mask ROM that the measurements report (R397). -/
opaque Config.romHash : BitVec 512
def Config.romDigest : List Byte := Config.bytes 64 Config.romHash

/-- The hub's certificate chain of slot 0 (R396). -/
opaque Config.certChain : List Byte

/-- The random 32 bytes of the n-th SPDM response or enrolment challenge. -/
opaque Config.random : Nat → BitVec 256
def Config.nonce (n : Nat) : List Byte := Config.bytes 32 (Config.random n)

/-- The fixed order of the module's rails (R399): the place of each MOD slot. -/
opaque Config.modulePlace : Nat → Nat

/-- What a port's scrambler holds when the port enters ALIGN, of the n-th free value (R272, log 104). -/
opaque Config.scrambler : Nat → BitVec 58

/-- BIST_EXPECTk as the guard firmware image ships it (R473). -/
opaque Config.bistExpect : Nat → W64

/-- ETH_STATUS.FEC_UNCORR of a port, and SIDE_SUPPLY.VSTBY_MV, when read after so many beats (log 98). -/
opaque Config.ethUncorr (port beats : Nat) : BitVec 32
opaque Config.vstbyMv (beats : Nat) : BitVec 16

/-- The images that a factory-fresh module holds in slot A, per kind (log 3). -/
opaque Config.factoryImage : Nat → List Byte

/-- The launch block of the persistent service kernel of a train, which the service firmware brings (R83). -/
opaque Config.serviceLaunch (train : Nat) : BitVec 512
def Config.serviceBlock (train : Nat) : List Byte := Config.bytes 64 (Config.serviceLaunch train)

/-- Where the launch unit puts a code image in a rake's yard (R87), counted in 64-byte blocks. -/
opaque Config.codePlace (rake : Nat) : Nat

/-- Compartments that guard g's manifest declares (CFG_GUARD.COMPARTMENTS). -/
opaque Config.compartments : Nat → Nat

/-- What stands behind the NOMINAL_MV of a slot under the built-in power program. -/
opaque Config.moduleNominal : Nat → Nat

/-- NOMINAL_MV of a slot under the built-in power program, 300 to 60,000 mV (Table 14.3, R402): the spec fixes no value
(log 141). -/
def Config.builtinMv (slot : Nat) : Nat := 300 + Config.moduleNominal slot % 59701

end Sys2Proof
end

