-- ==== Sys2Proof/Machine/StateConsist.lean ====
section
/-! DEFINITION. Chapter 02: the merged Consist image as the hub holds it (Tables 2.3 to 2.13), and the record of a
load or an apply in progress. -/

namespace Sys2Proof.Machine

/-- Table 2.3. -/
structure Topology where
  aPresent   : BitVec 8
  pPresent   : BitVec 8
  ethRole    : BitVec 8
  minWidth   : List Nat
  pNeighbour : List W64
  i3cAddr    : List Nat
  hubIndex   : Nat
  hubCount   : Nat
  deriving DecidableEq, Repr

/-- Table 2.4: one train. SERVICE: 1 collective, 2 state service, 3 snapshot, 4 general kernels. -/
structure Train where
  rakes   : BitVec 16
  service : Nat
  deriving DecidableEq, Repr

/-- Table 2.5. -/
structure Exclusion where
  coachMask : BitVec 512
  rakeOut   : BitVec 16
  deriving DecidableEq, Repr

/-- Table 2.6: one region; `base` and `size` in 2 MiB units. -/
structure Region where
  base       : Nat
  size       : Nat
  secure     : Bool
  owner      : Nat
  access     : BitVec 8
  snapArea   : Bool
  rakeLocal  : Bool
  rake       : Nat
  deriving DecidableEq, Repr

/-- Table 2.7. -/
structure Worlds where
  blockSecure : BitVec 16
  portSecure  : BitVec 16
  trainSecure : BitVec 8
  guardSecure : BitVec 8
  deriving DecidableEq, Repr

/-- Table 2.8. -/
structure PowerLimits where
  hubMin     : Nat
  hubMax     : Nat
  hubDefault : Nat
  slopeBudget : Nat
  trayMax    : Nat
  trayDefault : Nat
  slopeShare : List Nat
  deriving DecidableEq, Repr

/-- Table 2.9; `digest` is PEAL_DIGEST as 32 bytes. -/
structure PealRef where
  digest      : List Byte
  retries     : Nat
  dischargeMs : Nat
  staggerMs   : Nat
  deriving DecidableEq, Repr

/-- Table 2.10: one cooling output, as the three register words and SKIP edges it sets. -/
structure CoolOut where
  role    : Nat
  driver  : Nat
  minDuty : Nat
  spinup  : Nat
  curve   : List (Nat × Nat)
  skip    : List (Nat × Nat)
  deriving DecidableEq, Repr

/-- Table 2.10. -/
structure Cooling where
  outs   : List CoolOut
  leakMv : List Nat
  deriving DecidableEq, Repr

/-- Table 2.11, merged: QUIET and the explicit entries (source, REACT); sources without an entry take the preset's
(R461). -/
structure Reactions where
  quiet   : Nat
  entries : List (Nat × BitVec 16)
  deriving DecidableEq, Repr

/-- Table 2.13. -/
structure DrumCfg where
  g4cMode    : Bool
  ptpDomain  : Nat
  beatSync   : BitVec 8
  lateTol    : Nat
  bucketMj   : Nat
  refill     : Nat
  deriving DecidableEq, Repr

/-- The merged image: every section, present or from the preset (R31). `regionsGiven` is false when the regions
section is absent and R37 gives the one region. -/
structure Consist where
  preset       : Nat
  topology     : Topology
  trains       : List Train
  exclusion    : Exclusion
  regionsGiven : Bool
  regions      : List Region
  worlds       : Worlds
  limits       : PowerLimits
  peal         : PealRef
  cooling      : Cooling
  reactions    : Reactions
  drum         : DrumCfg
  deriving DecidableEq, Repr

/-- Table 2.1 and the bytes of one flash slot (R25, R29). -/
abbrev Image := List Byte

/-- R42: the one load the hub holds: the role that holds it (1 host, 2 rack manager, 3 G5 firmware), the checked image. -/
structure ConsistLoad where
  role  : Nat
  image : Image
  deriving DecidableEq, Repr

/-- R46, R47: an apply in progress. `role` 0 is G5's own apply of R27 and R348. `slotB` names the slot of the image being applied. -/
structure ConsistApply where
  role        : Nat
  betweenJobs : Bool
  boot        : Bool
  fallback    : Bool
  slotB       : Bool
  image       : Image
  merged      : Consist
  exclCoach   : BitVec 512
  exclRake    : BitVec 16
  structureDone : Bool
  beatDone    : Bool
  applyBeat   : Nat
  was         : Nat          -- CFG_CONSIST_STATE.STATE before it (R376)
  clamps      : List (Nat × Nat × Nat × Nat)
  deriving DecidableEq, Repr

end Sys2Proof.Machine
end

