-- ==== Sys2Proof/Machine/Numbers.lean ====
section
/-! DEFINITION. Chapter 05: element formats, exact values, rounding, MX scales, the rounding generator.
Exact values are a sign, a natural mantissa and an integer exponent; a result is formed exactly and rounded
once (R143). -/

namespace Sys2Proof.Machine

/-- The element formats of Table 4.3 with the values of Table 5.1 (R137). -/
inductive Fmt where
  | fp32 | bf16 | fp16 | e4m3 | e5m2 | mxE4m3 | mxE5m2 | mxE3m2 | mxE2m3 | mxE2m1 | int8 | int32
  deriving DecidableEq, Repr

/-- Table 4.3: the format of an FMT code; codes 0xC to 0xF are not used. -/
def fmtOfCode (n : Nat) : Option Fmt :=
  match n with
  | 0 => some .fp32 | 1 => some .bf16 | 2 => some .fp16 | 3 => some .e4m3 | 4 => some .e5m2
  | 5 => some .mxE4m3 | 6 => some .mxE5m2 | 7 => some .mxE3m2 | 8 => some .mxE2m3 | 9 => some .mxE2m1
  | 10 => some .int8 | 11 => some .int32 | _ => none

/-- Table 4.3: bits one element takes in a register and in memory. -/
def fmtWidth (f : Fmt) : Nat :=
  match f with
  | .fp32 | .int32 => 32
  | .bf16 | .fp16 => 16
  | .mxE2m1 => 4
  | _ => 8

/-- Table 4.3: elements per V register. -/
def fmtCount (f : Fmt) : Nat := 2048 / fmtWidth f

/-- Table 4.3: X registers per exact accumulate. -/
def fmtXRegs (f : Fmt) : Nat := fmtCount f / 64

/-- R101: the formats whose elements share one scale per block of 32. -/
def fmtIsMx (f : Fmt) : Bool :=
  match f with
  | .mxE4m3 | .mxE5m2 | .mxE3m2 | .mxE2m3 | .mxE2m1 => true
  | _ => false

/-- INT8 and INT32. -/
def fmtIsInt (f : Fmt) : Bool :=
  match f with
  | .int8 | .int32 => true
  | _ => false

/-- Table 5.1: exponent bits E, mantissa bits M, bias, of a floating-point element format. -/
def fmtParams (f : Fmt) : Nat × Nat × Nat :=
  match f with
  | .fp32 => (8, 23, 127)
  | .bf16 => (8, 7, 127)
  | .fp16 => (5, 10, 15)
  | .e4m3 | .mxE4m3 => (4, 3, 7)
  | .e5m2 | .mxE5m2 => (5, 2, 15)
  | .mxE3m2 => (3, 2, 3)
  | .mxE2m3 => (2, 3, 1)
  | .mxE2m1 => (2, 1, 1)
  | .int8 => (0, 7, 0)
  | .int32 => (0, 31, 0)

/-- Table 5.1: the encoding of the largest finite magnitude. -/
def fmtMaxBits (f : Fmt) : Nat :=
  match f with
  | .fp32 => 0x7F7FFFFF
  | .bf16 => 0x7F7F
  | .fp16 => 0x7BFF
  | .e4m3 | .mxE4m3 => 0x7E
  | .e5m2 | .mxE5m2 => 0x7B
  | .mxE3m2 => 0x1F
  | .mxE2m3 => 0x1F
  | .mxE2m1 => 0x7
  | .int8 => 0x7F
  | .int32 => 0x7FFFFFFF

/-- Table 5.1: the canonical NaN (R140); 0 for a format without one (Table 5.4, Table 5.7). -/
def fmtNaN (f : Fmt) : Nat :=
  match f with
  | .fp32 => 0x7FC00000
  | .bf16 => 0x7FC0
  | .fp16 => 0x7E00
  | .e4m3 | .mxE4m3 => 0x7F
  | .e5m2 | .mxE5m2 => 0x7E
  | _ => 0

/-- Table 5.1: the encoding of plus infinity, where the format has one. -/
def fmtInf (f : Fmt) : Option Nat :=
  match f with
  | .fp32 => some 0x7F800000
  | .bf16 => some 0x7F80
  | .fp16 => some 0x7C00
  | .e5m2 | .mxE5m2 => some 0x7C
  | _ => none

/-- Bits of the magnitude field: everything below the sign bit. -/
def fmtMagBits (f : Fmt) : Nat := (fmtParams f).1 + (fmtParams f).2.1

/-- The value of an encoding: a NaN, an infinity with its sign, or `(-1)^neg * m * 2^e` (R138). -/
inductive Num where
  | nan
  | inf (neg : Bool)
  | fin (neg : Bool) (m : Nat) (e : Int)
  deriving DecidableEq, Repr

/-- R138, R139: the value of encoding `b` of format `f`, before any MX scale. -/
def numDecode (f : Fmt) (b : Nat) : Num :=
  if fmtIsInt f then
    let w := fmtWidth f
    let v := b % 2 ^ w
    if v < 2 ^ (w - 1) then .fin false v 0 else .fin true (2 ^ w - v) 0
  else
    let (eb, mb, bias) := fmtParams f
    let m := b % 2 ^ mb
    let e := b / 2 ^ mb % 2 ^ eb
    let neg := b / 2 ^ (eb + mb) % 2 == 1
    let mag := b % 2 ^ (eb + mb)
    match fmtInf f with
    | some i =>
      if mag = i then .inf neg
      else if mag > i then .nan
      else if e = 0 then .fin neg m (1 - bias - mb)
      else .fin neg (2 ^ mb + m) ((e : Int) - bias - mb)
    | none =>
      if (f = .e4m3 ∨ f = .mxE4m3) ∧ mag = 0x7F then .nan
      else if e = 0 then .fin neg m (1 - bias - mb)
      else .fin neg (2 ^ mb + m) ((e : Int) - bias - mb)

/-- R142: the value of an MX element under E8M0 scale field `x`; a finite or infinite element of a block with
scale 0xFF is NaN. -/
def numScale (x : Nat) (v : Num) : Num :=
  if x = 0xFF then .nan
  else match v with
    | .nan => .nan
    | .inf n => .inf n
    | .fin n m e => .fin n m (e + (x : Int) - 127)

/-- RM of R102: nearest even, toward zero, stochastic. -/
inductive RMode where
  | rne | rtz | sr
  deriving DecidableEq, Repr

/-- Number of bits of a natural number: 0 for 0. -/
def bitLen (n : Nat) : Nat := if n = 0 then 0 else n.log2 + 1

/-- R144, R145: `⌊m * 2^-sh⌋` or the next integer, chosen by mode; `stk` says that the exact value lies strictly
between `m` and `m + 1`, `r` is the generator output of the element's key. -/
def roundShift (rm : RMode) (r m sh : Nat) (stk : Bool) : Nat :=
  let lo := m / 2 ^ sh
  let rem := m % 2 ^ sh
  if rem = 0 ∧ stk = false then lo
  else match rm with
    | .rtz => lo
    | .rne =>
      let twice := 2 * rem
      if twice > 2 ^ sh ∨ (twice = 2 ^ sh ∧ (stk ∨ lo % 2 = 1)) then lo + 1 else lo
    | .sr => if rem * 2 ^ 32 / 2 ^ sh + r ≥ 2 ^ 32 then lo + 1 else lo

/-- The magnitude part of R144 for quantum exponent `q`: `|v|` as a multiple of `2^q`. -/
def roundAt (rm : RMode) (r m : Nat) (e q : Int) (stk : Bool) : Nat :=
  if q ≤ e then m * 2 ^ (e - q).toNat else roundShift rm r m (q - e).toNat stk

/-- Table 5.3 for a floating-point destination: the encoding of a magnitude above the largest finite value. -/
def overflowBits (f : Fmt) (rm : RMode) (sat neg : Bool) : Nat :=
  let sgn := if neg then 2 ^ fmtMagBits f else 0
  if sat ∨ fmtIsMx f ∨ rm = .rtz then sgn + fmtMaxBits f
  else match fmtInf f with
    | some i => sgn + i
    | none => fmtNaN f

/-- R144 to R148, R152: a finite value rounded once into a format. -/
def roundFin (f : Fmt) (rm : RMode) (sat : Bool) (r : Nat) (neg : Bool) (m : Nat) (e : Int) (stk : Bool) : Nat :=
  if fmtIsInt f then
    let n := roundAt rm r m e 0 stk
    let w := fmtWidth f
    if neg then (if n ≥ 2 ^ (w - 1) then 2 ^ (w - 1) else (2 ^ w - n) % 2 ^ w)
    else (if n ≥ 2 ^ (w - 1) then 2 ^ (w - 1) - 1 else n)
  else
    let (eb, mb, bias) := fmtParams f
    let sgn := if neg then 2 ^ (eb + mb) else 0
    if m = 0 ∧ stk = false then sgn
    else
      let qmin : Int := 1 - (bias : Int) - mb
      let top : Int := e + (bitLen m : Int) - 1
      let q : Int := max (top - mb) qmin
      let n := roundAt rm r m e q stk
      let mag := (q - qmin).toNat * 2 ^ mb + n
      if mag > fmtMaxBits f then overflowBits f rm sat neg else sgn + mag

/-- Table 5.4 and R140: a value rounded once into a non-MX destination. -/
def roundNum (f : Fmt) (rm : RMode) (sat : Bool) (r : Nat) (v : Num) : Nat :=
  match v with
  | .nan => fmtNaN f
  | .inf neg =>
    if fmtIsInt f then (if neg then 2 ^ (fmtWidth f - 1) else 2 ^ (fmtWidth f - 1) - 1)
    else
      let sgn := if neg then 2 ^ fmtMagBits f else 0
      if sat then sgn + fmtMaxBits f
      else match fmtInf f with
        | some i => sgn + i
        | none => fmtNaN f
  | .fin neg m e => roundFin f rm sat r neg m e false

/-- R149: an arithmetic result rounded once. SAT acts on results that are out of range (R102, R148); an infinity that
the operation itself gives stays an infinity. DEDUCED: log 21. -/
def roundArith (f : Fmt) (rm : RMode) (sat : Bool) (r : Nat) (v : Num) : Nat :=
  match v with
  | .inf neg => roundNum f rm false r (.inf neg)
  | _ => roundNum f rm sat r v

/-- The signed integer of a finite value in units of `2^q`, for `q` at most its exponent. -/
def scaledInt (neg : Bool) (m : Nat) (e q : Int) : Int :=
  let n : Int := m * 2 ^ (e - q).toNat
  if neg then -n else n

/-- R149: the exact sum of two values; an exact zero sum is +0 unless both terms are −0. -/
def numAdd (a b : Num) : Num :=
  match a, b with
  | .nan, _ => .nan
  | _, .nan => .nan
  | .inf x, .inf y => if x = y then .inf x else .nan
  | .inf x, _ => .inf x
  | _, .inf y => .inf y
  | .fin x m e, .fin y n g =>
    let q := min e g
    let z := scaledInt x m e q + scaledInt y n g q
    if z = 0 then .fin (x && y && decide (m = 0) && decide (n = 0)) 0 q
    else .fin (decide (z < 0)) z.natAbs q

/-- The value with its sign inverted. -/
def numNeg (a : Num) : Num :=
  match a with
  | .nan => .nan
  | .inf x => .inf (!x)
  | .fin x m e => .fin (!x) m e

/-- R149: the exact product; 0 × ∞ is invalid. -/
def numMul (a b : Num) : Num :=
  match a, b with
  | .nan, _ => .nan
  | _, .nan => .nan
  | .inf x, .inf y => .inf (x ^^ y)
  | .inf x, .fin y n _ => if n = 0 then .nan else .inf (x ^^ y)
  | .fin x m _, .inf y => if m = 0 then .nan else .inf (x ^^ y)
  | .fin x m e, .fin y n g => .fin (x ^^ y) (m * n) (e + g)

/-- R149: the quotient rounded once. 0 ÷ 0 and ∞ ÷ ∞ are invalid; a finite non-zero number divided by zero is
infinite. -/
def divRound (f : Fmt) (rm : RMode) (sat : Bool) (r : Nat) (a b : Num) : Nat :=
  match a, b with
  | .nan, _ => fmtNaN f
  | _, .nan => fmtNaN f
  | .inf _, .inf _ => fmtNaN f
  | .inf x, .fin y _ _ => roundArith f rm sat r (.inf (x ^^ y))
  | .fin x _ _, .inf y => roundNum f rm sat r (.fin (x ^^ y) 0 0)
  | .fin x m e, .fin y n g =>
    if n = 0 then (if m = 0 then fmtNaN f else roundArith f rm sat r (.inf (x ^^ y)))
    else
      let k := 128 + bitLen n
      let num := m * 2 ^ k
      roundFin f rm sat r (x ^^ y) (num / n) (e - g - k) (decide (num % n ≠ 0))

/-- The integer square root by bisection on the bits, highest first: `fuel` bits remain to be tried. -/
def isqrtBits (n : Nat) : Nat → Nat → Nat
  | 0, acc => acc
  | fuel + 1, acc =>
    let t := acc + 2 ^ fuel
    isqrtBits n fuel (if t * t ≤ n then t else acc)

/-- `⌊√n⌋`. -/
def isqrt (n : Nat) : Nat := isqrtBits n (bitLen n / 2 + 1) 0

/-- R149: the square root rounded once. √−0 is −0; a number below zero is invalid. -/
def sqrtRound (f : Fmt) (rm : RMode) (sat : Bool) (r : Nat) (a : Num) : Nat :=
  match a with
  | .nan => fmtNaN f
  | .inf x => if x then fmtNaN f else roundArith f rm sat r (.inf false)
  | .fin x m e =>
    if m = 0 then roundFin f rm sat r x 0 0 false
    else if x then fmtNaN f
    else
      -- an even exponent, with 128 further bits of root below it
      let odd : Nat := (e % 2).toNat
      let mm := m * 2 ^ (odd + 256)
      let root := isqrt mm
      roundFin f rm sat r false root ((e - odd) / 2 - 128) (decide (root * root ≠ mm))

/-- Order of two values that are not NaN, −0 and +0 equal: negative, zero or positive as a <, =, > b (R150). -/
def numCmp (a b : Num) : Int :=
  match a, b with
  | .inf x, .inf y => if x = y then 0 else if x then -1 else 1
  | .inf x, _ => if x then -1 else 1
  | _, .inf y => if y then 1 else -1
  | .fin x m e, .fin y n g =>
    let q := min e g
    scaledInt x m e q - scaledInt y n g q
  | _, _ => 0

/-- The value is −0 or below zero. -/
def numIsNeg (a : Num) : Bool :=
  match a with
  | .nan => false
  | .inf x => x
  | .fin x _ _ => x

/-- R150: whether `a` comes first in the order of VMIN and VMAX, with −0 below +0. -/
def numLeSigned (a b : Num) : Bool :=
  let c := numCmp a b
  if c = 0 then numIsNeg a || !numIsNeg b else decide (c < 0)

/-- R150: VMIN (`mx = false`) and VMAX on encodings; `num` selects the number-preferring form. -/
def minMaxBits (f : Fmt) (mx num : Bool) (a b : Nat) : Nat :=
  let va := numDecode f a
  let vb := numDecode f b
  if va = .nan then (if num ∧ vb ≠ .nan then b else fmtNaN f)
  else if vb = .nan then (if num then a else fmtNaN f)
  else if numLeSigned va vb then (if mx then b else a)
  else (if mx then a else b)

/-- R109, R150: the conditions 0 to 6 of VCMP. -/
def cmpCond (cond : Nat) (a b : Num) : Bool :=
  if a = .nan ∨ b = .nan then cond == 1 || cond == 6
  else
    let c := numCmp a b
    match cond with
    | 0 => decide (c = 0)
    | 1 => decide (c ≠ 0)
    | 2 => decide (c < 0)
    | 3 => decide (c ≤ 0)
    | 4 => decide (c > 0)
    | 5 => decide (c ≥ 0)
    | _ => false

/-- R146: the mixing function of the rounding generator. -/
def mix (x : W64) : W64 :=
  let x := x ^^^ (x >>> 32)
  let x := x * 0xB7E34A19D26C5F3B#64
  let x := x ^^^ (x >>> 29)
  let x := x * 0x8D41F6C23A97E1D5#64
  x ^^^ (x >>> 32)

/-- R146: the rounding generator's output `r` for key (seed, tag, index). -/
def roundingDraw (seed : W64) (tag : W32) (index : W64) : W32 :=
  let x := mix (seed ^^^ 0xA4C93E571B8D62F5#64)
  let x := mix (x ^^^ (tag.setWidth 64 * 0x5F31C7A9E04BD88B#64))
  let x := mix (x + index)
  let x := mix (x ^^^ 0xC2D68B137F5A09E7#64)
  (x >>> 32).setWidth 32

/-- R154: exponent of the element format's largest finite value. -/
def mxEmax (f : Fmt) : Int :=
  match f with
  | .mxE4m3 => 8
  | .mxE5m2 => 15
  | .mxE3m2 => 4
  | _ => 2

/-- `⌊log2 |v|⌋` of a finite non-zero value. -/
def numLog2 (m : Nat) (e : Int) : Int := e + (bitLen m : Int) - 1

/-- R154: whether a block holds a value that is NaN or infinite. -/
def blockSpecial (vs : List Num) : Bool :=
  vs.any fun v => match v with
    | .fin _ _ _ => false
    | _ => true

/-- R154: `⌊log2 amax⌋` of a block of finite values, none when every value is zero. -/
def blockLog2 (vs : List Num) : Option Int :=
  vs.foldl (fun acc v =>
    match v with
    | .fin _ m e =>
      if m = 0 then acc
      else match acc with
        | none => some (numLog2 m e)
        | some a => some (max a (numLog2 m e))
    | _ => acc) none

/-- R154: the E8M0 scale field of a destination block. -/
def blockScale (f : Fmt) (vs : List Num) : Nat :=
  if blockSpecial vs then 0xFF
  else match blockLog2 vs with
    | none => 0
    | some l => (max (-127) (min 127 (l - mxEmax f)) + 127).toNat

/-- R154: one element of a destination block under scale field `x`. -/
def mxEncode (f : Fmt) (rm : RMode) (r x : Nat) (v : Num) : Nat :=
  if x = 0xFF then 0
  else match v with
    | .fin neg m e => roundFin f rm true r neg m (e - ((x : Int) - 127)) false
    | _ => 0

/-- R155: bit weights of VALUE start at 2^-149: the integer of a value in those units (values below that weight do
not occur: "every finite value of every format is a multiple of 2^-149"). -/
def accUnits (neg : Bool) (m : Nat) (e : Int) : Int :=
  let n : Int := if e ≥ -149 then m * 2 ^ (e + 149).toNat else m / 2 ^ (-149 - e).toNat
  if neg then -n else n

/-- R157: magnitude of 2^138 or more, in units of 2^-149. -/
def accLimit : Int := 2 ^ 287

end Sys2Proof.Machine
end

