-- ==== Sys2Proof/Machine/StateCoach.lean ====
section
/-! DEFINITION. Chapters 03 to 05: what coaches, seats, dray engines, exact accumulators and launch units hold. -/

namespace Sys2Proof.Machine

/-- A map from numbers to values in canonical form: keys strictly rising, no entry equal to what an unlisted key reads as. -/
abbrev KMap (α : Type) := List (Nat × α)

/-- Why a seat is parked (Table 3.2). -/
inductive Park where
  | data                                  -- a register the next instruction needs is pending
  | entries (n : Nat)                     -- n free transaction entries (R65)
  | drayRoom (engine : Nat)               -- room in a dray queue (R67)
  | drayCount (engine : Nat) (n : W32)    -- DWAIT (R121)
  | beat (n : W64)                        -- BWAIT (R128)
  | xalloc                                -- XALLOC (R59)
  | fence (mask : BitVec 3) (acc desc : Nat)            -- FENCE (R79): accesses and descriptors issued before
  | barrier (scope : Nat) (acc desc : Nat)              -- BAR (R126): its fence of all classes, then the release
  deriving DecidableEq, Repr

/-- Table 3.2. -/
inductive SeatSt where
  | idle
  | ready
  | parked (why : Park)
  | halted
  deriving DecidableEq, Repr

/-- R54, R57, R86, R99, R105, R131: one seat. S registers hold a value and a poison bit, V lanes are keyed
register × 64 + lane. Unlisted registers and lanes read as zero without poison. -/
structure Seat where
  st     : SeatSt
  pc     : Nat
  sreg   : KMap (W64 × Bool)
  vlane  : KMap (W32 × Bool)
  mreg   : KMap W64
  pend   : List Nat          -- field codes (0–31 S, 32–63 V) awaiting a load or atomic (R57)
  grant  : List Nat          -- physical X registers backing X0, X1, … (R60)
  tag    : W32
  base   : W64
  bar0   : Nat               -- BARs of scope 0 and 1 arrived at (R126)
  bar1   : Nat
  lastIssue : Nat            -- R55: 0 never, else the number of the issue
  deriving DecidableEq, Repr

/-- R155: one exact-accumulator lane. -/
structure XLane where
  value : Acc320
  adds  : W32
  ovf   : Bool
  poi   : Bool
  deriving DecidableEq, Repr

/-- Table 3.5 with the marks of R69, R80: `accBound` and `descBound` number the accesses and descriptors issued before it. -/
structure DrayDesc where
  id        : Nat
  seat      : Nat
  pc        : Nat
  src       : Nat
  dst       : Nat
  length    : Nat
  rows      : Nat
  inc       : Bool
  waitPrev  : Bool
  zero      : Bool
  srcStride : Nat
  dstStride : Nat
  issued    : Nat
  accBound  : Nat
  descBound : Nat
  deriving DecidableEq, Repr

/-- R120: the atomics. -/
inductive AtomicOp where
  | add | min (unsigned : Bool) | max (unsigned : Bool) | swap | cas | read
  deriving DecidableEq, Repr

/-- One addition of XSCADD (R124): the element's exact value in units of 2^-149, or what it is instead. -/
inductive AddVal where
  | units (n : Int)
  | special          -- NaN, infinite, or 2^138 and more (R157)
  | poisoned         -- R159
  deriving DecidableEq, Repr

/-- What an access outside the seat's own coach memory does when it is performed. -/
inductive AccKind where
  | load (rd width : Nat) (sx : Bool) (addr : Nat)
  | vload (rd : Nat) (mask : W64) (addr : Nat)
  | gather (rd : Nat) (lanes : List (Nat × Nat))
  | xload (lanes : List Nat) (addr : Nat)
  | store (bytes : List (Nat × Byte)) (poisoned : List Nat)
  | atomic (op : AtomicOp) (rd width addr : Nat) (arg cmp : W64) (poison : Bool)
  | scadd (adds : List (Nat × AddVal)) (told : Bool)     -- `told`: its XACC_OVERFLOW has been raised (R158)
  | dray (engine : Nat) (desc : DrayDesc) (k : Nat)      -- transaction `k` of a descriptor (R67)
  deriving DecidableEq, Repr

/-- R64: an access in the transaction table: the 64-byte blocks not yet performed and the data already returned. -/
structure Access where
  id     : Nat
  seat   : Nat
  pc     : Nat
  kind   : AccKind
  blocks : List Nat
  got    : KMap (List Byte × Bool)
  deriving DecidableEq, Repr

/-- R130: an entry that RPUSH has placed and whose slot write waits for what the seat did before (R80). -/
structure RingPush where
  seat : Nat
  ring : Nat
  entry : List Byte
  accBound : Nat
  descBound : Nat
  deriving DecidableEq, Repr

/-- COACH_STATUS.STATE. -/
inductive CoachCond where
  | excluded | idle | loading | running | drained | stopped
  deriving DecidableEq, Repr

/-- R54, R59, R64, R67, R69: what the seats of one coach share. X lanes are keyed register × 64 + lane. -/
structure Coach where
  cond   : CoachCond
  cause  : Nat
  seat   : Nat
  xlane  : KMap XLane
  xowner : KMap Nat                -- physical X register → seat that holds it
  xwait  : List (Nat × Nat)        -- XALLOC requests not granted, oldest first: seat, count
  acc    : List Access
  q0     : List DrayDesc
  q1     : List DrayDesc
  dc0    : W32
  dc1    : W32
  deriving DecidableEq, Repr

/-- Who a kernel's completion is reported to (R83, R88). -/
inductive LaunchSrc where
  | ring (r : Nat) (seq : Nat)
  | partnerRing (port k seq : Nat)
  | seat (n : Nat)
  | service (table : Nat)
  | firmware                -- the service firmware at job start (R83)
  deriving DecidableEq, Repr

/-- R83, Table 3.8: a launch block as its 64 bytes. -/
structure Launch where
  raw : List Byte
  src : LaunchSrc
  deriving DecidableEq, Repr

/-- Table 3.9 and R88: the phases of a kernel. -/
inductive KPhase where
  | loading
  | waiting (b : W64)     -- code loaded at beat b, seats idle until the start edge (R264) or the bucket (R267)
  | running
  | stopping              -- no seat issues; completion follows (R88, R89)
  deriving DecidableEq, Repr

/-- The running kernel of a train (R84 to R90, Table 3.10). -/
structure Kernel where
  launch    : Launch
  coaches   : List Nat
  phase     : KPhase
  startAt   : W64
  startBeat : W64
  status    : Nat
  cause     : Nat
  seat      : Nat
  faulted   : List Nat     -- seats that took an exception
  image     : List Byte    -- the code image as read at step 1 of Table 3.9
  pc        : Nat
  est       : Nat
  late      : Nat          -- lateness in beats when it starts late (R264)
  deriving DecidableEq, Repr

/-- One launch unit (R83). `service` is the launch block of the persistent service kernel that runs on the train. -/
structure TrainUnit where
  queue    : List Launch
  kernel   : Option Kernel
  service  : Option Launch
  launches : W32
  txnBeats : W32
  drayBeats : W32
  deriving DecidableEq, Repr

/-- All coaches, keyed by coach number and by hub-wide seat number (coach × 16 + seat). -/
structure Coaches where
  coach   : KMap Coach
  seat    : KMap Seat
  train   : KMap TrainUnit
  nextAcc : Nat
  nextDesc : Nat
  issues  : Nat
  pushes  : List RingPush    -- oldest first
  g4cQueue : List Nat        -- trains with a ready launch, in the order they became ready (R267)
  deriving DecidableEq, Repr

/-- A seat outside any kernel (Table 3.2 idle); its registers are zero. -/
def Seat.init : Seat :=
  { st := .idle, pc := 0, sreg := [], vlane := [], mreg := [], pend := [], grant := [], tag := 0, base := 0,
    bar0 := 0, bar1 := 0, lastIssue := 0 }

/-- R155: a lane just granted or zeroed. -/
def XLane.zero : XLane := { value := 0, adds := 0, ovf := false, poi := false }

/-- A coach after reset: excluded until a Consist is applied (COACH_EXCL, COACH_STATUS). -/
def Coach.init : Coach :=
  { cond := .excluded, cause := 0, seat := 0, xlane := [], xowner := [], xwait := [], acc := [], q0 := [], q1 := [],
    dc0 := 0, dc1 := 0 }

/-- A launch unit after reset. -/
def TrainUnit.init : TrainUnit := { queue := [], kernel := none, service := none, launches := 0, txnBeats := 0, drayBeats := 0 }

/-- All coaches after reset. -/
def Coaches.init : Coaches :=
  { coach := [], seat := [], train := [], nextAcc := 0, nextDesc := 0, issues := 0, pushes := [], g4cQueue := [] }

end Sys2Proof.Machine
end

