-- ==== Sys2Proof/Machine/StateTray.lean ====
section
/-! DEFINITION. Chapters 09, 11 and 16: what the Drum, the memory controllers, the Belfry and the BIST controller hold
beyond their registers; the main and standby domains; what the hub has sent. -/

namespace Sys2Proof.Machine

/-- R446: a fault message. CLASS: 1 C, 2 U, 3 F. -/
structure FaultMsg where
  seq    : Nat
  beat   : Nat
  addr   : Nat
  cls    : Nat
  kind   : Nat
  source : Nat
  deriving DecidableEq, Repr

/-- R14, R478, R460: condition of a power domain. -/
inductive DomCond where
  | off        -- unpowered, or in power-on reset for the standby domain
  | inReset    -- held in reset
  | up
  deriving DecidableEq, Repr

/-- R258: what the hub keeps of the beat-sync flits of one P port. -/
structure SyncRec where
  txSeq   : Nat
  rxSeq   : Nat
  rxCount : W64
  rxPhase : Nat
  depth   : Nat          -- DEPTH of the last flit received
  sent    : KMap (Nat × Nat)  -- departure of each flit sent, per SEQ: count and steps of 625 ps
  last    : Nat          -- beats since reset at the last flit received; 0 none
  offset  : Int          -- offset the last pair of exchanges showed [ns]
  deriving DecidableEq, Repr

/-- R256: the PTP exchange in progress and the selected master. -/
structure Ptp where
  master   : Option Nat          -- identity of the selected master
  priority : Nat                 -- its rank in the best master clock comparison, lower is better
  t1       : Option Int
  t2       : Option Int
  t3       : Option Int          -- departure of the Delay_Req
  needFollowUp : Bool
  deriving DecidableEq, Repr

/-- Chapter 09. `beats` counts beat edges since the standby domain left reset and is never stepped. -/
structure Drum where
  count      : W64
  running    : Bool
  beats      : Nat
  step       : Option Int        -- offset in steps of 625 ps that the next edge corrects (R250)
  stepMark   : Bool              -- a step since the last frame marker (Table 9.1)
  aligned    : Nat               -- consecutive beats with |offset| ≤ 20 ns (Table 9.3)
  shown      : Bool              -- the source in effect has shown an offset (R259)
  ones       : Nat               -- 1s that the outputs have carried since the last frame marker (Table 9.1)
  sync0      : SyncRec
  sync1      : SyncRec
  ptp        : Ptp
  pinDly     : List Nat          -- DRUM_PIN_DLY in effect at the outputs since the last edge (R254)
  deriving DecidableEq, Repr

/-- R313, R314: what fixes where the memory of a hub address lies: the in-service rakes, and the regions, which make stripes global. -/
structure MemMap where
  rakes   : List Nat
  regions : List Region
  deriving DecidableEq, Repr

/-- Chapter 11 beyond registers: R314, R323, R325, R326, R328. -/
structure MemCtl where
  filled     : Bool                      -- MPWR fill flag
  map        : MemMap                    -- the map by which `State.mem` and `State.poison` are addressed
  scrub      : Nat                       -- the block that the scrubber's pass has come to (R323)
  savedVals  : List (Nat × Int)          -- stored with the training values: each device's identity registers and MR4 temperature [°C]
  badBlocks  : List (Nat × Nat × Nat)    -- distinct uncorrectable blocks: data raw block, channel, beats at the last find
  second     : KMap Nat                  -- corrected symbols of each channel in the running second
  stormRun   : KMap Nat                  -- consecutive seconds above 65,536 symbols, per channel
  mr4Hot     : List Nat                  -- devices whose last MR4 report was above the limit
  deriving DecidableEq, Repr

/-- Chapter 16 beyond registers. -/
structure Belfry where
  queue     : List FaultMsg
  raised    : List FaultMsg              -- found and not yet taken (R449)
  retained  : List FaultMsg              -- standby buffer while the main domain is down (R452)
  carried   : Option FaultMsg            -- the copy that a chip reset carries over (R452)
  gfifo     : KMap (List FaultMsg)
  errReact  : List (Nat × Nat)           -- ERR_N holds of reaction 0x7: source, class
  errEsc    : List Nat                   -- ERR_N holds of R458: sources
  errBoot   : Bool
  resets    : List Nat                   -- sources whose block reset waits for the job to end
  deriving DecidableEq, Repr

/-- R466 to R473: a slice in progress. -/
structure Slice where
  slice    : Nat
  set      : Nat
  start    : Nat
  saved    : Option CoachCond
  restore  : Bool
  stopped  : Bool
  deriving DecidableEq, Repr

/-- The BIST controller. -/
structure Bist where
  run     : Option Slice
  aborts  : Nat                          -- consecutive aborts of the slice due
  waits   : Nat                          -- intervals the due slice has waited
  urgent  : List Nat                     -- slices taken before the schedule's next: of degraded rakes (R463), or to take again (R473)
  askAborts : Nat                        -- consecutive aborts of the slice taken before the schedule's next
  askWaits : Nat                         -- intervals that slice has waited
  deriving DecidableEq, Repr

/-- What the hub sends to its surroundings; each entry of `State.outbox` is one of these with its numbers and bytes. -/
inductive OutKind where
  | reply          -- Carriage reply: role, request code, status, detail
  | event          -- Carriage EVENT: role, kind
  | ctlFlit        -- Coupler CTRL or unsequenced flit: port, number where sequenced, header; its 256 bytes
  | dataFlit       -- Coupler data flit: port, number, header; its 256 bytes
  | linkWord       -- Coupler link word: port, word
  | trainFrame     -- Coupler training frame: port, lane, control word; its 4,096 PAM4 levels
  | pattern        -- PRBS31Q sent in LANE_TEST: port, lane, symbols
  | line           -- PAM4 levels sent on a lane of a Coupler port: port, physical lane
  | ethFrame       -- Ethernet frame: port, purpose
  | rdma           -- RDMA operation or response: connection, kind, PSN
  | ptpFrame       -- PTP message: port, type
  | i3c            -- I3C transfer: partner, purpose
  | pmbus          -- PMBus or AVSBus transfer: slot, purpose
  | irq            -- guard interrupt (0) or non-maskable trap (1): guard
  | spdm           -- SPDM response: role, code
  | pin            -- pulse on a pin: number, value
  | ringEntry      -- completion entry posted: ring, slot
  | regError       -- access error returned to the initiator of a register access: its source address, the register (R7, R14)
  | power          -- power-down or power-up order carried out by the board
  deriving DecidableEq, Repr

/-- One thing sent. -/
structure Out where
  kind : OutKind
  args : List Nat
  data : List Byte
  deriving DecidableEq, Repr

/-- No flits yet (R258: ECHO_SEQ is 0xFFFF when none). -/
def SyncRec.init : SyncRec := { txSeq := 0, rxSeq := 0xFFFF, rxCount := 0, rxPhase := 0, depth := 0xFF, sent := [], last := 0, offset := 0 }

def Ptp.init : Ptp := { master := none, priority := 0, t1 := none, t2 := none, t3 := none, needFollowUp := false }

/-- R249: the Drum at a standby reset. -/
def Drum.init : Drum :=
  { count := 0, running := false, beats := 0, step := none, stepMark := false, aligned := 0, shown := false, ones := 0,
    sync0 := SyncRec.init, sync1 := SyncRec.init, ptp := Ptp.init, pinDly := [] }

def MemCtl.init : MemCtl :=
  { filled := false, map := { rakes := [], regions := [] }, scrub := 0, savedVals := [], badBlocks := [], second := [], stormRun := [], mr4Hot := [] }

def Belfry.init : Belfry :=
  { queue := [], raised := [], retained := [], carried := none, gfifo := [], errReact := [], errEsc := [],
    errBoot := false, resets := [] }

def Bist.init : Bist := { run := none, aborts := 0, waits := 0, urgent := [], askAborts := 0, askWaits := 0 }

end Sys2Proof.Machine
end

