-- ==== Sys2Proof/Machine/Bits.lean ====
section
/-! DEFINITION. Bit fields, little-endian bytes (R4), the canonical maps every table of the model is kept in, and Reed–Solomon codes
(R273, R319). -/

namespace Sys2Proof.Machine

/-- Bits [hi:lo] of a register value (R3). -/
def bits (v : W64) (hi lo : Nat) : Nat := v.toNat / 2 ^ lo % 2 ^ (hi + 1 - lo)

/-- The value with bits [hi:lo] replaced. -/
def setBits (v : W64) (hi lo x : Nat) : W64 :=
  BitVec.ofNat 64 (v.toNat - bits v hi lo * 2 ^ lo + x % 2 ^ (hi + 1 - lo) * 2 ^ lo)

/-- Bits [hi:lo] of a number. -/
def nbits (v hi lo : Nat) : Nat := v / 2 ^ lo % 2 ^ (hi + 1 - lo)

/-- One bit of a number. -/
def nbit (v i : Nat) : Bool := v / 2 ^ i % 2 == 1

/-- `x` limited to `top`. -/
def satTo (top x : Nat) : Nat := min top x

/-- The value that a w-bit two's complement field holds. -/
def signedOf (w x : Nat) : Int := if x % 2 ^ w < 2 ^ (w - 1) then (x % 2 ^ w : Nat) else ((x % 2 ^ w : Nat) : Int) - 2 ^ w

/-- The w-bit two's complement field of an integer, saturating. -/
def satSigned (w : Nat) (x : Int) : Nat :=
  if x ≥ 2 ^ (w - 1) then 2 ^ (w - 1) - 1
  else if x < -(2 ^ (w - 1)) then 2 ^ (w - 1)
  else if x < 0 then (x + 2 ^ w).toNat else x.toNat

/-- R4: the value of little-endian bytes. -/
def leVal : List Byte → Nat
  | [] => 0
  | b :: bs => b.toNat + 256 * leVal bs

/-- R4: n little-endian bytes of a value. -/
def leBytes : Nat → Nat → List Byte
  | 0, _ => []
  | n + 1, v => BitVec.ofNat 8 v :: leBytes n (v / 256)

/-- The field of `n` bytes at offset `off` of a byte list; bytes past its end read as zero. -/
def field (bs : List Byte) (off n : Nat) : Nat := leVal ((bs.drop off).take n)

/-- The value of key `k`, `d` when unlisted. -/
def kget {α : Type} (d : α) : KMap α → Nat → α
  | [], _ => d
  | (j, v) :: m, k => if j = k then v else kget d m k

/-- The map without key `k`. -/
def kdel {α : Type} : KMap α → Nat → KMap α
  | [], _ => []
  | (j, v) :: m, k => if j = k then kdel m k else (j, v) :: kdel m k

/-- The map with `v` at key `k`, keys kept rising. -/
def kput {α : Type} : KMap α → Nat → α → KMap α
  | [], k, v => [(k, v)]
  | (j, w) :: m, k, v =>
    if j = k then (k, v) :: m else if k < j then (k, v) :: (j, w) :: m else (j, w) :: kput m k v

/-- The map with `v` at key `k` in canonical form: nothing listed for the default. -/
def kset {α : Type} [DecidableEq α] (d : α) (m : KMap α) (k : Nat) (v : α) : KMap α :=
  if v = d then kdel m k else kput m k v

/-- Keys strictly rising and above `lo`, none with the default value. -/
def kwfFrom {α : Type} [DecidableEq α] (d : α) : Nat → KMap α → Bool
  | _, [] => true
  | lo, (j, v) :: m => decide (lo ≤ j) && decide (v ≠ d) && kwfFrom d (j + 1) m

/-- The canonical form of a map. -/
def kwf {α : Type} [DecidableEq α] (d : α) (m : KMap α) : Bool := kwfFrom d 0 m

/-- `n` put into a rising list of numbers. -/
def nadd : List Nat → Nat → List Nat
  | [], n => [n]
  | a :: l, n => if n = a then a :: l else if n < a then n :: a :: l else a :: nadd l n

/-- `n` taken out of a rising list. -/
def ndel : List Nat → Nat → List Nat
  | [], _ => []
  | a :: l, n => if n = a then ndel l n else a :: ndel l n

/-- Repeats removed, first occurrences kept. -/
def dedup (l : List Nat) : List Nat :=
  l.foldl (fun acc n => if acc.contains n then acc else acc ++ [n]) []

/-- The first `n` numbers from `a`. -/
def rangeFrom : Nat → Nat → List Nat
  | _, 0 => []
  | a, n + 1 => a :: rangeFrom (a + 1) n

/-- The list with the element at `i` replaced. -/
def lset {α : Type} : List α → Nat → α → List α
  | [], _, _ => []
  | _ :: l, 0, x => x :: l
  | a :: l, i + 1, x => a :: lset l i x

/-- The element at `i`, `d` past the end. -/
def lget {α : Type} (d : α) : List α → Nat → α
  | [], _ => d
  | a :: _, 0 => a
  | _ :: l, i + 1 => lget d l i

/-- Sum of a list of numbers. -/
def lsum : List Nat → Nat
  | [] => 0
  | a :: l => a + lsum l

/-- A field element times x; `p` is the primitive polynomial, of degree `w`. -/
def gfShift (w p a : Nat) : Nat := if a * 2 < 2 ^ w then a * 2 else (a * 2) ^^^ p

/-- The product of two elements of GF(2^w). -/
def gfMul (w p a b : Nat) : Nat :=
  (rangeFrom 0 w).foldl (fun acc i => let t := gfShift w p acc; if nbit b (w - 1 - i) then t ^^^ a else t) 0

/-- αʲ. -/
def gfPow (w p : Nat) : Nat → Nat
  | 0 => 1
  | j + 1 => gfShift w p (gfPow w p j)

/-- The generator (x + α⁰) … (x + α^(k−1)), highest coefficient first. -/
def rsGen (w p k : Nat) : List Nat :=
  (rangeFrom 0 k).foldl (fun g j => List.zipWith (· ^^^ ·) (g ++ [0]) (0 :: g.map (gfMul w p (gfPow w p j)))) [1]

/-- The `k` check symbols that make a message, highest coefficient first, divisible by the generator. -/
def rsParity (w p k : Nat) (msg : List Nat) : List Nat :=
  let g := (rsGen w p k).drop 1
  msg.foldl (fun r m => let f := m ^^^ lget 0 r 0
    List.zipWith (· ^^^ ·) (r.drop 1 ++ [0]) (g.map (gfMul w p f))) (List.replicate k 0)

end Sys2Proof.Machine
end

