-- ==== Sys2Proof/Machine/Presets.lean ====
section
/-! DEFINITION. The eight presets (R41, Table 2.14) with their cooling (R441, Table 15.6) and reactions (R461, Table 16.5). -/

namespace Sys2Proof.Machine

/-- R41: the topology of every preset. -/
def presetTopology : Topology :=
  { aPresent := 0xFF, pPresent := 0, ethRole := 0x04, minWidth := [4, 4, 4, 4, 4, 4, 4, 4], pNeighbour := [0, 0],
    i3cAddr := [8, 9, 10, 11, 12, 13, 14, 15], hubIndex := 0, hubCount := 1 }

/-- Rakes `a` to `b` as a mask. -/
def rakesTo (a b : Nat) : BitVec 16 := BitVec.ofNat 16 (2 ^ (b + 1) - 2 ^ a)

/-- Table 2.14: the trains of a preset. -/
def presetTrains (p : Nat) : List Train :=
  match p with
  | 1 => [⟨rakesTo 0 9, 1⟩, ⟨rakesTo 10 12, 2⟩, ⟨rakesTo 13 14, 3⟩, ⟨rakesTo 15 15, 4⟩]
  | 2 => [⟨rakesTo 0 3, 1⟩, ⟨rakesTo 4 13, 2⟩, ⟨rakesTo 14 15, 3⟩]
  | 3 => [⟨rakesTo 0 2, 1⟩, ⟨rakesTo 3 14, 2⟩, ⟨rakesTo 15 15, 3⟩]
  | 4 => [⟨rakesTo 0 7, 1⟩, ⟨rakesTo 8 13, 2⟩, ⟨rakesTo 14 15, 3⟩]
  | 6 => [⟨rakesTo 0 0, 1⟩, ⟨rakesTo 1 15, 4⟩]
  | _ => [⟨rakesTo 0 5, 1⟩, ⟨rakesTo 6 11, 2⟩, ⟨rakesTo 12 13, 3⟩, ⟨rakesTo 14 15, 4⟩]

/-- Table 15.6: fan and pump curve of a preset, with MIN_DUTY. -/
def presetCurve (p : Nat) (pump : Bool) : Nat × List (Nat × Nat) :=
  if p = 6 then (100, [(0, 100), (1, 100), (2, 100), (3, 100)])
  else if pump then (60, [(40, 60), (60, 70), (80, 90), (95, 100)])
  else if p = 5 then (15, [(45, 20), (70, 35), (85, 65), (95, 100)])
  else (20, [(40, 30), (60, 45), (80, 75), (95, 100)])

/-- R441: the cooling section of a preset. -/
def presetCooling (p : Nat) : Cooling :=
  { outs := (rangeFrom 0 12).map fun k =>
      let c := presetCurve p (decide (10 ≤ k))
      { role := if k < 10 then 1 else 3, driver := 9, minDuty := c.1, spinup := 30, curve := c.2,
        skip := [(0, 0), (0, 0), (0, 0), (0, 0)] }
    leakMv := List.replicate 8 1000 }

/-- R461, Table 16.5: the reactions C | U | F of a source in a preset, as FLT_REACT lays them out. -/
def presetReact (p src : Nat) : Nat :=
  if p = 6 then 0x750
  else if (0x240 ≤ src ∧ src < 0x24A) ∨ src = 0x262 ∨ src = 0x263 then 0x7E0
  else if (0x258 ≤ src ∧ src < 0x260) ∨ src = 0x261 then 0x730
  else if src = 0x260 then 0xF50
  else if src = 0x264 ∨ (0x270 ≤ src ∧ src < 0x275) ∨ src = 0x277 ∨ src = 0x278 ∨ src = 0x279 then 0x760
  else 0x750

/-- R41: the whole of a preset; sections a Consist image gives replace its parts (R31). -/
def presetConsist (p : Nat) : Consist :=
  { preset := p, topology := presetTopology, trains := presetTrains p, exclusion := { coachMask := 0, rakeOut := 0 },
    regionsGiven := false, regions := [],
    worlds := { blockSecure := 0x1815, portSecure := 0, trainSecure := 0, guardSecure := 0x3C },
    limits := { hubMin := 350, hubMax := 830, hubDefault := if p = 5 then 600 else if p = 6 then 350 else 830,
                slopeBudget := 1000, trayMax := 0xFFFFFFFF, trayDefault := 0xFFFFFFFF, slopeShare := List.replicate 8 0 },
    peal := { digest := List.replicate 32 0, retries := 3, dischargeMs := 50, staggerMs := 150 },
    cooling := presetCooling p, reactions := { quiet := 100, entries := [] },
    drum := { g4cMode := p == 7, ptpDomain := 0, beatSync := 0, lateTol := 2500, bucketMj := 50000, refill := 1024 } }

/-- The reaction of a source in a merged image (R461, Table 2.11). -/
def mergedReact (c : Consist) (src : Nat) : Nat :=
  match c.reactions.entries.find? fun e => e.1 == src with
  | some e => e.2.toNat % 2 ^ 12
  | none => presetReact c.preset src

end Sys2Proof.Machine
end

