-- ==== Sys2Proof/Machine/Image.lean ====
section
/-! DEFINITION. Chapter 02: reading a Consist image, merging it with its preset and the checks of Table 2.15
(R29 to R43, R315, R503). -/

namespace Sys2Proof.Machine

/-- A refusal: reason code of Table 2.15, section TYPE and image offset (zero but for reasons 0x09 to 0x0B). -/
structure Refused where
  reason : Nat
  type   : Nat
  offset : Nat
  deriving DecidableEq, Repr

/-- What the checks compare an image with. -/
structure CheckCtx where
  ownerKey   : Option (Nat × List Byte)   -- KEY_ID and key enrolled
  floor      : Nat
  activeSeq  : Option Nat                 -- none with no active slot
  activeHash : List Byte
  coachFailed : BitVec 512
  rakeFailed : BitVec 16
  deriving DecidableEq, Repr

/-- "GLNKCNST". -/
def consistMagic : List Byte := [0x47, 0x4C, 0x4E, 0x4B, 0x43, 0x4E, 0x53, 0x54]

def imgSeq (img : Image) : Nat := field img 0x10 4
def imgHash (img : Image) : List Byte := (img.drop 0x40).take 64
def imgRaiseFloor (img : Image) : Bool := nbit (field img 0x0D 1) 0

/-- Steps 1 to 4 of Table 2.15, on the header. `len` is the length delivered. -/
def checkHeader (ctx : CheckCtx) (img : Image) (len : Nat) : Option Refused :=
  let r := fun (c : Nat) => some (⟨c, 0, 0⟩ : Refused)
  let fl := field img 0x0D 1
  let zero := fun (o n : Nat) => field img o n == 0
  match ctx.ownerKey with
  | none => r 0x0E
  | some (kid, key) =>
    if len < 256 then r 0x03
    else if img.take 8 ≠ consistMagic then r 0x01
    else if !(field img 8 2 == 1 && decide (256 ≤ field img 0x14 4) && decide (field img 0x14 4 ≤ 262144) &&
        field img 0x14 4 == len && decide (field img 0x0E 2 ≤ 11) && decide (fl < 4) && zero 0x1C 4 && zero 0x80 64 &&
        (nbit fl 1 || zero 0x20 32)) then r 0x03
    else if field img 0x0A 2 ≠ 0x4708 ∨ field img 0x0C 1 ≠ 1 then r 0x02
    else if field img 0x18 4 ≠ kid then r 0x04
    else if !Config.edVerify key (img.take 0xC0) ((img.drop 0xC0).take 64) then r 0x05
    else if nbit fl 1 && (img.drop 0x20).take 32 != (Config.sha512 Config.identityKey).take 32 then r 0x07
    else if imgSeq img < ctx.floor then r 0x08
    else match ctx.activeSeq with
      | none => none
      | some q => if q < imgSeq img ∨ imgHash img = ctx.activeHash then none else r 0x08

/-- Table 2.2: the content length a section must have. -/
def sectionLength (type : Nat) (content : List Byte) : Nat :=
  match type with
  | 1 => 64
  | 2 => 16 + 8 * field content 0 1
  | 3 => 80
  | 4 => 16 + 32 * field content 0 1
  | 5 => 16
  | 6 => 32
  | 7 => 48
  | 8 => 304
  | 9 => 4 + 4 * field content 2 2
  | _ => 16

/-- A section found: TYPE, image offset of its content, content. -/
abbrev Section := Nat × Nat × List Byte

/-- The first offset from `o` at which one of `n` bytes is not zero. -/
def firstNonZero (img : Image) (o : Nat) : Nat → Option Nat
  | 0 => none
  | n + 1 => if lget 0 img o ≠ (0 : Byte) then some o else firstNonZero img (o + 1) n

/-- Step 6 of Table 2.15 (R30): `n` sections from image offset `o`, TYPEs above `last`. A padding byte that is not zero is BAD_SECTION
0x09 at its own offset (DESIGN CHOICE, log 129). -/
def readSections (img : Image) : Nat → Nat → Nat → Except Refused (List Section)
  | 0, o, _ => if o < img.length then .error ⟨0x09, 0, o⟩ else .ok []
  | n + 1, o, last =>
    let type := field img o 2
    let len := field img (o + 4) 4
    let pad := (16 - len % 16) % 16
    if img.length < o + 16 ∨ img.length < o + 16 + len + pad then .error ⟨0x09, type, o + 4⟩
    else if type ≤ last ∨ 11 < type then .error ⟨0x09, type, o⟩
    else if field img (o + 2) 2 ≠ 1 then .error ⟨0x09, type, o + 2⟩
    else
      let content := (img.drop (o + 16)).take len
      if len ≠ sectionLength type content then .error ⟨0x09, type, o + 4⟩
      else match firstNonZero img (o + 8) 8 with
        | some x => .error ⟨0x09, type, x - x % 8⟩
        | none =>
          match firstNonZero img (o + 16 + len) pad with
          | some x => .error ⟨0x09, type, x⟩
          | none =>
            match readSections img n (o + 16 + len + pad) type with
            | .ok l => .ok ((type, o + 16, content) :: l)
            | .error e => .error e

/-- A check on a field: its offset within the content, and whether it holds. -/
abbrev Check := Nat × Bool

def okRange (c : List Byte) (o n lo hi : Nat) : Check := (o, decide (lo ≤ field c o n) && decide (field c o n ≤ hi))
def okZero (c : List Byte) (o n : Nat) : Check := (o, field c o n == 0)

/-- R33, R38, R39: the field checks of a section, in ascending offset. -/
def sectionChecks (type : Nat) (c : List Byte) : List Check :=
  match type with
  | 1 =>
    let er := field c 2 1
    let e0 := er % 4
    let e1 := er / 4 % 4
    [okRange c 1 1 0 3, (2, decide (er < 16) && e0 != 3 && e1 != 3 && (e0 != e1) && !(e0 == 2 && e1 == 2)), okZero c 3 1] ++
    ((rangeFrom 0 8).map fun n => okRange c (4 + n) 1 4 8) ++ [okZero c 0xC 4] ++
    ((rangeFrom 0 8).map fun n => okRange c (0x20 + n) 1 0x08 0x77) ++
    [(0x28, decide (field c 0x28 2 < field c 0x2A 2)), okRange c 0x2A 2 1 1024, okZero c 0x2C 20]
  | 2 => [okRange c 0 1 1 8, okZero c 1 15] ++ (rangeFrom 0 (field c 0 1)).flatMap fun t =>
      [(0x10 + 8 * t, field c (0x10 + 8 * t) 2 != 0), okRange c (0x12 + 8 * t) 1 1 4, okZero c (0x13 + 8 * t) 5]
  | 3 => [okZero c 0x42 14]
  | 4 => [okRange c 0 1 0 128, okZero c 1 15] ++ (rangeFrom 0 (field c 0 1)).flatMap fun i =>
      let o := 32 * i
      let w := field c (o + 0x19) 1
      [(o + 0x14, field c (o + 0x14) 4 != 0), okRange c (o + 0x18) 1 0 1,
       (o + 0x19, w == 0 || (decide (0x10 ≤ w) && decide (w ≤ 0x17)) || (decide (0x20 ≤ w) && decide (w ≤ 0x27)) ||
          (decide (0x30 ≤ w) && decide (w ≤ 0x35))),
       okRange c (o + 0x1B) 1 0 1, okRange c (o + 0x1C) 1 0 1,
       (o + 0x1D, decide (field c (o + 0x1D) 1 ≤ if field c (o + 0x1C) 1 = 1 then 15 else 0)), okZero c (o + 0x1E) 18]
  | 5 =>
    let b := field c 0 2
    let g := field c 5 1
    [(0, !nbit b 7 && !nbit b 15 && nbit b 0 && nbit b 2 && nbit b 4 && nbit b 11 && nbit b 12), okRange c 2 2 0 0x3FF,
     (5, decide (g < 64) && nbit g 5), okZero c 6 10]
  | 6 => [okRange c 0 2 350 0xFFFF, okRange c 2 2 0 830, okRange c 6 2 100 8000, okZero c 0x18 8]
  | 7 => [okRange c 0x20 1 0 15, okZero c 0x21 1, okRange c 0x22 2 10 1000, okRange c 0x24 2 0 2000, okZero c 0x26 10]
  | 8 =>
    ((rangeFrom 0 12).flatMap fun k =>
      let o := 24 * k
      let tmp := fun (p : Nat) => field c (o + 4 + 2 * p) 1
      let dut := fun (p : Nat) => field c (o + 5 + 2 * p) 1
      let lo := fun (b : Nat) => field c (o + 0xC + 2 * b) 1
      let hi := fun (b : Nat) => field c (o + 0xD + 2 * b) 1
      [okRange c o 1 0 3, okRange c (o + 1) 1 0 9, okRange c (o + 2) 1 0 100, okRange c (o + 3) 1 5 100] ++
      ((rangeFrom 0 4).map fun p => (o + 4 + 2 * p, decide (dut p ≤ 100) &&
        (p == 0 || (decide (tmp (p - 1) < tmp p) && decide (dut (p - 1) ≤ dut p))))) ++
      ((rangeFrom 0 4).map fun b => (o + 0xC + 2 * b, (lo b == 0 && hi b == 0) || (decide (lo b < hi b) &&
        (rangeFrom 0 b).all fun a => (lo a == 0 && hi a == 0) || decide (hi a ≤ lo b) || decide (hi b ≤ lo a)))) ++
      [okZero c (o + 0x14) 4]) ++ (rangeFrom 0 8).map fun j => okRange c (0x120 + 2 * j) 2 50 3000
  | 9 => [okRange c 0 2 10 6000, okRange c 2 2 0 1024] ++ (rangeFrom 0 (field c 2 2)).flatMap fun e =>
      let r := field c (6 + 4 * e) 2
      [(4 + 4 * e, decide (field c (4 + 4 * e) 2 < 1024) && (e == 0 || decide (field c (4 * e) 2 < field c (4 + 4 * e) 2))),
       (6 + 4 * e, decide (r < 2 ^ 12) && decide (2 ^ 8 ≤ r))]
  | 10 => [okRange c 0 1 0 1, okRange c 1 1 0 127, okRange c 2 1 0 3, okZero c 3 1, okRange c 4 4 1 250000,
      okRange c 8 4 1 10000000, okRange c 0xC 2 1 1024, okZero c 0xE 2]
  | _ => [okRange c 0 1 0 7, okZero c 1 15]

/-- Step 7 of Table 2.15: the first field out of its range. -/
def checkValues : List Section → Option Refused
  | [] => none
  | (type, o, c) :: l =>
    match (sectionChecks type c).find? fun k => !k.2 with
    | some k => some ⟨0x0A, type, o + k.1⟩
    | none => checkValues l

/-- The content of a section. -/
def sectionOf (l : List Section) (type : Nat) : Option (List Byte) := (l.find? fun x => x.1 == type).map fun x => x.2.2

def readTopology (c : List Byte) : Topology :=
  { aPresent := BitVec.ofNat 8 (field c 0 1), pPresent := BitVec.ofNat 8 (field c 1 1), ethRole := BitVec.ofNat 8 (field c 2 1),
    minWidth := (rangeFrom 0 8).map fun n => field c (4 + n) 1,
    pNeighbour := [BitVec.ofNat 64 (field c 0x10 8), BitVec.ofNat 64 (field c 0x18 8)],
    i3cAddr := (rangeFrom 0 8).map fun n => field c (0x20 + n) 1, hubIndex := field c 0x28 2, hubCount := field c 0x2A 2 }

def readTrains (c : List Byte) : List Train :=
  (rangeFrom 0 (field c 0 1)).map fun t => ⟨BitVec.ofNat 16 (field c (0x10 + 8 * t) 2), field c (0x12 + 8 * t) 1⟩

def readRegions (c : List Byte) : List Region :=
  (rangeFrom 0 (field c 0 1)).map fun i =>
    let o := 32 * i
    { base := field c (o + 0x10) 4, size := field c (o + 0x14) 4, secure := field c (o + 0x18) 1 == 1, owner := field c (o + 0x19) 1,
      access := BitVec.ofNat 8 (field c (o + 0x1A) 1), snapArea := field c (o + 0x1B) 1 == 1,
      rakeLocal := field c (o + 0x1C) 1 == 1, rake := field c (o + 0x1D) 1 }

def readCooling (c : List Byte) : Cooling :=
  { outs := (rangeFrom 0 12).map fun k =>
      let o := 24 * k
      { role := field c o 1, driver := field c (o + 1) 1, minDuty := field c (o + 2) 1, spinup := field c (o + 3) 1,
        curve := (rangeFrom 0 4).map fun p => (field c (o + 4 + 2 * p) 1, field c (o + 5 + 2 * p) 1),
        skip := (rangeFrom 0 4).map fun b => (field c (o + 0xC + 2 * b) 1, field c (o + 0xD + 2 * b) 1) }
    leakMv := (rangeFrom 0 8).map fun j => field c (0x120 + 2 * j) 2 }

/-- R31: the merged image: sections given replace the preset's, the preset is preset 0 when its section is absent. -/
def mergeImage (l : List Section) : Consist :=
  let p := match sectionOf l 11 with | some c => field c 0 1 | none => 0
  let b := presetConsist p
  { b with
    topology := match sectionOf l 1 with | some c => readTopology c | none => b.topology
    trains := match sectionOf l 2 with | some c => readTrains c | none => b.trains
    exclusion := match sectionOf l 3 with
      | some c => { coachMask := BitVec.ofNat 512 (field c 0 64), rakeOut := BitVec.ofNat 16 (field c 0x40 2) }
      | none => b.exclusion
    regionsGiven := (sectionOf l 4).isSome
    regions := match sectionOf l 4 with | some c => readRegions c | none => []
    worlds := match sectionOf l 5 with
      | some c => { blockSecure := BitVec.ofNat 16 (field c 0 2), portSecure := BitVec.ofNat 16 (field c 2 2),
                    trainSecure := BitVec.ofNat 8 (field c 4 1), guardSecure := BitVec.ofNat 8 (field c 5 1) }
      | none => b.worlds
    limits := match sectionOf l 6 with
      | some c => { hubMin := field c 0 2, hubMax := field c 2 2, hubDefault := field c 4 2, slopeBudget := field c 6 2,
                    trayMax := field c 8 4, trayDefault := field c 0xC 4, slopeShare := (rangeFrom 0 8).map fun n => field c (0x10 + n) 1 }
      | none => b.limits
    peal := match sectionOf l 7 with
      | some c => { digest := c.take 32, retries := field c 0x20 1, dischargeMs := field c 0x22 2, staggerMs := field c 0x24 2 }
      | none => b.peal
    cooling := match sectionOf l 8 with | some c => readCooling c | none => b.cooling
    reactions := match sectionOf l 9 with
      | some c => { quiet := field c 0 2, entries := (rangeFrom 0 (field c 2 2)).map fun e =>
          (field c (4 + 4 * e) 2, BitVec.ofNat 16 (field c (6 + 4 * e) 2)) }
      | none => b.reactions
    drum := match sectionOf l 10 with
      | some c => { g4cMode := field c 0 1 == 1, ptpDomain := field c 1 1, beatSync := BitVec.ofNat 8 (field c 2 1),
                    lateTol := field c 4 4, bucketMj := field c 8 4, refill := field c 0xC 2 }
      | none => b.drum }

/-! ### Rules across sections (R40, R315, R503) -/

/-- Granules of 2 MiB in one rake range (R313). -/
def rangeGranules : Nat := 86016

/-- The in-service rakes of an effective RAKE_OUT, ascending. -/
def rakesIn (out : BitVec 16) : List Nat := (rangeFrom 0 16).filter fun k => !out.getLsbD k

/-- Whether a train has a coach outside an effective exclusion. -/
def trainHasCoach (t : Train) (coach : BitVec 512) (out : BitVec 16) : Bool :=
  (rangeFrom 0 512).any fun c => t.rakes.getLsbD (c / 32) && !coach.getLsbD c && !out.getLsbD (c / 32)

/-- Two granule ranges meet. -/
def granulesMeet (a b : Region) : Bool := decide (a.base < b.base + b.size) && decide (b.base < a.base + a.size)

/-- R315: a rake-local region touches a stripe that a global region makes global. -/
def touchesGlobal (r g : Region) (n : Nat) : Bool :=
  !g.rakeLocal && (rangeFrom 0 n).any fun j =>
    let lo := max g.base (j * rangeGranules)
    let hi := min (g.base + g.size) ((j + 1) * rangeGranules)
    decide (lo < hi) &&
      (let l := lo - j * rangeGranules
       let h := hi - j * rangeGranules
       let b := r.base % rangeGranules
       decide (l < b + r.size) && decide (b < h))

/-- R40: a region's owner exists and lies in a world that the rule allows. -/
def ownerOk (c : Consist) (r : Region) : Bool :=
  let w := r.owner
  let exists? := if w < 0x10 then true else if w < 0x20 then c.topology.aPresent.getLsbD (w - 0x10)
    else if w < 0x30 then decide (w - 0x20 < c.trains.length) else true
  let sec := if w < 0x10 then c.worlds.blockSecure.getLsbD 13 else if w < 0x20 then c.worlds.portSecure.getLsbD (w - 0x10)
    else if w < 0x30 then c.worlds.trainSecure.getLsbD (w - 0x20) else c.worlds.guardSecure.getLsbD (w - 0x30)
  exists? && (sec || !r.secure)

/-- R40: a reaction code's guard runs in the secure world. -/
def reactGuardOk (c : Consist) (code : Nat) : Bool :=
  if 1 ≤ code ∧ code ≤ 6 then c.worlds.guardSecure.getLsbD (code - 1)
  else if 8 ≤ code ∧ code ≤ 13 then c.worlds.guardSecure.getLsbD (code - 8) else true

/-- R40, R503: the first rule that fails, as the section TYPE and content offset of the field of Table 2.16. -/
def firstInconsistent (c : Consist) (coach : BitVec 512) (out : BitVec 16) : Option (Nat × Nat) :=
  let ts := c.trains
  let tr := fun (t : Nat) => lget (⟨0, 0⟩ : Train) ts t
  let nt := ts.length
  let rs := c.regions
  let rg := fun (i : Nat) => lget (⟨0, 0, false, 0, 0, false, false, 0⟩ : Region) rs i
  let nr := rs.length
  let ins := rakesIn out
  let top := rangeGranules * ins.length
  let lim := c.limits
  let find := fun (n : Nat) (bad : Nat → Bool) => (rangeFrom 0 n).find? bad
  let shares := lim.slopeShare
  let first : List (Option (Nat × Nat)) := [
    (find nt fun t => (rangeFrom 0 t).any fun u => (tr u).rakes &&& (tr t).rakes != 0).map fun t => (2, 0x10 + 8 * t),
    (find nt fun t => (tr t).rakes &&& out != 0).map fun t => (2, 0x10 + 8 * t),
    (find nt fun t => !trainHasCoach (tr t) coach out).map fun t => (2, 0x10 + 8 * t),
    if c.topology.aPresent != 0 && !ts.any (fun t => t.service == 1) then some (2, 0) else none,
    if rs.any (fun r => r.snapArea) && !ts.any (fun t => t.service == 3) then some (2, 0) else none,
    (find nr fun i => (rangeFrom 0 i).any fun j => granulesMeet (rg j) (rg i)).map fun i => (4, 0x10 + 32 * i),
    (find nr fun i => decide (top < (rg i).base + (rg i).size)).map fun i => (4, 0x14 + 32 * i),
    (find nr fun i => (rg i).rakeLocal && (let j := ins.idxOf (rg i).rake
        !ins.contains (rg i).rake || decide ((rg i).base < j * rangeGranules) ||
        decide ((j + 1) * rangeGranules < (rg i).base + (rg i).size))).map fun i => (4, 0x1D + 32 * i),
    (find nr fun i => !ownerOk c (rg i)).map fun i => (4, 0x19 + 32 * i),
    if lim.hubMin ≤ lim.hubDefault ∧ lim.hubDefault ≤ lim.hubMax then none else some (6, 4),
    if lim.trayDefault ≤ lim.trayMax then none else some (6, 0xC),
    if 256 < lsum shares then some (6, 0x10) else none,
    if lsum shares = 0 then none
      else (find 8 fun n => c.topology.aPresent.getLsbD n && lget 0 shares n == 0).map fun n => (6, 0x10 + n),
    if (rangeFrom 0 1024).all (fun x => let r := mergedReact c x
        reactGuardOk c (r % 16) && reactGuardOk c (r / 16 % 16) && reactGuardOk c (r / 256 % 16)) then none else some (5, 5),
    (find nr fun i => (rg i).rakeLocal && rs.any fun g => touchesGlobal (rg i) g ins.length).map fun i => (4, 0x1C + 32 * i) ]
  (first.find? fun x => x.isSome).getD none

/-- Steps 5 to 8 of Table 2.15: the merged image, or the refusal. -/
def checkBody (ctx : CheckCtx) (img : Image) : Except Refused Consist :=
  if img.length ≠ field img 0x14 4 ∨ Config.sha512 (img.drop 256) ≠ imgHash img then .error ⟨0x06, 0, 0⟩
  else match readSections img (field img 0x0E 2) 256 0 with
    | .error e => .error e
    | .ok l =>
      match checkValues l with
      | some e => .error e
      | none =>
        let c := mergeImage l
        match firstInconsistent c (c.exclusion.coachMask ||| ctx.coachFailed) (c.exclusion.rakeOut ||| ctx.rakeFailed) with
        | none => .ok c
        | some (type, o) =>
          let off := match l.find? fun x => x.1 == type with | some x => x.2.1 + o | none => 0
          .error ⟨0x0B, type, off⟩

/-- R43: the checks of Table 2.15 in order, stopping at the first failure. -/
def checkImage (ctx : CheckCtx) (img : Image) (len : Nat) : Except Refused Consist :=
  match checkHeader ctx img len with
  | some e => .error e
  | none => checkBody ctx img

/-- R45: whether two merged images differ in a section whose class is "Between jobs". -/
def differBetweenJobs (a b : Consist) : Bool :=
  a.topology != b.topology || a.trains != b.trains || a.exclusion != b.exclusion || a.regionsGiven != b.regionsGiven ||
  a.regions != b.regions || a.worlds != b.worlds || a.drum != b.drum || a.preset != b.preset

end Sys2Proof.Machine
end

