-- ==== Sys2Proof/Machine/StateLink.lean ====
section
/-! DEFINITION. Chapter 10: what a Coupler port holds beyond its registers. -/

namespace Sys2Proof.Machine

/-- R288 to R295: the link layer of a port since it entered ACTIVE. Virtual channels: 0 request, 1 response, 2 bulk,
3 control. -/
structure Link where
  txSeq   : Nat                 -- number the next sequenced flit takes
  acked   : Nat                 -- ACK of the last link word; 0x3FF before any
  replay  : List (Nat × Out)    -- sent sequenced flits not covered by an ACK, oldest first
  resends : Nat                 -- resends from the same number so far (R291)
  resent  : Option Nat          -- the number the running resend began from
  expect  : Nat                 -- E of R289
  rxSeq   : Option Nat          -- number of the next sequenced flit to arrive; none when the link word before its frame was lost
  lastAcc : Nat                 -- number of the last flit accepted in order; 0x3FF before any
  nak     : Bool                -- the hub waits for flit `expect` to be resent
  ctl     : Option (Nat × List Byte)  -- the CTRL flit whose messages the hub takes: the next message, the payload
  wait    : List (Nat × Out)    -- flits that wait for a credit or for replay room, with their virtual channel
  used    : List Nat            -- credits the hub has used, per virtual channel
  freed   : List Nat            -- credits the far end has freed, per virtual channel
  got     : List Nat            -- flits the hub has accepted, per virtual channel
  passed  : List Nat            -- of these, passed on: the hub's running totals
  told    : List Nat            -- the running totals that the hub's last link word reported
  last    : Nat                 -- the last link word sent (R293)
  bad     : Nat                 -- uncorrectable codewords in a row (R283)
  deriving DecidableEq, Repr

/-- R275 to R281: training of a port. Taps are keyed lane × 8 + tap number. -/
structure Training where
  seen     : Nat                -- lanes on which frames have been received
  rxHub    : Nat                -- lanes the hub's receivers are satisfied with
  rxPeer   : Nat                -- lanes with RX_READY at the far end
  good     : Option Nat         -- the hub's GOOD mask, once its LANE_TEST has ended
  peerGood : Option Nat         -- the far end's GOOD mask, once a closing frame has brought it
  asked    : KMap Nat           -- request to the far transmitter not yet answered, per lane: REQ_OP × 8 + REQ_TAP
  taps     : KMap Int           -- the hub's transmitter taps, less their preset
  peerTaps : KMap Int           -- the far transmitter's taps, less their preset
  answer   : KMap Nat           -- REQ_STATUS to send on a lane
  parts    : KMap (List Byte)   -- CONFIG parts accepted
  failRun  : Bool               -- CPL_TRAIN raised for this run of failures
  rxSlot   : Option Nat         -- slot index of the last ALIGN flit received in alignment (R279)
  deriving DecidableEq, Repr

/-- R272, R273, R279, R288: the transmit side of a port's line since it entered ALIGN. -/
structure Line where
  slot   : Nat                          -- flit slots sent, modulo 40
  slots  : List (Option Nat × List Byte)  -- flits of frames not yet sent, with the numbers of the sequenced ones
  scram  : Nat                          -- the last 58 scrambled bits, the latest lowest
  blocks : List Nat                     -- 257-bit blocks that wait for their codeword, first bit lowest
  lane   : Nat                          -- logical lane that the next symbol goes to
  deriving DecidableEq, Repr

/-- One Coupler port. -/
structure Port where
  link  : Link
  train : Training
  line  : Line
  deriving DecidableEq, Repr

/-- The link layer on entry to ACTIVE (R289). -/
def Link.init : Link :=
  { txSeq := 0, acked := 0x3FF, replay := [], resends := 0, resent := none, expect := 0, rxSeq := some 0,
    lastAcc := 0x3FF, nak := false, ctl := none, wait := [], used := [0, 0, 0, 0], freed := [0, 0, 0, 0], got := [0, 0, 0, 0], passed := [0, 0, 0, 0],
    told := [0, 0, 0, 0], last := 0, bad := 0 }

/-- Training on entry to DETECT (R277: every tap at its preset). -/
def Training.init : Training :=
  { seen := 0, rxHub := 0, rxPeer := 0, good := none, peerGood := none, asked := [], taps := [], peerTaps := [], answer := [], parts := [],
    failRun := false, rxSlot := none }

/-- A line that has sent nothing. -/
def Line.init : Line := { slot := 0, slots := [], scram := 0, blocks := [], lane := 0 }

def Port.init : Port := { link := Link.init, train := Training.init, line := Line.init }

end Sys2Proof.Machine
end

