-- ==== Sys2Proof/Machine/StateHost.lean ====
section
/-! DEFINITION. Chapter 12: connections, rings, replies, orders, caps and jobs. -/

namespace Sys2Proof.Machine

/-- R337: an RDMA WRITE packet of the hub's own that is not acknowledged: its PSN, the drain it belongs to, its drained bytes. -/
structure RdmaOut where
  psn   : Nat
  drain : Option Nat
  bytes : Nat
  out   : Out
  deriving DecidableEq, Repr

/-- R337, R339: one RC connection. -/
structure Conn where
  role    : Nat
  port    : Nat
  qpn     : Nat           -- remote queue pair
  gid     : List Byte
  mtu     : Nat           -- bytes
  expect  : Nat           -- PSN expected next as responder
  psn     : Nat           -- PSN the hub sends next as requester
  sent    : List RdmaOut  -- packets not acknowledged, oldest first
  hubQpn  : Nat
  rkey    : Nat
  rate    : Nat           -- send rate [Mbit/s]
  retries : Nat
  write   : Option Nat    -- address at which the running RDMA WRITE message continues
  cnpAt   : Nat           -- `Drum.beats` at the last CNP sent, plus 1 (R337)
  held    : List Out      -- packets that wait while the port's priority is paused, oldest first (R334)
  reads   : Nat           -- READ requests whose responses wait (R336)
  deriving DecidableEq, Repr

/-- A request taken and not yet answered (R368). -/
structure Owed where
  req  : Req
  code : Nat
  deriving DecidableEq, Repr

/-- R355: a request that came in a datagram and waits until the one before it is answered. -/
structure HeldReq where
  req  : Req
  code : Nat
  body : List Byte
  prodAt : W32            -- producer index of the role's control submission ring as it came
  deriving DecidableEq, Repr

/-- R346: a role's notification target. -/
structure Target where
  conn : Nat
  addr : Nat
  key  : Nat
  deriving DecidableEq, Repr

/-- R354: a kept reply to a datagram, as the numbers of an `Out` of kind reply. -/
structure Kept where
  src  : Nat
  seq  : Nat
  mark : Nat              -- `Drum.beats` at the reply
  args : List Nat
  body : List Byte
  deriving DecidableEq, Repr

/-- R363: the running job. -/
structure Job where
  id        : Nat
  seed      : W64
  firstBeat : W64
  ports     : BitVec 8
  deriving DecidableEq, Repr

/-- R364: the job-end record of the standby domain; `posted` once JOB_ABORTED has gone out or need not. -/
structure JobRecord where
  id      : Nat
  endBeat : W64
  msg     : Option FaultMsg
  posted  : Bool
  deriving DecidableEq, Repr

/-- A job that has ended and whose kernels have not all stopped (R90): `byHost` when a JOB_END waits for its reply. -/
structure Ending where
  byHost : Bool
  deriving DecidableEq, Repr

/-- Ring numbers: host rings 0 to 255, partner ring k of port n as 0x1000 + 16n + k (R304). Consumers (R349): launch unit
of train t as t, the state service 8, the snapshot service 9, the collective service of port n as 16 + n. -/
structure HostSt where
  conns    : KMap Conn
  prod     : KMap W32               -- producer index of each ring
  cons     : KMap W32               -- consumer index of each ring
  drr      : KMap (Nat × Nat)       -- consumer → ring being served, entries left of its quantum
  waiting  : KMap (List (List Byte))  -- completion entries that wait for room, per ring, oldest first (R343)
  ext      : KMap Nat               -- extension area of a completion ring: where the next long body goes (R353)
  target   : KMap Target            -- per role
  kept     : KMap (List Kept)       -- per role, oldest first
  lastUdp  : KMap Nat               -- per role: source of the last accepted datagram, plus 1
  noteSeq  : KMap Nat               -- per role: SEQ of notifications
  owed     : List Owed
  held     : List HeldReq           -- oldest first
  ethUp    : List Nat               -- ports whose link has come up since the main-domain reset
  bodies   : KMap (List (Nat × Nat × Nat))  -- per completion ring: entry, offset and length of the long bodies in its extension area (R353)
  buffers  : KMap (List Byte)       -- per role × 4 + purpose: 0 Consist, 1 update, 2 enrolment (R356)
  router   : KMap Nat               -- per port: default IPv6 router learned
  paused   : List Nat               -- ports whose PFC priority is paused
  interval : KMap Nat               -- per role: HEARTBEAT interval [ms], 0 disarmed (R367)
  subCredit : KMap Nat              -- per partner submission ring: credits granted and not yet used (R305)
  offHost  : Bool                   -- the host's power order is off
  offRack  : Bool
  storedOffHost : Bool              -- orders stored with PERSIST
  storedOffRack : Bool
  capHubHost  : Nat
  capHubRack  : Nat
  capTrayHost : Nat
  capTrayRack : Nat
  job      : Option Job
  ending   : Option Ending
  record   : Option JobRecord       -- standby domain
  heldEnd  : Option Req             -- a JOB_END held by a snapshot take (R239)
  deriving DecidableEq, Repr

end Sys2Proof.Machine
end

