-- ==== Sys2Proof/Machine/StateServices.lean ====
section
/-! DEFINITION. Chapters 06 to 08: collectives, state tables with their commands, and the snapshot service. -/

namespace Sys2Proof.Machine

/-- A collective's life (R167, R171): in `posting` it has ended, and its completion entries are being posted. -/
inductive CollPhase where
  | posted
  | matched
  | opened
  | posting
  deriving DecidableEq, Repr

/-- R175: bytes of one chunk of one port held in staging, with the 64-byte units of it that are poisoned. -/
structure Stage where
  port  : Nat
  chunk : Nat
  bytes : List Byte
  pois  : List Nat
  deriving DecidableEq, Repr

/-- R165 to R187: one collective, partly matched, matched or open. -/
structure Coll where
  uid     : Nat                      -- numbers the collectives
  id      : Nat
  posts   : List (Nat × List Byte)   -- ports and their descriptors, in the order of arrival
  since   : Nat                      -- `Drum.beats` when the first arrived
  phase   : CollPhase
  train   : Nat
  slot    : Nat
  openAt  : W64                      -- the beat at which the window is to open
  startAt : W64                      -- R173: its start beat, by which windows open in order
  openBeat : W64                     -- the beat at which it opened; 0 before
  openMark : Nat                     -- `Drum.beats` then
  order   : Nat                      -- how many windows had opened before its own
  late    : Nat                      -- lateness counted when it opens (R172)
  heldBack : Bool                    -- its opening has been counted in DEFERRED (R191)
  link    : Option Nat               -- the table of the step it is linked to (R203)
  stage   : List Stage
  next    : KMap (Nat × Nat)         -- per sender: chunk and flit offset expected next
  granted : KMap Nat                 -- chunks granted per port
  served  : Nat                      -- chunks reduced or sent on
  part    : KMap (Nat × Bool)        -- partials from the neighbour hubs: element → bits, poison
  fin     : KMap (Nat × Bool)        -- finished elements or units of a cross-hub operation
  handed  : List Nat                 -- elements whose own hub's part is done (cross-hub)
  blocks  : KMap Nat                 -- ALL_TO_ALL: bytes forwarded, keyed source × 8 + destination
  ended   : List Nat                 -- ALL_TO_ALL: blocks ended
  sent    : KMap Nat                 -- result chunks sent per receiver: ports, 8 hub memory
  xout    : KMap (Nat × Bool)        -- cross-hub units formed here and not yet sent on: unit × 2 + RESULT
  nan     : Nat
  pois    : Nat
  ovf     : Bool                     -- XACC_OVERFLOW raised
  poiRaised : Bool
  stalled : Bool
  status  : Nat                      -- once it has ended: STATUS of its entries
  fld     : Nat                      -- and their FIELD
  due     : List Nat                 -- and the ports whose entries are not posted yet
  deriving DecidableEq, Repr

/-- R302: an XH_POST received: COLL_ID, origin, digest, proposed beat. -/
structure XhPost where
  id     : Nat
  origin : Nat
  digest : Nat
  beat   : Nat
  deriving DecidableEq, Repr

/-- R302: an XH_STEP received. -/
structure XhStep where
  table  : Nat
  origin : Nat
  grad   : Nat
  digest : Nat
  deriving DecidableEq, Repr

/-- R302: a COLL_CREDIT that came before the collective matched here. -/
structure EarlyGrant where
  port  : Nat
  slot  : Nat
  first : Nat
  count : Nat
  deriving DecidableEq, Repr

/-- Chapter 06. -/
structure Colls where
  list   : List Coll
  pools  : KMap Nat                  -- dispatch credits in use, keyed source × 8 + destination (R186)
  opens  : Nat                       -- windows opened since the job started
  made   : Nat                       -- collectives made
  turn   : Nat                       -- order of the collective whose chunk was reduced last, plus 1 (R173)
  posts  : List XhPost
  steps  : List XhStep
  grants : List EarlyGrant
  stale  : List (Nat × Nat)          -- hubs' XH_STEPs of failed steps still to come: table, origin (R215)
  deriving DecidableEq, Repr

/-- R199: a state command taken: who posted it, its 64 bytes, the beat its work began (none before). -/
structure Cmd where
  origin : Origin
  raw    : List Byte
  start  : Option W64
  late   : Bool                      -- R217: it waits for the step before its own though its source has posted EMB_APPLY for it
  deriving DecidableEq, Repr

/-- R202 to R215: the STEP a table runs. -/
structure StepRun where
  cmd      : Cmd
  done     : Nat                     -- elements processed; of Adafactor, in pass 1
  began    : Bool                    -- it has written state (R224)
  norm     : Int                     -- R211: exact sum in accumulator units
  normBad  : Bool                    -- an infinite or NaN term entered the sum
  nan      : Nat
  rowSum   : KMap XLane              -- Adafactor: accumulator records of the factors' sums, by position in the factor area
  skipped  : List Nat                -- Adafactor: local parameters that pass 1 skipped (R209)
  pass2    : Bool                    -- Adafactor: pass 2 has run
  reduced  : Bool                    -- the linked REDUCE is complete
  outStatus : Option Nat             -- status of the linked BROADCAST once it has ended
  checked  : Bool                    -- R215: the hubs' check has passed
  kernel   : Option Nat              -- R212: the status with which its kernel has completed
  pushed   : List Nat                -- R212: chunks whose entry has been pushed
  deriving DecidableEq, Repr

/-- COACH_STBL.STATE, BUSY being READY with a STEP or an apply running. -/
inductive TableSt where
  | free
  | ready
  | interrupted
  deriving DecidableEq, Repr

/-- R196 to R224: one state table. `raw` is its table block (Table 7.1). -/
structure Table where
  st       : TableSt
  raw      : List Byte
  last     : Nat
  queue    : List Cmd                -- waiting or running commands but STEPs that run, oldest first
  run      : Option StepRun
  applies  : List Cmd                -- EMB_APPLY commands posted for step `last` + 1 (R220)
  applying : Option W64              -- the apply of step `last` + 1 has begun at this beat
  appRows  : Nat
  appNan   : Nat
  overflow : Bool                    -- the step of accumulation has overflowed (R221)
  outFail  : List (List Byte × Nat)  -- STEPs that wait, each with the status of its BROADCAST, which has failed (R206)
  deriving DecidableEq, Repr

/-- Chapter 07. Rings of user programs (R212) are keyed by table. -/
structure Tables where
  table  : KMap Table
  chunks : KMap (List (List Byte))   -- chunk blocks that wait in ring 0xFF00 + table, each with its gradient after it
  outs   : KMap (List Byte)          -- weights of a user step's chunks: table × 2^40 + chunk → bytes
  define : Option Cmd                -- a TABLE_DEFINE or TABLE_RELEASE that G3 works on (R225)
  deriving DecidableEq, Repr

/-- R235: a take. -/
structure Take where
  origin : Origin
  raw    : List Byte
  gen    : Nat
  slot   : Nat
  parts  : KMap (List (Nat × Nat))   -- manifests: base, length, in bytes
  last   : List Nat                  -- members whose manifest is complete
  fits   : Bool                      -- the manifests have been checked
  cut    : Bool
  got    : KMap Nat                  -- image bytes received per partner
  sent   : List Nat                  -- partners that reported SNAP_SENT
  granted : KMap Nat                 -- flits granted per partner
  deriving DecidableEq, Repr

/-- R236, R237: what a committed take still holds: its members and tables, to its resume beat. -/
structure SnapHold where
  members : Nat
  tables  : Nat
  resume  : W64
  deriving DecidableEq, Repr

/-- R244 to R247: a restore. A candidate is a local slot, or none for the neighbour's mirror of this hub. -/
structure Restore where
  origin  : Origin
  raw     : List Byte
  cands   : List (Option Nat)        -- the copy being loaded first
  begun   : Bool                     -- the candidates are known
  chunk   : Nat                      -- chunks checked
  grants  : KMap Nat                 -- flits granted by partners
  loaded  : KMap Nat                 -- image bytes delivered per partner
  told    : List Nat                 -- partners that have been sent SNAP_LOADED
  acked   : List Nat
  fetched : List Byte                -- the mirror's slot bytes fetched over P1
  badFlits : List Nat                -- fetched flits that carried poison
  want    : Nat                      -- how many bytes are wanted; 0 when nothing is fetched
  deriving DecidableEq, Repr

/-- R242: a drain. -/
structure Drain where
  key    : Nat                       -- numbers the drains
  origin : Origin
  raw    : List Byte
  gen    : Nat
  slot   : Nat
  beat   : W64
  sent   : Nat                       -- bytes sent to the target
  acked  : Nat                       -- bytes acknowledged
  total  : Nat
  deriving DecidableEq, Repr

/-- R240: a mirror being sent. -/
structure MirrorOut where
  gen     : Nat
  slot    : Nat
  begun   : Bool
  flits   : Nat                      -- flits sent
  credits : Nat                      -- flits granted
  ended   : Bool
  left    : Nat                      -- flits that had left the port by the last beat
  deriving DecidableEq, Repr

/-- R240: a mirror being received. -/
structure MirrorIn where
  gen   : Nat
  slot  : Nat
  total : Nat
  got   : Nat
  deriving DecidableEq, Repr

/-- Chapter 08. Modes: 0 NONE, 1 LOCAL, 2 MIRRORED. -/
structure Snap where
  take     : Option Take
  hold     : Option SnapHold
  restore  : Option Restore
  importing : Option Nat             -- the import slot that the host may write
  waiting  : List Cmd                -- commands that G3 has not yet accepted (R242)
  serve    : Option (Nat × Nat)      -- a mirror that the hub behind P0 fetches: slot, flits sent
  drains   : List Drain
  nextDrain : Nat
  mirOut   : Option MirrorOut
  mirIn    : Option MirrorIn
  acked    : Option Nat              -- the local generation whose mirror was acknowledged last (R238)
  peerGen  : Nat                     -- newest generation of this hub's that the neighbour is known to hold (R234)
  peerUnits : Option Nat             -- the neighbour's mirror slot size (MIR_SLOTS)
  deriving DecidableEq, Repr

def Colls.init : Colls := { list := [], pools := [], opens := 0, made := 0, turn := 0, posts := [], steps := [], grants := [], stale := [] }

/-- COACH_STBL at reset: every table FREE. -/
def Table.init : Table :=
  { st := .free, raw := [], last := 0, queue := [], run := none, applies := [], applying := none, appRows := 0, appNan := 0,
    overflow := false, outFail := [] }

def Tables.init : Tables := { table := [], chunks := [], outs := [], define := none }

def Snap.init : Snap :=
  { take := none, hold := none, restore := none, importing := none, waiting := [], serve := none, drains := [], nextDrain := 0, mirOut := none, mirIn := none, acked := none,
    peerGen := 0, peerUnits := none }

end Sys2Proof.Machine
end

