-- ==== Sys2Proof/Machine/StateBoard.lean ====
section
/-! DEFINITION. Chapters 13 to 15 and 17: guards, images and trust, the Peal sequencer, power, heat and coolant, and the
module's board beyond their registers. -/

namespace Sys2Proof.Machine

/-- R384: an update session. States: 1 RECEIVING, 2 VERIFYING, 3 VERIFIED, 4 DEFERRED. -/
structure Session where
  state  : Nat
  kind   : Nat
  role   : Nat
  holder : Nat                 -- source address, 128 bits (R384)
  header : List Byte
  body   : List Byte
  mark   : Nat                 -- `Drum.beats` at the holder's last message
  piece  : Option (List Byte)  -- data being programmed (R385)
  mode   : Nat                 -- of a deferred UPD_ACTIVATE
  deriving DecidableEq, Repr

/-- Chapter 13. Image kinds: 0 standby, 1 boot stage, 2 guard firmware, 3 partner. A selector holds UPD_SLOTS' four bits:
1 active slot, 2 FALLBACK, 4 on trial, 8 awaiting a restart. -/
structure Trust where
  puf       : Bool                  -- R392: the seed was reconstructed
  owner     : Option (List Byte)    -- the enrolled owner key (R394)
  images    : KMap (List Byte)      -- header and body per kind × 2 + slot
  selector  : KMap Nat              -- per kind
  floor     : KMap Nat              -- rollback floor per kind (R389)
  session   : Option Session
  staged    : Option (List Byte)    -- the partner image that the window serves (R391)
  trialFails : Nat                  -- failures of a kind 0x02 or 0x03 trial (R388)
  spdm      : KMap Nat              -- per role: 0 start, 1 version, 2 capabilities, 3 algorithms
  draws     : Nat                   -- nonces drawn
  gRestarts : KMap (List Nat)       -- per guard: `Drum.beats` at its restarts (R373)
  cRestarts : KMap (List Nat)       -- per guard: at its compartments' restarts
  accepts   : Nat                   -- KIND that recovery accepts: 2 boot stage, 3 guard firmware, 0 outside recovery (R378)
  restart   : Option Nat            -- the restart that a MODE 1 activation of this kind makes after its reply (R386)
  unquiet   : Nat                   -- `Drum.beats` + 1 at the last beat with a condition of R387 in force
  spdmLog   : KMap (List Byte)      -- per role: what its exchange has carried (R396)
  spdmLost  : List Nat              -- roles whose next SPDM request a restart turns away (R376)
  damaged   : List Nat              -- flash partitions and records whose check failed at the last standby reset (log 140)
  found     : KMap Nat              -- selectors as the boots show them where there is no authenticated region (R392)
  running   : KMap (List Byte)      -- images that run, per kind (R397)
  deriving DecidableEq, Repr

/-- R402: the sequence record. -/
structure PealRecord where
  ref      : PealRef
  aPresent : BitVec 8
  deriving DecidableEq, Repr

/-- What the current word of a run waits for (R403). -/
inductive PealWait where
  | en (slot dep : Nat)
  | chk (slot dep : Nat)
  | time
  | stagger
  | discharge (slot : Nat)
  deriving DecidableEq, Repr

/-- A run of the sequencer. Modes of Table 14.7: 0 upper, 1 lower normal, 2 lower fault. -/
structure PealRun where
  mode    : Nat
  fail    : Bool
  wait    : Option PealWait
  steps   : Nat
  stagger : Bool               -- a STAGGER of this run has completed
  stop    : Bool               -- the run stops after its current word (Table 14.6)
  first   : Option (Nat × Nat) -- the attempt's first failing slot and its EVENT code (R410)
  deriving DecidableEq, Repr

/-- What follows a lower run (R410, R414). -/
inductive PealNext where
  | off
  | retry
  | hold
  deriving DecidableEq, Repr

/-- Chapter 14. A program is an image; none is the built-in program. -/
structure Peal where
  copyA   : List Byte
  copyB   : List Byte
  record  : Option PealRecord
  eff     : PealRecord         -- the record that the last upper run read
  prog    : Option (List Byte)
  run     : Option PealRun
  next    : PealNext
  failed  : Nat                -- failed attempts (R410)
  running : W64                -- R407: slots good with their enable asserted
  chatter : KMap Nat           -- per slot, of the attempt (R406)
  mv      : KMap Nat           -- last monitor reading of a slot, plus 1
  log     : List (List Byte)   -- records in flash, oldest first (R415)
  logNext : W32
  failedSeq : Bool             -- an attempt has failed since the sequence last reached ON or OFF (R416)
  offSeen : Bool               -- the order went off while LOCKED_OUT (R413)
  loading : Option (List Byte) -- a checked image being written (R401)
  deriving DecidableEq, Repr

/-- Chapter 15. Power in milliwatts. Emergencies: 0 hub junction, 1 memory device, 2 leak warning, 3 coolant flow,
0x10 + n partner warm, 0x20 + n partner hot, 0x40 + s rail of slot s. -/
structure Power where
  pIn      : Nat               -- P_in at the last scan
  coreScan : Nat               -- P_core at that scan
  meas     : Nat               -- P_meas
  slotMw   : KMap Nat          -- power of each counted slot at the last scan
  hotSince : Bool              -- the junction is at 100 °C or more
  emerg    : List Nat
  capHot   : Nat               -- hub emergency cap of the junction, mW
  capMem   : Nat               -- hub emergency cap of the memory devices, mW
  holdoff  : Nat               -- scans until the tray cap loop may raise again (R427)
  lowScans : Nat               -- scans at or below 0.9 of the tray cap
  winN     : Nat               -- 20 µs periods of the running window (R422)
  winB     : Nat               -- sum of b over them
  winMax   : Nat               -- periods with b 48 and P_meas above C_h
  winLow   : Nat               -- periods with P_meas at or below C_h
  zeroWins : Nat               -- consecutive windows with b 0 throughout
  sumMeas  : List (Nat × Nat)  -- sum of P_meas and periods of these windows, newest first, ten at most
  winMeas  : Nat               -- sum of P_meas over the running window
  step     : Option Nat        -- the operating point being moved to (R423)
  policy   : KMap Nat          -- policy level per partner
  pendPolicy : KMap Nat        -- policy level held under R191, plus 1
  share    : List Nat          -- slope share in effect per partner, in 1/256
  pendShare : KMap Nat         -- slope share held, plus 1
  budget   : Nat               -- slope budget in effect [W/ms]
  spread   : List (Nat × Nat)  -- R193: an open collective and the member whose emergency it follows
  bucket   : KMap Nat          -- what is missing from each partner's bucket, in 10 µW ÷ 215,040 (256 × 840)
  granted  : KMap Nat          -- W granted since the last scan
  allow    : KMap Nat          -- allowance A_n [W]
  fine     : KMap Nat          -- nJ carried towards each tag's next mJ, partner n as 16 + n
  hotSweeps : Nat              -- consecutive sweeps at 110 °C or more
  tripTimes : List Nat         -- `Drum.beats` of thermal trips within the last hour
  leakWarn : KMap Nat          -- consecutive samples at or above half the threshold, per input
  leakTrip : KMap Nat          -- consecutive samples at or above the threshold
  offLeak  : Bool              -- the effective power order has been off since the leak trip
  offTherm : Bool              -- the effective power order has been off since the thermal trip
  cleared  : KMap Nat          -- per slot: `Drum.beats` at the last CLEAR_FAULTS, plus 1
  railBad  : List Nat          -- slots whose last STATUS_WORD had a summary bit set
  hot      : Nat               -- hottest junction sensor of the last sweep [°C]
  sweepAt  : Nat               -- `Drum.beats` at the last sweep, plus 1
  trimSteps : Nat              -- R434: voltage offset stored in flash
  duty10   : KMap Nat          -- duty of each output in tenths of a percent, while it falls (R438)
  kicking  : List Nat          -- outputs in a kick (R440)
  capSeen  : Nat × Nat         -- C_h and C_t last sent in CAP_CHANGED
  third    : Bool              -- a third thermal trip came within one hour of the first of the three (R442)
  trimmed  : Bool              -- R434: a trim has taken place since the main domain's last release
  volt     : Nat               -- the operating point whose voltages the core rails carry (R423)
  deriving DecidableEq, Repr

/-- Chapter 17. -/
structure Board where
  bad54   : Bool               -- VIN_54V is out of range (R476)
  bad12   : Bool
  refMark : Nat                -- `Drum.beats` at the reference of the timeline (Table 17.10)
  lead    : Nat                -- beats since the reference when the standby domain left reset (Table 17.10)
  cold    : Bool               -- the timeline is that of a cold start
  filling : Bool               -- the timeline includes the fill
  tempAt  : KMap Nat           -- per partner: `Drum.beats` of the last TEMP_HOT reading, plus 1
  linkBad : List Nat           -- partners whose LINK_STATE is read again 1 ms after it showed a port not ACTIVE (R311)
  fltHeld : List Nat           -- partners whose ACCn_FLT_N has been taken and not released (R486)
  stbyBoot : Bool              -- the standby image runs
  daaSent : List Nat           -- partners that have been sent RSTDAA since their release (R490)
  applyMark : Nat              -- `Drum.beats` when the apply that left NO_CONSIST completed, plus 1 (R494)
  bootLog : List Nat           -- reasons for which both standby slots failed, slot A first (R377)
  deriving DecidableEq, Repr

/-- A factory-fresh module: no owner, no images beyond those the ROM holds (DESIGN CHOICE, log 3). -/
def Trust.init : Trust :=
  { puf := false, owner := none, images := [], selector := [], floor := [], session := none, staged := none, trialFails := 0,
    spdm := [], draws := 0, gRestarts := [], cRestarts := [], accepts := 0, restart := none, unquiet := 0, spdmLog := [],
    spdmLost := [], damaged := [], found := [], running := [] }

/-- R402: what stands for an absent sequence record: preset 6 with A_PRESENT 0. -/
def PealRecord.none6 : PealRecord := { ref := (presetConsist 6).peal, aPresent := 0 }

/-- R402: no copies, no record, nothing running. -/
def Peal.init : Peal :=
  { copyA := [], copyB := [], record := none, eff := PealRecord.none6, prog := none, run := none, next := .off, failed := 0, running := 0,
    chatter := [], mv := [], log := [], logNext := 0, failedSeq := false, offSeen := false, loading := none }

def Power.init : Power :=
  { pIn := 0, coreScan := 0, meas := 0, slotMw := [], hotSince := false, emerg := [], capHot := 0, capMem := 0, holdoff := 0,
    lowScans := 0, winN := 0, winB := 0, winMax := 0, winLow := 0, zeroWins := 0, sumMeas := [], winMeas := 0, step := none,
    policy := [], pendPolicy := [], share := [0, 0, 0, 0, 0, 0, 0, 0], pendShare := [], budget := 1000, spread := [],
    bucket := [], granted := [], allow := [], fine := [], hotSweeps := 0, tripTimes := [], leakWarn := [], leakTrip := [],
    offLeak := false, offTherm := false, cleared := [], railBad := [], hot := 0, sweepAt := 0, trimSteps := 0, duty10 := [], kicking := [], capSeen := (830, 0xFFFFFFFF),
    third := false, trimmed := false, volt := 0 }

def Board.init : Board :=
  { bad54 := false, bad12 := false, refMark := 0, lead := 0, cold := true, filling := true, tempAt := [], linkBad := [], fltHeld := [],
    stbyBoot := false, daaSent := [], applyMark := 0, bootLog := [] }

end Sys2Proof.Machine
end

