-- ==== Sys2Proof/Machine/State.lean ====
section
/-! DEFINITION. The state of the hub: everything the spec gives it, as plain data, and the state after reset. -/

namespace Sys2Proof.Machine

/-- Why a step can stop with a fault. The block reports its errors in its own state (fault messages, statuses, error bits), so no
meaning raises one. -/
inductive Fault where
  /-- Raised by no meaning; the type is inhabited only so that it can be named. Safe. -/
  | none
  deriving DecidableEq, Repr

/-- Why the model refuses a command. -/
inductive Refusal where
  /-- Raised by an arm of `exec` whose command has no meaning yet. Safe. -/
  | notModelled (mnemonic : String)
  deriving DecidableEq, Repr

/-- Chapter 02 beyond registers. Effective exclusions are those of R94 and R329. -/
structure ConsistSt where
  slotA : Image
  slotB : Image
  activeSlot : Option Bool       -- none, A (false) or B (true)
  pendingImg : Bool              -- a slot holds a pending image
  pendingAt : Bool               -- that slot: A (false) or B (true)
  floor : Nat
  cfg : Consist                  -- the configuration in effect
  applied : Bool                 -- a Consist is in effect (not NO_CONSIST, not before the first apply)
  excl : BitVec 512
  rakeOut : BitVec 16
  load : Option ConsistLoad
  apply : Option ConsistApply
  booted : Bool                  -- R27 is finished (R53)
  unitFailed : Option Nat        -- a standing UNIT_FAILED refusal: its DETAIL (R94, R329, Table 12.6)
  deriving DecidableEq, Repr

/-- The hub. Registers are keyed by their offset from 0xFF00_0000_0000 and list what differs from the reset value; `staged`
lists staged copies that differ from the live ones (R50); `mem` lists the non-zero bytes of module memory, coach memories
and yards, `poison` the poisoned 64-byte blocks; `outbox` is what the hub has sent, oldest first; `free` counts the free
values taken; `pending` is the queue of commands. -/
structure State where
  stbyDom : DomCond
  mainDom : DomCond
  mainPower : Bool               -- the main domain's rails are up (MPWR)
  regs    : KMap W64
  staged  : KMap W64
  flash   : KMap W64             -- register values stored in flash: rings, Ethernet settings, partner power
  mem     : List Host.Cell
  poison  : List Nat
  consist : ConsistSt
  coaches : Coaches
  drum    : Drum
  memctl  : MemCtl
  belfry  : Belfry
  bist    : Bist
  ports   : KMap Port
  host    : HostSt
  colls   : Colls
  tables  : Tables
  snap    : Snap
  trust   : Trust
  peal    : Peal
  power   : Power
  board   : Board
  outbox  : List Out
  free    : Nat
  pending : List Instr
  deriving DecidableEq, Repr

/-- R25, R28, R53: no image, no slot active, preset 6 in effect. -/
def ConsistSt.init : ConsistSt :=
  { slotA := [], slotB := [], activeSlot := none, pendingImg := false, pendingAt := false, floor := 0, cfg := presetConsist 6, applied := false,
    excl := 0, rakeOut := 0, load := none, apply := none, booted := false, unitFailed := none }

/-- R359, R360: both orders on, caps at the limits of preset 6, no job. -/
def HostSt.init : HostSt :=
  { conns := [], prod := [], cons := [], drr := [], waiting := [], ext := [], target := [], kept := [], lastUdp := [],
    noteSeq := [], owed := [], held := [], ethUp := [], bodies := [], buffers := [], router := [], paused := [], interval := [], subCredit := [], offHost := false, offRack := false,
    storedOffHost := false, storedOffRack := false, capHubHost := 350, capHubRack := 350, capTrayHost := 0xFFFFFFFF,
    capTrayRack := 0xFFFFFFFF, job := none, ending := none, record := none, heldEnd := none }

/-- The hub right after a standby-domain power-on reset (R12, R478): the standby domain in power-on reset, the main domain
unpowered, every register at its reset value, nothing in memory, flash as a factory-fresh module holds it. -/
def State.reset : State :=
  { stbyDom := .inReset, mainDom := .off, mainPower := false, regs := [], staged := [], flash := [], mem := [], poison := [],
    consist := ConsistSt.init, coaches := Coaches.init, drum := Drum.init, memctl := MemCtl.init, belfry := Belfry.init,
    bist := Bist.init, ports := [], host := HostSt.init, colls := Colls.init, tables := Tables.init, snap := Snap.init,
    trust := Trust.init, peal := Peal.init, power := Power.init, board := Board.init, outbox := [], free := 0, pending := [] }

end Sys2Proof.Machine
end

