-- ==== Sys2Proof/Machine/Registers.lean ====
section
/-! DEFINITION. Chapter 18: every register of the hub, with the fields, access codes and reset values that its own
chapter gives (R7, R8, R497). Registers are named by their offset from 0xFF00_0000_0000. -/

namespace Sys2Proof.Machine

/-- Table 0.3. -/
inductive Acc where
  | rw | ro | wo | w1c | w1s | rws
  deriving DecidableEq, Repr

/-- Table 0.4. -/
inductive Dom where
  | stby | mpwr | main
  deriving DecidableEq, Repr

/-- One field: bits [hi:lo], access code, reset value, commit group (of an RWS field). -/
structure FieldDesc where
  hi : Nat
  lo : Nat
  acc : Acc
  rst : Nat
  deriving DecidableEq, Repr

/-- One row of Table 18.3: block, offset of the first (within its port window in the CPL block), distance and number
of the registers, width, domain, whether the world is S only in a fixed-secure block, the fields. -/
structure RegDesc where
  blk : Nat
  off : Nat
  stride : Nat
  count : Nat
  w32 : Bool
  dom : Dom
  sOnly : Bool
  fields : List FieldDesc
  deriving DecidableEq, Repr

/-- A field that reads as its reset value after reset. -/
def fd (hi lo : Nat) (acc : Acc) (rst : Nat) : FieldDesc := ⟨hi, lo, acc, rst⟩

/-- Chapters 00, 02, 13: ID, CFG and UPD. -/
def regsCfg : List RegDesc :=
  [ ⟨0, 0x0000, 8, 1, false, .main, false, [fd 63 32 .ro 0, fd 31 24 .ro 6, fd 23 20 .ro 2, fd 19 19 .ro 0, fd 18 18 .ro 0,
      fd 16 16 .ro 0, fd 15 8 .ro 0]⟩,
    ⟨0, 0x0100, 8, 6, false, .main, false, [fd 63 60 .ro 1, fd 59 59 .ro 1, fd 55 48 .ro 0, fd 47 32 .ro 0, fd 31 16 .ro 0]⟩,
    ⟨0, 0x0140, 8, 1, false, .stby, false, [fd 63 48 .ro 0]⟩,
    ⟨11, 0x0000, 8, 1, false, .main, false, [fd 63 60 .ro 0, fd 59 52 .ro 0, fd 51 50 .ro 0, fd 47 32 .ro 0, fd 31 0 .ro 0]⟩,
    ⟨11, 0x0008, 8, 1, true, .main, false, [fd 15 12 .ro 0, fd 11 8 .ro 0, fd 7 4 .ro 0, fd 3 3 .ro 0]⟩,
    ⟨11, 0x0100, 8, 4, false, .main, false, [fd 63 0 .ro 0]⟩,
    ⟨11, 0x0200, 8, 4, false, .main, false, [fd 63 0 .ro 0]⟩,
    ⟨12, 0x0010, 8, 4, false, .stby, false, [fd 63 0 .ro 0]⟩,
    ⟨12, 0x0040, 8, 4, false, .stby, false, [fd 63 0 .ro 0]⟩,
    ⟨12, 0x0080, 8, 1, false, .main, false, [fd 63 63 .ro 0, fd 62 62 .ro 0, fd 31 0 .ro 0]⟩,
    ⟨12, 0x0090, 8, 4, false, .main, false, [fd 63 0 .ro 0]⟩,
    ⟨12, 0x0000, 8, 1, true, .stby, false, [fd 31 24 .ro 0x47, fd 23 16 .ro 0x08, fd 15 12 .ro 1, fd 11 8 .ro 1,
      fd 7 4 .ro 1, fd 3 0 .ro 3]⟩ ]

/-- Chapters 03, 05: COACH. -/
def regsCoach : List RegDesc :=
  [ ⟨9, 0x0000, 8, 1, false, .main, false, [fd 6 0 .rw 0x20]⟩,
    ⟨9, 0x0010, 8, 1, false, .main, false, [fd 63 0 .ro 0]⟩,
    ⟨9, 0x0100, 8, 8, false, .mpwr, false, [fd 63 0 .ro 0]⟩,
    ⟨9, 0x0200, 8, 8, false, .main, false, [fd 63 0 .ro 0xFFFFFFFFFFFFFFFF]⟩,
    ⟨9, 0x10000, 8, 512, false, .main, false, [fd 63 60 .ro 0xF, fd 59 56 .ro 0, fd 47 40 .ro 0, fd 39 32 .ro 0,
      fd 31 16 .ro 0, fd 15 8 .ro 0, fd 7 4 .ro 0]⟩,
    ⟨9, 0x20000, 8, 8, false, .main, false, [fd 63 32 .ro 0, fd 31 24 .ro 0, fd 23 20 .ro 0]⟩,
    ⟨9, 0x20100, 8, 8, false, .main, false, [fd 63 32 .ro 0, fd 31 0 .ro 0]⟩,
    ⟨9, 0x30000, 8, 64, false, .main, false, [fd 63 40 .ro 0, fd 39 36 .ro 0, fd 35 32 .ro 0xF, fd 31 24 .ro 0, fd 23 16 .ro 0,
      fd 15 15 .ro 0]⟩,
    ⟨9, 0x31000, 8, 1, false, .main, false, [fd 63 48 .ro 0, fd 47 32 .ro 0, fd 31 0 .ro 0]⟩ ]

/-- Chapter 09 (and 06): DRUM. -/
def regsDrum : List RegDesc :=
  [ ⟨1, 0x0000, 8, 1, false, .stby, false, [fd 63 0 .ro 0]⟩,
    ⟨1, 0x0008, 8, 1, false, .stby, false, [fd 63 60 .ro 0, fd 59 58 .ro 0, fd 55 48 .ro 0xFF, fd 47 32 .ro 0, fd 31 0 .ro 0]⟩,
    ⟨1, 0x0010, 8, 1, false, .main, false, [fd 63 48 .ro 0, fd 47 32 .ro 0, fd 31 0 .ro 0]⟩,
    ⟨1, 0x0020, 8, 1, true, .stby, false, [fd 31 28 .rws 0, fd 27 24 .rws 0, fd 23 20 .rws 0, fd 19 16 .rws 0,
      fd 15 12 .rws 0, fd 11 8 .rws 0, fd 7 4 .rws 0, fd 3 0 .rws 0]⟩,
    ⟨1, 0x0030, 8, 1, false, .main, false, [fd 63 56 .ro 1, fd 55 48 .ro 0, fd 47 47 .ro 0, fd 31 0 .ro 0]⟩,
    ⟨1, 0x0040, 8, 1, false, .main, false, [fd 63 32 .ro 0, fd 31 0 .ro 0]⟩,
    ⟨1, 0x0100, 8, 16, false, .main, false, [fd 63 32 .ro 0, fd 31 0 .rw 0]⟩,
    ⟨1, 0x40000, 8, 1, false, .main, false, [fd 63 32 .rw 0x2625A0, fd 31 0 .rw 0x2625A0]⟩,
    ⟨1, 0x40008, 8, 1, false, .main, false, [fd 63 56 .ro 0, fd 55 48 .ro 0, fd 47 32 .ro 0, fd 31 16 .ro 0, fd 15 0 .ro 0]⟩,
    ⟨1, 0x40100, 8, 8, false, .main, false, [fd 63 32 .ro 0, fd 31 0 .ro 0]⟩ ]

/-- Chapter 16: FLT. -/
def regsFlt : List RegDesc :=
  [ ⟨2, 0x0000, 8, 1, false, .main, false, [fd 63 51 .ro 0, fd 47 32 .ro 0, fd 31 0 .ro 0]⟩,
    ⟨2, 0x0008, 8, 1, false, .main, false, [fd 29 0 .ro 0]⟩,
    ⟨2, 0x0010, 8, 2, false, .main, true, [fd 63 0 .ro 0]⟩,
    ⟨2, 0x0020, 8, 1, false, .main, true, [fd 63 63 .wo 0, fd 17 16 .wo 0, fd 9 0 .wo 0]⟩,
    ⟨2, 0x0028, 8, 1, false, .stby, false, [fd 63 63 .ro 0, fd 62 62 .ro 0, fd 61 61 .ro 0, fd 60 60 .ro 0, fd 59 59 .ro 0,
      fd 0 0 .ro 0]⟩,
    ⟨2, 0x0030, 8, 1, false, .main, false, [fd 63 48 .rw 0x64]⟩,
    ⟨2, 0x0038, 8, 1, false, .main, false, [fd 47 42 .ro 0, fd 41 32 .ro 0, fd 31 16 .ro 0, fd 15 0 .ro 0]⟩,
    ⟨2, 0x0100, 8, 12, false, .main, false, [fd 63 48 .ro 0, fd 47 32 .ro 0, fd 31 16 .ro 0, fd 15 0 .ro 0]⟩,
    ⟨2, 0x0200, 8, 16, false, .stby, false, [fd 63 0 .w1c 0]⟩,
    ⟨2, 0x0300, 8, 16, false, .mpwr, false, [fd 63 0 .ro 0]⟩,
    ⟨2, 0x0400, 8, 12, false, .main, true, [fd 63 0 .ro 0]⟩,
    ⟨2, 0x10000, 8, 1024, false, .main, false, [fd 63 48 .ro 0, fd 47 40 .ro 0, fd 39 39 .ro 0, fd 38 38 .ro 0, fd 37 37 .ro 0,
      fd 36 36 .ro 0, fd 31 16 .ro 0]⟩,
    ⟨2, 0x20000, 8, 1024, true, .stby, false, [fd 11 8 .rws 7, fd 7 4 .rws 5, fd 3 0 .rws 0]⟩ ]

/-- Chapter 11 (and 08): MEM. -/
def regsMem : List RegDesc :=
  [ ⟨8, 0x0000, 8, 1, false, .main, false, [fd 63 60 .ro 1, fd 59 59 .ro 0, fd 47 32 .ro 0, fd 31 16 .ro 0, fd 15 0 .ro 0]⟩,
    ⟨8, 0x0008, 8, 1, false, .mpwr, false, [fd 47 0 .ro 0]⟩,
    ⟨8, 0x0010, 8, 1, false, .main, false, [fd 63 56 .rw 0x18, fd 47 32 .ro 0, fd 31 0 .ro 0]⟩,
    ⟨8, 0x0018, 8, 1, false, .main, false, [fd 63 63 .ro 0, fd 56 48 .ro 0, fd 47 0 .ro 0]⟩,
    ⟨8, 0x10000, 8, 384, false, .main, false, [fd 63 48 .ro 0, fd 47 40 .ro 0, fd 39 36 .ro 0, fd 31 28 .ro 0]⟩,
    ⟨8, 0x20000, 8, 256, false, .main, false, [fd 63 0 .ro 0]⟩,
    ⟨8, 0x80000, 8, 1, false, .main, false, [fd 63 60 .ro 0, fd 59 59 .ro 0, fd 58 58 .ro 0, fd 57 57 .ro 0, fd 56 56 .ro 0,
      fd 55 55 .ro 0, fd 31 0 .ro 0]⟩,
    ⟨8, 0x80008, 8, 3, false, .main, false, [fd 63 60 .ro 0, fd 59 56 .ro 0, fd 55 0 .ro 0]⟩,
    ⟨8, 0x80020, 8, 1, false, .main, false, [fd 63 32 .ro 0, fd 31 0 .ro 0]⟩ ]

/-- Chapter 16: BIST. -/
def regsBist : List RegDesc :=
  [ ⟨10, 0x0000, 8, 1, false, .main, false, [fd 63 63 .rw 1, fd 47 32 .rw 0x3C, fd 31 16 .rw 0xC8]⟩,
    ⟨10, 0x0008, 8, 1, false, .main, false, [fd 63 54 .ro 0, fd 47 32 .ro 0, fd 31 16 .ro 0, fd 15 0 .ro 0]⟩,
    ⟨10, 0x0010, 8, 1, false, .main, false, [fd 63 62 .ro 0, fd 61 61 .ro 0, fd 60 59 .ro 0, fd 57 48 .ro 0, fd 47 32 .ro 0]⟩,
    ⟨10, 0x0018, 8, 1, false, .main, false, [fd 63 0 .ro 0]⟩,
    ⟨10, 0x0020, 8, 1, false, .main, false, [fd 63 63 .w1s 0, fd 9 0 .rw 0]⟩,
    ⟨10, 0x0100, 8, 4, false, .main, false, [fd 63 0 .ro 0]⟩ ]

/-- Chapter 15: PCAP. -/
def regsPcap : List RegDesc :=
  [ ⟨3, 0x0000, 8, 1, false, .main, false, [fd 63 60 .ro 0, fd 59 54 .ro 0, fd 53 53 .ro 0, fd 47 32 .ro 0x33E,
      fd 31 0 .ro 0xFFFFFFFF]⟩,
    ⟨3, 0x0008, 8, 1, false, .main, false, [fd 63 48 .ro 0, fd 47 40 .ro 0, fd 31 0 .ro 0]⟩,
    ⟨3, 0x0010, 8, 1, false, .main, false, [fd 63 32 .ro 0xFFFFFFFF, fd 5 0 .ro 0]⟩,
    ⟨3, 0x0020, 8, 1, false, .main, false, [fd 63 56 .rws 4, fd 55 48 .rws 5, fd 47 40 .rws 0x18, fd 39 32 .rws 0x28,
      fd 31 28 .rws 0]⟩,
    ⟨3, 0x0028, 8, 1, false, .main, false, [fd 63 56 .rws 5]⟩,
    ⟨3, 0x0030, 8, 1, false, .main, false, [fd 63 0 .rws 0]⟩,
    ⟨3, 0x0040, 8, 1, false, .main, false, [fd 63 32 .ro 0, fd 31 0 .ro 0]⟩,
    ⟨3, 0x0048, 8, 1, false, .main, false, [fd 63 59 .ro 0, fd 58 58 .ro 0, fd 47 32 .ro 0, fd 31 0 .ro 0]⟩,
    ⟨3, 0x0050, 8, 2, false, .main, false, [fd 63 0 .ro 0]⟩,
    ⟨3, 0x0100, 8, 8, false, .main, false, [fd 63 48 .rws 1000, fd 47 32 .rws 100, fd 31 24 .rws 85, fd 23 16 .rws 100]⟩,
    ⟨3, 0x0200, 8, 8, false, .main, false, [fd 63 62 .ro 0, fd 61 60 .ro 0, fd 59 58 .ro 0, fd 57 56 .ro 0, fd 47 32 .ro 0,
      fd 31 0 .ro 0]⟩,
    ⟨3, 0x0300, 8, 16, false, .mpwr, false, [fd 63 0 .ro 0]⟩,
    ⟨3, 0x0380, 8, 8, false, .mpwr, false, [fd 63 0 .ro 0]⟩ ]

/-- Chapter 14: PSEQ. -/
def regsPseq : List RegDesc :=
  [ ⟨4, 0x0000, 8, 1, false, .stby, false, [fd 63 60 .ro 0, fd 59 58 .ro 0, fd 57 54 .ro 0, fd 53 53 .ro 0, fd 47 40 .ro 0,
      fd 31 23 .ro 0, fd 15 0 .ro 0]⟩,
    ⟨4, 0x0008, 8, 1, false, .stby, false, [fd 63 0 .ro 0]⟩,
    ⟨4, 0x0010, 8, 1, false, .stby, false, [fd 63 0 .ro 0]⟩,
    ⟨4, 0x0018, 8, 1, false, .stby, false, [fd 63 63 .w1c 0, fd 55 50 .ro 0, fd 47 40 .ro 0, fd 31 16 .ro 0, fd 15 0 .ro 0]⟩,
    ⟨4, 0x0020, 8, 1, false, .stby, false, [fd 63 32 .ro 0, fd 31 0 .ro 0]⟩,
    ⟨4, 0x0028, 8, 1, false, .stby, false, [fd 31 0 .ro 0]⟩,
    ⟨4, 0x0100, 8, 1, false, .main, true, [fd 63 63 .w1s 0, fd 62 60 .ro 0, fd 55 48 .ro 0, fd 47 12 .rw 0]⟩ ]

/-- Chapter 15: COOL. -/
def regsCool : List RegDesc :=
  [ ⟨5, 0x0000, 8, 10, true, .stby, false, [fd 31 24 .rws 1, fd 23 16 .rws 9, fd 15 8 .rws 0x64, fd 7 0 .rws 0x1E]⟩,
    ⟨5, 0x0050, 8, 2, true, .stby, false, [fd 31 24 .rws 3, fd 23 16 .rws 9, fd 15 8 .rws 0x64, fd 7 0 .rws 0x1E]⟩,
    ⟨5, 0x0100, 8, 12, false, .stby, false, [fd 63 56 .rws 3, fd 55 48 .rws 0x64, fd 47 40 .rws 2, fd 39 32 .rws 0x64,
      fd 31 24 .rws 1, fd 23 16 .rws 0x64, fd 15 8 .rws 0, fd 7 0 .rws 0x64]⟩,
    ⟨5, 0x0200, 8, 12, true, .stby, false, [fd 31 24 .rws 0, fd 23 16 .rws 0, fd 15 8 .rws 0, fd 7 0 .rws 0]⟩,
    ⟨5, 0x0300, 8, 12, true, .stby, false, [fd 31 24 .rws 0, fd 23 16 .rws 0, fd 15 8 .rws 0, fd 7 0 .rws 0]⟩,
    ⟨5, 0x0400, 8, 12, false, .stby, false, [fd 63 60 .ro 2, fd 59 56 .ro 0, fd 55 48 .ro 0x64, fd 31 16 .ro 0, fd 15 0 .ro 0]⟩,
    ⟨5, 0x0500, 8, 2, false, .stby, false, [fd 63 48 .rws 0x3E8, fd 47 32 .rws 0x3E8, fd 31 16 .rws 0x3E8, fd 15 0 .rws 0x3E8]⟩,
    ⟨5, 0x0510, 8, 2, false, .stby, false, [fd 63 0 .ro 0]⟩,
    ⟨5, 0x0600, 8, 1, false, .stby, false, [fd 63 63 .ro 0, fd 62 62 .ro 0, fd 61 61 .ro 0, fd 60 60 .ro 0, fd 55 48 .ro 0,
      fd 47 32 .ro 0, fd 31 16 .ro 0, fd 15 0 .ro 0]⟩ ]

/-- The fields of RING_CFG with ROLE `role` (R348). -/
def ringCfgFields (role : Nat) : List FieldDesc :=
  [fd 63 63 .rws 0, fd 62 60 .rws 0, fd 59 59 .rws role, fd 58 55 .rws 0xF, fd 54 49 .rws 4, fd 48 41 .rws 0x10, fd 40 37 .rws 0,
   fd 36 36 .rws 0]

/-- Chapter 12: RING. -/
def regsRing : List RegDesc :=
  [ ⟨6, 0x0000, 16, 256, false, .main, false, [fd 47 12 .rws 0]⟩,
    ⟨6, 0x0008, 16, 2, false, .main, false, ringCfgFields 0⟩,
    ⟨6, 0x0028, 16, 2, false, .main, false, ringCfgFields 1⟩,
    ⟨6, 0x0048, 16, 252, false, .main, false, ringCfgFields 0⟩,
    ⟨6, 0x1000, 8, 256, false, .main, false, [fd 63 32 .ro 0, fd 31 12 .ro 0, fd 11 0 .ro 0]⟩,
    ⟨6, 0x2000, 8, 1, true, .main, false, [fd 6 0 .ro 0]⟩ ]

/-- Chapter 10: a window of CPL. -/
def regsCpl : List RegDesc :=
  [ ⟨7, 0x0000, 8, 1, false, .main, false, [fd 63 60 .ro 0, fd 59 56 .ro 0, fd 55 48 .ro 0, fd 47 40 .ro 0, fd 39 32 .ro 0,
      fd 31 16 .ro 0, fd 15 8 .ro 0]⟩,
    ⟨7, 0x0008, 8, 1, true, .main, false, [fd 8 8 .w1s 0, fd 7 0 .rws 0]⟩,
    ⟨7, 0x0010, 8, 1, false, .main, false, [fd 63 32 .ro 0, fd 31 16 .ro 0, fd 15 0 .ro 0]⟩,
    ⟨7, 0x0018, 8, 1, false, .main, false, [fd 63 48 .ro 0, fd 47 32 .ro 0, fd 31 16 .ro 0, fd 15 0 .ro 0]⟩,
    ⟨7, 0x0020, 8, 1, false, .main, false, [fd 63 48 .ro 0, fd 47 40 .ro 0, fd 39 32 .ro 0, fd 31 24 .ro 0]⟩,
    ⟨7, 0x0100, 8, 8, false, .main, false, [fd 63 32 .ro 0, fd 31 24 .ro 0, fd 23 0 .ro 0]⟩,
    ⟨7, 0x1000, 16, 16, false, .main, false, [fd 47 12 .rws 0]⟩,
    ⟨7, 0x1008, 16, 16, false, .main, false, [fd 63 63 .rws 0, fd 62 59 .rws 0xF, fd 53 48 .rws 4]⟩,
    ⟨7, 0x1100, 8, 16, false, .main, false, [fd 63 32 .ro 0, fd 31 0 .ro 0]⟩ ]

/-- Chapter 12: ETH. -/
def regsEth : List RegDesc :=
  [ ⟨13, 0x0000, 8, 2, false, .main, false, [fd 63 63 .ro 0, fd 62 61 .ro 2, fd 55 48 .ro 0, fd 31 0 .ro 0]⟩,
    ⟨13, 0x0010, 8, 2, false, .stby, false, [fd 47 0 .ro 0]⟩,
    ⟨13, 0x0020, 8, 2, false, .main, false, [fd 63 63 .rws 0, fd 62 57 .rws 0, fd 56 56 .rws 0, fd 55 49 .rws 0, fd 48 48 .rws 0,
      fd 47 45 .rws 0, fd 44 44 .rws 0, fd 43 32 .rws 0]⟩,
    ⟨13, 0x0030, 8, 2, false, .main, false, [fd 63 32 .rws 0, fd 31 0 .rws 0]⟩,
    ⟨13, 0x0040, 8, 4, false, .main, false, [fd 63 0 .rws 0]⟩,
    ⟨13, 0x0100, 8, 2, false, .main, false, [fd 63 48 .ro 0, fd 47 32 .ro 0, fd 31 16 .ro 0, fd 15 0 .ro 0]⟩,
    ⟨13, 0x0200, 8, 1, false, .main, false, [fd 63 48 .ro 0, fd 47 47 .ro 0, fd 46 46 .ro 0, fd 31 16 .ro 0, fd 15 15 .ro 0]⟩ ]

/-- Chapter 17: SIDE. -/
def regsSide : List RegDesc :=
  [ ⟨14, 0x0000, 8, 8, false, .stby, false, [fd 63 60 .ro 0, fd 59 53 .ro 0, fd 52 52 .ro 0, fd 51 51 .ro 0, fd 50 50 .ro 0,
      fd 49 49 .ro 0, fd 47 44 .ro 0, fd 39 32 .ro 0, fd 31 24 .ro 0, fd 15 0 .ro 0]⟩,
    ⟨14, 0x0040, 8, 8, false, .stby, false, [fd 63 32 .ro 0, fd 31 0 .ro 0]⟩,
    ⟨14, 0x0100, 8, 1, false, .stby, false, [fd 55 48 .rw 0, fd 47 40 .w1s 0, fd 31 16 .rw 0xA]⟩,
    ⟨14, 0x0200, 8, 1, false, .stby, false, [fd 63 48 .ro 0, fd 47 32 .ro 0, fd 31 16 .ro 0, fd 1 1 .ro 0, fd 0 0 .ro 0]⟩,
    ⟨14, 0x0208, 8, 1, false, .stby, false, [fd 63 63 .ro 0, fd 62 62 .ro 0, fd 61 61 .ro 0, fd 15 0 .ro 0]⟩,
    ⟨14, 0x0300, 8, 1, false, .main, false, [fd 63 48 .ro 0, fd 47 32 .ro 0, fd 31 16 .ro 0, fd 15 0 .ro 0]⟩ ]

/-- R49: the commit register of a block, at its offset; the CPL block has one in each window. -/
def commitReg (blk off : Nat) (dom : Dom) (sOnly : Bool) : RegDesc :=
  ⟨blk, off, 8, 1, false, dom, sOnly, [fd 55 48 .ro 0, fd 39 39 .w1c 0, fd 38 38 .w1c 0, fd 31 16 .ro 0, fd 15 0 .wo 0]⟩

/-- Table 18.2: the commit registers. -/
def regsCommit : List RegDesc :=
  [commitReg 1 0xFFF00 .stby false, commitReg 2 0xFFF00 .stby true, commitReg 3 0xFFF00 .main false,
   commitReg 5 0xFFF00 .stby false, commitReg 6 0xFFF00 .main false, commitReg 7 0xFF00 .main false,
   commitReg 13 0xFFF00 .main false]

/-- Table 18.3. -/
def regTable : List RegDesc :=
  regsCfg ++ regsDrum ++ regsFlt ++ regsPcap ++ regsPseq ++ regsCool ++ regsRing ++ regsCpl ++ regsMem ++ regsCoach ++ regsBist ++
  regsEth ++ regsSide ++ regsCommit

end Sys2Proof.Machine
end

