-- ==== Sys2Proof/Machine/Ops.lean ====
section
/-! DEFINITION. The named operations over registers, memory, fault messages and the outbox. -/

namespace Sys2Proof.Machine

/-! ### Registers (R7 to R12) -/

/-- R6, R7: the register at an offset from 0xFF00_0000_0000: its row, its number within the row, the CPL window. -/
def regFind (a : Nat) : Option (RegDesc × Nat × Nat) :=
  let blk := a / 0x100000
  let port := if blk = 7 then a % 0x100000 / 0x10000 else 0
  let off := if blk = 7 then a % 0x10000 else a % 0x100000
  if blk = 7 ∧ port ≥ 10 then none
  else
    match regTable.find? fun d =>
        d.blk == blk && decide (d.off ≤ off) && (off - d.off) % d.stride == 0 && decide ((off - d.off) / d.stride < d.count) with
    | some d => some (d, (off - d.off) / d.stride, port)
    | none => none

/-- The reset value of a row of fields. -/
def fieldsReset (fs : List FieldDesc) : W64 := fs.foldl (fun v f => setBits v f.hi f.lo f.rst) 0

/-- R12: the reset value of the register at an offset; 0 where no register is. -/
def regReset (a : Nat) : W64 :=
  match regFind a with
  | some (d, _, _) => fieldsReset d.fields
  | none => 0

/-- The stored value of a register. Fields that the hub derives from other state are added by `readReg`. -/
def regGet (s : State) (a : Nat) : W64 := kget (regReset a) s.regs a

/-- Stores a register, in canonical form. -/
def regSet (s : State) (a : Nat) (v : W64) : State := { s with regs := kset (regReset a) s.regs a v }

/-- Bits [hi:lo] of a stored register. -/
def regBits (s : State) (a hi lo : Nat) : Nat := bits (regGet s a) hi lo

/-- Bits [hi:lo] of a stored register replaced. -/
def regPut (s : State) (a hi lo x : Nat) : State := regSet s a (setBits (regGet s a) hi lo x)

/-- A counter field raised by `n`, saturating at all ones. -/
def regAddSat (s : State) (a hi lo n : Nat) : State :=
  regPut s a hi lo (min (2 ^ (hi + 1 - lo) - 1) (regBits s a hi lo + n))

/-- A counter field raised by one, wrapping. -/
def regInc (s : State) (a hi lo : Nat) : State := regPut s a hi lo (regBits s a hi lo + 1)

/-- R50, R52: the staged copies of a list of registers discarded. -/
def unstage (s : State) (as : List Nat) : State :=
  { s with staged := s.staged.filter fun e => !as.contains e.1 }

/-- R14, R497: whether a block's registers of a domain answer now. -/
def domUp (s : State) (d : Dom) : Bool :=
  match d with
  | .stby => s.stbyDom == .up
  | _ => s.mainDom == .up

/-! Offsets the meanings use. -/

def rConsist : Nat := 0x000000
def rDrumStatus : Nat := 0x100008
def rDrumLate : Nat := 0x100010
def rPinDly : Nat := 0x100020
def rPtp : Nat := 0x100030
def rG4c : Nat := 0x100040
def rG4cEst (t : Nat) : Nat := 0x100100 + 8 * t
def rCollCtl : Nat := 0x140000
def rCollStat : Nat := 0x140008
def rCollFull (n : Nat) : Nat := 0x140100 + 8 * n
def rQstat : Nat := 0x200000
def rFltSeq : Nat := 0x200008
def rErrn : Nat := 0x200028
def rFltCtl : Nat := 0x200030
def rDomain : Nat := 0x200038
def rRecov (i : Nat) : Nat := 0x200100 + 8 * i
def rSticky (i : Nat) : Nat := 0x200200 + 8 * i
def rFatal (i : Nat) : Nat := 0x200300 + 8 * i
def rSrc (n : Nat) : Nat := 0x210000 + 8 * n
def rReact (n : Nat) : Nat := 0x220000 + 8 * n
def rMemStatus : Nat := 0x800000
def rMemFailed : Nat := 0x800008
def rScrub : Nat := 0x800010
def rLastErr : Nat := 0x800018
def rChErr (c : Nat) : Nat := 0x810000 + 8 * c
def rSnapStat : Nat := 0x880000
def rSnapSlot (i : Nat) : Nat := 0x880008 + 8 * i
def rSnapMirror : Nat := 0x880020
def rCoachCtl : Nat := 0x900000
def rSeed : Nat := 0x900010
def rCoachFailed (i : Nat) : Nat := 0x900100 + 8 * i
def rBistCtl : Nat := 0xA00000
def rBistStatus : Nat := 0xA00008
def rBistLast : Nat := 0xA00010
def rBistSig : Nat := 0xA00018
def rBistReq : Nat := 0xA00020
def rStbl (t : Nat) : Nat := 0x930000 + 8 * t
def rSstat : Nat := 0x931000
def rPcapStatus : Nat := 0x300000
def rPcapPower : Nat := 0x300008
def rPcapEmerg : Nat := 0x300010
def rPcapLoop : Nat := 0x300020
def rPcapSlope : Nat := 0x300028
def rPcapChain : Nat := 0x300030
def rDroop : Nat := 0x300040
def rTrim : Nat := 0x300048
def rTemp (i : Nat) : Nat := 0x300050 + 8 * i
def rPart (n : Nat) : Nat := 0x300100 + 8 * n
def rThr (n : Nat) : Nat := 0x300200 + 8 * n
def rEnergy (t : Nat) : Nat := 0x300300 + 8 * t
def rPenergy (n : Nat) : Nat := 0x300380 + 8 * n
def rPseq : Nat := 0x400000
def rPseqEn : Nat := 0x400008
def rPseqGood : Nat := 0x400010
def rPseqFirst : Nat := 0x400018
def rPseqProg : Nat := 0x400020
def rPseqLog : Nat := 0x400028
def rPseqLoad : Nat := 0x400100
def rCoolCfg (k : Nat) : Nat := 0x500000 + 8 * k
def rCoolCurve (k : Nat) : Nat := 0x500100 + 8 * k
def rSkipLo (k : Nat) : Nat := 0x500200 + 8 * k
def rSkipHi (k : Nat) : Nat := 0x500300 + 8 * k
def rCoolStatus (k : Nat) : Nat := 0x500400 + 8 * k
def rLeakMv (i : Nat) : Nat := 0x500500 + 8 * i
def rLeakRead (i : Nat) : Nat := 0x500510 + 8 * i
def rTrip : Nat := 0x500600
def rRingBase (r : Nat) : Nat := 0x600000 + 16 * r
def rRingCfg (r : Nat) : Nat := 0x600008 + 16 * r
def rRingStat (r : Nat) : Nat := 0x601000 + 8 * r
def rRingSvc : Nat := 0x602000
def rCplStatus (n : Nat) : Nat := 0x700000 + n * 0x10000
def rLaneCtl (n : Nat) : Nat := 0x700008 + n * 0x10000
def rCplErr (n : Nat) : Nat := 0x700010 + n * 0x10000
def rCplErr2 (n : Nat) : Nat := 0x700018 + n * 0x10000
def rCplCredit (n : Nat) : Nat := 0x700020 + n * 0x10000
def rCplLane (n i : Nat) : Nat := 0x700100 + n * 0x10000 + 8 * i
def rCplRingBase (n k : Nat) : Nat := 0x701000 + n * 0x10000 + 16 * k
def rCplRingCfg (n k : Nat) : Nat := 0x701008 + n * 0x10000 + 16 * k
def rCplRingStat (n k : Nat) : Nat := 0x701100 + n * 0x10000 + 8 * k
def rCfgGuard (g : Nat) : Nat := 0x000100 + 8 * g
def rSctl : Nat := 0x000140
def rUpd : Nat := 0xB00000
def rUpdSlots : Nat := 0xB00008
def rUpdFloor (k : Nat) : Nat := 0xB00100 + 8 * k
def rUpdVersion (k : Nat) : Nat := 0xB00200 + 8 * k
def rIdKey (i : Nat) : Nat := 0xC00010 + 8 * i
def rVendor (i : Nat) : Nat := 0xC00040 + 8 * i
def rOwner : Nat := 0xC00080
def rOwnerH (i : Nat) : Nat := 0xC00090 + 8 * i
def rEthStatus (p : Nat) : Nat := 0xD00000 + 8 * p
def rEthMac (p : Nat) : Nat := 0xD00010 + 8 * p
def rEthCtl (p : Nat) : Nat := 0xD00020 + 8 * p
def rEthIp4 (p : Nat) : Nat := 0xD00030 + 8 * p
def rEthIp6H (p : Nat) : Nat := 0xD00040 + 16 * p
def rEthIp6L (p : Nat) : Nat := 0xD00048 + 16 * p
def rEthCnt (p : Nat) : Nat := 0xD00100 + 8 * p
def rSilence : Nat := 0xD00200
def rSidePart (n : Nat) : Nat := 0xE00000 + 8 * n
def rSideFw (n : Nat) : Nat := 0xE00040 + 8 * n
def rSideCtl : Nat := 0xE00100
def rSupply : Nat := 0xE00200
def rPins : Nat := 0xE00208
def rBoot : Nat := 0xE00300
def rBistExpect (k : Nat) : Nat := 0xA00100 + 8 * k

/-! ### What the hub sends -/

/-- Appends one thing to what the hub has sent. -/
def emit (s : State) (k : OutKind) (args : List Nat) (data : List Byte := []) : State :=
  { s with outbox := s.outbox ++ [⟨k, args, data⟩] }

/-! ### Memory (R77, R105, R321) -/

/-- One byte of module memory, coach memory or a yard, at its hub address. A byte nothing has written reads as zero. -/
def memByte (s : State) (a : Nat) : Byte := kget 0 s.mem a

/-- `n` bytes from an address. -/
def memBytes (s : State) (a : Nat) : Nat → List Byte
  | 0 => []
  | n + 1 => memByte s a :: memBytes s (a + 1) n

/-- R4: the little-endian value of `n` bytes. -/
def memVal (s : State) (a n : Nat) : Nat := leVal (memBytes s a n)

/-- Bytes written one after another from an address, in the canonical form of memory. -/
def putBytes : List Host.Cell → Nat → List Byte → List Host.Cell
  | m, _, [] => m
  | m, a, b :: bs => putBytes (kset 0 m a b) (a + 1) bs

/-- Scattered bytes written in order. -/
def putCells : List Host.Cell → List (Nat × Byte) → List Host.Cell
  | m, [] => m
  | m, (a, b) :: r => putCells (kset 0 m a b) r

/-- Whether the 64-byte block numbered `b` (address ÷ 64) is poisoned. -/
def blockPoisoned (s : State) (b : Nat) : Bool := s.poison.contains b

/-- R105, R321: poison marks after a write of `cells`: a block covered whole takes the write's own mark, a block
covered in part keeps its poison or takes the write's. -/
def poisonAfter (p : List Nat) (cells : List (Nat × Byte)) (pois : List Nat) : List Nat :=
  (dedup (cells.map fun c => c.1 / 64)).foldl (fun p b =>
    let whole := (rangeFrom (64 * b) 64).all fun a => cells.any fun c => c.1 == a
    if pois.contains b then nadd p b else if whole then ndel p b else p) p

/-- R321: scattered bytes stored; `pois` lists the blocks written as poisoned. -/
def storeCells (s : State) (cells : List (Nat × Byte)) (pois : List Nat) : State :=
  { s with mem := putCells s.mem cells, poison := poisonAfter s.poison cells pois }

/-- The bytes of a list paired with their addresses. -/
def cellsAt : Nat → List Byte → List (Nat × Byte)
  | _, [] => []
  | a, b :: bs => (a, b) :: cellsAt (a + 1) bs

/-- The 64-byte blocks that `n` bytes from `a` touch. -/
def blocksOf (a n : Nat) : List Nat := if n = 0 then [] else rangeFrom (a / 64) ((a + n - 1) / 64 + 1 - a / 64)

/-- R321: contiguous bytes stored. -/
def storeBytes (s : State) (a : Nat) (bs : List Byte) (poisoned : Bool) : State :=
  storeCells s (cellsAt a bs) (if poisoned then blocksOf a bs.length else [])

/-- A range of memory zeroed with valid ECC. -/
def memZero (s : State) (lo hi : Nat) : State :=
  { s with
    mem := s.mem.filter fun c => decide (c.1 < lo) || decide (hi ≤ c.1)
    poison := s.poison.filter fun b => decide (64 * b + 63 < lo) || decide (hi ≤ 64 * b) }

/-- Canonical form of memory: addresses strictly rising, no zero byte listed. -/
def Memory.wf (m : List Host.Cell) : Bool := kwf 0 m

/-! ### Fault messages (R446 to R459) -/

/-- The reaction code of a source for a class (FLT_REACT, R458). -/
def reactionOf (s : State) (src cls : Nat) : Nat :=
  let v := regGet s (rReact src)
  if cls = 1 then bits v 3 0 else if cls = 2 then bits v 7 4 else bits v 11 8

/-- R459: whether the class of a source is unacknowledged. -/
def unacked (s : State) (src cls : Nat) : Bool := regBits s (rSrc src) (35 + cls) (35 + cls) == 1

/-- R458: escalation. The class, whether the message escalated, and whether a repeated F orders a chip reset. -/
def escalate (s : State) (src cls : Nat) : Nat × Bool × Bool :=
  if unacked s src cls then (if cls ≥ 3 then (3, true, true) else (cls + 1, true, false)) else (cls, false, false)

/-- R456: the sticky bit of a source. -/
def setSticky (s : State) (src : Nat) : State := regPut s (rSticky (src / 64)) (src % 64) (src % 64) 1

/-- R94, R329, R462: what a fatal latch of a coach, a yard or a memory device does beyond the report. UNIT_FAILED names the unit latched
last (DESIGN CHOICE, log 110). -/
def latchUnit (s : State) (src : Nat) : State :=
  let refuse := fun (s : State) (d : Nat) => { s with consist := { s.consist with unitFailed := some d } }
  if src < 0x200 then refuse (regPut s (rCoachFailed (src / 64)) (src % 64) (src % 64) 1) src
  else if src < 0x210 then refuse s (0x2000 + (src - 0x200))
  else if src < 0x240 then refuse (regPut s rMemFailed (src - 0x210) (src - 0x210) 1) (0x1000 + (src - 0x210))
  else s

/-- R450 step 3 with the effects of R457, R458, R459, R462: sticky bit, counters, unacknowledged bit (not kept when the
reaction is 0x0), fatal latch. -/
def accountMsg (s : State) (src cls : Nat) (escd : Bool) : State :=
  let s := setSticky s src
  let s := if cls = 1 then regAddSat s (rSrc src) 63 48 1 else regAddSat s (rSrc src) 47 40 1
  let s := if escd then regAddSat s (rSrc src) 31 16 1 else s
  let s := if reactionOf s src cls = 0 then s else regPut s (rSrc src) (35 + cls) (35 + cls) 1
  if cls = 3 then latchUnit (regPut s (rFatal (src / 64)) (src % 64) (src % 64) 1) src else s

/-- R452: the sources of the standby domain. -/
def isStandbySource (src : Nat) : Bool := src == 0x276 || src == 0x278 || src == 0x27A || src == 0x27C

/-- ERR_N hold of a message with reaction 0x7. -/
def holdErr (s : State) (src cls : Nat) : State :=
  if s.belfry.errReact.contains (src, cls) then s
  else { s with belfry := { s.belfry with errReact := s.belfry.errReact ++ [(src, cls)] } }

/-- A message found now, with the beat of the find (R446). -/
def newMsg (s : State) (src kind cls addr : Nat) : FaultMsg :=
  { seq := 0, beat := s.drum.count.toNat % 2 ^ 32, addr := addr % 2 ^ 48, cls := cls, kind := kind, source := src }

/-! ### The unit under self-test (R466, R467, R471) -/

/-- The coach a slice tests, none for a yard segment. -/
def sliceCoach (n : Nat) : Option Nat := if n % 2 = 0 then some (n / 2) else none

/-- The rake of a slice: the coach's, or the rake of yard segment (n − 1) ÷ 2. -/
def sliceRake (n : Nat) : Nat := n / 64

/-- The source that a slice's result is raised by: the coach or the yard tested. -/
def sliceSource (n : Nat) : Nat := match sliceCoach n with | some c => c | none => 0x200 + sliceRake n

/-- R471: the unit that a running slice tests raises no message. -/
def underTest (s : State) (src : Nat) : Bool := match s.bist.run with | some sl => sliceSource sl.slice == src | none => false

/-- R449: the messages of a source that have not yet entered the Belfry. -/
def waitingOf (s : State) (src : Nat) : List FaultMsg := s.belfry.raised.filter fun x => x.source == src

/-- R449, R452: a source finds an error. The message waits to be taken by the Belfry; a fifth waiting message of a source
is merged, and the latch that an F among these sets acts with the next message of the source that the Belfry takes (log 145); while the
main domain is down only standby sources raise, into the retained buffer. A unit under self-test raises nothing (R471). -/
def raiseMsg (s : State) (m : FaultMsg) : State :=
  if underTest s m.source then s
  else if s.mainDom = .up then
    if (waitingOf s m.source).length < 4 then
      { s with belfry := { s.belfry with raised := s.belfry.raised ++ [m] } }
    else
      let e := escalate s m.source m.cls
      regAddSat (accountMsg s m.source e.1 e.2.1) rQstat 47 32 1
  else if isStandbySource m.source then
    let s := setSticky s m.source
    let s := if reactionOf s m.source m.cls = 7 then holdErr s m.source m.cls else s
    let r := s.belfry.retained ++ [m]
    { s with belfry := { s.belfry with retained := if r.length > 1024 then r.drop 1 else r } }
  else s

/-- A source finds an error of a kind, at the kind's class. -/
def raise (s : State) (src kind cls addr : Nat) : State := raiseMsg s (newMsg s src kind cls addr)

/-! Source numbers of Table 16.2 and kinds of Table 16.3 are written out where they are raised. -/

def srcTrain (t : Nat) : Nat := 0x258 + t
def srcPort (n : Nat) : Nat := 0x240 + n
def srcDev (d : Nat) : Nat := 0x210 + d
def srcDrum : Nat := 0x261
def srcEth (p : Nat) : Nat := 0x262 + p
def srcRegs : Nat := 0x264
def srcGuard (g : Nat) : Nat := 0x270 + g
def srcSctl : Nat := 0x276
def srcBoot : Nat := 0x277
def srcId : Nat := 0x278
def srcUpd : Nat := 0x279
def srcPeal : Nat := 0x27A
def srcPcap : Nat := 0x27B
def srcProt : Nat := 0x27C
def srcSide (n : Nat) : Nat := 0x250 + n

/-- Table 13.9: the identifier of a key, the first 4 bytes of its SHA-512 hash. -/
def keyId (key : List Byte) : Nat := leVal ((Config.sha512 key).take 4)

/-- The enrolled owner key; with the PUF failed the authenticated region reads as absent (R381, R392). -/
def ownerKey (s : State) : Option (List Byte) := if s.trust.puf then s.trust.owner else none

/-- Register values that the authenticated region holds (R335, R348, R381, R392). -/
def storedRegs (s : State) : KMap W64 := if s.trust.puf then s.flash else []

/-- R389: the rollback floor of a kind; 0 where there is no authenticated region (R381, R392). -/
def floorOf (s : State) (k : Nat) : Nat := if s.trust.puf then kget 0 s.trust.floor k else 0

/-! ### Regions and access rights (R35 to R37, R313) -/

/-- Table 2.6 classes of initiator. -/
inductive Initiator where
  | host
  | partner (n : Nat)
  | train (t : Nat)
  | guard (g : Nat)
  deriving DecidableEq, Repr

/-- OWNER code of an initiator. -/
def Initiator.code : Initiator → Nat
  | .host => 0
  | .partner n => 0x10 + n
  | .train t => 0x20 + t
  | .guard g => 0x30 + g

/-- The ACCESS bit that grants a class a read (0) or write (1). -/
def Initiator.bit : Initiator → Bool → Nat
  | .host, w => if w then 1 else 0
  | .partner _, w => if w then 3 else 2
  | .train _, w => if w then 5 else 4
  | .guard _, w => if w then 7 else 6

/-- R313: the first address above usable memory, from MEM_STATUS.TOP. -/
def memTop (s : State) : Nat := regBits s rMemStatus 15 0 * 2 ^ 30

/-- R37: the regions in effect. -/
def effRegions (s : State) : List Region :=
  if s.consist.cfg.regionsGiven then s.consist.cfg.regions
  else [{ base := 0, size := memTop s / 2 ^ 21, secure := false, owner := 0, access := 0xFF, snapArea := false,
          rakeLocal := false, rake := 0 }]

/-- The region an address lies in. -/
def regionOf (s : State) (a : Nat) : Option Region :=
  (effRegions s).find? fun r => decide (r.base * 2 ^ 21 ≤ a) && decide (a < (r.base + r.size) * 2 ^ 21)

/-- R36, R318: whether an initiator of a world may read or write the byte at an address of module memory. -/
def mayAccess (s : State) (who : Initiator) (secure : Bool) (a : Nat) (write : Bool) : Bool :=
  decide (a < memTop s) &&
  match regionOf s a with
  | none => who == .guard 5
  | some r =>
    r.owner == who.code || ((secure || !r.secure) && r.access.getLsbD (who.bit write))

/-- R36 over the blocks of a range. -/
def mayAccessRange (s : State) (who : Initiator) (secure : Bool) (a n : Nat) (write : Bool) : Bool :=
  (blocksOf a n).all fun b => mayAccess s who secure (max a (64 * b)) write && mayAccess s who secure (min (a + n - 1) (64 * b + 63)) write

/-- R395: whether an access crosses into the secure world. -/
def worldBlocked (s : State) (secure : Bool) (a : Nat) : Bool :=
  match regionOf s a with
  | none => false
  | some r => r.secure && !secure

/-- R395: a refused access of an initiator, by its source, that crosses into the secure world is named in a message. -/
def worldFault (s : State) (src : Nat) (secure : Bool) (a : Nat) : State :=
  if worldBlocked s secure a then raise s src 0x03 1 a else s

/-! ### Guards -/

/-- Table 13.2: guard g is held. -/
def guardHeld (s : State) (g : Nat) : Bool := regBits s (rCfgGuard g) 63 60 == 4

/-- R378: the hub is in recovery. -/
def inRecovery (s : State) : Bool := regBits s (rCfgGuard 5) 63 60 == 5

/-- A guard takes requests. -/
def guardRuns (s : State) (g : Nat) : Bool := regBits s (rCfgGuard g) 63 60 == 2

end Sys2Proof.Machine
end

