-- ==== Sys2Proof/Machine/Memory.lean ====
section
/-! DEFINITION. Chapter 11: the memory controllers: address map, reads, writes, scrub, error rates (R313 to R323, R328). -/

namespace Sys2Proof.Machine

/-- The in-service rakes in ascending order (MEM_STATUS.IN_SERVICE, R313). -/
def inServiceRakes (s : State) : List Nat :=
  (rangeFrom 0 16).filter fun k => nbit (regBits s rMemStatus 47 32) k

/-- Bytes of one rake range: 168 GiB. -/
def rakeRange : Nat := 0x2A00000000

/-- The map in effect. -/
def mapNow (s : State) : MemMap := { rakes := inServiceRakes s, regions := effRegions s }

/-- R314: whether stripe `l` is global. -/
def stripeGlobal (m : MemMap) (l : Nat) : Bool :=
  m.regions.any fun r => !r.rakeLocal &&
    (rangeFrom 0 m.rakes.length).any fun j =>
      let g := j * 86016 + l
      decide (r.base ≤ g) && decide (g < r.base + r.size)

/-- R313, R314: the rake that holds an address, and L of R316 within it. -/
def placeOf (m : MemMap) (a : Nat) : Nat × Nat :=
  let j := a / rakeRange
  let l := a % rakeRange / 2 ^ 21
  let ord := if stripeGlobal m l then (j + l) % max 1 m.rakes.length else j
  (lget 0 m.rakes ord, a % rakeRange)

/-- R314: the hub address of a place, where its rake is in service. -/
def addrOf (m : MemMap) (p : Nat × Nat) : Option Nat :=
  let l := p.2 / 2 ^ 21
  let n := m.rakes.length
  (m.rakes.findIdx? fun k => k == p.1).map fun ord =>
    (if stripeGlobal m l then (ord + n - l % n) % n else ord) * rakeRange + p.2

/-- R316: the channel of a place. -/
def placeChannel (p : Nat × Nat) : Nat := 24 * p.1 + p.2 / 4096 % 24

/-- R313, R314, R316: the channel that holds an address. -/
def channelOf (s : State) (a : Nat) : Nat := placeChannel (placeOf (mapNow s) a)

/-- R317: raw block and ECC byte of an address within its channel: data raw block, ECC raw block, byte of the ECC word. -/
def rawBlockOf (a : Nat) : Nat × Nat × Nat :=
  let lo := a % rakeRange
  let d := lo / 4096 / 24 * 64 + lo % 4096 / 64
  (8 * (d / 7) + d % 7, 8 * (d / 7) + 7, 4 * (d % 7))

/-- R317: bank, row and byte in the page of a byte of a raw block. -/
def bankRow (raw byte : Nat) : Nat × Nat × Nat :=
  let a := 64 * raw + byte
  (nbits a 14 11 ^^^ nbits a 18 15, nbits a 32 15, nbits a 10 0)

/-- R314: content stays in its rake and granule when a new map is fixed; content of a rake that has gone out of service is reached
by no address. -/
def remapMem (s : State) : State :=
  let old := s.memctl.map
  let new := mapNow s
  if old = new then s
  else
    let s := regPut { s with memctl := { s.memctl with map := new, scrub := 0 } } rScrub 47 32 0
    if old.rakes = [] then s
    else
      let move := fun a => if a < 16 * rakeRange then addrOf new (placeOf old a) else none
      let cells := s.mem.filterMap fun c => (move c.1).map fun a => (a, c.2)
      let pois := s.poison.filterMap fun b => (move (64 * b)).map fun a => a / 64
      let s := storeCells (memZero s 0 (16 * rakeRange)) cells []
      { s with poison := pois.foldl nadd s.poison }

/-! ### In-line ECC (R319) -/

/-- R319: GF(2⁸) with x⁸ + x⁴ + x³ + x² + 1. -/
def eccPoly : Nat := 0x11D

/-- R319: the codeword of a block: data, META, c0, c1, c2. -/
def eccCodeword (data : List Byte) (poisoned : Bool) : List Nat :=
  let m := data.map (fun b => b.toNat) ++ [if poisoned then 1 else 0]
  m ++ rsParity 8 eccPoly 3 m

/-- R319: the ECC word of a block, as the last four symbols of its codeword. -/
def eccWord (s : State) (block : Nat) : List Nat :=
  (eccCodeword (memBytes s (64 * block) 64) (blockPoisoned s block)).drop 64

/-- R319: what the received word leaves at αʲ; a codeword leaves nothing. -/
def syndrome (errs : MemErrors) (j : Nat) : Nat :=
  errs.foldl (fun r e => r ^^^ gfMul 8 eccPoly e.2.toNat (gfPow 8 eccPoly (j * (67 - e.1)))) 0

/-- R319: the decoder: the differences it takes for the error, none where it finds one that it cannot correct. -/
def decodeErrors (errs : MemErrors) : Option MemErrors :=
  let s0 := syndrome errs 0
  let s1 := syndrome errs 1
  let s2 := syndrome errs 2
  if s0 = 0 ∧ s1 = 0 ∧ s2 = 0 then some []
  else if s0 = 0 then none
  else match (rangeFrom 0 68).find? fun n =>
      let x := gfPow 8 eccPoly (67 - n)
      gfMul 8 eccPoly s0 x == s1 && gfMul 8 eccPoly s1 x == s2 with
    | some n => some [(n, BitVec.ofNat 8 s0)]
    | none => none

/-- The data symbols of a list of differences applied to a block. -/
def applyErrors (data : List Byte) (errs : MemErrors) : List Byte :=
  errs.foldl (fun d e => lset d e.1 (lget 0 d e.1 ^^^ e.2)) data

/-- The same for META.POISON. -/
def metaErrors (p : Bool) (errs : MemErrors) : Bool :=
  errs.foldl (fun p e => if e.1 = 64 ∧ e.2.getLsbD 0 then !p else p) p

/-- The beats of 24 hours (400 ns each). -/
def dayBeats : Nat := 216000000000

/-- R328: distinct uncorrectable blocks in the preceding 24 hours that a choice of channels found. -/
def badRecent (s : State) (ch : Nat → Bool) : Nat :=
  (s.memctl.badBlocks.filter fun e => ch e.2.1 && decide (s.drum.beats < e.2.2 + dayBeats)).length

/-- R328: an F latch against a device. -/
def latchDevice (s : State) (channel : Nat) : State :=
  let d := channel / 8
  if nbit (regBits s rMemFailed 47 0) d then s
  else raise (regPut s rMemFailed d d 1) (srcDev d) 0x1F 3 channel

/-- MEM_LAST_ERR of an error found. -/
def lastErr (s : State) (uncorr : Bool) (channel a : Nat) : State :=
  let s := regPut s rLastErr 63 63 (if uncorr then 1 else 0)
  regPut (regPut s rLastErr 56 48 channel) rLastErr 47 0 (64 * (a / 64))

/-- R320: a correctable error of one symbol: corrected data are returned and written back. -/
def foundCorrectable (s : State) (a : Nat) : State :=
  let c := channelOf s a
  let s := lastErr (regAddSat s (rChErr c) 63 48 1) false c a
  let s := { s with memctl := { s.memctl with second := kset 0 s.memctl.second c (kget 0 s.memctl.second c + 1) } }
  raise s (srcDev (c / 8)) 0x1B 1 (64 * (a / 64))

/-- R320, R321, R328: an uncorrectable error: the find is reported once, its time kept, the device judged. -/
def foundUncorrectable (s : State) (a : Nat) (checked : Bool) : State :=
  let c := channelOf s a
  let b := 64 * (a / 64)
  let s := lastErr (regAddSat s (rChErr c) 47 40 1) true c a
  let raw := (rawBlockOf a).1
  let rest := s.memctl.badBlocks.filter fun e => !(e.1 == raw && e.2.1 == c)
  let s := { s with memctl := { s.memctl with badBlocks := rest ++ [(raw, c, s.drum.beats)] } }
  let s := if checked then raise s (srcDev (c / 8)) 0x1D 1 b else raise s (srcDev (c / 8)) 0x1C 2 b
  if badRecent s (fun x => x / 8 == c / 8) ≥ 4 then latchDevice s c else s

/-- What a controller's read of a block does (R320): an error that the decoder takes for a codeword changes the data unseen (R319). -/
def controllerRead (s : State) (a : Nat) (found : MemErrors) (checked : Bool) : State :=
  if found = [] then s
  else
    let b := a / 64
    let data := applyErrors (memBytes s (64 * b) 64) found
    let write := fun (fix : MemErrors) (p : Bool) => storeBytes s (64 * b) (applyErrors data fix) p
    match decodeErrors found with
    | none => foundUncorrectable (write [] true) a checked
    | some fix =>
      let t := write fix (metaErrors (blockPoisoned s b) (found ++ fix))
      if fix = [] then t else foundCorrectable t a

/-- MEMORY_READ (R320): `checked` marks a read of the snapshot service (R321). A block that is not in usable memory is
never read (R318). -/
def execMemoryRead (addr : Nat) (found : MemErrors) (checked : Bool) (s : State) : Host.Outcome State Fault Refusal :=
  if addr < memTop s then .next (controllerRead s addr found checked) else .next s

/-- MEMORY_WRITE (R321): bytes from offset `off` of the block at `addr`; a write of fewer than 64 bytes reads the block first. -/
def execMemoryWrite (addr off : Nat) (data : List Byte) (poisoned : Bool) (found : MemErrors) (s : State) :
    Host.Outcome State Fault Refusal :=
  let b := 64 * (addr / 64)
  if b + 64 ≤ memTop s ∧ off + data.length ≤ 64 then
    let s := if data.length = 64 then s else controllerRead s b found false
    .next (storeCells s (cellsAt (b + off) data) (if poisoned then [b / 64] else []))
  else .next s

/-- The scrubber's pass comes past block `b`; past the last block of usable memory it is complete. -/
def scrubPast (s : State) (b : Nat) : State :=
  let last := decide (memTop s ≤ 64 * (b + 1))
  let s := { s with memctl := { s.memctl with scrub := if last then 0 else b + 1 } }
  if last then regPut (regAddSat s rScrub 31 0 1) rScrub 47 32 0
  else regPut s rScrub 47 32 ((b + 1) * 64 * 65536 / memTop s)

/-- SCRUB_READ (R323): the scrubber's read of a block, corrected under R320 and R321. A pass takes the blocks in ascending order
(DESIGN CHOICE, log 109); a read of another block does not move it on. An apply zeroes its granules within its own step, so none is
skipped. -/
def execScrubRead (addr : Nat) (found : MemErrors) (s : State) : Host.Outcome State Fault Refusal :=
  if memTop s ≤ addr then .next s
  else
    let s := controllerRead s addr found true
    .next (if addr / 64 = s.memctl.scrub then scrubPast s (addr / 64) else s)

/-- MEM_ERROR_RATE_SECOND (R328): a channel's corrected symbols of the past second are judged. -/
def execMemErrorRateSecond (channel : Nat) (s : State) : Host.Outcome State Fault Refusal :=
  if channel ≥ 384 then .next s
  else
    let n := kget 0 s.memctl.second channel
    let storm := decide (65536 < n)
    let run := if storm then kget 0 s.memctl.stormRun channel + 1 else 0
    let s := { s with memctl := { s.memctl with
      second := kset 0 s.memctl.second channel 0, stormRun := kset 0 s.memctl.stormRun channel run } }
    let s := if storm then raise s (srcDev (channel / 8)) 0x1E 1 channel else s
    .next (if run ≥ 10 then latchDevice s channel else s)

/-- Table 11.4 step 3: the state of each channel after training (MEM_CH_ERR.STATE). -/
def trainedChannels (s : State) (failed : List Nat) : State :=
  (rangeFrom 0 384).foldl (fun s c =>
    let st := if failed.contains c then 2 else if s.consist.rakeOut.getLsbD (c / 24) then 3 else 1
    regPut s (rChErr c) 31 28 st) s

end Sys2Proof.Machine
end

