-- ==== Sys2Proof/Machine/Operands.lean ====
section
/-! DEFINITION. Chapters 03 and 04: the operand forms of coach instructions, reading and writing a seat's registers,
issue, exceptions, address windows and the transaction table. -/

namespace Sys2Proof.Machine

/-! ### Reaching seats, coaches and launch units -/

/-- Seats of the hub: 512 coaches of 16 (Table 3.1). -/
def seatCount : Nat := 8192

def getSeat (s : State) (n : Nat) : Seat := kget Seat.init s.coaches.seat n

def putSeat (s : State) (n : Nat) (t : Seat) : State :=
  { s with coaches := { s.coaches with seat := kset Seat.init s.coaches.seat n t } }

def getCoach (s : State) (c : Nat) : Coach := kget Coach.init s.coaches.coach c

def putCoach (s : State) (c : Nat) (t : Coach) : State :=
  { s with coaches := { s.coaches with coach := kset Coach.init s.coaches.coach c t } }

def getTrain (s : State) (t : Nat) : TrainUnit := kget TrainUnit.init s.coaches.train t

def putTrain (s : State) (t : Nat) (u : TrainUnit) : State :=
  { s with coaches := { s.coaches with train := kset TrainUnit.init s.coaches.train t u } }

/-- The train a rake belongs to (Table 2.4). -/
def trainOfRake (s : State) (k : Nat) : Option Nat :=
  (rangeFrom 0 s.consist.cfg.trains.length).find? fun t =>
    (lget { rakes := 0, service := 0 } s.consist.cfg.trains t).rakes.getLsbD k

/-- The train a coach belongs to (R18). -/
def trainOfCoach (s : State) (c : Nat) : Option Nat := trainOfRake s (c / 32)

/-- Whether a coach is in service: not excluded in effect (R35, R94). -/
def coachInService (s : State) (c : Nat) : Bool :=
  decide (c < 512) && s.consist.applied && !s.consist.excl.getLsbD c && !s.consist.rakeOut.getLsbD (c / 32)

/-- The in-service coaches of a train in ascending order. -/
def trainCoaches (s : State) (t : Nat) : List Nat :=
  (rangeFrom 0 512).filter fun c => coachInService s c && trainOfCoach s c == some t

/-- Whether a train runs in the secure world (Table 2.7). -/
def trainSecure (s : State) (t : Nat) : Bool := s.consist.cfg.worlds.trainSecure.getLsbD t

/-- The kernel that runs on a coach, with its train. -/
def kernelOn (s : State) (c : Nat) : Option (Nat × Kernel) :=
  match trainOfCoach s c with
  | none => none
  | some t =>
    match (getTrain s t).kernel with
    | some k => if k.coaches.contains c then some (t, k) else none
    | none => none

def putKernel (s : State) (t : Nat) (k : Kernel) : State := putTrain s t { getTrain s t with kernel := some k }

/-- Table 3.8: fields of a launch block. -/
def lbCodeAddr (l : Launch) : Nat := field l.raw 0 8
def lbCodeSize (l : Launch) : Nat := field l.raw 8 1
def lbSeats (l : Launch) : Nat := field l.raw 9 1
def lbFlags (l : Launch) : Nat := field l.raw 0xA 1
def lbTag (l : Launch) : Nat := field l.raw 0xB 1
def lbCoachCount (l : Launch) : Nat := field l.raw 0xC 2
def lbReserved (l : Launch) : Nat := field l.raw 0xE 2 + field l.raw 0x2C 20
def lbBeat (l : Launch) : Nat := field l.raw 0x10 8
def lbArg (l : Launch) : Nat := field l.raw 0x18 8
def lbCompl (l : Launch) : Nat := field l.raw 0x20 8
def lbTimeout (l : Launch) : Nat := field l.raw 0x28 4

/-- R85: bytes of the code area of the kernel on a coach. -/
def codeBytes (k : Kernel) : Nat := lbCodeSize k.launch * 4096

/-- The seats of a kernel on one coach. -/
def kernelSeatsOn (k : Kernel) (c : Nat) : List Nat := rangeFrom (16 * c) (lbSeats k.launch)

/-- Every seat of a kernel. -/
def kernelSeats (k : Kernel) : List Nat := k.coaches.flatMap fun c => kernelSeatsOn k c

/-! ### Registers of a seat (R96, R103 to R105) -/

/-- Scalar register with its poison bit. -/
def sget (t : Seat) (r : Nat) : W64 × Bool := kget (0, false) t.sreg r

def sset (t : Seat) (r : Nat) (v : W64) (p : Bool) : Seat := { t with sreg := kset (0, false) t.sreg r (v, p) }

/-- Lane `i` of vector register `v` (0–31) with its poison bit. -/
def vget (t : Seat) (v i : Nat) : W32 × Bool := kget (0, false) t.vlane (64 * v + i)

def vset (t : Seat) (v i : Nat) (x : W32) (p : Bool) : Seat :=
  { t with vlane := kset (0, false) t.vlane (64 * v + i) (x, p) }

def mget (t : Seat) (m : Nat) : W64 := kget 0 t.mreg m

def mset (t : Seat) (m : Nat) (v : W64) : Seat := { t with mreg := kset 0 t.mreg m v }

/-- Operand class of a register field (Table 4.2), or what else the field holds. -/
inductive Cls where
  | none | s | v | sv | m | x | mask | maskOn
  deriving DecidableEq, Repr

/-- How an opcode uses its fields (Tables 4.5 to 4.14, 4.16). `op` is the opcode, `imm` lists the IMM bits it uses. -/
structure Form where
  op : Nat
  d : Cls := .none
  a : Cls := .none
  b : Cls := .none
  c : Cls := .none
  fmts : List Nat := [0]
  rounds : Bool := false
  flag : Bool := false
  imm : Nat := 0

/-- R103: a mask selector has bit 3 zero, and the other bits zero when MASK_EN is clear. -/
def maskOk (f : BitVec 6) : Bool := !f.getLsbD 3 && (f.getLsbD 5 || f == 0)

/-- R96, R97: a register field holds a value of its operand's class. -/
def clsOk (k : Cls) (f : BitVec 6) : Bool :=
  match k with
  | .none => f == 0
  | .s => decide (f.toNat < 32)
  | .v => decide (32 ≤ f.toNat)
  | .sv => true
  | .m => decide (f.toNat < 8)
  | .x => decide (f.toNat < 8)
  | .mask => maskOk f
  | .maskOn => maskOk f && f.getLsbD 5

/-- R102: RF[3:2] RM, RF[1] SAT, RF[0] FLAG. -/
def rfOk (form : Form) (rf : BitVec 4) : Bool :=
  (if form.rounds then decide (rf.toNat / 4 ≠ 3) else decide (rf.toNat / 2 = 0)) && (form.flag || !rf.getLsbD 0)

/-- R97: the word has the form of its opcode. -/
def wordOk (form : Form) (w : Fields) : Bool :=
  clsOk form.d w.d && clsOk form.a w.a && clsOk form.b w.b && clsOk form.c w.c &&
  form.fmts.contains w.fmt.toNat && rfOk form w.rf && decide (w.imm.toNat &&& form.imm = w.imm.toNat)

/-- RM of a word. -/
def wRm (w : Fields) : RMode := if w.rf.toNat / 4 = 1 then .rtz else if w.rf.toNat / 4 = 2 then .sr else .rne

/-- SAT of a word. -/
def wSat (w : Fields) : Bool := w.rf.getLsbD 1

/-- FLAG of a word. -/
def wFlag (w : Fields) : Bool := w.rf.getLsbD 0

/-- FMT of a word; FP32 where the code names no format (such a word is refused before its format is used). -/
def wFmt (w : Fields) : Fmt := (fmtOfCode w.fmt.toNat).getD .fp32

/-- The signed immediate, sign-extended to 64 bits (Table 4.1). -/
def wImm (w : Fields) : W64 := w.imm.signExtend 64

/-- R103: the lanes a mask selector selects, one bit each. -/
def selMask (t : Seat) (f : BitVec 6) : W64 :=
  if f.getLsbD 5 then
    let m := mget t (f.toNat % 8)
    if f.getLsbD 4 then ~~~m else m
  else BitVec.allOnes 64

/-- Register codes (0–31 S, 32–63 V, 64–71 X) that a field of a class names. -/
def clsRegs (k : Cls) (f : BitVec 6) : List Nat :=
  match k with
  | .s | .v | .sv => [f.toNat]
  | .x => [64 + f.toNat]
  | _ => []

/-- R57: the registers a word reads or writes. -/
def wordRegs (form : Form) (w : Fields) : List Nat :=
  clsRegs form.d w.d ++ clsRegs form.a w.a ++ clsRegs form.b w.b ++ clsRegs form.c w.c

/-- Element `i` of width `wd` in a lane (R101). -/
def elemOf (lane : W32) (wd i : Nat) : Nat := lane.toNat / 2 ^ (wd * i) % 2 ^ wd

/-- A lane from its elements, lowest first. -/
def joinElems (wd : Nat) : List Nat → Nat
  | [] => 0
  | e :: es => e % 2 ^ wd + 2 ^ wd * joinElems wd es

/-- R104: lane `i` of a source of class S|V; an S register is broadcast by its low `wd` bits. -/
def srcLane (t : Seat) (f : BitVec 6) (wd i : Nat) : W32 × Bool :=
  if f.toNat ≥ 32 then vget t (f.toNat - 32) i
  else
    let (v, p) := sget t f.toNat
    (BitVec.ofNat 32 (joinElems wd (List.replicate (32 / wd) (v.toNat % 2 ^ wd))), p)

/-- The selected lanes of vector register `v` written by a function of the lane number (R103). -/
def vmap (t : Seat) (v : Nat) (sel : W64) (f : Nat → W32 × Bool) : Seat :=
  (rangeFrom 0 64).foldl (fun t i => if sel.getLsbD i then (let x := f i; vset t v i x.1 x.2) else t) t

/-- R131: the generator output for element `j` of the destination. -/
def drawFor (s : State) (t : Seat) (j : Nat) : Nat :=
  (roundingDraw (regGet s rSeed) t.tag (t.base + BitVec.ofNat 64 j)).toNat

/-- R111: the scale field of block `m` and the poison of the S register that holds it. -/
def scaleOf (t : Seat) (f : Fmt) (reg m : Nat) : Nat × Bool :=
  let r := if f = .mxE2m1 then reg + m / 8 else reg
  let (v, p) := sget t r
  (v.toNat / 2 ^ (8 * (m % 8)) % 256, p)

/-- The exact value of element `j` of a format held in a lane, with its MX scale (R138, R142). -/
def elemNum (t : Seat) (f : Fmt) (scale j : Nat) (lane : W32) : Num :=
  let wd := fmtWidth f
  let v := numDecode f (elemOf lane wd (j % (32 / wd)))
  if fmtIsMx f then numScale (scaleOf t f scale (j / 32)).1 v else v

/-! ### Exceptions (R89, R133 to R135) -/

/-- R89: every seat of a kernel stops, X registers are released (R60), queued descriptors that have not started go. -/
def stopKernel (s : State) (k : Kernel) : State :=
  let s := (kernelSeats k).foldl (fun s n =>
    putSeat s n { getSeat s n with st := .halted, grant := [] }) s
  k.coaches.foldl (fun s c =>
    let t := getCoach s c
    putCoach s c { t with
      xowner := [], xlane := [], xwait := []
      q0 := t.q0.filter fun d => decide (d.issued ≠ 0)
      q1 := t.q1.filter fun d => decide (d.issued ≠ 0) }) s

/-- The condition of a coach. One that a BIST slice holds shows it after its restore (R93). -/
def setCond (s : State) (c : Nat) (cond : CoachCond) : State :=
  if (getCoach s c).cond = .drained then
    match s.bist.run with
    | some sl => { s with bist := { s.bist with run := some { sl with saved := some cond } } }
    | none => s
  else putCoach s c { getCoach s c with cond := cond }

/-- The condition of a coach, or the one that a BIST slice keeps for it (R93). -/
def condOf (s : State) (c : Nat) : CoachCond :=
  if (getCoach s c).cond = .drained then
    match s.bist.run with
    | some sl => sl.saved.getD .idle
    | none => .drained
  else (getCoach s c).cond

/-- R89, R135: a seat takes an exception with the PC of its instruction. The first one of a kernel is reported. -/
def takeExc (s : State) (n pc code : Nat) : State :=
  let c := n / 16
  let co := getCoach s c
  let s := setCond (putCoach s c { co with cause := code, seat := n % 16 }) c .stopped
  let s := match kernelOn s c with
    | none => s
    | some (t, k) =>
      let k' := if k.status = 0 then { k with status := 1, cause := code, seat := n, pc := pc } else k
      let k' := { k' with faulted := nadd k'.faulted n, phase := .stopping }
      stopKernel (putKernel s t k') k'
  let s := raise s c 0x04 1 (n + code * 0x10000)
  if code = 5 then raise s c 0x05 2 (n + code * 0x10000) else s

/-! ### Issue (R55, R56, R57, R65, R97, R99) -/

/-- What an instruction does at issue. -/
inductive Res where
  | done (s : State)            -- executed, PC advances by 8
  | jump (s : State) (pc : Nat) -- taken branch
  | exc (code : Nat)
  | park (why : Park)           -- cannot issue; the seat parks and the instruction is tried again

/-- The first exception of a list of conditions, in ascending code (R134). -/
def firstExc : List (Bool × Nat) → Option Nat
  | [] => none
  | (b, c) :: l => if b then some c else firstExc l

/-- R55, R56: whether a seat may issue: ready, its kernel running, its coach neither drained nor stopped. -/
def mayIssue (s : State) (n : Nat) : Bool :=
  decide (n < seatCount) && decide ((getSeat s n).st = .ready) && decide ((getCoach s (n / 16)).cond = .running) &&
  match kernelOn s (n / 16) with
  | some (_, k) => decide (k.phase = .running)
  | none => false

/-- R99: bytes of the code area of the kernel that a seat runs. -/
def codeLimit (s : State) (n : Nat) : Nat :=
  match kernelOn s (n / 16) with
  | some (_, k) => codeBytes k
  | none => 0

/-- Hub address of byte `off` of coach memory of coach `c`. -/
def coachMemAddr (c off : Nat) : Nat := 0xFE0000000000 + c * 0x80000 + off

/-- R85, R99: hub address of the next instruction of a seat, in the code area of its coach. -/
def codeAddr (s : State) (n : Nat) : Nat := coachMemAddr (n / 16) (0x80000 - codeLimit s n + (getSeat s n).pc)

/-- R95, R99: the word that a seat fetches. -/
def fetchWord (s : State) (n : Nat) : Nat := leVal (memBytes s (codeAddr s n) 8)

/-- Table 4.1: the 64 bits of an instruction. -/
def wordBits (op : Nat) (w : Fields) : Nat :=
  op * 2 ^ 56 + w.d.toNat * 2 ^ 50 + w.a.toNat * 2 ^ 44 + w.b.toNat * 2 ^ 38 + w.c.toNat * 2 ^ 32 + w.fmt.toNat * 2 ^ 28 +
    w.rf.toNat * 2 ^ 24 + w.imm.toNat

/-- The opcodes that Tables 4.5 to 4.14 and 4.16 assign. -/
def opAssigned (op : Nat) : Bool :=
  decide (0x01 ≤ op ∧ op ≤ 0x2A) || decide (0x30 ≤ op ∧ op ≤ 0x3C) || decide (0x40 ≤ op ∧ op ≤ 0x50) || decide (0x58 ≤ op ∧ op ≤ 0x67) ||
    decide (0x70 ≤ op ∧ op ≤ 0x79) || decide (0x80 ≤ op ∧ op ≤ 0x82) || decide (0x90 ≤ op ∧ op ≤ 0x92) ||
    decide (0xA0 ≤ op ∧ op ≤ 0xA2) || decide (0xB0 ≤ op ∧ op ≤ 0xB1) || decide (0xC0 ≤ op ∧ op ≤ 0xC1) ||
    decide (0xD0 ≤ op ∧ op ≤ 0xD1) || decide (0xE0 ≤ op ∧ op ≤ 0xE2)

/-- A seat's PC and last-issue mark after it issued an instruction. -/
def advance (s : State) (n pc : Nat) : State :=
  let s := { s with coaches := { s.coaches with issues := s.coaches.issues + 1 } }
  putSeat s n { getSeat s n with pc := pc, lastIssue := s.coaches.issues }

/-- What the machine does with the result of an instruction (R99, R134). -/
def finish (s : State) (n : Nat) (r : Res) : State :=
  let pc := (getSeat s n).pc
  match r with
  | .done s' => advance s' n ((pc + 8) % 2 ^ 64)
  | .jump s' p => advance s' n p
  | .exc code => takeExc s n pc code
  | .park why => putSeat s n { getSeat s n with st := .parked why }

/-- One instruction of one seat: it issues only from a seat that may issue (else nothing happens), takes FETCH when the
PC has reached the end of the code area (R99), ILLEGAL when the word that the seat fetches has no assigned opcode, nothing when
it is another word than the command names, ILLEGAL when it breaks R97, parks while a register it names is
pending (R57), and otherwise acts. `extra` holds the opcode's own ILLEGAL conditions, `regs` further registers it reads. -/
def issue (s : State) (n : Nat) (w : Fields) (form : Form) (extra : Bool) (regs : List Nat) (body : Seat → Res) : State :=
  if mayIssue s n then
    let t := getSeat s n
    if codeLimit s n ≤ t.pc then finish s n (.exc 2)
    else if fetchWord s n ≠ wordBits form.op w then (if opAssigned (fetchWord s n / 2 ^ 56) then s else finish s n (.exc 1))
    else if !(wordOk form w && extra) then finish s n (.exc 1)
    else if (wordRegs form w ++ regs).any fun r => t.pend.contains r then finish s n (.park .data)
    else finish s n (body t)
  else s

/-- Every meaning of a coach instruction ends in a next state. -/
def issueNext (s : State) (n : Nat) (w : Fields) (form : Form) (extra : Bool) (regs : List Nat) (body : Seat → Res) :
    Host.Outcome State Fault Refusal := .next (issue s n w form extra regs body)

/-- A seat written back, the instruction done. -/
def doneSeat (s : State) (n : Nat) (t : Seat) : Res := .done (putSeat s n t)

/-! ### Transaction table (R64 to R66, R78) -/

/-- Entries in use on a coach. -/
def entriesUsed (t : Coach) : Nat := lsum (t.acc.map fun a => a.blocks.length)

/-- Free transaction entries of a coach. -/
def entriesFree (t : Coach) : Nat := 128 - entriesUsed t

/-- R56: seats of a coach that waited on a register or on entries become ready when they can be tried again. -/
def wakeSeats (s : State) (c : Nat) : State :=
  let free := entriesFree (getCoach s c)
  (rangeFrom (16 * c) 16).foldl (fun s n =>
    let t := getSeat s n
    match t.st with
    | .parked .data => putSeat s n { t with st := .ready }
    | .parked (.entries k) => if k ≤ free then putSeat s n { t with st := .ready } else s
    | _ => s) s

/-- R65: an access outside the seat's coach memory takes its entries, one for each block. -/
def addAccess (s : State) (n : Nat) (kind : AccKind) (blocks : List Nat) (got : KMap (List Byte × Bool)) : State :=
  let c := n / 16
  let t := getCoach s c
  let a : Access := { id := s.coaches.nextAcc, seat := n, pc := (getSeat s n).pc, kind := kind, blocks := blocks, got := got }
  let s := { s with coaches := { s.coaches with nextAcc := s.coaches.nextAcc + 1 } }
  putCoach s c { t with acc := t.acc ++ [a] }

/-- R57: a register becomes pending. -/
def addPend (t : Seat) (r : Nat) : Seat := { t with pend := nadd t.pend r }

/-- R80: whether every store and atomic numbered below `bound` that a seat issued is performed. -/
def storesDone (t : Coach) (seat bound : Nat) : Bool :=
  t.acc.all fun a => decide (a.seat ≠ seat) || decide (bound ≤ a.id) ||
    match a.kind with
    | .load .. | .vload .. | .gather .. | .xload .. | .dray .. => true
    | _ => false

/-- Whether every load numbered below `bound` that a seat issued is performed. -/
def loadsDone (t : Coach) (seat bound : Nat) : Bool :=
  t.acc.all fun a => decide (a.seat ≠ seat) || decide (bound ≤ a.id) ||
    match a.kind with
    | .load .. | .vload .. | .gather .. | .xload .. => false
    | _ => true

/-- Whether every descriptor numbered below `bound` that a seat submitted has completed. -/
def descsDone (t : Coach) (seat bound : Nat) : Bool :=
  (t.q0 ++ t.q1).all fun d => decide (d.seat ≠ seat) || decide (bound ≤ d.id)

/-! ### Address windows (Table 3.6) -/

/-- Hub address of byte `off` of the yard of rake `k`. -/
def yardAddr (k off : Nat) : Nat := 0xFE0010000000 + k * 0x800000 + off

/-- R72, R467: an address in the yard bank that a running slice tests: bank (n − 1) ÷ 2 mod 32 of its rake, by bits [10:6] of the yard
offset. Accesses of coaches to it wait; those of other initiators are over within one command (log 144). -/
def bankTested (s : State) (a : Nat) : Bool :=
  match s.bist.run with
  | some sl =>
    let base := yardAddr (sliceRake sl.slice) 0
    (sliceCoach sl.slice).isNone && decide (base ≤ a) && decide (a < base + 0x800000) && a / 64 % 32 == (sl.slice - 1) / 2 % 32
  | none => false

/-- What a seat's address range reaches. -/
inductive Win where
  | own (a : Nat)      -- own coach memory, at this hub address
  | yard (a : Nat)     -- own rake's yard, at this hub address
  | mem (a : Nat)      -- module memory
  deriving DecidableEq, Repr

/-- The hub address behind a window address. -/
def Win.addr : Win → Nat
  | .own a => a
  | .yard a => a
  | .mem a => a

def Win.isOwn : Win → Bool
  | .own _ => true
  | _ => false

/-- R71, R85: the window that holds `len` bytes from `a` for a seat of coach `c`, whose kernel's code area is outside it. -/
def seatWin (s : State) (c code a len : Nat) : Option Win :=
  if a + len ≤ memTop s then some (.mem a)
  else if 0xFD0000000000 ≤ a ∧ a + len ≤ 0xFD0000080000 - code then some (.own (coachMemAddr c (a - 0xFD0000000000)))
  else if 0xFD0001000000 ≤ a ∧ a + len ≤ 0xFD0001800000 then some (.yard (yardAddr (c / 32) (a - 0xFD0001000000)))
  else none

/-- R36: whether the block at a hub address may be touched by a coach's train. Yards and coach memory have no regions. -/
def coachMay (s : State) (c a : Nat) (write : Bool) : Bool :=
  if a < 0xFD0000000000 then
    match trainOfCoach s c with
    | some t => mayAccess s (.train t) (trainSecure s t) a write
    | none => false
  else true

/-- The world of a coach's train. -/
def coachSecure (s : State) (c : Nat) : Bool := match trainOfCoach s c with | some t => trainSecure s t | none => false

/-- The poison of the blocks that `n` bytes from a hub address touch. -/
def poisonedAt (s : State) (a n : Nat) : Bool := (blocksOf a n).any fun b => blockPoisoned s b

end Sys2Proof.Machine
end

