-- ==== Sys2Proof/Machine/Flags.lean ====
section
/-! DEFINITION. The flags of an exact-accumulator lane (R155 to R161): ADDS, OVF and POI, and its record form (R117). -/

namespace Sys2Proof.Machine

/-- R157: the state a lane takes when OVF becomes set. -/
def XLane.overflow (l : XLane) : XLane := { l with value := 0, adds := 0xFFFFFFFF, ovf := true }

/-- R156, R157: an exact addition of `n` units of 2^-149 that counts `k` additions. -/
def XLane.addCounted (l : XLane) (n : Int) (k : Nat) : XLane :=
  if l.ovf then l
  else
    let v : Int := l.value.toInt + n
    if l.adds.toNat + k > 2 ^ 31 ∨ v ≥ 2 ^ 319 ∨ v < -(2 ^ 319) then l.overflow
    else { l with value := BitVec.ofInt 320 v, adds := BitVec.ofNat 32 (l.adds.toNat + k) }

/-- R159: a poisoned element adds nothing, counts one addition and sets POI. -/
def XLane.addPoisoned (l : XLane) : XLane := { l.addCounted 0 1 with poi := true }

/-- One element added (R156, R157, R159). -/
def XLane.addVal (l : XLane) (v : AddVal) : XLane :=
  match v with
  | .units n => l.addCounted n 1
  | .special => if l.ovf then l else l.overflow
  | .poisoned => l.addPoisoned

/-- R156: a lane added into a lane: values and counts add, either one's flags are set. -/
def XLane.addLane (l src : XLane) : XLane :=
  let r := if src.ovf then (if l.ovf then l else l.overflow) else l.addCounted src.value.toInt src.adds.toNat
  { r with poi := l.poi || src.poi }

/-- R156, R157: what an element contributes: its value in units of 2^-149, or what makes the lane overflow. -/
def addValOf (v : Num) (sub : Bool) : AddVal :=
  match v with
  | .fin neg m e =>
    let n := accUnits (neg ^^ sub) m e
    if n ≥ accLimit ∨ n ≤ -accLimit then .special else .units n
  | _ => .special

/-- R117, R160: the 64 bytes of a record. -/
def recordBytes (l : XLane) : List Byte :=
  leBytes 40 l.value.toNat ++ leBytes 4 l.adds.toNat ++
  [BitVec.ofNat 8 ((if l.ovf then 1 else 0) + (if l.poi then 2 else 0))] ++ List.replicate 19 0

/-- R117: the lane a record stands for. -/
def recordLane (bs : List Byte) : XLane :=
  let f := field bs 0x2C 1
  { value := BitVec.ofNat 320 (field bs 0 40), adds := BitVec.ofNat 32 (field bs 0x28 4), ovf := f % 2 == 1, poi := f / 2 % 2 == 1 }

/-- R161, Table 5.7: the element XRD writes for a lane, and whether the V lane is poisoned by it. -/
def readOut (f : Fmt) (rm : RMode) (sat : Bool) (r : Nat) (l : XLane) : Nat × Bool :=
  if l.poi then (fmtNaN f, true)
  else if l.ovf then (fmtNaN f, false)
  else
    let v := l.value.toInt
    if v = 0 then (0, false) else (roundFin f rm sat r (decide (v < 0)) v.natAbs (-149) false, false)

/-- Lane `i` of physical X register `x` of a coach. -/
def xget (t : Coach) (x i : Nat) : XLane := kget XLane.zero t.xlane (64 * x + i)

def xset (t : Coach) (x i : Nat) (l : XLane) : Coach :=
  { t with xlane := kset XLane.zero t.xlane (64 * x + i) l }

/-- R60: the physical register behind X register `x` of a seat's grant. -/
def xphys (t : Seat) (x : Nat) : Nat := lget 0 t.grant x

/-- R158: one XACC_OVERFLOW message when an instruction set OVF in a lane that had it clear. -/
def overflowMsg (s : State) (c : Nat) (hit : Bool) (addr : Nat) : State := if hit then raise s c 0x06 1 addr else s

end Sys2Proof.Machine
end

