-- ==== Sys2Proof/Machine/CoachVector.lean ====
section
/-! DEFINITION. Tables 4.7 and 4.8 and CVT: the vector floating-point, integer, lane, mask and conversion groups
(R109 to R113, R149 to R154). -/

namespace Sys2Proof.Machine

/-- R109: D a V register, A and B of class S|V, masked through C, formats 0x0 to 0x2. -/
def formVfp (op : Nat) (rounds flag : Bool) : Form :=
  { op := op, d := .v, a := .sv, b := .sv, c := .mask, fmts := [0, 1, 2], rounds := rounds, flag := flag }

/-- R109: one-source form. -/
def formVfp1 (op : Nat) (fmts : List Nat) (rounds : Bool) : Form := { op := op, d := .v, a := .sv, c := .mask, fmts := fmts, rounds := rounds }

/-- A lane from its elements, each computed from its number in the register. -/
def laneOf (wd i : Nat) (f : Nat → Nat → Nat) : W32 :=
  let k := 32 / wd
  BitVec.ofNat 32 (joinElems wd ((rangeFrom 0 k).map fun e => f e (i * k + e)))

/-- R101, R103, R105, R109: an elementwise instruction over a, b and the old destination: `f` takes the three element
encodings and the element number. `useB` and `useD` say that the second source and the old destination contribute. -/
def vecElem (s : State) (seat : Nat) (w : Fields) (form : Form) (useB useD : Bool) (f : Seat → Nat → Nat → Nat → Nat → Nat) :
    Host.Outcome State Fault Refusal :=
  issueNext s seat w form true [] fun t =>
    let wd := fmtWidth (wFmt w)
    let vd := w.d.toNat - 32
    doneSeat s seat (vmap t vd (selMask t w.c) fun i =>
      let x := srcLane t w.a wd i
      let y := srcLane t w.b wd i
      let z := vget t vd i
      (laneOf wd i fun e j => f t (elemOf x.1 wd e) (elemOf y.1 wd e) (elemOf z.1 wd e) j,
        x.2 || (useB && y.2) || (useD && z.2)))

/-- R149: an arithmetic instruction: the exact result of the operands' values, rounded once. -/
def vecArith (op : Nat) (s : State) (seat : Nat) (w : Fields) (useD : Bool) (f : Num → Num → Num → Num) :
    Host.Outcome State Fault Refusal :=
  let fm := wFmt w
  vecElem s seat w (formVfp op true false) true useD fun t a b d j =>
    roundArith fm (wRm w) (wSat w) (drawFor s t j) (f (numDecode fm a) (numDecode fm b) (numDecode fm d))

/-- VADD (R109, R149). -/
def execVadd (seat : Nat) (w : Fields) (s : State) : Host.Outcome State Fault Refusal :=
  vecArith 0x30 s seat w false fun a b _ => numAdd a b

/-- VSUB (R109, R149). -/
def execVsub (seat : Nat) (w : Fields) (s : State) : Host.Outcome State Fault Refusal :=
  vecArith 0x31 s seat w false fun a b _ => numAdd a (numNeg b)

/-- VMUL (R109, R149). -/
def execVmul (seat : Nat) (w : Fields) (s : State) : Host.Outcome State Fault Refusal :=
  vecArith 0x32 s seat w false fun a b _ => numMul a b

/-- VFMA (R109, R149): a × b + Vd, fused. -/
def execVfma (seat : Nat) (w : Fields) (s : State) : Host.Outcome State Fault Refusal :=
  vecArith 0x33 s seat w true fun a b d => numAdd (numMul a b) d

/-- VFNMA (R109, R149): Vd − a × b, fused. -/
def execVfnma (seat : Nat) (w : Fields) (s : State) : Host.Outcome State Fault Refusal :=
  vecArith 0x34 s seat w true fun a b d => numAdd d (numNeg (numMul a b))

/-- R111: the S registers that hold the scales named by a field: one, or an even pair for MXFP4. -/
def scaleRegs (f : Fmt) (r : Nat) : List Nat := if fmtIsMx f then (if f = .mxE2m1 then [r, r + 1] else [r]) else []

/-- R111: a scale field is zero without an MX format and even for MXFP4. -/
def scaleOk (f : Fmt) (r : Nat) : Bool :=
  if fmtIsMx f then f != .mxE2m1 || r % 2 == 0 else r == 0

/-- R105: the poison that a lane's MX elements take from the registers of their scales. -/
def scalePoison (t : Seat) (f : Fmt) (r i : Nat) : Bool :=
  fmtIsMx f && (scaleOf t f r (i * (32 / fmtWidth f) / 32)).2

/-- R109, R149: the exact value of one VDOT lane. -/
def dotNum (t : Seat) (f : Fmt) (ra rb i : Nat) (x y z : W32) : Num :=
  let k := 32 / fmtWidth f
  (rangeFrom 0 k).foldl (fun acc e =>
    numAdd acc (numMul (elemNum t f ra (i * k + e) x) (elemNum t f rb (i * k + e) y))) (numDecode .fp32 z.toNat)

/-- R149: the result of one VDOT lane: the exact sum rounded once to FP32. An exact zero sum is +0 unless every term is
−0, as the repeated sum of R149 gives. -/
def dotLane (s : State) (t : Seat) (w : Fields) (f : Fmt) (ra rb i : Nat) (x y z : W32) : W32 :=
  BitVec.ofNat 32 (roundArith .fp32 (wRm w) (wSat w) (drawFor s t i) (dotNum t f ra rb i x y z))

/-- VDOT (R109, R111, R149): FP32 lane i of Vd plus the exact sum of the k element products of the lane. -/
def execVdot (seat : Nat) (w : Fields) (s : State) : Host.Outcome State Fault Refusal :=
  let f := wFmt w
  let mx := fmtIsMx f
  let ra := w.imm.toNat / 32 % 32
  let rb := w.imm.toNat % 32
  let form : Form := { op := 0x35, d := .v, a := if mx then .v else .sv, b := if mx then .v else .sv, c := .mask,
                       fmts := [0, 1, 2, 3, 4, 5, 6, 7, 8, 9], rounds := true, imm := 0x3FF }
  issueNext s seat w form (scaleOk f ra && scaleOk f rb) (scaleRegs f ra ++ scaleRegs f rb) fun t =>
    let wd := fmtWidth f
    let vd := w.d.toNat - 32
    doneSeat s seat (vmap t vd (selMask t w.c) fun i =>
      let x := srcLane t w.a wd i
      let y := srcLane t w.b wd i
      let z := vget t vd i
      (dotLane s t w f ra rb i x.1 y.1 z.1, x.2 || y.2 || z.2 || scalePoison t f ra i || scalePoison t f rb i))

/-- VMIN (R109, R150); FLAG selects the number-preferring form. -/
def execVmin (seat : Nat) (w : Fields) (s : State) : Host.Outcome State Fault Refusal :=
  vecElem s seat w (formVfp 0x36 false true) true false fun _ a b _ _ => minMaxBits (wFmt w) false (wFlag w) a b

/-- VMAX (R109, R150). -/
def execVmax (seat : Nat) (w : Fields) (s : State) : Host.Outcome State Fault Refusal :=
  vecElem s seat w (formVfp 0x37 false true) true false fun _ a b _ _ => minMaxBits (wFmt w) true (wFlag w) a b

/-- VABS (R109): the sign bit cleared, no other bit changed. -/
def execVabs (seat : Nat) (w : Fields) (s : State) : Host.Outcome State Fault Refusal :=
  vecElem s seat w (formVfp1 0x38 [0, 1, 2] false) false false fun _ a _ _ _ => a % 2 ^ (fmtWidth (wFmt w) - 1)

/-- VNEG (R109): the sign bit inverted, no other bit changed. -/
def execVneg (seat : Nat) (w : Fields) (s : State) : Host.Outcome State Fault Refusal :=
  vecElem s seat w (formVfp1 0x39 [0, 1, 2] false) false false fun _ a _ _ _ => a ^^^ 2 ^ (fmtWidth (wFmt w) - 1)

/-- VDIV (R109, R110, R149), FP32. -/
def execVdiv (seat : Nat) (w : Fields) (s : State) : Host.Outcome State Fault Refusal :=
  vecElem s seat w { op := 0x3A, d := .v, a := .sv, b := .sv, c := .mask, rounds := true } true false fun t a b _ j =>
    divRound .fp32 (wRm w) (wSat w) (drawFor s t j) (numDecode .fp32 a) (numDecode .fp32 b)

/-- VSQRT (R109, R110, R149), FP32. -/
def execVsqrt (seat : Nat) (w : Fields) (s : State) : Host.Outcome State Fault Refusal :=
  vecElem s seat w (formVfp1 0x3B [0] true) false false fun t a _ _ j =>
    sqrtRound .fp32 (wRm w) (wSat w) (drawFor s t j) (numDecode .fp32 a)

/-- A mask register with the selected bits replaced (R103, Table 4.7). -/
def maskWrite (old sel : W64) (f : Nat → Bool) : W64 :=
  (rangeFrom 0 64).foldl (fun m i =>
    if sel.getLsbD i then (if f i then m ||| (1#64 <<< i) else m &&& ~~~(1#64 <<< i)) else m) old

/-- R105: a lane compare into a mask register; a poisoned selected lane is consumed. -/
def vecCompare (op : Nat) (s : State) (seat : Nat) (w : Fields) (fmts : List Nat) (f : Nat → W32 → W32 → Bool) :
    Host.Outcome State Fault Refusal :=
  issueNext s seat w { op := op, d := .m, a := .sv, b := .sv, c := .mask, fmts := fmts, imm := 7 } (w.imm.toNat % 8 != 7) [] fun t =>
    let sel := selMask t w.c
    let x := fun i => srcLane t w.a 32 i
    let y := fun i => srcLane t w.b 32 i
    if (rangeFrom 0 64).any fun i => sel.getLsbD i && ((x i).2 || (y i).2) then .exc 5
    else doneSeat s seat (mset t w.d.toNat (maskWrite (mget t w.d.toNat) sel fun i => f (w.imm.toNat % 8) (x i).1 (y i).1))

/-- VCMP (R109, R150), FP32. -/
def execVcmp (seat : Nat) (w : Fields) (s : State) : Host.Outcome State Fault Refusal :=
  vecCompare 0x3C s seat w [0] fun c x y => cmpCond c (numDecode .fp32 x.toNat) (numDecode .fp32 y.toNat)

/-- R112: an elementwise integer instruction modulo 2^w, masked through C. -/
def vecInt (op : Nat) (s : State) (seat : Nat) (w : Fields) (fmts : List Nat) (f : Nat → Nat → Nat → Nat) : Host.Outcome State Fault Refusal :=
  vecElem s seat w { op := op, d := .v, a := .sv, b := .sv, c := .mask, fmts := fmts } true false fun _ a b _ _ =>
    f (fmtWidth (wFmt w)) a b

/-- VIADD (R112). -/
def execViadd (seat : Nat) (w : Fields) (s : State) : Host.Outcome State Fault Refusal :=
  vecInt 0x40 s seat w [10, 11] fun _ a b => a + b

/-- VISUB (R112). -/
def execVisub (seat : Nat) (w : Fields) (s : State) : Host.Outcome State Fault Refusal :=
  vecInt 0x41 s seat w [10, 11] fun wd a b => a + 2 ^ wd - b

/-- VIMUL (R112). -/
def execVimul (seat : Nat) (w : Fields) (s : State) : Host.Outcome State Fault Refusal :=
  vecInt 0x42 s seat w [11] fun _ a b => a * b

/-- VIDOT (R112): INT32 lane i of Vd plus the four signed INT8 products of lane i, modulo 2^32. -/
def execVidot (seat : Nat) (w : Fields) (s : State) : Host.Outcome State Fault Refusal :=
  issueNext s seat w { op := 0x43, d := .v, a := .v, b := .v, c := .mask, fmts := [10] } true [] fun t =>
    let vd := w.d.toNat - 32
    doneSeat s seat (vmap t vd (selMask t w.c) fun i =>
      let x := vget t (w.a.toNat - 32) i
      let y := vget t (w.b.toNat - 32) i
      let z := vget t vd i
      (BitVec.ofInt 32 ((rangeFrom 0 4).foldl (fun acc e =>
          acc + signedOf 8 (elemOf x.1 8 e) * signedOf 8 (elemOf y.1 8 e)) (z.1.toNat : Int)),
        x.2 || y.2 || z.2))

/-- VAND (R112). -/
def execVand (seat : Nat) (w : Fields) (s : State) : Host.Outcome State Fault Refusal :=
  vecInt 0x44 s seat w [11] fun _ a b => a &&& b

/-- VOR (R112). -/
def execVor (seat : Nat) (w : Fields) (s : State) : Host.Outcome State Fault Refusal :=
  vecInt 0x45 s seat w [11] fun _ a b => a ||| b

/-- VXOR (R112). -/
def execVxor (seat : Nat) (w : Fields) (s : State) : Host.Outcome State Fault Refusal :=
  vecInt 0x46 s seat w [11] fun _ a b => a ^^^ b

/-- VSHL (R112). -/
def execVshl (seat : Nat) (w : Fields) (s : State) : Host.Outcome State Fault Refusal :=
  vecInt 0x47 s seat w [11] fun _ a b => a * 2 ^ (b % 32)

/-- VSHR (R112). -/
def execVshr (seat : Nat) (w : Fields) (s : State) : Host.Outcome State Fault Refusal :=
  vecInt 0x48 s seat w [11] fun _ a b => a / 2 ^ (b % 32)

/-- VSRA (R112). -/
def execVsra (seat : Nat) (w : Fields) (s : State) : Host.Outcome State Fault Refusal :=
  vecInt 0x49 s seat w [11] fun _ a b => ((BitVec.ofNat 32 a).sshiftRight (b % 32)).toNat

/-- VICMP (R112): as VCMP on signed integers; condition 6 is unsigned less-than. -/
def execVicmp (seat : Nat) (w : Fields) (s : State) : Host.Outcome State Fault Refusal :=
  vecCompare 0x4A s seat w [11] fun c x y =>
    match c with
    | 0 => x == y
    | 1 => x != y
    | 2 => x.slt y
    | 3 => !y.slt x
    | 4 => y.slt x
    | 5 => !x.slt y
    | _ => x.ult y

/-- VSEL (R112): lane i of a where selected, else of b; MASK_EN must be set and every lane is written. -/
def execVsel (seat : Nat) (w : Fields) (s : State) : Host.Outcome State Fault Refusal :=
  issueNext s seat w { op := 0x4B, d := .v, a := .sv, b := .sv, c := .maskOn, fmts := [11] } true [] fun t =>
    let sel := selMask t w.c
    doneSeat s seat (vmap t (w.d.toNat - 32) (BitVec.allOnes 64) fun i =>
      if sel.getLsbD i then srcLane t w.a 32 i else srcLane t w.b 32 i)

/-- VMOVS (R112): lane IMM[5:0] of Vd = Sa[31:0]. -/
def execVmovs (seat : Nat) (w : Fields) (s : State) : Host.Outcome State Fault Refusal :=
  issueNext s seat w { op := 0x4C, d := .v, a := .s, imm := 0x3F } true [] fun t =>
    let x := sget t w.a.toNat
    doneSeat s seat (vset t (w.d.toNat - 32) (w.imm.toNat % 64) (x.1.setWidth 32) x.2)

/-- SMOVV (R112): Sd = lane IMM[5:0] of Va, zero-extended. -/
def execSmovv (seat : Nat) (w : Fields) (s : State) : Host.Outcome State Fault Refusal :=
  issueNext s seat w { op := 0x4D, d := .s, a := .v, imm := 0x3F } true [] fun t =>
    let x := vget t (w.a.toNat - 32) (w.imm.toNat % 64)
    doneSeat s seat (sset t w.d.toNat (x.1.setWidth 64) x.2)

/-- VIOTA (R112): lane i = Sa[31:0] + i. -/
def execViota (seat : Nat) (w : Fields) (s : State) : Host.Outcome State Fault Refusal :=
  issueNext s seat w { op := 0x4E, d := .v, a := .s } true [] fun t =>
    let x := sget t w.a.toNat
    doneSeat s seat (vmap t (w.d.toNat - 32) (BitVec.allOnes 64) fun i => (x.1.setWidth 32 + BitVec.ofNat 32 i, x.2))

/-- VPERM (R112): lane i = lane (lane i of Vb) mod 64 of Va with its poison bit; a poisoned index poisons the lane (R105). -/
def execVperm (seat : Nat) (w : Fields) (s : State) : Host.Outcome State Fault Refusal :=
  issueNext s seat w { op := 0x4F, d := .v, a := .v, b := .v } true [] fun t =>
    doneSeat s seat (vmap t (w.d.toNat - 32) (BitVec.allOnes 64) fun i =>
      let y := vget t (w.b.toNat - 32) i
      let x := vget t (w.a.toNat - 32) (y.1.toNat % 64)
      (x.1, x.2 || y.2))

/-- R112: two masks into a mask. -/
def mask2 (op : Nat) (s : State) (seat : Nat) (w : Fields) (f : W64 → W64 → W64) : Host.Outcome State Fault Refusal :=
  issueNext s seat w { op := op, d := .m, a := .m, b := .m } true [] fun t =>
    doneSeat s seat (mset t w.d.toNat (f (mget t w.a.toNat) (mget t w.b.toNat)))

/-- MAND (R112). -/
def execMand (seat : Nat) (w : Fields) (s : State) : Host.Outcome State Fault Refusal := mask2 0x58 s seat w fun x y => x &&& y

/-- MOR (R112). -/
def execMor (seat : Nat) (w : Fields) (s : State) : Host.Outcome State Fault Refusal := mask2 0x59 s seat w fun x y => x ||| y

/-- MXOR (R112). -/
def execMxor (seat : Nat) (w : Fields) (s : State) : Host.Outcome State Fault Refusal := mask2 0x5A s seat w fun x y => x ^^^ y

/-- MNOT (R112). -/
def execMnot (seat : Nat) (w : Fields) (s : State) : Host.Outcome State Fault Refusal :=
  issueNext s seat w { op := 0x5B, d := .m, a := .m } true [] fun t => doneSeat s seat (mset t w.d.toNat (~~~(mget t w.a.toNat)))

/-- MSET (R105, R112): Md = Sa; a poisoned source is consumed. -/
def execMset (seat : Nat) (w : Fields) (s : State) : Host.Outcome State Fault Refusal :=
  issueNext s seat w { op := 0x5C, d := .m, a := .s } true [] fun t =>
    let x := sget t w.a.toNat
    if x.2 then .exc 5 else doneSeat s seat (mset t w.d.toNat x.1)

/-- MGET (R112). -/
def execMget (seat : Nat) (w : Fields) (s : State) : Host.Outcome State Fault Refusal :=
  issueNext s seat w { op := 0x5D, d := .s, a := .m } true [] fun t => doneSeat s seat (sset t w.d.toNat (mget t w.a.toNat) false)

/-- The number of 1 bits. -/
def popCount (m : W64) : Nat := lsum ((rangeFrom 0 64).map fun i => if m.getLsbD i then 1 else 0)

/-- MCNT (R112). -/
def execMcnt (seat : Nat) (w : Fields) (s : State) : Host.Outcome State Fault Refusal :=
  issueNext s seat w { op := 0x5E, d := .s, a := .m } true [] fun t =>
    doneSeat s seat (sset t w.d.toNat (BitVec.ofNat 64 (popCount (mget t w.a.toNat))) false)

/-- MFIRST (R105, R112): bit i = 1 for i < Sa; Sa is a count, so its poison is consumed. -/
def execMfirst (seat : Nat) (w : Fields) (s : State) : Host.Outcome State Fault Refusal :=
  issueNext s seat w { op := 0x5F, d := .m, a := .s } true [] fun t =>
    let x := sget t w.a.toNat
    if x.2 then .exc 5
    else doneSeat s seat (mset t w.d.toNat (BitVec.ofNat 64 (2 ^ (min 64 x.1.toNat) - 1)))

/-! ### Conversion (R113, R151 to R154) -/

/-- R113: source format, part and scale registers of a CVT word. -/
def cvtSrc (w : Fields) : Fmt := (fmtOfCode (w.imm.toNat % 16)).getD .fp32
def cvtPart (w : Fields) : Nat := w.imm.toNat / 16 % 8
def cvtSs (w : Fields) : Nat := w.imm.toNat / 2 ^ 8 % 32
def cvtDs (w : Fields) : Nat := w.imm.toNat / 2 ^ 13 % 32

/-- R113: the number of parts p ranges over. -/
def cvtParts (src dst : Fmt) : Nat :=
  if fmtCount dst ≥ fmtCount src then fmtCount dst / fmtCount src else fmtCount src / fmtCount dst

/-- R113: the source element that becomes destination element `j`, none outside the converted range. -/
def cvtFrom (src dst : Fmt) (p j : Nat) : Option Nat :=
  if fmtCount dst ≥ fmtCount src then
    (if p * fmtCount src ≤ j ∧ j < p * fmtCount src + fmtCount src then some (j - p * fmtCount src) else none)
  else some (p * fmtCount dst + j)

/-- The exact value and the poison of element `j` of a source register (R105, R151). -/
def cvtVal (t : Seat) (f : Fmt) (v scale j : Nat) : Num × Bool :=
  let k := 32 / fmtWidth f
  let x := vget t v (j / k)
  (elemNum t f scale j x.1, x.2 || (fmtIsMx f && (scaleOf t f scale (j / 32)).2))

/-- The converted elements, by destination element number. -/
def cvtRange (src dst : Fmt) (p : Nat) : List Nat :=
  (rangeFrom 0 (fmtCount dst)).filter fun j => (cvtFrom src dst p j).isSome

/-- R154: the blocks of the destination that a conversion writes. -/
def cvtBlocks (src dst : Fmt) (p : Nat) : List Nat := dedup ((cvtRange src dst p).map fun j => j / 32)

/-- The values of one destination block (R154). -/
def cvtBlockVals (t : Seat) (src dst : Fmt) (v scale p m : Nat) : List (Num × Bool) :=
  (rangeFrom (32 * m) 32).filterMap fun j => (cvtFrom src dst p j).map fun i => cvtVal t src v scale i

/-- R113: byte `m` of a scale register or pair replaced. -/
def putScale (t : Seat) (f : Fmt) (reg m x : Nat) (pois : Bool) : Seat :=
  let r := if f = .mxE2m1 then reg + m / 8 else reg
  let (v, p) := sget t r
  sset t r (setBits v (8 * (m % 8) + 7) (8 * (m % 8)) x) (p || pois)

/-- R113, R151 to R154: the destination register after a conversion. Scales are read before any is written (R100). -/
def cvtSeat (s : State) (t : Seat) (w : Fields) : Seat :=
  let src := cvtSrc w
  let dst := wFmt w
  let p := cvtPart w
  let va := w.a.toNat - 32
  let vd := w.d.toNat - 32
  let k := 32 / fmtWidth dst
  let blocks := if fmtIsMx dst then
      (cvtBlocks src dst p).map fun m =>
        let vs := cvtBlockVals t src dst va (cvtSs w) p m
        (m, blockScale dst (vs.map Prod.fst), vs.any Prod.snd)
    else []
  let lanes := dedup ((cvtRange src dst p).map fun j => j / k)
  let t' := lanes.foldl (fun u i =>
    if (selMask t w.c).getLsbD i then
      let old := vget t vd i
      let parts := (rangeFrom 0 k).map fun e =>
        let j := i * k + e
        match cvtFrom src dst p j with
        | none => (elemOf old.1 (fmtWidth dst) e, old.2)
        | some g =>
          let x := cvtVal t src va (cvtSs w) g
          if fmtIsMx dst then
            match blocks.find? fun b => b.1 == j / 32 with
            | some b => (mxEncode dst (wRm w) (drawFor s t j) b.2.1 x.1, b.2.2)
            | none => (0, x.2)
          else (roundNum dst (wRm w) (wSat w) (drawFor s t j) x.1, x.2)
      vset u vd i (BitVec.ofNat 32 (joinElems (fmtWidth dst) (parts.map Prod.fst))) (parts.any Prod.snd)
    else u) t
  blocks.foldl (fun u b => putScale u dst (cvtDs w) b.1 b.2.1 b.2.2) t'

/-- CVT (R113, R151 to R154). With an MX destination MASK_EN is ILLEGAL (R153). -/
def execCvt (seat : Nat) (w : Fields) (s : State) : Host.Outcome State Fault Refusal :=
  let src := cvtSrc w
  let dst := wFmt w
  let ok := decide (w.imm.toNat % 16 < 12) && decide (cvtPart w < cvtParts src dst) && scaleOk src (cvtSs w) &&
    scaleOk dst (cvtDs w) && !(fmtIsMx dst && w.c.getLsbD 5)
  issueNext s seat w { op := 0x50, d := .v, a := .v, c := .mask, fmts := [0, 1, 2, 3, 4, 5, 6, 7, 8, 9, 10, 11], rounds := true, imm := 0x3FF7F }
    ok (scaleRegs src (cvtSs w) ++ scaleRegs dst (cvtDs w)) fun t => doneSeat s seat (cvtSeat s t w)

end Sys2Proof.Machine
end

