-- ==== Sys2Proof/Machine/CoachAccum.lean ====
section
/-! DEFINITION. Table 4.9: the exact-accumulate group (R59, R60, R114 to R117, R155 to R161). -/

namespace Sys2Proof.Machine

/-- R60: every X register of a seat released. -/
def releaseX (s : State) (n : Nat) : State :=
  let c := n / 16
  let t := getCoach s c
  let mine := (t.xowner.filter fun e => e.2 == n).map Prod.fst
  let s := putCoach s c { t with
    xowner := t.xowner.filter fun e => e.2 != n
    xlane := t.xlane.filter fun e => !mine.contains (e.1 / 64)
    xwait := t.xwait.filter fun e => e.1 != n }
  putSeat s n { getSeat s n with grant := [] }

/-- XALLOC (R59, R114): a request for IMM[3:0] registers, 1 to 8; the seat parks until it is granted. -/
def execXalloc (seat : Nat) (w : Fields) (s : State) : Host.Outcome State Fault Refusal :=
  let n := w.imm.toNat % 16
  issueNext s seat w { op := 0x60, imm := 0xF } (decide (1 ≤ n) && decide (n ≤ 8)) [] fun t =>
    if t.grant ≠ [] then .exc 6
    else
      let c := getCoach s (seat / 16)
      .done (putSeat (putCoach s (seat / 16) { c with xwait := c.xwait ++ [(seat, n)] }) seat { t with st := .parked .xalloc })

/-- XALLOC_GRANT (R59, R60): the oldest request is granted all its registers once enough are free; they read as zero. -/
def execXallocGrant (coach : Nat) (s : State) : Host.Outcome State Fault Refusal :=
  let c := getCoach s coach
  match c.xwait with
  | [] => .next s
  | (n, k) :: rest =>
    let free := (rangeFrom 0 8).filter fun x => !(c.xowner.map Prod.fst).contains x
    if free.length < k then .next s
    else
      let mine := free.take k
      let c' := { c with
        xwait := rest
        xowner := mine.foldl (fun m x => kput m x n) c.xowner
        xlane := c.xlane.filter fun e => !mine.contains (e.1 / 64) }
      let t := getSeat s n
      .next (putSeat (putCoach s coach c') n { t with grant := mine, st := .ready })

/-- XFREE (R60, R114). -/
def execXfree (seat : Nat) (w : Fields) (s : State) : Host.Outcome State Fault Refusal :=
  issueNext s seat w { op := 0x61 } true (rangeFrom 64 8) fun _ => .done (releaseX s seat)

/-- R115: the additions of one XACC: destination X register of the grant, lane, value. -/
def xaccVals (t : Seat) (w : Fields) : List (Nat × Nat × AddVal) :=
  let f := wFmt w
  let k := 32 / fmtWidth f
  let scale := w.imm.toNat / 32 % 32
  let sel := selMask t w.c
  (rangeFrom 0 (fmtCount f)).filterMap fun j =>
    if sel.getLsbD (j / k) then
      let x := vget t (w.a.toNat - 32) (j / k)
      let pois := x.2 || (fmtIsMx f && (scaleOf t f scale (j / 32)).2)
      some (w.d.toNat + j / 64, j % 64, if pois then .poisoned else addValOf (elemNum t f scale j x.1) (wFlag w))
    else none

/-- The additions of an instruction applied to a coach's lanes, and whether a lane's OVF became set (R158). -/
def applyAdds (t : Seat) (c : Coach) (l : List (Nat × Nat × AddVal)) : Coach × Bool :=
  l.foldl (fun (r : Coach × Bool) e =>
    let x := xphys t e.1
    let old := xget r.1 x e.2.1
    let new := old.addVal e.2.2
    (xset r.1 x e.2.1 new, r.2 || (new.ovf && !old.ovf))) (c, false)

/-- XACC (R115, R156 to R159). Its XACC_OVERFLOW message carries ADDRESS 0 (DESIGN CHOICE, log 126). -/
def execXacc (seat : Nat) (w : Fields) (s : State) : Host.Outcome State Fault Refusal :=
  let f := wFmt w
  let n := fmtXRegs f
  let scale := w.imm.toNat / 32 % 32
  issueNext s seat w { op := 0x62, d := .x, a := .v, c := .mask, fmts := [0, 1, 2, 3, 4, 5, 6, 7, 8, 9, 10, 11], flag := true, imm := 0x3E0 }
    (scaleOk f scale && w.d.toNat % n == 0) (scaleRegs f scale ++ rangeFrom (64 + w.d.toNat) n) fun t =>
      if w.d.toNat + n > t.grant.length then .exc 7
      else
        let r := applyAdds t (getCoach s (seat / 16)) (xaccVals t w)
        .done (overflowMsg (putCoach s (seat / 16) r.1) (seat / 16) r.2 0)

/-- XZERO (R114). -/
def execXzero (seat : Nat) (w : Fields) (s : State) : Host.Outcome State Fault Refusal :=
  issueNext s seat w { op := 0x63, d := .x } true [] fun t =>
    if w.d.toNat ≥ t.grant.length then .exc 7
    else
      let c := getCoach s (seat / 16)
      let x := xphys t w.d.toNat
      .done (putCoach s (seat / 16) { c with xlane := c.xlane.filter fun e => e.1 / 64 != x })

/-- XRD (R114, R116, R161): every lane rounded once into elements 64p to 64p + 63 of Vd. -/
def execXrd (seat : Nat) (w : Fields) (s : State) : Host.Outcome State Fault Refusal :=
  let f := wFmt w
  let p := w.imm.toNat % 8
  issueNext s seat w { op := 0x64, d := .v, a := .x, c := .mask, fmts := [0, 1, 2, 3, 4, 11], rounds := true, imm := 7 }
    (decide (p < fmtCount f / 64)) [] fun t =>
      if w.a.toNat ≥ t.grant.length then .exc 7
      else
        let c := getCoach s (seat / 16)
        let x := xphys t w.a.toNat
        let k := 32 / fmtWidth f
        let vd := w.d.toNat - 32
        let sel := selMask t w.c
        let t' := (rangeFrom (64 * p / k) (64 / k)).foldl (fun u i =>
          if sel.getLsbD i then
            let es := (rangeFrom 0 k).map fun e =>
              let j := i * k + e
              readOut f (wRm w) (wSat w) (drawFor s t j) (xget c x (j - 64 * p))
            vset u vd i (BitVec.ofNat 32 (joinElems (fmtWidth f) (es.map Prod.fst))) (es.any Prod.snd)
          else u) t
        doneSeat s seat t'

/-- XADD (R114, R156): Xd = Xd + Xa per lane. Its XACC_OVERFLOW message carries ADDRESS 0 (DESIGN CHOICE, log 126). -/
def execXadd (seat : Nat) (w : Fields) (s : State) : Host.Outcome State Fault Refusal :=
  issueNext s seat w { op := 0x65, d := .x, a := .x } true [] fun t =>
    if w.d.toNat ≥ t.grant.length ∨ w.a.toNat ≥ t.grant.length then .exc 7
    else
      let c := getCoach s (seat / 16)
      let xd := xphys t w.d.toNat
      let xa := xphys t w.a.toNat
      let r := (rangeFrom 0 64).foldl (fun (r : Coach × Bool) i =>
        let old := xget r.1 xd i
        let new := old.addLane (xget c xa i)
        (xset r.1 xd i new, r.2 || (new.ovf && !old.ovf))) (c, false)
      .done (overflowMsg (putCoach s (seat / 16) r.1) (seat / 16) r.2 0)

/-- R117, R156, R159: a record added into a lane; a record in a poisoned block only sets POI. -/
def addRecord (l : XLane) (bs : List Byte) (poisoned : Bool) : XLane :=
  if poisoned then { l with poi := true } else l.addLane (recordLane bs)

/-- R156, R158: 64 records added into the lanes of a physical X register; the first record that set OVF is named. -/
def addRecords (c : Coach) (x : Nat) (recs : List (Nat × List Byte × Bool)) : Coach × Option Nat :=
  (recs.foldl (fun (r : (Coach × Option Nat) × Nat) e =>
    let i := r.2
    let old := xget r.1.1 x i
    let new := addRecord old e.2.1 e.2.2
    ((xset r.1.1 x i new, if r.1.2.isNone && new.ovf && !old.ovf then some e.1 else r.1.2), i + 1)) ((c, none), 0)).1

/-- R134: window, alignment and poison checks of a memory instruction, with what may follow them. -/
def memExc (win : Option Win) (misaligned poison : Bool) (more : List (Bool × Nat)) : Option Nat :=
  firstExc ([(win.isNone, 3), (misaligned, 4), (poison, 5)] ++ more)

/-- The effective address: base plus signed IMM, modulo 2^64 (R118). -/
def effAddr (t : Seat) (w : Fields) (base : BitVec 6) : Nat := ((sget t base.toNat).1 + wImm w).toNat

/-- XLDA (R114, R117, R156, R159): 64 records loaded and added. -/
def execXlda (seat : Nat) (w : Fields) (s : State) : Host.Outcome State Fault Refusal :=
  issueNext s seat w { op := 0x66, d := .x, a := .s, imm := 0xFFFFFF } true [] fun t =>
    let a := effAddr t w w.a
    let win := seatWin s (seat / 16) (codeLimit s seat) a 4096
    match memExc win (a % 64 != 0) (sget t w.a.toNat).2 [(decide (w.d.toNat ≥ t.grant.length), 7)] with
    | some e => .exc e
    | none =>
      let x := xphys t w.d.toNat
      match win with
      | some (.own h) =>
        let r := addRecords (getCoach s (seat / 16)) x
          ((rangeFrom 0 64).map fun i => (h + 64 * i, memBytes s (h + 64 * i) 64, poisonedAt s (h + 64 * i) 64))
        .done (overflowMsg (putCoach s (seat / 16) r.1) (seat / 16) r.2.isSome (r.2.getD 0))
      | some h =>
        if entriesFree (getCoach s (seat / 16)) < 64 then .park (.entries 64)
        else .done (putSeat (addAccess s seat (.xload [x] h.addr) (blocksOf h.addr 4096) []) seat (addPend t (64 + w.d.toNat)))
      | none => .exc 3

/-- XST (R114, R117, R160): the 64 lanes stored as records with valid ECC. -/
def execXst (seat : Nat) (w : Fields) (s : State) : Host.Outcome State Fault Refusal :=
  issueNext s seat w { op := 0x67, a := .x, b := .s, imm := 0xFFFFFF } true [] fun t =>
    let a := effAddr t w w.b
    let win := seatWin s (seat / 16) (codeLimit s seat) a 4096
    match memExc win (a % 64 != 0) (sget t w.b.toNat).2 [(decide (w.a.toNat ≥ t.grant.length), 7)] with
    | some e => .exc e
    | none =>
      let c := getCoach s (seat / 16)
      let bytes := (rangeFrom 0 64).flatMap fun i => recordBytes (xget c (xphys t w.a.toNat) i)
      match win with
      | some (.own h) => .done (storeBytes s h bytes false)
      | some h =>
        if entriesFree c < 64 then .park (.entries 64)
        else .done (addAccess s seat (.store (cellsAt h.addr bytes) []) (blocksOf h.addr 4096) [])
      | none => .exc 3

end Sys2Proof.Machine
end

