-- ==== Sys2Proof/Machine/CoachMemory.lean ====
section
/-! DEFINITION. Tables 4.10 and 4.12 and the transactions that perform them: loads, stores, atomics, gather, scatter,
scatter-add (R61 to R66, R77 to R81, R105, R118 to R124). -/

namespace Sys2Proof.Machine

/-- R118: bytes of a scalar access from FMT. -/
def accWidth (w : Fields) : Nat := 2 ^ (w.fmt.toNat % 4)

/-- A loaded value of `n` bytes, zero- or sign-extended. -/
def extendVal (sx : Bool) (n v : Nat) : W64 := if sx then BitVec.ofInt 64 (signedOf (8 * n) v) else BitVec.ofNat 64 v

/-- Takes `k` entries, or parks the seat until they are free (R65). -/
def withEntries (s : State) (seat k : Nat) (r : Res) : Res :=
  if entriesFree (getCoach s (seat / 16)) < k then .park (.entries k) else r

/-- LD (R105, R118, R119): from coach memory at issue, else by transactions. -/
def execLd (seat : Nat) (w : Fields) (s : State) : Host.Outcome State Fault Refusal :=
  issueNext s seat w { op := 0x70, d := .s, a := .s, fmts := [0, 1, 2, 3], flag := true, imm := 0xFFFFFF } true [] fun t =>
    let a := effAddr t w w.a
    let n := accWidth w
    let win := seatWin s (seat / 16) (codeLimit s seat) a n
    match memExc win (a % n != 0) (sget t w.a.toNat).2 [] with
    | some e => .exc e
    | none =>
      match win with
      | some (.own h) => doneSeat s seat (sset t w.d.toNat (extendVal (wFlag w) n (memVal s h n)) (poisonedAt s h n))
      | some h => withEntries s seat 1 (.done (putSeat
          (addAccess s seat (.load w.d.toNat n (wFlag w) h.addr) (blocksOf h.addr n) []) seat (addPend t w.d.toNat)))
      | none => .exc 3

/-- ST (R105, R118, R119): the low bytes of Sa. -/
def execSt (seat : Nat) (w : Fields) (s : State) : Host.Outcome State Fault Refusal :=
  issueNext s seat w { op := 0x71, a := .s, b := .s, fmts := [0, 1, 2, 3], imm := 0xFFFFFF } true [] fun t =>
    let a := effAddr t w w.b
    let n := accWidth w
    let win := seatWin s (seat / 16) (codeLimit s seat) a n
    match memExc win (a % n != 0) (sget t w.b.toNat).2 [] with
    | some e => .exc e
    | none =>
      let x := sget t w.a.toNat
      let bytes := leBytes n x.1.toNat
      match win with
      | some (.own h) => .done (storeBytes s h bytes x.2)
      | some h => withEntries s seat 1 (.done (addAccess s seat
          (.store (cellsAt h.addr bytes) (if x.2 then blocksOf h.addr n else [])) (blocksOf h.addr n) []))
      | none => .exc 3

/-- The selected lanes of a mask. -/
def selLanes (sel : W64) : List Nat := (rangeFrom 0 64).filter fun i => sel.getLsbD i

/-- R71, R103, R118: the window of a 256-byte vector access at `a`: that of its effective address, whatever the mask selects. Every
selected lane must lie inside the windows too; no other lane is looked at. -/
def vecWin (s : State) (seat : Nat) (sel : W64) (a : Nat) : Option Win :=
  let win := seatWin s (seat / 16) (codeLimit s seat)
  if (selLanes sel).all fun i => (win (a + 4 * i) 4).isSome then win a 1 else none

/-- R103, R105: the lanes of a 256-byte vector load written from 256 bytes and the poison of their blocks. -/
def vloadSeat (t : Seat) (rd : Nat) (sel : W64) (bytes : List Byte) (pois : Nat → Bool) : Seat :=
  vmap t (rd - 32) sel fun i => (BitVec.ofNat 32 (field bytes (4 * i) 4), pois i)

/-- VLD (R101, R103, R118, R119): 256 bytes into the selected lanes. -/
def execVld (seat : Nat) (w : Fields) (s : State) : Host.Outcome State Fault Refusal :=
  issueNext s seat w { op := 0x72, d := .v, a := .s, c := .mask, imm := 0xFFFFFF } true [] fun t =>
    let a := effAddr t w w.a
    let sel := selMask t w.c
    let win := vecWin s seat sel a
    match memExc win (a % 64 != 0) (sget t w.a.toNat).2 [] with
    | some e => .exc e
    | none =>
      match win with
      | some (.own h) =>
        doneSeat s seat (vloadSeat t w.d.toNat sel (memBytes s h 256) fun i => blockPoisoned s ((h + 4 * i) / 64))
      | some h => withEntries s seat 4 (.done (putSeat
          (addAccess s seat (.vload w.d.toNat sel h.addr) (blocksOf h.addr 256) []) seat (addPend t w.d.toNat)))
      | none => .exc 3

/-- R103, R105: the bytes a masked vector store writes and the blocks it poisons. -/
def vstoreCells (t : Seat) (v : Nat) (sel : W64) (h : Nat) : List (Nat × Byte) × List Nat :=
  ((rangeFrom 0 64).flatMap fun i => if sel.getLsbD i then cellsAt (h + 4 * i) (leBytes 4 (vget t v i).1.toNat) else [],
   dedup ((rangeFrom 0 64).filterMap fun i => if sel.getLsbD i && (vget t v i).2 then some ((h + 4 * i) / 64) else none))

/-- VST (R101, R103, R118, R119): 256 bytes from the selected lanes. -/
def execVst (seat : Nat) (w : Fields) (s : State) : Host.Outcome State Fault Refusal :=
  issueNext s seat w { op := 0x73, a := .v, b := .s, c := .mask, imm := 0xFFFFFF } true [] fun t =>
    let a := effAddr t w w.b
    let win := vecWin s seat (selMask t w.c) a
    match memExc win (a % 64 != 0) (sget t w.b.toNat).2 [] with
    | some e => .exc e
    | none =>
      match win with
      | some h =>
        let cp := vstoreCells t (w.a.toNat - 32) (selMask t w.c) h.addr
        if h.isOwn then .done (storeCells s cp.1 cp.2)
        else withEntries s seat 4 (.done (addAccess s seat (.store cp.1 cp.2) (blocksOf h.addr 256) []))
      | none => .exc 3

/-- R118 to R120: an atomic. Coach memory takes ACCESS; it is performed at the yard bank or memory controller. An address not aligned
to the width takes MISALIGNED (DESIGN CHOICE, log 125). -/
def atomic (s : State) (seat : Nat) (w : Fields) (form : Form) (op : AtomicOp) : Host.Outcome State Fault Refusal :=
  issueNext s seat w form true [] fun t =>
    let a := effAddr t w w.a
    let n := accWidth w
    let win := seatWin s (seat / 16) (codeLimit s seat) a n
    match memExc (match win with | some (.own _) => none | x => x) (a % n != 0) (sget t w.a.toNat).2 [] with
    | some e => .exc e
    | none =>
      let x := if op = .read then (0, false) else sget t w.b.toNat
      let z := if op = .cas then sget t w.c.toNat else (0, false)
      match win with
      | some h => withEntries s seat 1 (.done (putSeat (addAccess s seat
          (.atomic op w.d.toNat n h.addr x.1 z.1 (x.2 || z.2)) (blocksOf h.addr n) []) seat (addPend t w.d.toNat)))
      | none => .exc 3

/-- R118: the form of the atomics of two sources. -/
def formAtomic (op : Nat) (flag : Bool) : Form := { op := op, d := .s, a := .s, b := .s, fmts := [2, 3], flag := flag, imm := 0xFFFFFF }

/-- AADD (R120). -/
def execAadd (seat : Nat) (w : Fields) (s : State) : Host.Outcome State Fault Refusal :=
  atomic s seat w (formAtomic 0x74 false) .add

/-- AMIN (R120); FLAG unsigned. -/
def execAmin (seat : Nat) (w : Fields) (s : State) : Host.Outcome State Fault Refusal :=
  atomic s seat w (formAtomic 0x75 true) (.min (wFlag w))

/-- AMAX (R120); FLAG unsigned. -/
def execAmax (seat : Nat) (w : Fields) (s : State) : Host.Outcome State Fault Refusal :=
  atomic s seat w (formAtomic 0x76 true) (.max (wFlag w))

/-- ASWAP (R120). -/
def execAswap (seat : Nat) (w : Fields) (s : State) : Host.Outcome State Fault Refusal :=
  atomic s seat w (formAtomic 0x77 false) .swap

/-- ACAS (R120): when the old value equals Sc, write Sb. -/
def execAcas (seat : Nat) (w : Fields) (s : State) : Host.Outcome State Fault Refusal :=
  atomic s seat w { op := 0x78, d := .s, a := .s, b := .s, c := .s, fmts := [2, 3], imm := 0xFFFFFF } .cas

/-- ALD (R120): a read performed at the bank or controller. -/
def execAld (seat : Nat) (w : Fields) (s : State) : Host.Outcome State Fault Refusal :=
  atomic s seat w { op := 0x79, d := .s, a := .s, fmts := [2, 3], imm := 0xFFFFFF } .read

/-- R120: the value an atomic writes for an old value of `n` bytes, none when it writes nothing. A 32-bit ACAS compares the low 32 bits
of Sc (DESIGN CHOICE, log 125). -/
def atomicNew (op : AtomicOp) (n old : Nat) (arg cmp : W64) : Option Nat :=
  let m := 2 ^ (8 * n)
  let x := arg.toNat % m
  match op with
  | .add => some ((old + x) % m)
  | .min u => some (if u then min old x else if signedOf (8 * n) old ≤ signedOf (8 * n) x then old else x)
  | .max u => some (if u then max old x else if signedOf (8 * n) old ≤ signedOf (8 * n) x then x else old)
  | .swap => some x
  | .cas => if old = cmp.toNat % m then some x else none
  | .read => none

/-! ### Gather and scatter (R122 to R124) -/

/-- R122: the address of lane `i`: base + index × 2^k, modulo 2^64, with the index's poison. -/
def laneAddr (t : Seat) (base idx : BitVec 6) (k i : Nat) : Nat × Bool :=
  let x := vget t (idx.toNat - 32) i
  (((sget t base.toNat).1 + BitVec.ofNat 64 (x.1.toNat * 2 ^ k)).toNat, x.2)

/-- VGATHER (R122, R123). Lanes in coach memory are read at issue. -/
def execVgather (seat : Nat) (w : Fields) (s : State) : Host.Outcome State Fault Refusal :=
  issueNext s seat w { op := 0x90, d := .v, a := .s, b := .v, c := .mask, imm := 3 } true [] fun t =>
    let sel := selMask t w.c
    let ls := (selLanes sel).map fun i => (i, laneAddr t w.a w.b (w.imm.toNat % 4) i)
    let wins := ls.map fun l => (l.1, seatWin s (seat / 16) (codeLimit s seat) l.2.1 4)
    match firstExc [(wins.any fun x => x.2.isNone, 3), (ls.any fun l => l.2.1 % 4 != 0, 4),
        ((sget t w.a.toNat).2 || ls.any fun l => l.2.2, 5)] with
    | some e => .exc e
    | none =>
      let hs := wins.filterMap fun x => x.2.map fun h => (x.1, h)
      let out := dedup ((hs.filter fun x => !x.2.isOwn).map fun x => x.2.addr / 64)
      if out = [] then
        doneSeat s seat (hs.foldl (fun u x =>
          vset u (w.d.toNat - 32) x.1 (BitVec.ofNat 32 (memVal s x.2.addr 4)) (poisonedAt s x.2.addr 4)) t)
      else
        let mine := dedup ((hs.filter fun x => x.2.isOwn).map fun x => x.2.addr / 64)
        let got := mine.foldl (fun m b => kput m b (memBytes s (64 * b) 64, blockPoisoned s b)) []
        withEntries s seat out.length (.done (putSeat (addAccess s seat
          (.gather w.d.toNat (hs.map fun x => (x.1, x.2.addr))) out got) seat (addPend t w.d.toNat)))

/-- VSCATTER (R122, R123): the higher-numbered lane's value stays. The mask sits in D. Table 4.12 asks no alignment of it, so a lane's
word may lie in two blocks. -/
def execVscatter (seat : Nat) (w : Fields) (s : State) : Host.Outcome State Fault Refusal :=
  issueNext s seat w { op := 0x91, d := .mask, a := .v, b := .s, c := .v, imm := 3 } true [] fun t =>
    let sel := selMask t w.d
    let ls := (selLanes sel).map fun i => (i, laneAddr t w.b w.c (w.imm.toNat % 4) i)
    let wins := ls.map fun l => (l.1, seatWin s (seat / 16) (codeLimit s seat) l.2.1 4)
    match firstExc [(wins.any fun x => x.2.isNone, 3), ((sget t w.b.toNat).2 || ls.any fun l => l.2.2, 5)] with
    | some e => .exc e
    | none =>
      let hs := wins.filterMap fun x => x.2.map fun h => (x.1, h)
      let cells := fun (own : Bool) => (hs.filter fun x => x.2.isOwn == own).flatMap fun x =>
        cellsAt x.2.addr (leBytes 4 (vget t (w.a.toNat - 32) x.1).1.toNat)
      let pois := fun (own : Bool) => dedup ((hs.filter fun x => x.2.isOwn == own && (vget t (w.a.toNat - 32) x.1).2).flatMap
        fun x => blocksOf x.2.addr 4)
      let out := dedup ((hs.filter fun x => !x.2.isOwn).flatMap fun x => blocksOf x.2.addr 4)
      let s1 := storeCells s (cells true) (pois true)
      if out = [] then .done s1
      else withEntries s seat out.length (.done (addAccess s1 seat (.store (cells false) (pois false)) out []))

/-- XSCADD (R122 to R124, R159): each selected lane's element added exactly into its record at its bank. -/
def execXscadd (seat : Nat) (w : Fields) (s : State) : Host.Outcome State Fault Refusal :=
  let f := wFmt w
  let p := w.imm.toNat % 2
  issueNext s seat w { op := 0x92, d := .mask, a := .v, b := .s, c := .v, fmts := [0, 1, 2, 11], flag := true, imm := 1 }
    (decide (64 * p < fmtCount f)) [] fun t =>
      let ls := (selLanes (selMask t w.d)).map fun i => (i, laneAddr t w.b w.c 6 i)
      let wins := ls.map fun l => (l.1, seatWin s (seat / 16) (codeLimit s seat) l.2.1 64)
      match firstExc [(wins.any fun x => match x.2 with | none => true | some h => h.isOwn, 3),
          (ls.any fun l => l.2.1 % 64 != 0, 4), ((sget t w.b.toNat).2 || ls.any fun l => l.2.2, 5)] with
      | some e => .exc e
      | none =>
        let k := 32 / fmtWidth f
        let adds := wins.filterMap fun x => x.2.map fun h =>
          let j := 64 * p + x.1
          let v := vget t (w.a.toNat - 32) (j / k)
          (h.addr, if v.2 then AddVal.poisoned else addValOf (elemNum t f 0 j v.1) (wFlag w))
        let out := dedup (adds.map fun x => x.1 / 64)
        if out = [] then .done s
        else withEntries s seat out.length (.done (addAccess s seat (.scadd adds false) out []))

/-! ### Performing transactions (R66, R77, R78, R81, R134) -/

/-- A dray engine's transaction (R67). -/
def AccKind.isDray : AccKind → Bool
  | .dray .. => true
  | _ => false

/-- R103: whether an access reaches memory for one of its blocks: a masked vector access only for a selected lane. -/
def accReaches (k : AccKind) (b : Nat) : Bool :=
  match k with
  | .vload _ sel addr => (rangeFrom 0 64).any fun i => sel.getLsbD i && (addr + 4 * i) / 64 == b
  | .store cells _ => cells.any fun c => c.1 / 64 == b
  | _ => true

/-- R78: no earlier access of the same seat still has this block to perform. -/
def inOrder (c : Coach) (a : Access) (b : Nat) : Bool :=
  a.kind.isDray || c.acc.all fun x => x.kind.isDray || decide (x.seat ≠ a.seat) || decide (a.id ≤ x.id) || !x.blocks.contains b

/-- Whether an access writes. -/
def accWrites (k : AccKind) : Bool :=
  match k with
  | .load .. | .vload .. | .gather .. | .xload .. => false
  | .atomic op .. => op != .read
  | _ => true

/-- The coach's access with its number. -/
def findAcc (c : Coach) (id : Nat) : Option Access := c.acc.find? fun a => a.id == id

/-- The access replaced, or taken out when none of it is left. -/
def putAcc (c : Coach) (a : Access) (keep : Bool) : Coach :=
  { c with acc := if keep then c.acc.map fun x => if x.id = a.id then a else x else c.acc.filter fun x => x.id != a.id }

/-- The blocks of an access with one performed. -/
def Access.less (a : Access) (b : Nat) : Access := { a with blocks := a.blocks.filter fun x => x != b }

/-- R57, R81, R105: an atomic performed on its word: the old value goes to Sd, zero-extended from 32 bits (DESIGN CHOICE, log 125), the
new one to memory. -/
def performAtomic (s : State) (a : Access) (op : AtomicOp) (rd n addr : Nat) (arg cmp : W64) (pois : Bool) : State :=
  let old := memVal s addr n
  let oldP := poisonedAt s addr n
  let s := match atomicNew op n old arg cmp with
    | some v => storeBytes s addr (leBytes n v) pois
    | none => s
  let t := getSeat s a.seat
  putSeat s a.seat { sset t rd (BitVec.ofNat 64 old) oldP with pend := ndel t.pend rd }

/-- R124, R157 to R159: the additions of XSCADD into one record, and whether they set its OVF. A poisoned block stays as it is. -/
def performScadd (s : State) (adds : List (Nat × AddVal)) (b : Nat) : State × Bool :=
  if blockPoisoned s b then (s, false)
  else
    let old := recordLane (memBytes s (64 * b) 64)
    let new := (adds.filter fun x => x.1 / 64 == b).foldl (fun l x => l.addVal x.2) old
    (storeBytes s (64 * b) (recordBytes new) false, new.ovf && !old.ovf)

/-- One block of an access performed at its bank or controller, and what is left of the access. -/
def performBlock (s : State) (c : Nat) (a : Access) (b : Nat) : State :=
  let a' := a.less b
  match a.kind with
  | .store cells pois =>
    let s := storeCells s (cells.filter fun x => x.1 / 64 == b) (pois.filter fun x => x == b)
    putCoach s c (putAcc (getCoach s c) a' (a'.blocks != []))
  | .atomic op rd n addr arg cmp p =>
    let s := performAtomic s a op rd n addr arg cmp p
    putCoach s c (putAcc (getCoach s c) a' false)
  | .scadd adds told =>
    let r := performScadd s adds b
    let s := overflowMsg r.1 c (r.2 && !told) (64 * b)
    putCoach s c (putAcc (getCoach s c) { a' with kind := .scadd adds (told || r.2) } (a'.blocks != []))
  | .dray .. => putCoach s c (putAcc (getCoach s c) a' false)
  | _ =>
    let a'' := if accReaches a.kind b then { a' with got := kput a'.got b (memBytes s (64 * b) 64, blockPoisoned s b) } else a'
    putCoach s c (putAcc (getCoach s c) a'' true)

/-- R36, R134, R395: a block of an access that its train may not reach: ACCESS with the PC of the instruction; the entry is freed. -/
def refuseBlock (s : State) (c : Nat) (a : Access) (b : Nat) : State :=
  let s := putCoach s c (putAcc (getCoach s c) (a.less b) false)
  takeExc (worldFault s c (coachSecure s c) (64 * b)) a.seat a.pc 3

/-- One block of a seat's access performed, or refused where its train may not reach it (R36, R103). -/
def reachBlock (s : State) (c : Nat) (a : Access) (b : Nat) : State :=
  if !accReaches a.kind b || coachMay s c (64 * b) (accWrites a.kind) then performBlock s c a b else refuseBlock s c a b

/-- Data of an access at a hub address: what its blocks returned. -/
def gotBytes (a : Access) (addr n : Nat) : List Byte :=
  (rangeFrom addr n).map fun x => lget 0 (kget ([], false) a.got (x / 64)).1 (x % 64)

/-- Whether a block of an access was poisoned. -/
def gotPoison (a : Access) (addr : Nat) : Bool := (kget (([] : List Byte), false) a.got (addr / 64)).2

/-- R57, R66, R105: the register of a load written from the data returned, its pending bit cleared. -/
def finishLoad (s : State) (c : Nat) (a : Access) : State :=
  let t := getSeat s a.seat
  match a.kind with
  | .load rd n sx addr =>
    putSeat s a.seat { sset t rd (extendVal sx n (leVal (gotBytes a addr n))) (gotPoison a addr) with pend := ndel t.pend rd }
  | .vload rd sel addr =>
    putSeat s a.seat { vloadSeat t rd sel (gotBytes a addr 256) (fun i => gotPoison a (addr + 4 * i)) with pend := ndel t.pend rd }
  | .gather rd ls =>
    let t' := ls.foldl (fun u l => vset u (rd - 32) l.1 (BitVec.ofNat 32 (leVal (gotBytes a l.2 4))) (gotPoison a l.2)) t
    putSeat s a.seat { t' with pend := ndel t.pend rd }
  | .xload xs addr =>
    let x := lget 0 xs 0
    if kget seatCount (getCoach s c).xowner x = a.seat then
      let r := addRecords (getCoach s c) x ((rangeFrom 0 64).map fun i => (addr + 64 * i, gotBytes a (addr + 64 * i) 64, gotPoison a (addr + 64 * i)))
      let s := overflowMsg (putCoach s c r.1) c r.2.isSome (r.2.getD 0)
      let t := getSeat s a.seat
      putSeat s a.seat { t with pend := t.pend.filter fun p => decide (p < 64) || xphys t (p - 64) != x }
    else s
  | _ => s

/-- LOAD_RETURN (R57, R66, R77, R78): the last transaction of a load returns and the coach writes its register. -/
def execLoadReturn (coach id : Nat) (s : State) : Host.Outcome State Fault Refusal :=
  let c := getCoach s coach
  match findAcc c id with
  | none => .next s
  | some a =>
    if !(match a.kind with | .load .. | .vload .. | .gather .. | .xload .. => true | _ => false) then .next s
    else if !(a.blocks.all fun b => inOrder c a b && !bankTested s (64 * b)) then .next s
    else
      match a.blocks.find? fun b => accReaches a.kind b && !coachMay s coach (64 * b) false with
      | some b => .next (wakeSeats (refuseBlock s coach a b) coach)
      | none =>
        let a' := { a with
          blocks := []
          got := (a.blocks.filter fun b => accReaches a.kind b).foldl
            (fun m b => kput m b (memBytes s (64 * b) 64, blockPoisoned s b)) a.got }
        let s := finishLoad s coach a'
        .next (wakeSeats (putCoach s coach (putAcc (getCoach s coach) a' false)) coach)

end Sys2Proof.Machine
end

