-- ==== Sys2Proof/Machine/CoachSync.lean ====
section
/-! DEFINITION. Tables 4.11, 4.14, 4.16: the dray, synchronisation, launch, beat, random-number and system groups of the
coach instruction set and the engine events (R67 to R70, R79, R80, R121, R125 to R128, R131, R132). -/

namespace Sys2Proof.Machine

/-! ### Dray engines -/

/-- The queue of engine 0 or 1. -/
def drayQ (c : Coach) (e : Nat) : List DrayDesc := if e = 0 then c.q0 else c.q1

def putDrayQ (c : Coach) (e : Nat) (q : List DrayDesc) : Coach := if e = 0 then { c with q0 := q } else { c with q1 := q }

/-- The completion count DC0 or DC1. -/
def drayCount (c : Coach) (e : Nat) : W32 := if e = 0 then c.dc0 else c.dc1

/-- R68: whether two byte ranges meet. -/
def rangesMeet (a la b lb : Nat) : Bool := decide (a < b + lb) && decide (b < a + la)

/-- R68, Table 3.5: the descriptor of 32 bytes, none when a field or the ranges break the table. The ranges are compared as the
descriptor gives them: one byte named through two windows is not seen (DESIGN CHOICE, log 118). -/
def drayParse (bs : List Byte) : Option DrayDesc :=
  let src := field bs 0 8
  let dst := field bs 8 8
  let len := field bs 0x10 4
  let rows := field bs 0x14 2
  let fl := field bs 0x16 2
  let ss := field bs 0x18 4
  let ds := field bs 0x1C 4
  let zero := nbit fl 2
  let okSrc := zero || (src % 64 == 0 && decide (src < 2 ^ 48))
  let ok := okSrc && dst % 64 == 0 && decide (dst < 2 ^ 48) && len % 64 == 0 && decide (64 ≤ len) && decide (len ≤ 2 ^ 24) &&
    decide (1 ≤ rows) && decide (fl < 8) && ss % 64 == 0 && ds % 64 == 0 && (rows == 1 || decide (len ≤ ds)) &&
    (zero || !rangesMeet src ((rows - 1) * ss + len) dst ((rows - 1) * ds + len))
  if ok then some { id := 0, seat := 0, pc := 0, src := src, dst := dst, length := len, rows := rows, inc := nbit fl 0,
                    waitPrev := nbit fl 1, zero := zero, srcStride := ss, dstStride := ds, issued := 0, accBound := 0, descBound := 0 }
  else none

/-- DSUB (R67, R68, R80, R121): a copy of the descriptor at Sa is queued; the seat parks while the queue is full. The descriptor being
executed counts among the 16, and the copy is taken without POISON (DESIGN CHOICE, log 118). A descriptor in the code area takes ACCESS
(DESIGN CHOICE, log 125). -/
def execDsub (seat : Nat) (w : Fields) (s : State) : Host.Outcome State Fault Refusal :=
  issueNext s seat w { op := 0x80, a := .s, imm := 1 } true [] fun t =>
    let e := w.imm.toNat % 2
    let x := sget t w.a.toNat
    let a := x.1.toNat
    let win := seatWin s (seat / 16) (codeLimit s seat) a 32
    let own := match win with | some (.own h) => if a % 32 = 0 then some h else none | _ => none
    let desc := match own with | some h => drayParse (memBytes s h 32) | none => none
    match firstExc [(own.isNone, 3), (x.2, 5), (desc.isNone, 8)] with
    | some c => .exc c
    | none =>
      match desc with
      | none => .exc 8
      | some d =>
        let c := getCoach s (seat / 16)
        if (drayQ c e).length ≥ 16 then .park (.drayRoom e)
        else
          let d := { d with id := s.coaches.nextDesc, seat := seat, pc := t.pc, accBound := s.coaches.nextAcc,
                            descBound := s.coaches.nextDesc }
          let s := { s with coaches := { s.coaches with nextDesc := s.coaches.nextDesc + 1 } }
          .done (putCoach s (seat / 16) (putDrayQ c e (drayQ c e ++ [d])))

/-- R121: whether DCe has reached a count: (DCe − n) mod 2^32 is less than 2^31. -/
def drayReached (c : Coach) (e : Nat) (n : W32) : Bool := decide ((drayCount c e - n).toNat < 2 ^ 31)

/-- DWAIT (R80, R121): completes at once when the count has been reached, else parks. -/
def execDwait (seat : Nat) (w : Fields) (s : State) : Host.Outcome State Fault Refusal :=
  issueNext s seat w { op := 0x81, a := .s, imm := 1 } true [] fun t =>
    let e := w.imm.toNat % 2
    let x := sget t w.a.toNat
    if x.2 then .exc 5
    else if drayReached (getCoach s (seat / 16)) e (x.1.setWidth 32) then .done s
    else doneSeat s seat { t with st := .parked (.drayCount e (x.1.setWidth 32)) }

/-- DCNT (R121). -/
def execDcnt (seat : Nat) (w : Fields) (s : State) : Host.Outcome State Fault Refusal :=
  issueNext s seat w { op := 0x82, d := .s, imm := 1 } true [] fun t =>
    doneSeat s seat (sset t w.d.toNat ((drayCount (getCoach s (seat / 16)) (w.imm.toNat % 2)).setWidth 64) false)

/-- 64-byte transactions of a descriptor. -/
def drayBlocks (d : DrayDesc) : Nat := d.rows * (d.length / 64)

/-- Source and destination of transaction `k` of a descriptor. -/
def draySrc (d : DrayDesc) (k : Nat) : Nat := d.src + k / (d.length / 64) * d.srcStride + 64 * (k % (d.length / 64))
def drayDst (d : DrayDesc) (k : Nat) : Nat := d.dst + k / (d.length / 64) * d.dstStride + 64 * (k % (d.length / 64))

/-- R85: bytes of the code area on a coach. -/
def codeOn (s : State) (c : Nat) : Nat :=
  match kernelOn s c with
  | some (_, k) => codeBytes k
  | none => 0

/-- Table 3.6: the hub address a dray engine of coach `c` reaches for the 64-byte block at `a`: none outside the windows or
without the region's right; `some (_, true)` marks a write into a code area (R85). -/
def drayTarget (s : State) (c a : Nat) (write : Bool) : Option (Nat × Bool) :=
  let coachHit := fun (x off : Nat) => some (coachMemAddr x off, write && decide (0x80000 - codeOn s x ≤ off))
  if a + 64 ≤ memTop s then (if coachMay s c a write then some (a, false) else none)
  else if 0xFD0000000000 ≤ a ∧ a < 0xFD0000080000 then coachHit c (a - 0xFD0000000000)
  else if 0xFD0001000000 ≤ a ∧ a < 0xFD0001800000 then some (yardAddr (c / 32) (a - 0xFD0001000000), false)
  else if 0xFE0000000000 ≤ a ∧ a < 0xFE0010000000 then
    let x := (a - 0xFE0000000000) / 0x80000
    if (trainOfCoach s c).isSome ∧ trainOfCoach s x = trainOfCoach s c ∧ x < 512 then coachHit x ((a - 0xFE0000000000) % 0x80000) else none
  else if 0xFE0010000000 ≤ a ∧ a < 0xFE0018000000 then
    let k := (a - 0xFE0010000000) / 0x800000
    if (trainOfCoach s c).isSome ∧ trainOfRake s k = trainOfCoach s c then some (a, false) else none
  else none

/-- R70: a refused dray transaction stops the descriptor, discards the queue and raises an exception on the seat; one of a
descriptor that has been stopped already does nothing more. -/
def drayFault (s : State) (c e : Nat) (d : DrayDesc) (code : Nat) : State :=
  if (drayQ (getCoach s c) e).any fun x => x.id == d.id then takeExc (putCoach s c (putDrayQ (getCoach s c) e [])) d.seat d.pc code else s

/-- R69, R80: whether the first transaction of a descriptor may start. -/
def drayMayStart (c : Coach) (d : DrayDesc) (headOfQueue : Bool) : Bool :=
  decide (d.issued ≠ 0) ||
  ((!d.waitPrev || headOfQueue) && storesDone c d.seat d.accBound && descsDone c d.seat d.descBound)

/-- Entries that the dray engines of a coach hold (R65). -/
def drayHeld (c : Coach) : Nat := (c.acc.filter fun a => a.kind.isDray).length

/-- DRAY_TRANSACTION (R64, R65, R67, R69, R80): the engine starts the next transaction of its current descriptor, which takes an entry:
a free one, and one that leaves SEAT_RESERVE to the seats. -/
def execDrayTransaction (coach engine : Nat) (s : State) : Host.Outcome State Fault Refusal :=
  let c := getCoach s coach
  let e := engine % 2
  match (drayQ c e).find? fun d => decide (d.issued < drayBlocks d) with
  | none => .next s
  | some d =>
    let head := match drayQ c e with | h :: _ => h.id == d.id | [] => false
    if decide (c.cond = .drained) || decide (c.cond = .excluded) || !drayMayStart c d head || decide (entriesFree c = 0) ||
        decide (128 - regBits s rCoachCtl 6 0 ≤ drayHeld c) then .next s
    else
      let k := d.issued
      let s := addAccess s (16 * coach + d.seat % 16) (.dray e d k) [drayDst d k / 64] []
      let c := getCoach s coach
      .next (putCoach s coach (putDrayQ c e ((drayQ c e).map fun x => if x.id = d.id then { x with issued := k + 1 } else x)))

/-- R66, R69, R70, R85: transaction `k` of a descriptor performed: the block copied with its poison, or zeros written. -/
def performDray (s : State) (c e : Nat) (d : DrayDesc) (k : Nat) : State :=
  let src := if d.zero then some (0, false) else drayTarget s c (draySrc d k) false
  match src, drayTarget s c (drayDst d k) true with
  | some (sa, _), some (da, false) =>
    storeBytes s da (if d.zero then List.replicate 64 0 else memBytes s sa 64) (!d.zero && blockPoisoned s (sa / 64))
  | some _, some (_, true) => drayFault s c e d 3
  | none, _ => drayFault (worldFault s c (coachSecure s c) (draySrc d k)) c e d 9
  | _, none => drayFault (worldFault s c (coachSecure s c) (drayDst d k)) c e d 9

/-- R467: a block of an access, or one that a dray transaction reads or writes, lies in the yard bank under test. -/
def bankWaits (s : State) (c : Nat) (a : Access) (b : Nat) : Bool :=
  match a.kind with
  | .dray _ d k =>
    let hit := fun (t : Option (Nat × Bool)) => match t with | some (x, _) => bankTested s x | none => false
    (!d.zero && hit (drayTarget s c (draySrc d k) false)) || hit (drayTarget s c (drayDst d k) true)
  | _ => bankTested s (64 * b)

/-- R64, R78, R81: one block of an access is performed and frees its entry; it waits while its bank is under test (R467). -/
def transact (s : State) (coach id block : Nat) : State :=
  let c := getCoach s coach
  match findAcc c id with
  | none => s
  | some a =>
    if a.blocks.contains block && inOrder c a block && !bankWaits s coach a block then
      wakeSeats (match a.kind with
        | .dray e d k => performDray (putCoach s coach (putAcc c a false)) coach e d k
        | _ => reachBlock s coach a block) coach
    else s

/-- R69: whether every transaction of the oldest descriptor of an engine has been performed. -/
def drayAllDone (c : Coach) (d : DrayDesc) : Bool :=
  decide (drayBlocks d ≤ d.issued) && c.acc.all fun a => match a.kind with | .dray _ x _ => x.id != d.id | _ => true

/-- Seats of a coach that waited on an engine become ready (R56, R67, R121). -/
def wakeDray (s : State) (c : Nat) : State :=
  let t := getCoach s c
  (rangeFrom (16 * c) 16).foldl (fun s n =>
    let x := getSeat s n
    match x.st with
    | .parked (.drayRoom e) => if (drayQ t e).length < 16 then putSeat s n { x with st := .ready } else s
    | .parked (.drayCount e k) => if drayReached t e k then putSeat s n { x with st := .ready } else s
    | .parked .data => putSeat s n { x with st := .ready }
    | _ => s) s

/-- R69: the oldest descriptor of an engine completes once its writes are all performed; INC raises the count. -/
def drayComplete (s : State) (coach engine : Nat) : State :=
  let c := getCoach s coach
  let e := engine % 2
  match drayQ c e with
  | [] => s
  | d :: rest =>
    if !drayAllDone c d then s
    else
      let c := putDrayQ c e rest
      let c := if d.inc then (if e = 0 then { c with dc0 := c.dc0 + 1 } else { c with dc1 := c.dc1 + 1 }) else c
      wakeDray (putCoach s coach c) coach

/-! ### Fences and barriers (R79, R125, R126) -/

/-- FENCE (R79, R125): no later instruction issues until FENCE_COMPLETE. -/
def execFence (seat : Nat) (w : Fields) (s : State) : Host.Outcome State Fault Refusal :=
  issueNext s seat w { op := 0xA0, imm := 7 } (w.imm.toNat % 8 != 0) [] fun t =>
    doneSeat s seat { t with st := .parked (.fence (w.imm.setWidth 3) s.coaches.nextAcc s.coaches.nextDesc) }

/-- R79: every earlier access of the named classes by the seat is performed. Earlier descriptors are waited for only where
IMM names them (DEDUCED, log 119). -/
def fenceDone (s : State) (n : Nat) (mask : BitVec 3) (acc desc : Nat) : Bool :=
  let c := getCoach s (n / 16)
  (!mask.getLsbD 0 || loadsDone c n acc) && (!mask.getLsbD 1 || storesDone c n acc) && (!mask.getLsbD 2 || descsDone c n desc)

/-- FENCE_COMPLETE (R79): the seat may issue again. -/
def execFenceComplete (seat : Nat) (s : State) : Host.Outcome State Fault Refusal :=
  let t := getSeat s seat
  match t.st with
  | .parked (.fence m a d) => if fenceDone s seat m a d then .next (putSeat s seat { t with st := .ready }) else .next s
  | _ => .next s

/-- BAR (R126): the seat arrives at its next barrier of the scope, fencing every class, and parks. -/
def execBar (seat : Nat) (w : Fields) (s : State) : Host.Outcome State Fault Refusal :=
  issueNext s seat w { op := 0xA1, imm := 1 } true [] fun t =>
    let sc := w.imm.toNat % 2
    let t := if sc = 0 then { t with bar0 := t.bar0 + 1 } else { t with bar1 := t.bar1 + 1 }
    doneSeat s seat { t with st := .parked (.barrier sc s.coaches.nextAcc s.coaches.nextDesc) }

/-- R126: a participating seat has arrived at the barrier of a scope with its fence complete, or has halted. -/
def arrived (s : State) (scope n : Nat) : Bool :=
  match (getSeat s n).st with
  | .halted => true
  | .parked (.barrier sc a d) => sc == scope && fenceDone s n 7 a d
  | _ => false

/-- R126: the seats a barrier of a scope joins, for the kernel on a coach. -/
def barSeats (s : State) (c scope : Nat) : List Nat :=
  match kernelOn s c with
  | some (_, k) => if scope = 0 then kernelSeatsOn k c else kernelSeats k
  | none => []

/-- BARRIER_RELEASE (R126): once the last participating seat has arrived, every one becomes ready. -/
def execBarrierRelease (coach scope : Nat) (s : State) : Host.Outcome State Fault Refusal :=
  let ns := barSeats s coach scope
  if ns.all fun n => arrived s scope n then
    .next (ns.foldl (fun s n =>
      let t := getSeat s n
      if t.st = .halted then s else putSeat s n { t with st := .ready }) s)
  else .next s

/-! ### Launch, beats, random numbers, system (R127, R128, R131, R132) -/

/-- LAUNCH (R80, R83, R127): the launch block at Sa joins the queue of train Sb; Sd = 1 when the queue is full. The copy waits
for the seat's earlier stores, atomics and descriptors. It is taken without POISON, and an Sa that the train may not read takes ACCESS at
issue (DESIGN CHOICE, log 118). -/
def execLaunch (seat : Nat) (w : Fields) (s : State) : Host.Outcome State Fault Refusal :=
  issueNext s seat w { op := 0xA2, d := .s, a := .s, b := .s } true [] fun t =>
    let x := sget t w.a.toNat
    let y := sget t w.b.toNat
    let a := x.1.toNat
    let tr := y.1.toNat
    let c := seat / 16
    let me := (trainOfCoach s c).getD 8
    let bad := decide (s.consist.cfg.trains.length ≤ tr) || trainSecure s tr != trainSecure s me ||
      decide (memTop s < a + 64) || !mayAccessRange s (.train me) (trainSecure s me) a 64 false
    match firstExc [(bad, 3), (x.2 || y.2, 5)] with
    | some e => .exc e
    | none =>
      let co := getCoach s c
      if !(storesDone co seat s.coaches.nextAcc && descsDone co seat s.coaches.nextDesc) then .park .data
      else
        let u := getTrain s tr
        if u.queue.length ≥ 64 then doneSeat s seat (sset t w.d.toNat 1 false)
        else
          doneSeat (putTrain s tr { u with queue := u.queue ++ [{ raw := memBytes s a 64, src := .seat seat }] }) seat
            (sset t w.d.toNat 0 false)

/-- BWAIT (R128): completes at once when the beat has passed, else parks until it is reached. Sa plus IMM wraps modulo 2^64, and beats
compare without sign (DESIGN CHOICE, log 125). -/
def execBwait (seat : Nat) (w : Fields) (s : State) : Host.Outcome State Fault Refusal :=
  issueNext s seat w { op := 0xB0, a := .s, imm := 0xFFFFFF } true [] fun t =>
    let x := sget t w.a.toNat
    let n := x.1 + wImm w
    if x.2 then .exc 5
    else if n.ule s.drum.count then .done s
    else doneSeat s seat { t with st := .parked (.beat n) }

/-- BREAD (R128). -/
def execBread (seat : Nat) (w : Fields) (s : State) : Host.Outcome State Fault Refusal :=
  issueNext s seat w { op := 0xB1, d := .s } true [] fun t => doneSeat s seat (sset t w.d.toNat s.drum.count false)

/-- RCTX (R131). The poison of Sa and Sb is dropped (DESIGN CHOICE, log 118). -/
def execRctx (seat : Nat) (w : Fields) (s : State) : Host.Outcome State Fault Refusal :=
  issueNext s seat w { op := 0xD0, a := .s, b := .s } true [] fun t =>
    doneSeat s seat { t with tag := (sget t w.a.toNat).1.setWidth 32, base := (sget t w.b.toNat).1 }

/-- RAND (R131, R146). -/
def execRand (seat : Nat) (w : Fields) (s : State) : Host.Outcome State Fault Refusal :=
  issueNext s seat w { op := 0xD1, d := .v, imm := 0xFFFFFF } true [] fun t =>
    doneSeat s seat (vmap t (w.d.toNat - 32) (BitVec.allOnes 64) fun i =>
      (roundingDraw (regGet s rSeed) t.tag (t.base + wImm w + BitVec.ofNat 64 i), false))

/-- NOP (R132). -/
def execNop (seat : Nat) (w : Fields) (s : State) : Host.Outcome State Fault Refusal :=
  issueNext s seat w { op := 0xE0 } true [] fun _ => .done s

/-- HALT (R60, R132): the seat halts and releases its X registers. -/
def execHalt (seat : Nat) (w : Fields) (s : State) : Host.Outcome State Fault Refusal :=
  issueNext s seat w { op := 0xE1 } true [] fun _ =>
    let s := releaseX s seat
    .done (putSeat s seat { getSeat s seat with st := .halted })

/-- TRAP (R132, R133). -/
def execTrap (seat : Nat) (w : Fields) (s : State) : Host.Outcome State Fault Refusal :=
  issueNext s seat w { op := 0xE2 } true [] fun _ => .exc 0xB

end Sys2Proof.Machine
end

