-- ==== Sys2Proof/Machine/Store.lean ====
section
/-! DEFINITION. Chapter 08: the snapshot store in module memory: slots, generation records, manifests, chunk codes
(R227 to R231). -/

namespace Sys2Proof.Machine

/-- R230: one bit of the reflected ECMA-182 CRC-64. -/
def crcStep (c : Nat) : Nat := if c % 2 = 1 then (c / 2) ^^^ 0xC96C5795D7870F42 else c / 2

/-- R230: CRC-64/XZ over bytes, from a running value. -/
def crcBytes (c : Nat) (bs : List Byte) : Nat :=
  bs.foldl (fun c b => crcStep (crcStep (crcStep (crcStep (crcStep (crcStep (crcStep (crcStep (c ^^^ b.toNat))))))))) c

/-- R230: CRC-64 with initial and final value all ones. -/
def crc64 (bs : List Byte) : Nat := crcBytes (2 ^ 64 - 1) bs ^^^ (2 ^ 64 - 1)

/-- Insertion of a region by BASE. -/
def insRegion (r : Region) : List Region → List Region
  | [] => [r]
  | a :: l => if r.base ≤ a.base then r :: a :: l else a :: insRegion r l

/-- R227: the SNAPSHOT_AREA regions in ascending BASE order. -/
def snapRegions (s : State) : List Region :=
  ((effRegions s).filter fun r => r.snapArea).foldr insRegion []

/-- R227: the 2 MiB unit of module memory that is unit `u` of the store. -/
def storeUnit : List Region → Nat → Nat
  | [], _ => 0
  | r :: l, u => if u < r.size then r.base + u else storeUnit l (u - r.size)

/-- Units of the store. -/
def storeUnits (s : State) : Nat := lsum ((snapRegions s).map fun r => r.size)

/-- MODE (Table 8.1): 0 NONE, 1 LOCAL, 2 MIRRORED. -/
def snapMode (s : State) : Nat := regBits s rSnapStat 63 60

/-- Slot size in 2 MiB units. -/
def slotUnits (s : State) : Nat := regBits s rSnapStat 31 0

/-- Slots of a mode. -/
def slotCount (mode : Nat) : Nat := if mode = 0 then 0 else if mode = 1 then 2 else 3

/-- Module memory address of a byte of a slot. -/
def slotAddr (s : State) (i off : Nat) : Nat :=
  storeUnit (snapRegions s) (i * slotUnits s + off / 2 ^ 21) * 2 ^ 21 + off % 2 ^ 21

/-- Bytes of a slot. -/
def slotRead (s : State) (i off n : Nat) : List Byte := (rangeFrom off n).map fun o => memByte s (slotAddr s i o)

/-- Little-endian value of bytes of a slot. -/
def slotVal (s : State) (i off n : Nat) : Nat := leVal (slotRead s i off n)

/-- Bytes written to a slot; `pois` lists positions of the list whose blocks are poisoned. -/
def slotWrite (s : State) (i off : Nat) (bs : List Byte) (pois : List Nat := []) : State :=
  storeCells s (((rangeFrom 0 bs.length).zip bs).map fun p => (slotAddr s i (off + p.1), p.2))
    (dedup (pois.map fun p => slotAddr s i (off + p) / 64))

/-- Whether a byte of a slot lies in a poisoned block. -/
def slotPoisoned (s : State) (i off : Nat) : Bool := blockPoisoned s (slotAddr s i off / 64)

/-! ### The generation record (Table 8.2) -/

def recMagic : List Byte := [0x47, 0x4C, 0x4E, 0x4B, 0x53, 0x4E, 0x41, 0x50]
def slotState (s : State) (i : Nat) : Nat := slotVal s i 0x10 1
def slotOrigin (s : State) (i : Nat) : Nat := slotVal s i 0x11 1
def slotGen (s : State) (i : Nat) : Nat := slotVal s i 8 8
def recTotal (s : State) (i : Nat) : Nat := slotVal s i 0x40 8
def recChunks (s : State) (i : Nat) : Nat := slotVal s i 0x48 4
def recMembers (s : State) (i : Nat) : Nat := slotVal s i 0x12 1
def recTables (s : State) (i : Nat) : Nat := slotVal s i 0x38 8
def recPart (s : State) (i n : Nat) : Nat := slotVal s i (0x80 + 8 * n) 8

/-- Table 8.2: RECORD_CODE of a record's 4096 bytes, with STATE read as zero. -/
def recordCode (bs : List Byte) : Nat := crc64 ((lset bs 0x10 0).take 0xFF8)

/-- R229, R231: the record of a slot checks. -/
def recordOk (s : State) (i : Nat) : Bool :=
  let r := slotRead s i 0 4096
  recordCode r == field r 0xFF8 8

/-- R228: the image that a slot's record gives lies in the slot. -/
def imageFits (s : State) (i : Nat) : Bool := decide (recTotal s i + 2 ^ 21 ≤ slotUnits s * 2 ^ 21)

/-- R230: chunks of an image of `total` bytes. -/
def imgChunks (total : Nat) : Nat := (total + 2 ^ 24 - 1) / 2 ^ 24

/-- MEM_SNAP_SLOT of a slot from its record. -/
def syncSlot (s : State) (i : Nat) : State :=
  regSet s (rSnapSlot i) (BitVec.ofNat 64 (slotState s i * 2 ^ 60 + slotOrigin s i % 16 * 2 ^ 56 + slotGen s i % 2 ^ 56))

/-- STATE of a slot's record written. -/
def setSlotState (s : State) (i st : Nat) : State := syncSlot (slotWrite s i 0x10 [BitVec.ofNat 8 st]) i

/-- A slot set EMPTY. -/
def emptySlot (s : State) (i : Nat) : State := setSlotState s i 0

/-- R230: bytes of chunk `c` of an image of `total` bytes. -/
def chunkLen (total c : Nat) : Nat := min (2 ^ 24) (total - c * 2 ^ 24)

/-- R231: chunk `c` of a slot's image reads without poison and matches its code. -/
def chunkOk (s : State) (i c : Nat) : Bool :=
  let n := chunkLen (recTotal s i) c
  ((rangeFrom 0 n).all fun o => !slotPoisoned s i (2 ^ 21 + c * 2 ^ 24 + o)) &&
  crc64 (slotRead s i (2 ^ 21 + c * 2 ^ 24) n) == slotVal s i (0x2000 + 8 * c) 8

/-- R231 but for STATE: the copy in a slot is whole. -/
def copyOk (s : State) (i : Nat) : Bool := recordOk s i && (rangeFrom 0 (imgChunks (recTotal s i))).all fun c => chunkOk s i c

/-- R231: the generation in a slot is intact. -/
def slotIntact (s : State) (i : Nat) : Bool := slotState s i == 2 && copyOk s i

/-- The ranges (base, length) of partner `n`'s manifest in a slot. -/
def slotManifest (s : State) (i n : Nat) : List (Nat × Nat) :=
  ((rangeFrom 0 32).map fun k => (slotVal s i (0x1000 + 512 * n + 16 * k) 8, slotVal s i (0x1000 + 512 * n + 16 * k + 8) 8)).filter
    fun r => r.2 != 0

/-- The local slots: both in mode LOCAL, slot 0 in mode MIRRORED. -/
def localSlots (s : State) : List Nat := if snapMode s = 1 then [0, 1] else if snapMode s = 2 then [0] else []

/-- R243: a slot that the host may write holds no generation until the next IMPORT has checked it. -/
def slotCommitted (s : State) (i : Nat) : Bool := slotState s i == 2 && s.snap.importing != some i

/-- The local slot with the newest committed generation. -/
def newestLocal (s : State) : Option Nat :=
  (localSlots s).foldl (fun (best : Option Nat) i =>
    if slotCommitted s i = false then best
    else match best with
      | none => some i
      | some b => if slotGen s b < slotGen s i then some i else some b) none

/-- R234, R243: the local slot that a take or an import writes. -/
def targetSlot (s : State) : Nat := if snapMode s = 1 ∧ newestLocal s = some 0 then 1 else 0

/-- R240: the mirror slot with the newest committed mirror. -/
def newestMirror (s : State) : Option Nat :=
  if snapMode s ≠ 2 then none
  else match decide (slotState s 1 = 2), decide (slotState s 2 = 2) with
    | true, true => if slotGen s 1 < slotGen s 2 then some 2 else some 1
    | true, false => some 1
    | false, true => some 2
    | false, false => none

/-- R227, Table 8.1: MODE and slot size that a between-jobs apply fixes. -/
def fixStore (s : State) : State :=
  let units := storeUnits s
  let t := s.consist.cfg.topology
  let mode := if units = 0 then 0 else if t.pPresent.getLsbD 1 && decide (2 ≤ t.hubCount) then 2 else 1
  let s := regPut s rSnapStat 63 60 mode
  regPut s rSnapStat 31 0 (if mode = 0 then 0 else units / slotCount mode)

/-- The state bits [59:55] of MEM_SNAP_STAT. -/
def snapFlags (s : State) : State :=
  let b := fun (x : Bool) => if x then 1 else 0
  let s := regPut s rSnapStat 59 59 (b s.snap.take.isSome)
  let s := regPut s rSnapStat 58 58 (b s.snap.restore.isSome)
  let s := regPut s rSnapStat 57 57 (b s.snap.mirOut.isSome)
  let s := regPut s rSnapStat 56 56 (b s.snap.mirIn.isSome)
  regPut s rSnapStat 55 55 (b (s.snap.drains != []))

/-- The snapshot service's state replaced, with MEM_SNAP_STAT kept in step. -/
def putSnap (s : State) (x : Snap) : State := snapFlags { s with snap := x }

/-- R240: a mirror of a slot's generation, not begun. -/
def newMirror (gen slot : Nat) : MirrorOut := { gen := gen, slot := slot, begun := false, flits := 0, credits := 0, ended := false, left := 0 }

/-- R238: the newest local generation has not been acknowledged by the neighbour. -/
def mirrorOwed (s : State) : Bool :=
  snapMode s == 2 && (match newestLocal s with | some i => s.snap.acked != some (slotGen s i) | none => false)

/-- R229, R241: after training, each slot's state is restored from its record; a slot whose record does not check, or that was
receiving a mirror, is EMPTY. A local commit that is not acknowledged is mirrored again. -/
def restoreSlots (s : State) : State :=
  let s := (rangeFrom 0 (slotCount (snapMode s))).foldl (fun s i =>
    if recordOk s i ∧ slotState s i ≠ 3 then syncSlot s i else emptySlot s i) s
  if mirrorOwed s ∧ slotOrigin s 0 = 0 then putSnap s { s.snap with mirOut := some (newMirror (slotGen s 0) 0) } else s

/-- R229, R241: every slot EMPTY, those that the mode no longer has too; transfers of mirrors end with their slots. -/
def emptyStore (s : State) : State :=
  let s := (rangeFrom 0 3).foldl (fun s i => if i < slotCount (snapMode s) then emptySlot s i else regSet s (rSnapSlot i) 0) s
  putSnap s { s.snap with importing := none, serve := none, mirOut := none, mirIn := none }

end Sys2Proof.Machine
end

