-- ==== Sys2Proof/Machine/Line.lean ====
section
/-! DEFINITION. Chapter 10: what a port puts on its lanes: training frames (R276), blocks and scrambling (R272), the FEC
(R273), link frames (R288). -/

namespace Sys2Proof.Machine

/-! ### Ports -/

def getPort (s : State) (n : Nat) : Port := kget Port.init s.ports n
def putPort (s : State) (n : Nat) (p : Port) : State := { s with ports := kset Port.init s.ports n p }
def getLink (s : State) (n : Nat) : Link := (getPort s n).link
def putLink (s : State) (n : Nat) (l : Link) : State := putPort s n { getPort s n with link := l }
def getTraining (s : State) (n : Nat) : Training := (getPort s n).train
def putTraining (s : State) (n : Nat) (t : Training) : State := putPort s n { getPort s n with train := t }
def getLine (s : State) (n : Nat) : Line := (getPort s n).line
def putLine (s : State) (n : Nat) (l : Line) : State := putPort s n { getPort s n with line := l }

/-! ### Flits as bytes (R285) -/

/-- Bytes 0 to 247 of a flit. -/
def flitBody (header : Nat) (payload : List Byte) : List Byte :=
  leBytes 8 header ++ payload ++ List.replicate (240 - payload.length) 0

/-- R285: the CRC of a flit, with the parameters of R230. -/
def flitCrc (header : Nat) (payload : List Byte) : Nat := crc64 (flitBody header payload)

/-- The 256 bytes of a flit. -/
def flitBytes (header : Nat) (payload : List Byte) : List Byte := flitBody header payload ++ leBytes 8 (flitCrc header payload)

/-- R289: the CRC of a flit that arrives checks. -/
def crcOk (f : Flit) : Bool := f.crc.toNat == flitCrc f.header.toNat f.payload

/-! ### Blocks and scrambling (R272) -/

/-- One data bit through x⁵⁸ + x³⁹ + 1: what the scrambler holds after it, its latest bit being the one sent. -/
def scramStep (st : Nat) (b : Bool) : Nat :=
  st * 2 % 2 ^ 58 + (if (b != nbit st 38) != nbit st 57 then 1 else 0)

/-- The bits of `v` from bit `i`, `n` of them, scrambled: what the scrambler holds, and the bits sent, first bit lowest. -/
def scramBits (v : Nat) : Nat → Nat → Nat → Nat × Nat
  | _, 0, st => (st, 0)
  | i, n + 1, st =>
    let st := scramStep st (nbit v i)
    let r := scramBits v (i + 1) n st
    (r.1, st % 2 + 2 * r.2)

/-- A 32-byte block with its link bit in front: what the scrambler holds, and the 257 bits. -/
def lineBlock (st : Nat) (link : Bool) (bs : List Byte) : Nat × Nat :=
  let r := scramBits (leVal bs) 0 256 st
  (r.1, (if link then 1 else 0) + 2 * r.2)

/-- R288: the link bit of block `b` of slot `j` of a frame. -/
def linkBit (word j b : Nat) : Bool := nbit word (63 - 8 * j - b)

/-- R272: the 64 blocks of a frame of eight flits under its link word. -/
def frameBlocks (st word : Nat) (flits : List (List Byte)) : Nat × List Nat :=
  (rangeFrom 0 64).foldl (fun r k =>
    let b := lineBlock r.1 (linkBit word (k / 8) (k % 8)) (((lget [] flits (k / 8)).drop (32 * (k % 8))).take 32)
    (b.1, r.2 ++ [b.2])) (st, [])

/-! ### Reed–Solomon codes -/

/-- R273: GF(2¹⁰) of IEEE 802.3 Clause 119, with x¹⁰ + x³ + 1 (PRESUMED, log 104). -/
def fecPoly : Nat := 0x409

/-- R273: the 544 symbols of a codeword: the 5140 bits of twenty blocks in tens, the first bit lowest, then 30 check symbols. -/
def codeword (blocks : List Nat) : List Nat :=
  let v := blocks.foldr (fun b r => b + 2 ^ 257 * r) 0
  let m := (rangeFrom 0 514).map fun j => v / 2 ^ (10 * j) % 1024
  m ++ rsParity 10 fecPoly 30 m

/-! ### Lanes -/

/-- R271: the level of a Gray-coded pair of bits. -/
def pamLevel (pair : Nat) : Nat := if pair = 2 then 3 else if pair = 3 then 2 else pair

/-- R273: the five levels of a symbol, most significant pair first. -/
def symbolLevels (x : Nat) : List Nat := [8, 6, 4, 2, 0].map fun k => pamLevel (x / 2 ^ k % 4)

/-- R278: physical lanes in use; logical lane numbers run through them in ascending order. -/
def usedLanes (s : State) (n : Nat) : List Nat :=
  (rangeFrom 0 8).filter fun i => nbit (regBits s (rCplStatus n) 55 48) i

/-- R273: the symbols that fall to logical lane `k` of `width`, the first symbol going to lane `first`. -/
def dealt (syms : List Nat) (first width k : Nat) : List Nat :=
  (syms.zipIdx.filter fun e => (first + e.2) % width == k).map fun e => e.1

/-- R273: whole codewords leave the waiting blocks and go out on the lanes. -/
def lineOut (s : State) (n : Nat) : State :=
  let l := getLine s n
  let cw := l.blocks.length / 20
  let lanes := usedLanes s n
  if cw = 0 ∨ lanes = [] then s
  else
    let syms := (rangeFrom 0 cw).flatMap fun c => codeword ((l.blocks.drop (20 * c)).take 20)
    let s := putLine s n { l with blocks := l.blocks.drop (20 * cw), lane := (l.lane + syms.length) % lanes.length }
    { s with outbox := s.outbox ++ lanes.zipIdx.map fun e =>
        ⟨.line, [n, e.1], ((dealt syms l.lane lanes.length e.2).flatMap symbolLevels).map (BitVec.ofNat 8)⟩ }

/-! ### Link frames (R288) -/

/-- CRC-8 with polynomial x⁸ + x² + x + 1, one bit, highest first. -/
def crc8Step (c : Nat) (b : Bool) : Nat :=
  let t := (c / 128 % 2 == 1) != b
  if t then (c * 2 % 256) ^^^ 0x07 else c * 2 % 256

/-- LCRC over bits [63:8] of a word. -/
def lcrc (w : Nat) : Nat := (rangeFrom 0 56).foldl (fun c i => crc8Step c (nbit w (63 - i))) 0xFF

/-- The hub's own link word (Table 10.9). -/
def linkWordOf (l : Link) (replay : Bool) (fseq : Nat) : Nat :=
  let w := fseq * 2 ^ 54 + (if replay then 2 ^ 53 else 0) + l.lastAcc * 2 ^ 43 + (if l.nak then 2 ^ 42 else 0) +
    lget 0 l.passed 0 % 256 * 2 ^ 34 + lget 0 l.passed 1 % 256 * 2 ^ 26 + lget 0 l.passed 2 % 1024 * 2 ^ 16 +
    lget 0 l.passed 3 % 64 * 2 ^ 10
  w + lcrc w

/-- A NULL flit; header bit 0 is COMP (R286, R293). -/
def nullFlit (comp : Bool) : List Byte := flitBytes (if comp then 1 else 0) []

/-- One frame goes out under its link word: at most eight flits, NULL flits in the slots left. -/
def sendFrame (s : State) (n word : Nat) (flits : List (List Byte)) : State :=
  let l := getLine s n
  let r := frameBlocks l.scram word (flits ++ List.replicate (8 - flits.length) (nullFlit false))
  let s := emit s .linkWord [n, word]
  lineOut (putLine s n { l with slot := (l.slot + 8) % 40, scram := r.1, blocks := l.blocks ++ r.2 }) n

/-- The first sequence number among flits. -/
def firstSeq (fs : List (Option Nat × List Byte)) : Option Nat := (fs.filterMap fun e => e.1).head?

/-- R288: the frames that hold the flits `fs`, at least one, each under a word that describes the frame after it; the last word
announces the frame that comes next. `k` bounds the frames. -/
def sendFrames (n : Nat) (l : Link) (replay : Bool) (fseq : Nat) : Nat → List (Option Nat × List Byte) → State → State
  | 0, _, s => s
  | k + 1, fs, s =>
    let rest := fs.drop 8
    let word := if rest = [] then linkWordOf l replay fseq else linkWordOf l false ((firstSeq rest).getD fseq)
    let s := sendFrame s n word ((fs.take 8).map fun e => e.2)
    if rest = [] then s else sendFrames n l replay fseq k rest s

/-- R288: the flits that wait for their frames go out; the hub's link word of the present frame announces what comes next. The
totals reported and the word are kept. -/
def sendLinkWord (s : State) (n : Nat) (replay : Bool) (fseq : Nat) : State :=
  let fs := (getLine s n).slots
  let l := getLink s n
  let s := putLine s n { getLine s n with slots := [] }
  let s := putLink s n { l with told := l.passed, last := linkWordOf l replay fseq }
  sendFrames n l replay fseq (fs.length / 8 + 1) fs s

/-- A flit takes the next slot of the port. While the port trains, a full frame goes out at once, under a word that says that
nothing has been accepted (log 104). -/
def lineFlit (s : State) (n : Nat) (seq : Option Nat) (bytes : List Byte) : State :=
  let l := getLine s n
  let l := { l with slots := l.slots ++ [(seq, bytes)] }
  let s := putLine s n l
  if regBits s (rCplStatus n) 63 60 < 6 ∧ 8 ≤ l.slots.length then sendLinkWord s n false 0 else s

/-- An unsequenced flit: its header, and its payload as far as it is not zero. -/
def sendPlain (s : State) (n header : Nat) (payload : List Byte) : State :=
  let b := flitBytes header payload
  lineFlit (emit s .ctlFlit [n, header] b) n none b

/-! ### Training frames (R276, Table 10.4) -/

/-- CRC-16 with polynomial x¹⁶ + x¹² + x⁵ + 1, one bit, highest first. -/
def crc16Step (c : Nat) (b : Bool) : Nat :=
  let t := (c / 32768 % 2 == 1) != b
  if t then (c * 2 % 65536) ^^^ 0x1021 else c * 2 % 65536

/-- R276: the CRC of a control word. -/
def frameCrc (w : Nat) : Nat := (rangeFrom 0 48).foldl (fun c i => crc16Step c (nbit w (63 - i))) 0xFFFF

/-- R276: a control word of VERSION 1 from its fields. -/
def controlWord (phase lane role : Nat) (ready : Bool) (reqOp reqTap status good : Nat) : Nat :=
  let w := phase * 2 ^ 60 + lane * 2 ^ 57 + role * 2 ^ 55 + (if ready then 2 ^ 54 else 0) + reqOp * 2 ^ 52 + reqTap * 2 ^ 49 +
    status * 2 ^ 47 + good * 2 ^ 39 + 2 ^ 16
  w + frameCrc w

/-- PRBS13, x¹³ + x¹² + x² + x + 1, one bit (IEEE 802.3 Clause 120; the state and seed are PRESUMED, log 104). -/
def prbsStep (st : Nat) : Nat :=
  st * 2 % 2 ^ 13 + (if ((nbit st 12 != nbit st 11) != nbit st 1) != nbit st 0 then 1 else 0)

/-- The next `n` Gray-coded pairs of PRBS13Q. -/
def prbsLevels : Nat → Nat → List Nat
  | 0, _ => []
  | n + 1, st =>
    let a := prbsStep st
    let b := prbsStep a
    pamLevel (a % 2 * 2 + b % 2) :: prbsLevels n b

/-- PRBS31, x³¹ + x²⁸ + 1, one bit (IEEE 802.3; the state and seed are PRESUMED, log 104). -/
def prbs31Step (st : Nat) : Nat :=
  st * 2 % 2 ^ 31 + (if nbit st 30 != nbit st 27 then 1 else 0)

/-- R278: the next `n` Gray-coded pairs of PRBS31Q, which IEEE 802.3 inverts. -/
def prbs31Levels : Nat → Nat → List Nat
  | 0, _ => []
  | n + 1, st =>
    let a := prbs31Step st
    let b := prbs31Step a
    pamLevel (3 - (a % 2 * 2 + b % 2)) :: prbs31Levels n b

/-- R278: the pattern sent on a lane, by its length: the levels are `prbs31Levels (2 ^ 28) 0x7FFFFFFF`. -/
def sendPattern (s : State) (n lane : Nat) : State := emit s .pattern [n, lane, 2 ^ 28] []

/-- Table 10.4: the 4,096 levels of a training frame. -/
def frameLevels (w : Nat) : List Nat :=
  List.replicate 32 3 ++ List.replicate 32 0 ++ ((rangeFrom 0 64).flatMap fun i => if nbit w (63 - i) then [3, 0] else [0, 3]) ++
  prbsLevels 3904 0x1FFF

/-- R276: a training frame sent on a lane. -/
def sendTrainFrame (s : State) (n lane word : Nat) : State :=
  emit s .trainFrame [n, lane, word] ((frameLevels word).map (BitVec.ofNat 8))

end Sys2Proof.Machine
end

