-- ==== Sys2Proof/Machine/Link.lean ====
section
/-! DEFINITION. Chapter 10: flits, acknowledgement, replay and credits, port states and what leaving ACTIVE does
(R275 to R297, R309). -/

namespace Sys2Proof.Machine

/-- Table 10.3: the state of a port. -/
def portSt (s : State) (n : Nat) : Nat := regBits s (rCplStatus n) 63 60
def setPortSt (s : State) (n st : Nat) : State := regPut s (rCplStatus n) 63 60 st

/-- Table 10.3: port window n is ACTIVE. -/
def portActive (s : State) (n : Nat) : Bool := portSt s n == 6

/-- R16: the topology names a port. -/
def portNamed (s : State) (n : Nat) : Bool :=
  let t := s.consist.cfg.topology
  if n < 8 then t.aPresent.getLsbD n else decide (n < 10) && t.pPresent.getLsbD (n - 8)

/-- Lanes of a port (R269). -/
def portLanes (n : Nat) : Nat := if n < 8 then 8 else 4

/-- Table 10.10: credits the hub advertises per virtual channel. -/
def hubCredits : List Nat := [128, 16, 512, 32]

/-- CPL_CREDIT: what the far end advertised for a virtual channel. -/
def peerCredits (s : State) (n vc : Nat) : Nat :=
  let r := rCplCredit n
  if vc = 0 then regBits s r 47 40 else if vc = 1 then regBits s r 39 32 else if vc = 2 then regBits s r 63 48
  else regBits s r 31 24

/-! ### Sending -/

/-- R295: a credit of the virtual channel is left. -/
def hasCredit (s : State) (n vc : Nat) : Bool :=
  let l := getLink s n
  decide (lget 0 l.used vc < lget 0 l.freed vc + peerCredits s n vc)

/-- R289, R290: the flit takes the next number and a slot and enters the replay buffer. Args of a flit sent: port, number,
header; its bytes are the whole flit (R285). -/
def putFlit (s : State) (n vc : Nat) (o : Out) : State :=
  let l := getLink s n
  let b := flitBytes (lget 0 o.args 0) o.data
  let o := { o with args := n :: l.txSeq :: o.args.take 1, data := b }
  let s := { s with outbox := s.outbox ++ [o] }
  let s := putLink s n { l with txSeq := (l.txSeq + 1) % 1024, replay := l.replay ++ [(l.txSeq, o)], used := lset l.used vc (lget 0 l.used vc + 1) }
  lineFlit s n (some l.txSeq) b

/-- R290, R295: flits that wait leave in order, each virtual channel for itself, while the replay buffer has room. -/
def pumpList (s : State) (n : Nat) : List (Nat × Out) → List Nat → State
  | [], _ => s
  | (vc, o) :: r, blocked =>
    if blocked.contains vc || !hasCredit s n vc || decide ((getLink s n).replay.length ≥ 512) then
      let l := getLink s n
      pumpList (putLink s n { l with wait := l.wait ++ [(vc, o)] }) n r (vc :: blocked)
    else pumpList (putFlit s n vc o) n r blocked

/-- The waiting flits of a port, tried in order. -/
def pump (s : State) (n : Nat) : State :=
  let w := (getLink s n).wait
  pumpList (putLink s n { getLink s n with wait := [] }) n w []

/-- R18, R19, Table 1.3: the rank of a flit that waits on the bulk channel of a P port: collective data before a fetch of a
mirror on P0, that before mirroring on P1. -/
def flitRank (n header : Nat) : Nat := if nbits header 63 60 = 7 then 1 else if n = 8 then 2 else 4

/-- A flit takes its place among those that wait: on a P port's bulk channel behind its own rank, else last. -/
def queueFlit (n vc : Nat) (o : Out) : List (Nat × Out) → List (Nat × Out)
  | [] => [(vc, o)]
  | e :: l =>
    if 8 ≤ n ∧ vc = 2 ∧ e.1 = 2 ∧ flitRank n (lget 0 o.args 0) < flitRank n (lget 0 e.2.args 0) then (vc, o) :: e :: l
    else e :: queueFlit n vc o l

/-- A flit given to a port that is ACTIVE: header bits below VC in `low`, 240 bytes of payload as far as they are not zero. `tag`
marks it while it waits. A port that is not ACTIVE carries nothing. The spec gives
the queue of flits that wait for credits no depth: it is unbounded (DESIGN CHOICE, log 128). -/
def sendTagged (s : State) (n kind vc low : Nat) (payload : List Byte) (tag : List Nat) : State :=
  if portActive s n then
    let o : Out := { kind := if kind = 6 then .ctlFlit else .dataFlit, args := (kind * 2 ^ 60 + vc * 2 ^ 58 + low) :: tag, data := payload }
    let l := getLink s n
    pump (putLink s n { l with wait := queueFlit n vc o l.wait }) n
  else s

/-- A flit that needs no mark. -/
def sendFlit (s : State) (n kind vc low : Nat) (payload : List Byte) : State := sendTagged s n kind vc low payload []

/-- R186: a flit that is forwarded, marked with the port it came from and its collective. -/
def forwardFlit (s : State) (src dst kind low uid : Nat) (payload : List Byte) : State :=
  sendTagged s dst kind 2 low payload [src + 1, uid]

/-- R186: forwarded flits of a port that have not left another yet. -/
def unsentFrom (s : State) (src dst : Nat) : Nat := ((getLink s dst).wait.filter fun e => lget 0 e.2.args 1 == src + 1).length

/-- R297: a control message: its code and its fields as (offset, value). -/
def ctlMsg (code : Nat) (fields : List (Nat × Nat)) : List Byte :=
  leBytes 16 (code + lsum (fields.map fun f => f.2 * 256 ^ f.1))

/-- R297: the messages that follow their data on the bulk channel. -/
def ctlVc (code : Nat) : Nat := if code = 0x34 ∨ code = 0x37 ∨ code = 0x61 then 2 else 3

/-- A control message sent in a CTRL flit of its own. -/
def sendCtl (s : State) (n code : Nat) (fields : List (Nat × Nat)) : State :=
  sendFlit s n 6 (ctlVc code) (2 ^ 54) (ctlMsg code fields)

/-! ### Leaving and entering states -/

/-- R241: a mirror that loses its link starts again later; one being received leaves its slot EMPTY. -/
def mirrorLost (s : State) (n : Nat) : State :=
  if n = 9 then
    match s.snap.mirOut with
    | some m => putSnap s { s.snap with mirOut := some { m with begun := false, flits := 0, credits := 0, ended := false }, peerUnits := none }
    | none => putSnap s { s.snap with peerUnits := none }
  else if n = 8 then
    match s.snap.mirIn with
    | some m => putSnap (emptySlot s m.slot) { s.snap with mirIn := none, serve := none }
    | none => putSnap s { s.snap with serve := none }
  else s

/-- R305, R306: a flit that carries a ring's entries or returns its credits. -/
def ringFlit (o : Out) : Bool :=
  let k := nbits (lget 0 o.args 0) 63 60
  k == 5 || (k == 6 && lget 0 o.data 0 == 0x20)

/-- R305, R306: what is not lost when a port stops carrying flits: those of its rings that are not acknowledged or have not left,
which go out again once the port is ACTIVE (log 138). -/
def keptFlits (l : Link) : List (Nat × Out) :=
  let sent := l.replay.map fun e => { e.2 with args := e.2.args.drop 2, data := (e.2.data.drop 8).take 240 }
  (sent.map fun o => (nbits (lget 0 o.args 0) 59 58, o)).filter (fun e => ringFlit e.2) ++ l.wait.filter fun e => ringFlit e.2

/-- A port enters a state in which it carries no flits. A partner's rings lose nothing unless the port is disabled. -/
def quietPort (s : State) (n st : Nat) : State :=
  let s := if portActive s n then mirrorLost s n else s
  let s := putLine (putLink s n { Link.init with wait := if st = 0 then [] else keptFlits (getLink s n) }) n Line.init
  let s := regPut s (rCplStatus n) 59 48 0
  setPortSt s n st

/-- Lanes neither disabled nor lost (R278, R284). -/
def lanesUsable (s : State) (n : Nat) : Nat :=
  lsum (((rangeFrom 0 (portLanes n)).filter fun i =>
    !nbit (regBits s (rLaneCtl n) 7 0) i && !nbit (regBits s (rCplStatus n) 47 40) i).map fun i => 2 ^ i)

/-- R276: ROLE of the hub's frames on a port. -/
def hubRole (n : Nat) : Nat := if n < 8 then 1 else 3

/-- R276: a frame of the hub on a lane: its receiver's readiness and request, the answer to the far end, the mask. -/
def hubFrame (s : State) (n phase lane : Nat) (ready : Bool) (req good : Nat) : State :=
  sendTrainFrame s n lane (controlWord phase lane (hubRole n) ready (req / 8) (req % 8) (kget 0 (getTraining s n).answer lane) good)

/-- A frame on every lane that trains (R282). -/
def hubFrames (s : State) (n phase good : Nat) : State :=
  ((rangeFrom 0 (portLanes n)).filter fun i => nbit (lanesUsable s n) i).foldl (fun s i =>
    hubFrame s n phase i (nbit (getTraining s n).rxHub i) 0 good) s

/-- Table 10.3: entry into DETECT. -/
def enterDetect (s : State) (n : Nat) : State :=
  let f := (getTraining s n).failRun
  let s := quietPort s n 1
  let s := regAddSat s (rCplStatus n) 31 16 1
  let s := putTraining s n { Training.init with failRun := f }
  hubFrames s n 1 0

/-- R275, Table 10.14: a step of training failed. -/
def portFail (s : State) (n code : Nat) : State :=
  let s := quietPort s n 8
  let s := regPut s (rCplStatus n) 15 8 code
  if code = 6 then raise s (srcPort n) 0x17 1 0
  else if (getTraining s n).failRun then s
  else raise (putTraining s n { getTraining s n with failRun := true }) (srcPort n) 0x18 1 code

/-- A port named by the topology and able to run retrains; any other is disabled. -/
def retrain (s : State) (n : Nat) : State := enterDetect s n

/-- R309: a protocol error: counted, raised, the port retrains. -/
def protocolError (s : State) (n kind code : Nat) : State :=
  let s := regAddSat s (rCplErr2 n) 31 16 1
  let s := raise s (srcPort n) 0x15 2 (kind % 16 + code % 256 * 16)
  retrain s n

/-- R291: the port declares the link down. -/
def linkDown (s : State) (n : Nat) : State := retrain (raise s (srcPort n) 0x13 2 0) n

/-- A port becomes DISABLED. -/
def disableNow (s : State) (n : Nat) : State :=
  if portSt s n = 0 then s else putTraining (quietPort s n 0) n Training.init

/-- A port's conditions no longer hold. One that is held out stays so until an apply or a main-domain reset (R34, log 105). -/
def disablePort (s : State) (n : Nat) : State := if portSt s n = 7 then s else disableNow s n

/-! ### Receiving -/

/-- Table 10.7: the kinds that are sequenced. -/
def sequenced (kind : Nat) : Bool := decide (1 ≤ kind) && decide (kind ≤ 0xA)

/-- R289: a flit is discarded: the hub asks for flit E again, and the number that the next one carries is one more. -/
def discard (l : Link) : Link := { l with nak := true, rxSeq := l.rxSeq.map fun q => (q + 1) % 1024 }

/-- R289, R309: a flit of a kind fails its CRC. An unsequenced one is dropped, a beat-sync flit counted. -/
def crcFailed (s : State) (n kind : Nat) : State :=
  if kind = 0xC then regAddSat s (rCplErr2 n) 47 32 1
  else if kind = 0 ∨ kind = 0xD ∨ kind = 0xE then s
  else putLink s n (discard (getLink s n))

def flitHdr (f : Flit) : Nat := f.header.toNat
def flitKind (f : Flit) : Nat := nbits (flitHdr f) 63 60
def flitVc (f : Flit) : Nat := nbits (flitHdr f) 59 58

/-- R288, R289, R295: a sequenced flit arrives: whether it is accepted. Its number is that which the link word before its frame
gave; with that word lost it is discarded. A flit beyond the credits that the hub has reported is a protocol error. -/
def acceptSeq (s : State) (f : Flit) : State × Bool :=
  let n := f.port
  if !portActive s n then (s, false)
  else if !crcOk f then (crcFailed s n (flitKind f), false)
  else
    let l := getLink s n
    let vc := flitVc f
    match l.rxSeq with
    | none => (putLink s n (discard l), false)
    | some q =>
      if q = l.expect then
        let got := lget 0 l.got vc + 1
        if lget 0 l.told vc + lget 0 hubCredits vc < got then (protocolError s n (flitKind f) 0, false)
        else (putLink s n { l with expect := (l.expect + 1) % 1024, rxSeq := some ((q + 1) % 1024), lastAcc := l.expect, nak := false,
                                   bad := 0, ctl := none, got := lset l.got vc got }, true)
      else if (l.expect + 1024 - q) % 1024 ≤ 512 then (putLink s n { l with rxSeq := some ((q + 1) % 1024) }, false)
      else (putLink s n (discard l), false)

/-- R295: a flit has been passed on and its credit freed. -/
def passOn (s : State) (n vc : Nat) : State :=
  let l := getLink s n
  putLink s n { l with passed := lset l.passed vc (lget 0 l.passed vc + 1) }

/-- The payload is zero from byte `k` on (R285, R287). -/
def zeroFrom (bs : List Byte) (k : Nat) : Bool := (bs.drop k).all fun b => b == 0

/-- R286: a KIND that Table 10.7 does not assign. -/
def unassignedKind (k : Nat) : Bool := k == 0xB || k == 0xF

/-- R286, R289: a data flit of a kind arrives: whether it is to be acted on. `ok` says that its unused fields are zero.
A flit of another assigned kind is not this command's. -/
def takeFlit (s : State) (f : Flit) (kind vc : Nat) (ok : Bool) : State × Bool :=
  let k := flitKind f
  if k = kind ∨ unassignedKind k then
    let (s, a) := acceptSeq s f
    if a then
      if k = kind ∧ flitVc f = vc ∧ ok = true then (passOn s f.port vc, true)
      else (protocolError s f.port k 0, false)
    else (s, false)
  else (s, false)

/-- R286, R287: a CTRL flit as Table 10.8 lays it out: its virtual channel, COUNT, and zeros elsewhere. -/
def ctlFlitOk (f : Flit) : Bool :=
  let n := nbits (flitHdr f) 57 54
  decide (2 ≤ flitVc f) && decide (1 ≤ n) && nbits (flitHdr f) 53 0 == 0 && zeroFrom f.payload (16 * n)

/-- Table 10.11: the messages that reach the hub on a port: from a partner, from the hub behind P0, from the hub behind P1. -/
def ctlCodes (n : Nat) : List Nat :=
  if n < 8 then [0x01, 0x02, 0x21, 0x31, 0x34, 0x38, 0x39, 0x40]
  else [0x01, 0x11, 0x50, 0x51, 0x60, 0x61, 0x62, 0x63, 0x64, 0x65]

/-- Table 10.11: bytes that a message uses beside its code, as (offset, size). -/
def ctlFields (code : Nat) : List (Nat × Nat) :=
  if code = 0x01 then [(1, 1), (8, 8)] else if code = 0x02 then [(8, 8)] else if code = 0x11 then [(1, 2), (4, 4)]
  else if code = 0x21 then [(1, 1), (4, 4)] else if code = 0x31 then [(1, 13)] else if code = 0x34 then [(4, 12)]
  else if code = 0x38 then [(4, 4)] else if code = 0x39 then [(4, 8)] else if code = 0x40 then [(8, 8)]
  else if code = 0x50 then [(2, 14)] else if code = 0x51 then [(1, 7), (8, 8)] else if code = 0x60 then [(4, 12)]
  else if code = 0x64 then [(4, 8)] else if code = 0x65 then [(8, 8)] else [(4, 4)]

/-- R286, R297: the bytes that no field of a message names are zero (DEDUCED, log 106). -/
def ctlRestZero (code : Nat) (msg : List Byte) : Bool :=
  (rangeFrom 1 15).all fun o => lget 0 msg o == 0 || (ctlFields code).any fun e => decide (e.1 ≤ o) && decide (o < e.1 + e.2)

/-- R289: the first message of a CTRL flit brings the flit; the later ones follow it, each in its place. -/
def takeCtlFlit (s : State) (c : Ctl) : State × Bool :=
  let n := nbits (flitHdr c.flit) 57 54
  let next := fun (k : Nat) => if k < n then some (k, c.flit.payload) else none
  if c.index = 0 then
    let (s, a) := takeFlit s c.flit 6 (flitVc c.flit) (ctlFlitOk c.flit)
    if a then (putLink s c.port { getLink s c.port with ctl := next 1 }, true) else (s, false)
  else if portActive s c.port && (getLink s c.port).ctl == some (c.index, c.flit.payload) then
    (putLink s c.port { getLink s c.port with ctl := next (c.index + 1) }, true)
  else (s, false)

/-- R297: a control message of a code arrives: whether it is to be acted on. `dir` says that the port and the direction are
those Table 10.11 gives it. A message of another code that the port may carry is not this command's. -/
def takeCtl (s : State) (c : Ctl) (code : Nat) (dir : Bool) : State × Bool :=
  let k := field c.msg 0 1
  if k ≠ code ∧ (ctlCodes c.port).contains k = true ∧ c.vc = ctlVc k then (s, false)
  else
    let (s, a) := takeCtlFlit s c
    if a then
      if k = code ∧ c.vc = ctlVc code ∧ dir = true ∧ ctlRestZero k c.msg = true then (s, true) else (protocolError s c.port 6 k, false)
    else (s, false)

/-- Table 10.11: from a partner to the hub. -/
def fromPartner (c : Ctl) : Bool := decide (c.port < 8)

/-- Table 10.11: from hub to hub. -/
def fromHub (c : Ctl) : Bool := c.port == 8 || c.port == 9

/-! ### Link words (R288, Table 10.9) -/

/-- R288: a running total modulo `m` brought up to date. -/
def totalUp (old m new : Nat) : Nat := old + (new + m - old % m) % m

/-- R288, R295: the credits of a link word; none when they exceed what was used. -/
def creditsOf (l : Link) (w : Nat) : Option (List Nat) :=
  let f := [totalUp (lget 0 l.freed 0) 256 (nbits w 41 34), totalUp (lget 0 l.freed 1) 256 (nbits w 33 26),
            totalUp (lget 0 l.freed 2) 1024 (nbits w 25 16), totalUp (lget 0 l.freed 3) 64 (nbits w 15 10)]
  if (rangeFrom 0 4).all fun v => decide (lget 0 f v ≤ lget 0 l.used v) then some f else none

/-- R290: flits that ACK value `a` covers leave the replay buffer. -/
def ackLink (l : Link) (a : Nat) : Link :=
  match l.replay.findIdx? fun e => e.1 == a with
  | some i => { l with replay := l.replay.drop (i + 1), acked := a, resends := 0, resent := none }
  | none => l

/-- R290, R291: the resend of every buffered flit, from the next frame on. -/
def resend (s : State) (n a : Nat) : State :=
  let l := getLink s n
  let q := (a + 1) % 1024
  let s := regAddSat s (rCplErr n) 15 0 1
  let s := raise s (srcPort n) 0x11 1 q
  let s := putLink s n { l with resends := l.resends + 1, resent := some a }
  let s := sendLinkWord s n true q
  let s := { s with outbox := s.outbox ++ l.replay.map fun e => e.2 }
  l.replay.foldl (fun s e => lineFlit s n (some e.1) e.2.data) s

/-- LINK_WORD (R288 to R291, R295): a link word arrives and the hub's own of the frame goes out. FSEQ numbers the flits that
follow; with the word lost they have no number (R289). `later` says that 1,024 link-clock cycles have passed since the running
resend began. -/
def execLinkWord (port : Nat) (word : W64) (later : Bool) (s : State) : Host.Outcome State Fault Refusal :=
  if portActive s port then
    let w := word.toNat
    if nbits w 7 0 ≠ lcrc (w - nbits w 7 0) then
      let s := regAddSat s (rCplErr2 port) 63 48 1
      let s := putLink s port { getLink s port with nak := true, rxSeq := none }
      .next (sendLinkWord s port false (getLink s port).txSeq)
    else
      match creditsOf (getLink s port) w with
      | none => .next (protocolError s port 0 0)
      | some f =>
        let l := ackLink { getLink s port with freed := f, bad := 0, rxSeq := some (nbits w 63 54) } (nbits w 52 43)
        let s := putLink s port l
        let s := if nbit w 53 then regAddSat s (rCplErr port) 15 0 1 else s
        if nbit w 42 && l.replay != [] && (l.resent != some (nbits w 52 43) || later) then
          if l.resends ≥ 8 then .next (linkDown s port) else .next (pump (resend s port (nbits w 52 43)) port)
        else
          let s := pump s port
          .next (sendLinkWord s port false (getLink s port).txSeq)
  else .next s

/-- CPL_LINK_DOWN (R291): eight resends from the same number, or ACK standing still for 4,096 cycles with flits
unacknowledged. -/
def execCplLinkDown (port : Nat) (s : State) : Host.Outcome State Fault Refusal :=
  if portActive s port ∧ (getLink s port).replay ≠ [] then .next (linkDown s port) else .next s

/-- R273, R274: the places among the five flits of a pair of codewords that one of them touches. -/
def touchedFlits (second : Bool) : List Nat := dedup ((rangeFrom (if second then 20 else 0) 20).map fun b => b / 8)

/-- FAILED_FLIT (R274, R283, R289): a flit whose CRC fails, or a codeword with symbol errors. Up to 15 errors are corrected. A
codeword with more fails every flit it touches; `kinds` gives the KIND of each of the five flits that its pair carries, 0 for one
that failed before, and which of them were sequenced the link word after them shows. 64 such codewords in a row make the port
leave ACTIVE. -/
def execFailedFlit (port : Nat) (fault : FlitFault) (kinds : List Nat) (s : State) : Host.Outcome State Fault Refusal :=
  if portActive s port then
    match fault with
    | .crc f => .next (if f.port ≠ port ∨ crcOk f then s else crcFailed s port (flitKind f))
    | .codeword second symbols =>
      let l := getLink s port
      if symbols ≤ 15 then .next (putLink s port { l with bad := 0 })
      else
        let s := regAddSat s (rCplErr port) 31 16 1
        let s := regAddSat s (rCplErr2 port) 47 32 ((touchedFlits second).filter fun i => lget 0 kinds i == 0xC).length
        let s := putLink s port { l with nak := true, rxSeq := none, bad := l.bad + 1 }
        .next (if l.bad + 1 ≥ 64 then retrain s port else s)
  else .next s

/-- FEC_RATE_SECOND (R309): the symbols that the FEC of a port corrected in the last second. -/
def execFecRateSecond (port symbols : Nat) (s : State) : Host.Outcome State Fault Refusal :=
  if port < 10 ∧ s.mainDom = .up then
    let s := regAddSat s (rCplErr port) 63 32 symbols
    .next (if symbols > 2 ^ 20 then raise s (srcPort port) 0x12 1 symbols else s)
  else .next s

/-- COMPENSATION_FRAME (R293): eight NULL flits with COMP, under the link word of the frame before, which is repeated. After a
word with REPLAY none is due: no resend starts in a compensation frame. -/
def execCompensationFrame (port : Nat) (s : State) : Host.Outcome State Fault Refusal :=
  if (port = 8 ∨ port = 9) ∧ portActive s port ∧ !nbit (getLink s port).last 53 then
    let s := emit s .ctlFlit [port, 1, 8] (nullFlit true)
    .next (sendFrame s port (getLink s port).last (List.replicate 8 (nullFlit true)))
  else .next s

/-- CPL_LANE_LOST (R283): a lane of an ACTIVE port lost lock or passed the FEC threshold. -/
def execCplLaneLost (port lane : Nat) (s : State) : Host.Outcome State Fault Refusal :=
  if portActive s port ∧ nbit (regBits s (rCplStatus port) 55 48) lane then
    let s := regPut s (rCplStatus port) (40 + lane) (40 + lane) 1
    .next (retrain (raise s (srcPort port) 0x14 2 lane) port)
  else .next s

end Sys2Proof.Machine
end

