-- ==== Sys2Proof/Machine/Mirror.lean ====
section
/-! DEFINITION. Chapter 08: mirrors between hubs (R240, R241, R301). -/

namespace Sys2Proof.Machine

/-- Flits of a stream of `n` bytes. -/
def streamFlits (n : Nat) : Nat := (n + 239) / 240

/-- R287, R301: flit `k` of a stream of `total` bytes that begins at slot offset `base`: header fields below VC and payload. -/
def slotFlit (s : State) (i base total gen k : Nat) : Nat × List Byte :=
  let n := min 240 (total - 240 * k)
  let q := lsum ((rangeFrom 0 4).map fun z =>
    if (rangeFrom (60 * z) 60).any fun o => decide (o < n) && slotPoisoned s i (base + 240 * k + o) then 2 ^ z else 0)
  (gen % 256 * 2 ^ 50 + k % 2 ^ 32 * 2 ^ 18 + n * 2 ^ 10 + q * 2 ^ 6, slotRead s i (base + 240 * k) n)

/-- Bytes of a slot that a mirror moves. -/
def mirrorBytes (s : State) (i : Nat) : Nat := 2 ^ 21 + recTotal s i

/-- R240, R301: the mirror's flits go out as far as the neighbour has granted them, then MIR_END. -/
def mirPump (s : State) : State :=
  match s.snap.mirOut with
  | some m =>
    if m.begun ∧ ¬ m.ended then
      let total := mirrorBytes s m.slot
      let stop := min m.credits (streamFlits total)
      let s := (rangeFrom m.flits (stop - m.flits)).foldl (fun s k =>
        let f := slotFlit s m.slot 0 total m.gen k
        sendFlit s 9 0xA 2 f.1 f.2) s
      let ended := decide (streamFlits total ≤ stop)
      let s := if ended then sendCtl s 9 0x61 [(4, m.gen % 2 ^ 32)] else s
      putSnap s { s.snap with mirOut := some { m with flits := max m.flits stop, ended := ended } }
    else s
  | none => s

/-- R238, R241: the neighbour can take a mirror. -/
def mirrorReady (s : State) : Bool :=
  portActive s 9 && (match s.snap.peerUnits with | some u => decide (slotUnits s ≤ u) | none => false)

/-- R240: MIR_BEGIN, once the link is trained and the receiver is ready. -/
def startMirror (s : State) : State :=
  match s.snap.mirOut with
  | some m =>
    if m.begun ∨ ¬ mirrorReady s then s
    else
      let s := sendCtl s 9 0x60 [(4, m.gen % 2 ^ 32), (8, recTotal s m.slot)]
      putSnap s { s.snap with mirOut := some { newMirror m.gen m.slot with begun := true } }
  | none => s

/-- R301: the size of this hub's mirror slots, told to the hub behind P0. -/
def sendMirSlots (s : State) : State := sendCtl s 8 0x65 [(8, if snapMode s = 2 then slotUnits s else 0)]

/-- R238, R241: what waits on P1 of a mirror that is given up is not sent: its MIR_BEGIN, its flits, its MIR_END. -/
def dropMirror (s : State) : State :=
  let l := getLink s 9
  let mine := fun (e : Nat × Out) =>
    (e.1 == 2 && flitRank 9 (lget 0 e.2.args 0) == 4) || (e.1 == 3 && lget 0 e.2.data 0 == 0x60)
  putLink s 9 { l with wait := l.wait.filter fun e => !mine e }

/-- R240, R241: the mirror being sent starts again from MIR_BEGIN. -/
def restartMirror (s : State) : State :=
  match s.snap.mirOut with
  | some m =>
    let s := dropMirror s
    startMirror (putSnap s { s.snap with mirOut := some (newMirror m.gen m.slot) })
  | none => s

/-- A P port has become ACTIVE (R241, R301). -/
def mirrorUp (s : State) (n : Nat) : State := if n = 8 then sendMirSlots s else if n = 9 then startMirror s else s

/-- A fetch of the mirror that this hub holds, by the hub behind P0: flits as far as it has granted them (log 51). -/
def servePump (s : State) (credits : Nat) : State :=
  match s.snap.serve with
  | some (i, sent) =>
    let total := mirrorBytes s i
    let stop := min (sent + credits) (streamFlits total)
    let s := (rangeFrom sent (stop - sent)).foldl (fun s k =>
      let f := slotFlit s i 0 total (slotGen s i) k
      sendFlit s 8 0xA 2 f.1 f.2) s
    putSnap s { s.snap with serve := if streamFlits total ≤ stop then none else some (i, stop) }
  | none => s

/-- R244, log 51: the hub behind P0 begins a fetch from the first byte: what waits of an earlier one is not sent. -/
def openServe (s : State) (i : Nat) : State :=
  let l := getLink s 8
  let s := putLink s 8 { l with wait := l.wait.filter fun e => nbits (lget 0 e.2.args 0) 63 60 != 0xA }
  putSnap s { s.snap with serve := some (i, 0) }

/-- R240: what a mirror is received into: the mirror slot that does not hold the newest intact mirror. -/
def mirrorTarget (s : State) : Nat := if newestMirror s = some 1 then 2 else 1

/-- Table 8.2: ORIGIN written with the RECORD_CODE that it changes. -/
def setOrigin (s : State) (i o : Nat) : State :=
  let s := slotWrite s i 0x11 [BitVec.ofNat 8 o]
  slotWrite s i 0xFF8 (leBytes 8 (recordCode (slotRead s i 0 4096)))

/-- R240, R301: a flit of a mirror being received. STATE stays RECEIVING. -/
def mirrorFlit (s : State) (f : Flit) (m : MirrorIn) : State :=
  let h := flitHdr f
  let total := 2 ^ 21 + m.total
  let n := nbits h 17 10
  if nbits h 57 50 ≠ m.gen % 256 ∨ nbits h 49 18 ≠ m.got / 240 ∨ n ≠ min 240 (total - m.got) ∨ n = 0 then protocolError s 8 0xA 0
  else
    let bs := f.payload.take n
    let bs := if m.got ≤ 0x10 ∧ 0x10 < m.got + n then lset bs (0x10 - m.got) 3 else bs
    let bad := (rangeFrom 0 n).filter fun o => nbit (nbits h 9 6) (o / 60)
    let s := slotWrite s m.slot m.got bs bad
    putSnap s { s.snap with mirIn := some { m with got := m.got + n } }

end Sys2Proof.Machine
end

