-- ==== Sys2Proof/Machine/Training.lean ====
section
/-! DEFINITION. Chapter 10: training of a Coupler port (R275 to R284). -/

namespace Sys2Proof.Machine

/-- R28, R275: the conditions under which a port runs. -/
def portMayRun (s : State) (n : Nat) : Bool :=
  s.mainDom == .up && s.consist.applied && portNamed s n && !nbit (regGet s (rFatal 9)).toNat n &&
  (decide (8 ≤ n) || (nbit (regBits s rPseq 47 40) n && regBits s (rSidePart n) 50 50 == 1))

/-- Number of lanes in a mask. -/
def laneCount (m : Nat) : Nat := ((rangeFrom 0 8).filter fun i => nbit m i).length

/-- Bitwise and of lane masks. -/
def laneAnd (a b : Nat) : Nat := lsum (((rangeFrom 0 8).filter fun i => nbit a i && nbit b i).map fun i => 2 ^ i)

/-- The mask with a lane set. -/
def laneAdd (m i : Nat) : Nat := if nbit m i then m else m + 2 ^ i

/-- PORT_ENABLE (R275, R282): the port's conditions hold and it leaves DISABLED. -/
def execPortEnable (port : Nat) (s : State) : Host.Outcome State Fault Refusal :=
  if port < 10 ∧ portSt s port = 0 ∧ portMayRun s port then .next (enterDetect s port) else .next s

/-- R277, Table 10.2: whether a tap may move to `v` steps off its preset. -/
def tapOk (tap : Nat) (v : Int) : Bool :=
  if tap = 3 then decide (-31 ≤ v) && decide (v ≤ 0) else decide (-31 ≤ v) && decide (v ≤ 31)

/-- R277: a tap after a request: the value and REQ_STATUS (1 done, 2 at limit). -/
def tapMove (op tap : Nat) (v : Int) : Int × Nat :=
  let x := if op = 1 then v + 1 else if op = 2 then v - 1 else if op = 3 then 0 else v
  if tapOk tap x then (x, 1) else (v, 2)

/-- CPL_LANE.TAPS: c−3, c−2, c−1 and c1 of the far transmitter. -/
def tapsField (t : KMap Int) (lane : Nat) : Nat :=
  let f := fun (tap : Nat) => satSigned 6 (kget 0 t (8 * lane + tap))
  f 0 * 2 ^ 18 + f 1 * 2 ^ 12 + f 2 * 2 ^ 6 + f 4

/-- R276: a control word that the hub reads on a lane of a port: its CRC checks, its PHASE is one of the three, LANE is the lane,
ROLE that of the far end, VERSION 1 and the unused bits zero. Any other frame is ignored (DEDUCED, log 107). -/
def frameOk (n lane w : Nat) : Bool :=
  nbits w 15 0 == frameCrc w && decide (1 ≤ nbits w 63 60) && decide (nbits w 63 60 ≤ 3) && nbits w 59 57 == lane &&
  nbits w 56 55 == (if n < 8 then 2 else 3) && nbits w 38 32 == 0 && nbits w 31 16 == 1

/-- R277: what a frame of EQUALIZE leaves on a lane: readiness of both ends, the far end's request carried out and its answer,
the answer to the hub's own request. -/
def equalizeLane (t : Training) (lane w : Nat) (ready : Bool) : Training :=
  let op := if nbits w 63 60 = 2 then nbits w 53 52 else 0
  let tap := nbits w 51 49
  let mv := tapMove op tap (kget 0 t.taps (8 * lane + tap))
  let mine := op ≠ 0 ∧ tap < 5
  let ask := kget 0 t.asked lane
  let far := tapMove (ask / 8) (ask % 8) (kget 0 t.peerTaps (8 * lane + ask % 8))
  let st := nbits w 48 47
  { t with
    rxHub := if ready then laneAdd t.rxHub lane else t.rxHub
    rxPeer := if nbit w 54 then laneAdd t.rxPeer lane else t.rxPeer
    taps := if mine then kset 0 t.taps (8 * lane + tap) mv.1 else t.taps
    answer := if mine then kset 0 t.answer lane mv.2 else t.answer
    peerTaps := if ask ≠ 0 ∧ st = 1 then kset 0 t.peerTaps (8 * lane + ask % 8) far.1 else t.peerTaps
    asked := if st ≠ 0 then kdel t.asked lane else t.asked }

/-- A training frame of EQUALIZE (R277). The hub's receiver asks for `reqOp` on tap `reqTap` once the far end has answered its
last request, and repeats that one before. The hub's frame of the lane says all this. -/
def equalizeFrame (s : State) (n lane w : Nat) (ready : Bool) (reqOp reqTap : Nat) : State :=
  let t := equalizeLane (getTraining s n) lane w ready
  let ask := if kget 0 t.asked lane ≠ 0 then kget 0 t.asked lane else if reqOp % 4 ≠ 0 ∧ reqTap < 5 then reqOp % 4 * 8 + reqTap else 0
  let s := putTraining s n { t with asked := kset 0 t.asked lane ask }
  let s := regPut s (rCplLane n lane) 23 0 (tapsField t.peerTaps lane)
  hubFrame s n 2 lane (nbit t.rxHub lane) ask 0

/-- Table 10.3, R278: EQUALIZE ends; a frame goes before the pattern that each lane sends in LANE_TEST. -/
def enterLaneTest (s : State) (n : Nat) : State :=
  let s := hubFrames (setPortSt s n 3) n 3 0
  ((rangeFrom 0 (portLanes n)).filter fun i => nbit (lanesUsable s n) i).foldl (fun s i => sendPattern s n i) s

/-- R279: an ALIGN flit in the next slot: bits [5:0] hold the slot index modulo 40. -/
def sendAlign (s : State) (n : Nat) : State :=
  let l := getLine s n
  sendPlain s n (0xE * 2 ^ 60 + 3 * 2 ^ 58 + (l.slot + l.slots.length) % 40) []

/-- R279: every slot of a frame filled with ALIGN flits, at the entry into ALIGN and at each event while it lasts (log 107). -/
def fillAlign (s : State) (n : Nat) : State := (rangeFrom 0 8).foldl (fun s _ => sendAlign s n) s

/-- Entry into ALIGN: the line begins, with a scrambler that holds what the spec leaves open. -/
def enterAlign (s : State) (n : Nat) : State :=
  let s := putLine (setPortSt s n 4) n { Line.init with scram := (Config.scrambler s.free).toNat }
  fillAlign { s with free := s.free + 1 } n

/-- R34, R278, R284: the width that both GOOD masks give, and what follows. -/
def fixWidth (s : State) (n used : Nat) : State :=
  let width := if n ≥ 8 ∧ used ≠ 0xF then 0 else laneCount used
  let s := regPut s (rCplStatus n) 39 32 used
  if width < 4 then portFail s n 3
  else if n < 8 ∧ width < lget 4 s.consist.cfg.topology.minWidth n then
    regPut (quietPort s n 7) (rCplStatus n) 15 8 7
  else
    let s := regPut s (rCplStatus n) 59 56 width
    let s := regPut s (rCplStatus n) 55 48 used
    enterAlign s n

/-- R278: the width is fixed once the hub's own GOOD mask and the far end's are known. -/
def masksMet (s : State) (n : Nat) : State :=
  match (getTraining s n).good, (getTraining s n).peerGood with
  | some a, some b => fixWidth s n (laneAnd a b)
  | _, _ => s

/-- R278: a frame at the end of LANE_TEST brings the far end's GOOD mask. A frame before the end of the hub's own test shows
zero and brings none (log 107). -/
def closingFrame (s : State) (n w : Nat) : State :=
  let t := getTraining s n
  if nbits w 63 60 = 3 ∧ (t.good.isSome ∨ nbits w 46 39 ≠ 0) then
    masksMet (putTraining s n { t with peerGood := some (nbits w 46 39) }) n
  else s

/-- TRAINING_FRAME (R276 to R278, R283): a frame with control word `word` arrives on a lane. `ready` says that the hub's receiver
is satisfied with the lane; `reqOp` and `reqTap` are what it asks of the far transmitter next. -/
def execTrainingFrame (port lane : Nat) (word : W64) (ready : Bool) (reqOp reqTap : Nat) (s : State) :
    Host.Outcome State Fault Refusal :=
  let w := word.toNat
  if port ≥ 10 ∨ lane ≥ portLanes port ∨ !frameOk port lane w then .next s
  else if portActive s port then .next (retrain s port)
  else if ¬ nbit (lanesUsable s port) lane then .next s
  else
    let t := getTraining s port
    let s := if portSt s port = 1 ∨ portSt s port = 2 then putTraining s port { t with seen := laneAdd t.seen lane } else s
    if portSt s port = 1 then
      .next (if laneCount (laneAdd t.seen lane) ≥ 4 then setPortSt s port 2 else hubFrame s port 1 lane false 0 0)
    else if portSt s port = 2 then
      let s := equalizeFrame s port lane w ready reqOp reqTap
      let t := getTraining s port
      .next (if laneAnd t.seen (laneAnd t.rxHub t.rxPeer) = t.seen then enterLaneTest s port else s)
    else if portSt s port = 3 then .next (closingFrame s port w)
    else .next s

/-- TRAINING_TIMEOUT (R275, R282, R284): 5 ms of DETECT or 20 ms of EQUALIZE have passed. Where lanes lost or disabled leave fewer
than four, that is the cause of the failure. -/
def execTrainingTimeout (port : Nat) (s : State) : Host.Outcome State Fault Refusal :=
  let t := getTraining s port
  if portSt s port = 1 then
    .next (if laneCount (lanesUsable s port) < 4 then portFail s port 3
           else if laneCount t.seen < 4 then portFail s port 1 else setPortSt s port 2)
  else if portSt s port = 2 then
    .next (if laneCount (laneAnd t.rxHub t.rxPeer) < 4 then portFail s port 2 else enterLaneTest s port)
  else .next s

/-- R278: the hub's GOOD mask from the bit errors of each lane. -/
def goodMask (s : State) (n : Nat) (errors : List Nat) : Nat :=
  let t := getTraining s n
  laneAnd (laneAnd (lanesUsable s n) (laneAnd t.rxHub t.rxPeer))
    (lsum (((rangeFrom 0 (portLanes n)).filter fun i => decide (lget 0xFFFFFFFF errors i ≤ 1024)).map fun i => 2 ^ i))

/-- R276, R278: a frame that arrives on a lane of a port in LANE_TEST. -/
def testFrame (port lane : Nat) (word : W64) (s : State) : State :=
  if portSt s port = 3 ∧ lane < portLanes port ∧ frameOk port lane word.toNat = true ∧ nbit (lanesUsable s port) lane = true then
    closingFrame s port word.toNat
  else s

/-- LANE_TEST_END (R278): the bit errors of each lane and the receivers' signal-to-noise estimates. The closing frames carry the
hub's GOOD mask; `closing` are those of the far end that have come, by lane and control word. Others come as TRAINING_FRAME. -/
def execLaneTestEnd (port : Nat) (errors snr : List Nat) (closing : List (Nat × W64)) (s : State) : Host.Outcome State Fault Refusal :=
  if portSt s port = 3 ∧ (getTraining s port).good = none then
    let mask := goodMask s port errors
    let s := (rangeFrom 0 (portLanes port)).foldl (fun s i =>
      regPut (regPut s (rCplLane port i) 63 32 (satTo 0xFFFFFFFF (lget 0 errors i))) (rCplLane port i) 31 24 (satTo 0xFF (lget 0 snr i))) s
    let s := putTraining s port { getTraining s port with good := some mask }
    .next (closing.foldl (fun s e => testFrame port e.1 e.2 s) (masksMet (hubFrames s port 3 mask) port))
  else .next s

/-- The header of the active Consist, zeros when no slot is active. -/
def activeHeader (s : State) : List Byte :=
  match s.consist.activeSlot with
  | none => List.replicate 256 0
  | some b => ((if b then s.consist.slotB else s.consist.slotA).take 256)

/-- Table 10.5: the hub's CONFIG PART 0. -/
def configPart0 (s : State) (n : Nat) (nonce : List Byte) : List Byte :=
  leBytes 2 1 ++ leBytes 1 (if n < 8 then 1 else 3) ++ leBytes 1 n ++
  (hubCredits.flatMap fun c => leBytes 2 c) ++ leBytes 2 512 ++ leBytes 1 (regBits s (rCplStatus n) 59 56) ++ leBytes 1 0 ++
  (if n < 8 then List.replicate 48 0 else nonce ++ Config.identityKey) ++ List.replicate 176 0

/-- R280: a CONFIG flit, which is not sequenced. -/
def sendConfig (s : State) (n part : Nat) (payload : List Byte) : State :=
  sendPlain s n (0xD * 2 ^ 60 + 3 * 2 ^ 58 + part * 2 ^ 56) payload

/-- R280: PART 0, with the NONCE that the hub drew for this training. -/
def sendPart0 (s : State) (n : Nat) : State := sendConfig s n 0 (configPart0 s n (kget [] (getTraining s n).parts 4))

/-- R280: PART 0 is repeated on a port in CONFIG that has not received the peer's: every 2,500 beats, and at each ALIGN flit that
still arrives (log 107). -/
def repeatPart0 (s : State) (n : Nat) : State :=
  if portSt s n = 5 ∧ kget [] (getTraining s n).parts 0 = [] then sendPart0 s n else s

/-- Entry into CONFIG: the hub draws the NONCE of a P port and sends its CONFIG. -/
def enterConfig (s : State) (n : Nat) : State :=
  let s := setPortSt s n 5
  let nonce := if n < 8 then [] else (Config.nonce s.trust.draws).take 16
  let s := { s with trust := { s.trust with draws := s.trust.draws + 1 } }
  sendPart0 (putTraining s n { getTraining s n with parts := [(4, nonce)] }) n

/-- R279: what arrives is an ALIGN flit whose CRC checks. -/
def isAlign (f : Flit) : Bool := crcOk f && flitKind f == 0xE

/-- R286: an ALIGN flit on its virtual channel, whose unused fields are zero. -/
def alignZero (f : Flit) : Bool := flitVc f == 3 && nbits (flitHdr f) 57 6 == 0 && zeroFrom f.payload 0

/-- R279: the slot index that an ALIGN flit gives. -/
def alignSlot (f : Flit) : Nat := nbits (flitHdr f) 5 0

/-- ALIGN (R279, R280, R286): an ALIGN flit arrives. Its slot index, with FEC lock and deskew, aligns the receiver, which counts
slots from it; where the receiver cannot hold them (`lock` false), alignment fails. Until one aligns it the hub goes on filling
slots. One that arrives in CONFIG finds PART 0 repeated. -/
def execAlign (f : Flit) (lock : Bool) (s : State) : Host.Outcome State Fault Refusal :=
  if portSt s f.port = 4 ∧ !lock then .next (portFail s f.port 4)
  else if (portSt s f.port = 4 ∨ portSt s f.port = 5) ∧ isAlign f ∧ !alignZero f then .next (protocolError s f.port 0xE 0)
  else if portSt s f.port = 4 then
    .next (if isAlign f ∧ alignSlot f < 40 then
        enterConfig (putTraining s f.port { getTraining s f.port with rxSlot := some (alignSlot f) }) f.port
      else fillAlign s f.port)
  else .next (repeatPart0 s f.port)

/-- R280: what the hub accepts in PART 0. -/
def part0Ok (s : State) (n : Nat) (p : List Byte) : Bool :=
  field p 0 2 == 1 && field p 2 1 == (if n < 8 then 2 else 3) &&
  decide (16 ≤ field p 4 2) && decide (field p 4 2 ≤ 255) && decide ((if n < 8 then 64 else 16) ≤ field p 6 2) &&
  decide (field p 6 2 ≤ 255) && decide (512 ≤ field p 8 2) && decide (field p 8 2 ≤ 1023) &&
  decide (16 ≤ field p 0xA 2) && decide (field p 0xA 2 ≤ 63) &&
  (decide (n < 8) || [field p 4 2, field p 6 2, field p 8 2, field p 0xA 2] == hubCredits) &&
  field p 0xE 1 == regBits s (rCplStatus n) 59 56

/-- R281: whether the hub accepts the neighbour of a P port. -/
def identOk (s : State) (n : Nat) (own part0 hdr sig : List Byte) : Bool :=
  let nonce := (part0.drop 0x10).take 16
  let key := (part0.drop 0x20).take 32
  let text : List Byte := [0x47, 0x4C, 0x4E, 0x4B, 0x43, 0x50, 0x4C, 0x31]
  let nb := lget 0 s.consist.cfg.topology.pNeighbour (n - 8)
  Config.edVerify key (text ++ own ++ nonce ++ hdr) sig &&
  (match ownerKey s with
   | some k => field hdr 0x18 4 == keyId k && Config.edVerify k (hdr.take 0xC0) ((hdr.drop 0xC0).take 64)
   | none => false) &&
  (nb == 0 || nb.toNat == leVal ((Config.sha512 key).take 8))

/-- The port becomes ACTIVE: what a ring still has to send goes out (R306); on P0 the hub reports its mirror slot size (R301). -/
def portUp (s : State) (n : Nat) : State :=
  let p := kget [] (getTraining s n).parts 0
  let s := regSet s (rCplCredit n) (BitVec.ofNat 64 (field p 8 2 * 2 ^ 48 + field p 4 2 * 2 ^ 40 + field p 6 2 * 2 ^ 32 + field p 0xA 2 * 2 ^ 24))
  let s := putTraining (putLink s n { Link.init with wait := (getLink s n).wait }) n { getTraining s n with parts := [], failRun := false }
  let s := regPut s (rCplStatus n) 15 8 0
  let s := setPortSt s n 6
  mirrorUp (pump s n) n

/-- R281: PARTS 1 to 3 of the hub on a P port, once the peer's PART 0 has come: the active Consist header and its signature. Only G5
asks the identity logic to sign (R370): while it does not run, PART 3 is not sent (DESIGN CHOICE, log 114). -/
def sendParts (s : State) (n : Nat) (part0 : List Byte) : State :=
  let nonce := (part0.drop 0x10).take 16
  let own := kget [] (getTraining s n).parts 4
  let h := activeHeader s
  let text : List Byte := [0x47, 0x4C, 0x4E, 0x4B, 0x43, 0x50, 0x4C, 0x31]
  let s := sendConfig s n 1 (h.take 128)
  let s := sendConfig s n 2 (h.drop 128)
  if guardRuns s 5 then sendConfig s n 3 (Config.edSign (text ++ nonce ++ own ++ h)) else s

/-- R280, R281, R286: the fields that a CONFIG flit leaves unused are zero. -/
def configZero (part : Nat) (f : Flit) : Bool :=
  nbits (flitHdr f) 55 0 == 0 &&
  (if part = 0 then lget 0 f.payload 0xF == 0 && zeroFrom f.payload 0x40 else zeroFrom f.payload (if part = 3 then 64 else 128))

/-- R280, R281: a part of the peer's CONFIG taken. -/
def takePart (s : State) (port part : Nat) (payload : List Byte) : State :=
  let t := getTraining s port
  if part = 0 ∧ (kget [] t.parts 0) = [] then
    if part0Ok s port payload then
      let s := putTraining s port { t with parts := kset [] t.parts 0 payload }
      if port < 8 then portUp s port else sendParts s port payload
    else portFail s port 5
  else if 8 ≤ port ∧ 1 ≤ part ∧ part ≤ 3 ∧ kget [] t.parts 0 ≠ [] then
    let t := { t with parts := kset [] t.parts part payload }
    let s := putTraining s port t
    let p := fun (k : Nat) => kget [] t.parts k
    if p 1 ≠ [] ∧ p 2 ≠ [] ∧ p 3 ≠ [] then
      if identOk s port (p 4) (p 0) ((p 1).take 128 ++ (p 2).take 128) ((p 3).take 64) then portUp s port
      else portFail s port 6
    else s
  else s

/-- R285: a flit from its header and the 248 bytes behind it: the payload, then the CRC. -/
def flitOf (port : Nat) (header : W64) (rest : List Byte) : Flit :=
  { port := port, header := header, payload := rest.take 240, crc := BitVec.ofNat 64 (field rest 240 8) }

/-- CONFIG (R280, R281, R286, R289): a CONFIG flit arrives. One whose CRC fails is dropped. -/
def execConfig (port : Nat) (header : W64) (rest : List Byte) (s : State) : Host.Outcome State Fault Refusal :=
  let f := flitOf port header rest
  if portSt s f.port = 5 ∧ crcOk f ∧ flitKind f = 0xD then
    let part := nbits (flitHdr f) 57 56
    if flitVc f = 3 ∧ configZero part f then .next (takePart s f.port part f.payload)
    else .next (protocolError s f.port 0xD 0)
  else .next s

/-- PORT_FAILED_RETRY (R275): 1 s after FAILED the port returns to DETECT. -/
def execPortFailedRetry (port : Nat) (s : State) : Host.Outcome State Fault Refusal :=
  if portSt s port = 8 ∧ portMayRun s port then .next (enterDetect s port) else .next s

/-- CPL_LANE_CTL.RETEST acts (R284). A port that is held out stays so (R34, log 105), as one with a fatal latch stays FAILED (R462). -/
def retestNow (s : State) (n : Nat) : State :=
  let s := regPut s (rCplStatus n) 47 40 0
  let s := regPut s (rLaneCtl n) 8 8 0
  if portSt s n = 0 ∨ portSt s n = 7 ∨ nbit (regGet s (rFatal 9)).toNat n then s else retrain s n

/-- RETEST is set: it acts at once, or at the end of the job that runs. -/
def retest (s : State) (n : Nat) : State := if s.host.job.isSome then regPut s (rLaneCtl n) 8 8 1 else retestNow s n

/-- CPL_RETEST (R284): RETEST is set; while a job runs it acts when the job ends. -/
def execCplRetest (port : Nat) (s : State) : Host.Outcome State Fault Refusal :=
  .next (if port < 10 ∧ s.mainDom = .up then retest s port else s)

/-- RETEST bits set while a job ran act at its end. -/
def retestDue (s : State) : State :=
  (rangeFrom 0 10).foldl (fun s n => if regBits s (rLaneCtl n) 8 8 = 1 then retestNow s n else s) s

end Sys2Proof.Machine
end

