-- ==== Sys2Proof/Machine/Rings.lean ====
section
/-! DEFINITION. Chapter 12: rings, status words, completion entries, notifications, and how a Carriage request is taken and
answered (R340 to R358, R368, R495). -/

namespace Sys2Proof.Machine

/-! ### Ring configuration. Host rings are 0 to 255, partner ring k of port n is 0x1000 + 16n + k. -/

def isHostRing (q : Nat) : Bool := decide (q < 256)
def partnerRing (n k : Nat) : Nat := 0x1000 + 16 * n + k
def ringPort (q : Nat) : Nat := (q - 0x1000) / 16
def ringK (q : Nat) : Nat := (q - 0x1000) % 16

def ringEnabled (s : State) (q : Nat) : Bool :=
  if isHostRing q then regBits s (rRingCfg q) 63 63 == 1
  else decide (0x1000 ≤ q) && decide (q < 0x1080) && regBits s (rCplRingCfg (ringPort q) (ringK q)) 63 63 == 1
def ringType (s : State) (q : Nat) : Nat := regBits s (rRingCfg q) 62 60
def ringRole (s : State) (q : Nat) : Nat := regBits s (rRingCfg q) 59 59
def ringTrain (s : State) (q : Nat) : Nat :=
  if isHostRing q then regBits s (rRingCfg q) 58 55 else regBits s (rCplRingCfg (ringPort q) (ringK q)) 62 59
def ringDepth (s : State) (q : Nat) : Nat :=
  2 ^ (if isHostRing q then regBits s (rRingCfg q) 54 49 else regBits s (rCplRingCfg (ringPort q) (ringK q)) 53 48)
def ringWeight (s : State) (q : Nat) : Nat := if isHostRing q then regBits s (rRingCfg q) 48 41 else 16
def ringBase (s : State) (q : Nat) : Nat :=
  4096 * (if isHostRing q then regBits s (rRingBase q) 47 12 else regBits s (rCplRingBase (ringPort q) (ringK q)) 47 12)

/-- R341: start and size of a control ring's extension area. -/
def extArea (s : State) (r : Nat) : Nat × Nat :=
  let e := regBits s (rRingCfg r) 40 37
  ((ringBase s r + 64 * ringDepth s r + 4095) / 4096 * 4096, if e = 0 then 0 else 2 ^ e * 4096)

/-- R341: bytes of a ring's area. -/
def ringArea (s : State) (r : Nat) : Nat :=
  let e := extArea s r
  if e.2 = 0 then 64 * ringDepth s r else e.1 + e.2 - ringBase s r

def getProd (s : State) (q : Nat) : W32 := kget 0 s.host.prod q
def getCons (s : State) (q : Nat) : W32 := kget 0 s.host.cons q
def putHost (s : State) (h : HostSt) : State := { s with host := h }
def setProd (s : State) (q : Nat) (v : W32) : State := putHost s { s.host with prod := kset 0 s.host.prod q v }
def setCons (s : State) (q : Nat) (v : W32) : State := putHost s { s.host with cons := kset 0 s.host.cons q v }

/-- R342: entries in a ring. -/
def ringFill (s : State) (q : Nat) : Nat := (getProd s q - getCons s q).toNat

/-- Table 12.7: service `i` is open. -/
def svcOpen (s : State) (i : Nat) : Bool := nbit (regBits s rRingSvc 6 0) i

/-- R358: the service of a host pair is open. -/
def pairOpen (s : State) (r : Nat) : Bool :=
  svcOpen s 1 && (match ringType s r with | 1 => svcOpen s 2 | 2 => svcOpen s 3 | 3 => svcOpen s 4 | _ => true)

/-- R345: the status word of a host ring. -/
def statusWord (s : State) (r : Nat) : List Byte :=
  let i := if r % 2 = 0 then getCons s r else getProd s r
  let st := if !ringEnabled s r then 0 else if pairOpen s r then 1 else 2
  leBytes 4 i.toNat ++ leBytes 1 st ++ List.replicate 11 0

/-- Table 2.3: the role of a port: 0 host, 1 rack manager, 2 unused. -/
def portRole (s : State) (p : Nat) : Nat := s.consist.cfg.topology.ethRole.toNat / 4 ^ p % 4

/-- R331: the Ethernet port of a role: 0 host, 1 rack manager. -/
def rolePort (s : State) (role : Nat) : Nat := if s.consist.cfg.topology.ethRole.toNat % 4 = role then 0 else 1

/-- Table 12.1: a frame of the port's VLAN, 0 for an untagged one. -/
def vlanOk (s : State) (p vlan : Nat) : Bool :=
  if regBits s (rEthCtl p) 44 44 = 1 then vlan == regBits s (rEthCtl p) 43 32 else vlan == 0

/-- R334: a frame outside the subset is dropped and counted. -/
def dropFrame (s : State) (p : Nat) : State := regAddSat s (rEthCnt p) 63 48 1

/-- R334: a packet goes out on connection `k`; while the port's priority is paused it waits, behind those that wait already. -/
def rdmaOut (s : State) (k : Nat) (o : Out) : State :=
  match s.host.conns.find? fun e => e.1 == k with
  | none => s
  | some (_, c) =>
    if s.host.paused.contains c.port then putHost s { s.host with conns := kput s.host.conns k { c with held := c.held ++ [o] } }
    else { s with outbox := s.outbox ++ [o] }

/-- A packet of no more than its numbers and bytes. -/
def rdmaEmit (s : State) (k : Nat) (args : List Nat) (data : List Byte := []) : State := rdmaOut s k ⟨.rdma, k :: args, data⟩

/-- R336, R337: the hub's own RDMA WRITE packet on a connection. Args of the output: connection, 10 (RDMA WRITE only), PSN, remote
address, remote key. -/
def rdmaSend (s : State) (conn addr key : Nat) (data : List Byte) (drain : Option Nat) : State :=
  match s.host.conns.find? fun e => e.1 == conn with
  | none => s
  | some (_, c) =>
    let o : Out := { kind := .rdma, args := [conn, 10, c.psn, addr, key], data := data }
    let c := { c with psn := (c.psn + 1) % 2 ^ 24, sent := c.sent ++ [⟨c.psn, drain, data.length, o⟩] }
    rdmaOut (putHost s { s.host with conns := kput s.host.conns conn c }) conn o

/-- R346: the status word of a ring has changed. -/
def notifyWord (s : State) (r : Nat) : State :=
  if regBits s (rRingCfg r) 36 36 = 1 then
    match s.host.target.find? fun e => e.1 == ringRole s r with
    | some (_, t) => rdmaSend s t.conn (t.addr + 16 * r) t.key (statusWord s r) none
    | none => s
  else s

/-! ### Completion entries (R343, R306) -/

/-- R353: the long bodies in a ring's extension area whose entries are not consumed yet: entry, offset, length. -/
def liveBodies (s : State) (q : Nat) : List (Nat × Nat × Nat) :=
  (kget [] s.host.bodies q).filter fun b => decide ((BitVec.ofNat 32 b.1 - getCons s q).toNat < ringFill s q)

/-- R353: where the next long body of `n` bytes goes: in order, wrapping at the end of the area. -/
def bodyPlace (s : State) (q n : Nat) : Nat :=
  let o := kget 0 s.host.ext q
  if (extArea s q).2 < o + n then 0 else o

/-- An entry, with a long body behind its 64 bytes, can be posted now: the ring has room, the body's place is free, the partner's port
is ACTIVE. A body that the area cannot hold needs no place (log 30). -/
def canPost (s : State) (q : Nat) (m : List Byte) : Bool :=
  let n := m.length - 64
  let o := bodyPlace s q n
  decide (ringFill s q < ringDepth s q) &&
  (if isHostRing q then n == 0 || decide ((extArea s q).2 < n) ||
      (liveBodies s q).all fun b => decide (o + n ≤ b.2.1) || decide (b.2.1 + b.2.2 ≤ o)
   else portActive s (ringPort q))

/-- R353: the long body of an entry goes to its place; the entry then names it. -/
def placeBody (s : State) (q i : Nat) (m : List Byte) : State × List Byte :=
  let n := m.length - 64
  let o := bodyPlace s q n
  if n = 0 ∨ (extArea s q).2 < n then (s, m.take 64)
  else
    let s := storeBytes s ((extArea s q).1 + o) (m.drop 64) false
    (putHost s { s.host with ext := kset 0 s.host.ext q (o + n), bodies := kset [] s.host.bodies q (liveBodies s q ++ [(i, o, n)]) },
     m.take 16 ++ leBytes 8 o ++ (m.take 64).drop 24)

/-- An entry, with a long body behind it, written to a completion ring that can take it. -/
def putEntry (s : State) (q : Nat) (m : List Byte) : State :=
  let i := getProd s q
  let (s, e) := placeBody s q i.toNat m
  if isHostRing q then
    let s := storeBytes s (ringBase s q + 64 * (i.toNat % ringDepth s q)) e false
    let s := setProd s q (i + 1)
    notifyWord (emit s .ringEntry [q, i.toNat]) q
  else
    let s := setProd s q (i + 1)
    sendFlit s (ringPort q) 5 2 (ringK q * 2 ^ 54 + 2 ^ 52 + i.toNat % 2 ^ 16 * 2 ^ 36) e

/-- R343, R306: an entry posted; it waits, behind those that wait already, while the ring cannot take it. -/
def postEntry (s : State) (q : Nat) (e : List Byte) : State :=
  let e := e ++ List.replicate (64 - e.length) 0
  let w := kget [] s.host.waiting q
  if w = [] ∧ canPost s q e = true then putEntry s q e
  else putHost s { s.host with waiting := kset [] s.host.waiting q (w ++ [e]) }

/-- Entries that wait are posted as far as there is room. -/
def postWaiting (s : State) (q : Nat) : List (List Byte) → State
  | [] => s
  | e :: r =>
    if canPost s q e then
      let s := putHost s { s.host with waiting := kset [] s.host.waiting q r }
      postWaiting (putEntry s q e) q r
    else s

/-- A completion ring's consumer has advanced. -/
def ringDrained (s : State) (q : Nat) : State := postWaiting s q (kget [] s.host.waiting q)

/-- R24, R343: an entry waits to be posted to a ring. -/
def postWaits (s : State) (q : Nat) : Bool := kget [] s.host.waiting q != []

/-- The rings of a consumer in the order of a round. -/
def ringsOf (s : State) (cons : Nat) : List Nat :=
  let hostRings := fun (ty : Nat) (p : Nat → Bool) =>
    (rangeFrom 0 128).filterMap fun k => if ringEnabled s (2 * k) && ringType s (2 * k) == ty && p (2 * k) then some (2 * k) else none
  let partner := fun (k : Nat) (p : Nat → Bool) =>
    (rangeFrom 0 8).filterMap fun n => if ringEnabled s (partnerRing n k) && p (partnerRing n k) then some (partnerRing n k) else none
  if cons < 8 then hostRings 1 (fun r => ringTrain s r == cons) ++ partner 4 (fun r => ringTrain s r == cons)
  else if cons = 8 then hostRings 2 (fun _ => true) ++ partner 2 (fun _ => true)
  else if cons = 9 then hostRings 3 (fun _ => true)
  else if 16 ≤ cons ∧ cons < 24 then partner 0 (fun r => ringPort r == cons - 16)
  else []

/-- R24, R306, R343: a completion entry of a service waits for room, and so the service waits: it takes nothing and begins nothing. -/
def svcWaits (s : State) (cons : Nat) : Bool := (ringsOf s cons).any fun q => postWaits s (q + 1)

/-- R305: credits of a partner's submission ring: `n` more granted, with RING_CREDIT. -/
def giveCredits (s : State) (q n : Nat) : State :=
  sendCtl (putHost s { s.host with subCredit := kset 0 s.host.subCredit q (kget 0 s.host.subCredit q + n) }) (ringPort q) 0x20
    [(1, ringK q), (4, n)]

/-- R342: an entry of a submission ring has been taken. A partner whose port is ACTIVE gets its credit back (R305). -/
def takeEntry (s : State) (q : Nat) : State :=
  let s := setCons s q (getCons s q + 1)
  if isHostRing q then notifyWord s q else if portActive s (ringPort q) then giveCredits s q 1 else s

/-- Address of the entry at the head of a submission ring. -/
def headAddr (s : State) (q : Nat) : Nat := ringBase s q + 64 * ((getCons s q).toNat % ringDepth s q)

/-- The entry at the head of a submission ring. -/
def headEntry (s : State) (q : Nat) : List Byte := memBytes s (headAddr s q) 64

/-- The completion ring that a command's origin reads (service ring k of a partner). -/
def complRing (o : Origin) (k : Nat) : Nat :=
  match o with
  | .ring r => r + 1
  | .port n => partnerRing n (k + 1)

/-- The service that a partner submission ring waits for (Table 17.11): launch for pair 2, state for pair 1. -/
def partnerSvcOpen (s : State) (q : Nat) : Bool :=
  if ringK q = 4 then svcOpen s 2 else if ringK q = 2 then svcOpen s 3 else true

/-- R305: free entries of a submission ring for which its partner holds no credit. -/
def owedCredits (s : State) (q : Nat) : Nat := ringDepth s q - (ringFill s q + kget 0 s.host.subCredit q)

/-- R305, Table 17.11: the partner of every enabled submission ring, once its service is open and its port ACTIVE, holds a credit per
free entry: the full depth at first, and what could not be returned while the port trained. A partner in reset or a ring taken
out of service starts anew. -/
def grantCredits (s : State) : State :=
  let s := putHost s { s.host with subCredit := s.host.subCredit.filter fun e => ringEnabled s e.1 && portSt s (ringPort e.1) != 0 }
  ((rangeFrom 0x1000 128).filter fun q => q % 2 == 0 && ringEnabled s q && partnerSvcOpen s q && portActive s (ringPort q) &&
      owedCredits s q != 0).foldl (fun s q => giveCredits s q (owedCredits s q)) s

/-! ### Messages to a role -/

/-- Table 12.4: a message header. -/
def msgHeader (code type status seq len retry detail : Nat) : List Byte :=
  leBytes 2 code ++ leBytes 1 type ++ leBytes 1 status ++ leBytes 4 seq ++ leBytes 4 len ++ leBytes 2 retry ++ leBytes 2 detail

/-- R353: a message posted to a role's control completion ring, a long body in the extension area. Where the area cannot hold the
body, the entry alone is posted (DESIGN CHOICE, log 30). -/
def postMsg (s : State) (role code type status seq retry detail : Nat) (body : List Byte) : State :=
  let r := 2 * role + 1
  if body.length ≤ 48 then postEntry s r (msgHeader code type status seq body.length retry detail ++ body)
  else postEntry s r (msgHeader code (type + 128) status seq body.length retry detail ++ List.replicate 48 0 ++ body)

/-- R354: the role's control pair takes messages. -/
def controlOpen (s : State) (role : Nat) : Bool := svcOpen s 1 && ringEnabled s (2 * role) && ringEnabled s (2 * role + 1)

/-- R352, R354: a notification to a role: by its control ring, else to the source of its last datagram; none while the main
domain does not run. -/
def notifyRole (s : State) (role code : Nat) (body : List Byte) : State :=
  if s.mainDom ≠ .up then s
  else
    let q := kget 0 s.host.noteSeq role
    let s1 := putHost s { s.host with noteSeq := kset 0 s.host.noteSeq role ((q + 1) % 2 ^ 32) }
    if controlOpen s role then postMsg s1 role code 2 0 q 0 0 body
    else if kget 0 s.host.lastUdp role ≠ 0 then emit s1 .event [role, code, q, kget 0 s.host.lastUdp role - 1] body
    else s

/-- R502: an EVENT to a role. -/
def eventTo (s : State) (role kind : Nat) (data : List Byte) : State :=
  notifyRole s role 0x80 (leBytes 2 kind ++ List.replicate 6 0 ++ data ++ List.replicate (40 - data.length) 0)

/-- R502: an EVENT to both roles. -/
def emitEvent (s : State) (kind : Nat) (data : List Byte) : State := eventTo (eventTo s 0 kind data) 1 kind data

/-! ### Requests (R354 to R358) -/

/-- What a service answers. -/
structure Ans where
  status : Nat
  body   : List Byte
  retry  : Nat
  detail : Nat
  deriving DecidableEq, Repr

def ansOk (body : List Byte) : Ans := ⟨0, body, 0, 0⟩
def ansStatus (st : Nat) : Ans := ⟨st, [], 0, 0⟩
def ansRefused (detail : Nat) : Ans := ⟨5, [], 0, detail⟩
def ansRetry (ms : Nat) : Ans := ⟨1, [], ms, 0⟩

/-- R331: the Ethernet port of a request. -/
def reqPort (s : State) (q : Req) : Nat := match q.via with | .udp p _ _ => p | .ring => rolePort s q.role

/-- The next free value. -/
def takeFree (s : State) : State × W64 := ({ s with free := s.free + 1 }, Config.freeValue s.free)

/-- R358: an estimate that the spec leaves to the hub: 10 to 1,000 ms in steps of 10. -/
def freeRetry (s : State) : State × Nat :=
  let (s, v) := takeFree s
  (s, 10 * (1 + v.toNat % 100))

/-- R325, R494: the stored training values hold: as the training has found, or, before it is over, wherever there are some (DESIGN
CHOICE, log 150). -/
def valuesHold (s : State) : Bool :=
  if regBits s rMemStatus 63 60 < 2 then s.trust.puf && s.memctl.savedVals != [] else regBits s rMemStatus 59 59 == 0

/-- R493: by how many milliseconds the program in use releases the main domain later than Table 17.10 has it. -/
def lateMs (s : State) : Nat := regBits s rBoot 63 48 - 115

/-- R495, Table 17.10, R494: milliseconds of the present timeline at which a service opens. -/
def svcMs (s : State) (svc : Nat) : Nat :=
  let cold := if svc = 0 then 175 else if svc = 1 ∨ svc = 6 then 720 else if svc = 5 then 950 else 900
  if s.board.cold then cold + lateMs s
  else
    let t := cold - 115
    let t := if s.board.filling ∨ svc = 0 then t else t - 300
    if valuesHold s ∧ svc ≠ 0 then t - 190 else t

/-- R495: RETRY_MS of a closed service: the time left, rounded up to 10 ms, within 10 to 1,000 ms. After NO_CONSIST the services of bits 2
to 6 open from the apply's completion on (R494). -/
def bootRetry (s : State) (svc : Nat) : Nat :=
  let left :=
    if s.board.applyMark ≠ 0 ∧ 2 ≤ svc then (if svc = 6 then 0 else if svc = 5 then 230 else 180) * 2500 - (s.drum.beats - (s.board.applyMark - 1))
    else svcMs s svc * 2500 - (s.drum.beats - s.board.refMark + (if s.board.cold then s.board.lead else 0))
  max 10 (min 1000 ((left + 24999) / 25000 * 10))

/-- CFG_CONSIST_STATE: 0 NO_CONSIST, 1 ACTIVE, 2 APPLYING, 3 FALLBACK. -/
def consistState (s : State) : Nat := regBits s rConsist 23 20

/-- A reply on the path of its request (R354, R355). -/
def reply (s : State) (q : Req) (code : Nat) (a : Ans) : State :=
  match q.via with
  | .ring => postMsg s q.role code 1 a.status q.seq a.retry a.detail a.body
  | .udp port _ src =>
    let args := [q.role, code, a.status, q.seq, a.retry, a.detail, src, port]
    let k := kget [] s.host.kept q.role
    let k := (if k.length ≥ 64 then k.drop 1 else k) ++ [⟨src, q.seq, s.drum.beats, args, a.body⟩]
    emit (putHost s { s.host with kept := kset [] s.host.kept q.role k }) .reply args a.body

/-- R354: the reply kept for a datagram, for 10 s. -/
def keptReply (s : State) (q : Req) : Option Kept :=
  match q.via with
  | .ring => none
  | .udp _ _ src => (kget [] s.host.kept q.role).find? fun k =>
      k.src == src && k.seq == q.seq && decide (s.drum.beats < k.mark + 25000000)

/-- R353: the entry at the head of the role's control ring carries this request. Of an entry whose LENGTH, EXT or offset is not as the
rule has it, the body is its last 48 bytes, and the request is malformed (R357). -/
def headIs (s : State) (q : Req) (code : Nat) (body : List Byte) : Bool :=
  let r := 2 * q.role
  let e := headEntry s r
  let ext := nbit (field e 2 1) 7
  let n := field e 8 4
  let long := ext && decide (48 < n) && decide (field e 0x10 8 + n ≤ (extArea s r).2) && field e 0x18 40 == 0
  let short := !ext && decide (n ≤ 48) && field e (0x10 + n) (48 - n) == 0
  controlOpen s q.role && decide (0 < ringFill s r) && field e 0 2 == code && field e 4 4 == q.seq &&
  (if long then memBytes s ((extArea s r).1 + field e 0x10 8) n == body
   else if !ext && decide (n ≤ 48) then (e.drop 0x10).take n == body else e.drop 0x10 == body) &&
  (q.wellFormed == (field e 2 1 % 128 == 0 && field e 3 1 == 0 && field e 0xC 4 == 0 && (long || short)))

/-- R384: the source address of a message: the datagram's, or the remote address of the role's lowest connection; 0 when it has none. -/
def viaAddr (s : State) (role : Nat) (via : Via) : Nat :=
  match via with
  | .udp _ _ src => src / 2 ^ 16
  | .ring =>
    match s.host.conns.find? fun e => e.2.role == role with
    | some e => e.2.gid.foldl (fun v b => v * 256 + b.toNat) 0
    | none => 0

/-- R384, R385: a message of the holder of the update session. -/
def markSession (s : State) (q : Req) : State :=
  match s.trust.session with
  | some x =>
    if x.role = q.role ∧ x.holder = viaAddr s q.role q.via then
      { s with trust := { s.trust with session := some { x with mark := s.drum.beats } } }
    else s
  | none => s

/-- The hub accepts a message of a role: the datagram counted, the role's silence over (R354, R367). -/
def heardFrom (s : State) (q : Req) : State :=
  let s := match q.via with
    | .ring => takeEntry s (2 * q.role)
    | .udp port _ src =>
      let s := putHost s { s.host with lastUdp := kset 0 s.host.lastUdp q.role (src + 1) }
      regAddSat s (rEthCnt port) 15 0 1
  let s := markSession s q
  if q.role = 0 then regPut s rSilence 46 46 0 else regPut s rSilence 15 15 0

/-- R378: in recovery the host port serves STATUS_GET, IDENTITY_GET and the update messages over UDP. -/
def recoveryServes (s : State) (q : Req) (code : Nat) : Bool :=
  regBits s (rCfgGuard 5) 63 60 == 5 && q.role == 0 && (match q.via with | .udp _ _ _ => true | .ring => false) &&
  (code == 1 || code == 2 || (decide (0x51 ≤ code) && decide (code ≤ 0x55)))

/-- R355: a reply is owed to a role. -/
def replyOwed (s : State) (role : Nat) : Bool := s.host.owed.any fun o => o.req.role == role

/-- R355: entries of a role's control ring that the hub can read, up to producer index `p`. -/
def unread (s : State) (role : Nat) (p : W32) : Bool :=
  controlOpen s role && !postWaits s (2 * role + 1) && p != getCons s (2 * role)

/-- R355: a datagram that comes now waits: a reply is owed to its role, another of that role waits, or the role's control ring holds
entries that came before it. -/
def roleBusy (s : State) (role : Nat) : Bool :=
  replyOwed s role || (s.host.held.any fun h => h.req.role == role) || unread s role (getProd s (2 * role))

/-- R355: the entry at the head of a role's control ring waits: a reply is owed to the role, or a datagram that came before it waits. -/
def entryHeld (s : State) (role : Nat) : Bool :=
  replyOwed s role || s.host.held.any fun h => h.req.role == role && h.prodAt == getCons s (2 * role)

/-- R331, R334, R354, R355: a message arrives: a datagram on a port of its role and VLAN, or the entry at the head of the role's control
ring. One whose reply is kept is answered by it; one whose turn has not come waits, a datagram in the hub and an entry in its ring. A
role's service takes no entry while its completion ring cannot take another (R24). `serve` is what the message does. -/
def arrive (s : State) (q : Req) (code : Nat) (body : List Byte) (serve : State → State) : State :=
  if s.mainDom ≠ .up ∨ 2 ≤ q.role then s
  else match q.via with
    | .ring => if headIs s q code body && !entryHeld s q.role && !postWaits s (2 * q.role + 1) then serve s else s
    | .udp port vlan _ =>
      if svcOpen s 0 = false ∨ portRole s port ≠ q.role then s
      else if !vlanOk s port vlan then dropFrame s port
      else match keptReply s q with
        | some k => emit s .reply k.args k.body
        | none => if roleBusy s q.role then putHost s { s.host with held := s.host.held ++ [⟨q, code, body, getProd s (2 * q.role)⟩] } else serve s

/-- R354 to R358, R368: what a Carriage request does. `allowed` says that Table 12.5 lets the role send it, `lenOk` that the body is
well formed, `boot` the service that it waits for, `bare` that it is answered in state NO_CONSIST (R28). `act` gives the
answer, or none when the reply follows later. The order of the checks is DEDUCED (log 31). -/
def request (s : State) (q : Req) (body : List Byte) (code : Nat) (allowed lenOk : Bool) (boot : Option Nat) (bare : Bool)
    (act : State → State × Option Ans) : State :=
  match keptReply s q with
    | some k => emit s .reply k.args k.body
    | none =>
      if guardHeld s q.role then reply (heardFrom s q) q code (ansRetry 1000)
      else if guardHeld s 5 && ((decide (0x40 ≤ code) && decide (code ≤ 0x42)) || (decide (0x50 ≤ code) && decide (code ≤ 0x55)) ||
          code == 0x60) then reply (heardFrom s q) q code (ansRetry 1000)
      else if !guardRuns s q.role && !recoveryServes s q code then s
      else
        let s := heardFrom s q
        let long := match q.via with | .udp _ _ _ => decide (1408 < body.length) | .ring => false
        if !allowed then reply s q code (ansStatus 7)
        else if !q.wellFormed || !lenOk || long then reply s q code (ansStatus 6)
        else if !bare && consistState s == 0 then
          let (s, ms) := freeRetry s
          reply s q code (ansRetry ms)
        else match boot with
          | some i =>
            if svcOpen s i then
              match act s with
              | (s, some a) => reply s q code a
              | (s, none) => putHost s { s.host with owed := s.host.owed ++ [⟨q, code⟩] }
            else reply s q code (ansRetry (bootRetry s i))
          | none =>
            match act s with
            | (s, some a) => reply s q code a
            | (s, none) => putHost s { s.host with owed := s.host.owed ++ [⟨q, code⟩] }

/-- A reply that a request was owed: the first of its code (and role, where one is given). -/
def answerOwed (s : State) (code : Nat) (role : Option Nat) (a : Ans) : State :=
  let is := fun (o : Owed) => o.code == code && (match role with | some r => o.req.role == r | none => true)
  match s.host.owed.find? is with
  | some o => reply (putHost s { s.host with owed := s.host.owed.erase o }) o.req code a
  | none => s

/-- R368: every request of a role that is not answered is answered ABORTED_RESUBMIT. -/
def abortOwed (s : State) (role : Nat) : State :=
  let mine := s.host.owed.filter fun o => o.req.role == role
  let s := putHost s { s.host with owed := s.host.owed.filter fun o => o.req.role != role }
  mine.foldl (fun s o => reply s o.req o.code (ansStatus 0xB)) s

/-- Table 12.5: the codes that a role may send. -/
def sentCodes : List Nat :=
  [1, 2, 3, 4, 0x10, 0x11, 0x12, 0x13, 0x14, 0x15, 0x20, 0x21, 0x30, 0x31, 0x32, 0x33, 0x40, 0x41, 0x42] ++
  [0x50, 0x51, 0x52, 0x53, 0x54, 0x55, 0x60, 0x70, 0x71, 0x72]

/-- R357: a CODE that Table 12.5 does not have, or, DENIED, one that only the hub sends. -/
def msgUnknown (q : Req) (code : Nat) (body : List Byte) (s : State) : State :=
  request s q body code (code != 0x80 && code != 0x81) true none true fun s => (s, some (ansStatus 0xD))

/-- UNKNOWN_CODE (R357): a request whose CODE no role may send. -/
def execUnknownCode (q : Req) (code : Nat) (body : List Byte) (s : State) : Host.Outcome State Fault Refusal :=
  .next (if sentCodes.contains code then s else arrive s q code body (msgUnknown q code body))

end Sys2Proof.Machine
end

