-- ==== Sys2Proof/Machine/Report.lean ====
section
/-! DEFINITION. How a kernel's completion reaches its launch source (R88, R212). -/

namespace Sys2Proof.Machine

/-- R88: the completion record goes to the completion ring beside the submission ring that the block came from, or tells the
state service that its step's kernel is over. A seat's launch is reported by the record in memory alone. -/
def reportKernel (s : State) (src : LaunchSrc) (status : Nat) (result : List Byte) : State :=
  match src with
  | .ring r _ => postEntry s (r + 1) result
  | .partnerRing n k _ => postEntry s (partnerRing n (k + 1)) result
  | .seat _ => s
  | .firmware => s
  | .service t =>
    match s.tables.table.find? fun e => e.1 == t with
    | some (_, tb) =>
      match tb.run with
      | some r => { s with tables := { s.tables with table := kput s.tables.table t { tb with run := some { r with kernel := some status } } } }
      | none => s
    | none => s

end Sys2Proof.Machine
end

