-- ==== Sys2Proof/Machine/Launch.lean ====
section
/-! DEFINITION. Launching, timing out and completing kernels (R83 to R90, R264 to R267, Tables 3.8 to 3.10). -/

namespace Sys2Proof.Machine

/-- Table 3.10: the completion record. -/
def completionRecord (k : Kernel) (status : Nat) (endBeat : W64) : List Byte :=
  leBytes 1 status ++ leBytes 1 k.cause ++ leBytes 2 k.seat ++ leBytes 2 (min 0xFFFF k.faulted.length) ++ leBytes 2 0 ++
  leBytes 8 k.startBeat.toNat ++ leBytes 8 endBeat.toNat ++ leBytes 4 k.pc ++ leBytes 4 0

/-- Table 3.8: COMPLETION_ADDR is zero, or lies where the train may write a record. -/
def complOk (s : State) (t : Nat) (l : Launch) : Bool :=
  lbCompl l == 0 || (lbCompl l % 32 == 0 && decide (lbCompl l + 32 ≤ memTop s) &&
    mayAccessRange s (.train t) (trainSecure s t) (lbCompl l) 32 true)

/-- R88: the record written and the completion reported to the launch source. A block whose COMPLETION_ADDR fails its check leaves no
record in memory (DEDUCED). -/
def completeLaunch (s : State) (t : Nat) (k : Kernel) (status : Nat) : State :=
  let r := completionRecord k status s.drum.count
  let s := if lbCompl k.launch = 0 ∨ complOk s t k.launch = false ∨ k.launch.src = .firmware then s else storeBytes s (lbCompl k.launch) r false
  reportKernel s k.launch.src status r

/-- A kernel that has not started. -/
def newKernel (l : Launch) (cs : List Nat) : Kernel :=
  { launch := l, coaches := cs, phase := .loading, startAt := 0, startBeat := 0, status := 0, cause := 0, seat := 0xFFFF,
    faulted := [], image := [], pc := 0, est := 0, late := 0 }

/-- Table 3.8: the code image of `n` 4 KiB pages at `a` is readable by the train. -/
def codeReadable (s : State) (t a n : Nat) : Bool :=
  decide (a + 4096 * n ≤ memTop s) && mayAccessRange s (.train t) (trainSecure s t) a (4096 * n) false

/-- R84, Table 3.8: whether a launch block passes the checks for its train. A COACH_COUNT above the train's in-service coaches fails
(DESIGN CHOICE, log 127). -/
def launchOk (s : State) (t : Nat) (l : Launch) : Bool :=
  lbCodeAddr l % 4096 == 0 && decide (1 ≤ lbCodeSize l) && decide (lbCodeSize l ≤ 16) &&
  codeReadable s t (lbCodeAddr l) (lbCodeSize l) &&
  decide (1 ≤ lbSeats l) && decide (lbSeats l ≤ 16) && decide (lbFlags l < 2) && decide (lbTag l < 16) && lbReserved l == 0 &&
  decide (lbCoachCount l ≤ (trainCoaches s t).length) && complOk s t l

/-- The coaches that run a launch block (COACH_COUNT; 0 means all). -/
def launchCoaches (s : State) (t : Nat) (l : Launch) : List Nat :=
  let cs := trainCoaches s t
  if lbCoachCount l = 0 then cs else cs.take (lbCoachCount l)

/-- R212: a block that the state service launches for a user STEP. -/
def Launch.ofStep (l : Launch) : Bool := match l.src with | .service _ => true | _ => false

/-- R83: the block that a train takes next, and the queue without it: its head; beside the persistent service kernel, which runs for the
whole job, only an optimizer kernel of R212 (DEDUCED, log 102). -/
def nextBlock (u : TrainUnit) : Option (Launch × List Launch) :=
  match u.service with
  | none => match u.queue with | [] => none | l :: rest => some (l, rest)
  | some _ => (u.queue.find? fun l => l.ofStep).map fun l => (l, u.queue.eraseP fun x => x.ofStep)

/-- LAUNCH_BLOCK_START (R83, R84, R87, R90, R343): the next block of a launch queue is checked once no kernel runs on the train, no job is
ending and no completion entry waits for room; a bad block completes BAD_LAUNCH, a good one starts loading: its code image is read, step 1
of Table 3.9. A block of the service firmware starts the train's persistent kernel (DESIGN CHOICE, log 102). -/
def execLaunchBlockStart (train : Nat) (s : State) : Host.Outcome State Fault Refusal :=
  let u := getTrain s train
  match u.kernel, nextBlock u with
  | none, some (l, rest) =>
    if s.host.ending.isSome ∨ svcWaits s train then .next s
    else
    let s := putTrain s train { u with queue := rest }
    if l.src = .firmware then
      .next (putTrain s train { getTrain s train with service := some l, launches := (getTrain s train).launches + 1 })
    else if launchOk s train l then
      let k := { newKernel l (launchCoaches s train l) with image := memBytes s (lbCodeAddr l) (4096 * lbCodeSize l) }
      let s := putTrain s train { getTrain s train with kernel := some k }
      .next (k.coaches.foldl (fun s c => setCond s c .loading) s)
    else .next (completeLaunch s train (newKernel l []) 5)
  | _, _ => .next s

/-- R86: the registers of a seat at the start of a kernel; S5, the start beat, is written when it starts. -/
def kernelSeat (t n idx count : Nat) (l : Launch) : Seat :=
  let s0 := Seat.init
  let s1 := sset s0 0 (BitVec.ofNat 64 n) false
  let s2 := sset s1 1 (BitVec.ofNat 64 idx) false
  let s3 := sset s2 2 (BitVec.ofNat 64 t) false
  let s4 := sset s3 3 (BitVec.ofNat 64 (lbArg l)) false
  let s5 := sset s4 4 (BitVec.ofNat 64 (lbTag l)) false
  let s6 := sset s5 6 (BitVec.ofNat 64 count) false
  (rangeFrom 0 8).foldl (fun u m => mset u m (BitVec.allOnes 64)) s6

/-- R87: the code image of a kernel, as read at step 1, with zeros to the end of the code area. -/
def codeImage (k : Kernel) : List Byte := k.image ++ List.replicate (codeBytes k - k.image.length) 0

/-- R87, step 2 of Table 3.9: the code image put into a rake's yard. The spec gives no place for it there: a free one, 64-byte aligned, with
room for the largest image (log 103). -/
def stageCode (s : State) (rake : Nat) (k : Kernel) : State :=
  storeBytes s (yardAddr rake (64 * (Config.codePlace rake % 0x1FC01))) (codeImage k) false

/-- The rakes that hold a coach of a kernel. -/
def kernelRakes (k : Kernel) : List Nat := dedup (k.coaches.map fun c => c / 32)

/-- R85, R87: the code image copied into the top of a coach's memory. The poison of its blocks is left out of the model (DESIGN CHOICE,
log 103). -/
def loadCode (s : State) (c : Nat) (k : Kernel) : State :=
  storeBytes s (coachMemAddr c (0x80000 - codeBytes k)) (codeImage k) false

/-- R86: a kernel coach before its kernel: completion counts and X registers cleared, every seat's registers set. -/
def setUpCoach (s : State) (t : Nat) (k : Kernel) (idx c : Nat) : State :=
  let s := loadCode s c k
  let co := getCoach s c
  let s := putCoach s c { co with dc0 := 0, dc1 := 0, xowner := [], xlane := [], xwait := [] }
  (rangeFrom 0 16).foldl (fun s i =>
    putSeat s (16 * c + i) (if i < lbSeats k.launch then kernelSeat t (16 * c + i) idx k.coaches.length k.launch else Seat.init)) s

/-- R86, R87: the seats of a kernel become ready at the present beat; a late start is counted (R264, R266). -/
def startKernel (s : State) (t : Nat) (k : Kernel) : State :=
  let b := s.drum.count
  let s := k.coaches.foldl (fun s c => setCond s c .running) s
  let s := (kernelSeats k).foldl (fun s n => putSeat s n { sset (getSeat s n) 5 b false with st := .ready }) s
  let s := if k.late = 0 then s else
    let s := regAddSat s rDrumLate 63 48 1
    if regBits s rDrumLate 31 0 < k.late then regPut s rDrumLate 31 0 (min k.late 0xFFFFFFFF) else s
  putTrain s t { getTrain s t with kernel := some { k with phase := .running, startBeat := b }, launches := (getTrain s t).launches + 1 }

/-- R264, Table 9.4: what happens to a work item with launch beat `l` that is ready at beat `b`. -/
inductive BeatRule where
  | at (b : W64) (late : Nat)
  | refuse
  deriving DecidableEq, Repr

/-- R264. -/
def beatRule (l b tol : Nat) : BeatRule :=
  if b < l then .at (BitVec.ofNat 64 l) 0
  else if b + 1 - l ≤ tol then .at (BitVec.ofNat 64 (b + 1)) (b + 1 - l)
  else .refuse

/-- R88: a kernel is over: its coaches are idle, or stopped after an exception, and its seats halted. -/
def endKernel (s : State) (t : Nat) (k : Kernel) : State :=
  let s := k.coaches.foldl (fun s c =>
    setCond s c (if condOf s c = .stopped then .stopped else .idle)) s
  putTrain s t { getTrain s t with kernel := none }

/-- R267: a train takes its place among those with a ready launch: by the beat at which it became ready, then by number. -/
def insReady (s : State) (train : Nat) (b : W64) : List Nat → List Nat
  | [] => [train]
  | t :: l =>
    let later := match (getTrain s t).kernel with
      | some k => (match k.phase with | .waiting x => decide (b.toNat < x.toNat) || (x == b && decide (train < t)) | _ => false)
      | none => false
    if later then train :: t :: l else t :: insReady s train b l

/-- KERNEL_CODE_LOADED (R86, R87, R264, R267): steps 2 and 3 of Table 3.9. -/
def execKernelCodeLoaded (train : Nat) (s : State) : Host.Outcome State Fault Refusal :=
  match (getTrain s train).kernel with
  | none => .next s
  | some k =>
    if k.phase ≠ .loading ∨ s.host.ending.isSome then .next s
    else
      let s := (kernelRakes k).foldl (fun s r => stageCode s r k) s
      let s := ((rangeFrom 0 k.coaches.length).zip k.coaches).foldl (fun s p => setUpCoach s train k p.1 p.2) s
      let b := s.drum.count
      if s.consist.cfg.drum.g4cMode then
        let k := { k with phase := .waiting b, est := regBits s (rG4cEst (lbTag k.launch)) 31 0 }
        let s := putKernel s train k
        .next { s with coaches := { s.coaches with g4cQueue := insReady s train b s.coaches.g4cQueue } }
      else if lbFlags k.launch % 2 = 0 then .next (startKernel s train k)
      else
        match beatRule (lbBeat k.launch) b.toNat s.consist.cfg.drum.lateTol with
        | .at x late => .next (putKernel s train { k with phase := .waiting b, startAt := x, late := late })
        | .refuse =>
          let s := regAddSat s rDrumLate 47 32 1
          .next (endKernel (completeLaunch s train k 4) train k)

/-- Whether every transaction of a kernel has been performed and every descriptor of its seats has completed (R88). -/
def kernelQuiet (s : State) (k : Kernel) : Bool :=
  k.coaches.all fun c =>
    let t := getCoach s c
    t.acc == [] && t.q0 == [] && t.q1 == [] && decide (t.cond ≠ .drained) && s.coaches.pushes.all fun p => decide (p.seat / 16 ≠ c)

/-- Whether every seat of a kernel has halted. -/
def kernelHalted (s : State) (k : Kernel) : Bool := (kernelSeats k).all fun n => decide ((getSeat s n).st = .halted)

/-- KERNEL_COMPLETE (R88, R89): the completion record is written and reported once nothing of the kernel is left. -/
def execKernelComplete (train : Nat) (s : State) : Host.Outcome State Fault Refusal :=
  match (getTrain s train).kernel with
  | none => .next s
  | some k =>
    if (k.phase = .running ∧ kernelHalted s k = true ∨ k.phase = .stopping) ∧ kernelQuiet s k = true then
      let s := stopKernel s k
      .next (endKernel (completeLaunch s train k k.status) train k)
    else .next s

/-- KERNEL_TIMEOUT (R89): TIMEOUT beats after the start the kernel is stopped. -/
def execKernelTimeout (train : Nat) (s : State) : Host.Outcome State Fault Refusal :=
  match (getTrain s train).kernel with
  | none => .next s
  | some k =>
    if k.phase = .running ∧ lbTimeout k.launch ≠ 0 ∧ k.startBeat.toNat + lbTimeout k.launch ≤ s.drum.count.toNat then
      let k := { k with phase := .stopping, status := 2 }
      .next (stopKernel (putKernel s train k) k)
    else .next s

/-- R90: at the end of a job every kernel completes ABORTED, every queued block completes ABORTED without running, and the
transactions not performed are discarded. -/
def abortTrain (s : State) (t : Nat) : State :=
  let u := getTrain s t
  let s := match u.kernel with
    | some k =>
      let s := stopKernel s k
      let s := k.coaches.foldl (fun s c => putCoach s c { getCoach s c with acc := [], q0 := [], q1 := [] }) s
      let k := { k with startBeat := if k.phase = .loading then 0 else k.startBeat }
      endKernel (completeLaunch s t k 3) t k
    | none => s
  let s := u.queue.foldl (fun s l => completeLaunch s t (newKernel l []) 3) s
  putTrain s t { getTrain s t with queue := [], service := none }

/-- R90 over every train; no launch waits on the bucket any longer. -/
def abortAllKernels (s : State) : State :=
  let s := (rangeFrom 0 8).foldl abortTrain s
  { s with coaches := { s.coaches with g4cQueue := [], pushes := [] } }

/-- A kernel that is ready and has not started. -/
def isWaiting (p : KPhase) : Bool := match p with | .waiting _ => true | _ => false

/-- R264, R265: kernels whose start beat has come start, unless a cut holds them (R236). -/
def startDueKernels (s : State) (held : Bool) : State :=
  (rangeFrom 0 8).foldl (fun s t =>
    match (getTrain s t).kernel with
    | some k =>
      match k.phase with
      | .waiting _ => if !s.consist.cfg.drum.g4cMode && !held && k.startAt.ule s.drum.count then startKernel s t k else s
      | _ => s
    | none => s) s

/-- R267, R268: one pass over the launches ready on the bucket, in the order in which they became ready: the first that the
bucket does not cover stops the rest. A bucket that is `kept` full is not debited. `fuel` counts the trains. -/
def serveG4c (kept : Bool) : Nat → State → State
  | 0, s => s
  | fuel + 1, s =>
    match s.coaches.g4cQueue with
    | [] => s
    | t :: rest =>
      let next := { s with coaches := { s.coaches with g4cQueue := rest } }
      match (getTrain s t).kernel with
      | some k =>
        if isWaiting k.phase then
          let bucket := regBits s rG4c 63 32
          let cap := s.consist.cfg.drum.bucketMj
          if k.est ≤ bucket ∨ (cap < k.est ∧ bucket = cap) then
            serveG4c kept fuel (startKernel (if kept then next else regPut next rG4c 63 32 (bucket - min k.est bucket)) t k)
          else s
        else serveG4c kept fuel next
      | none => serveG4c kept fuel next

end Sys2Proof.Machine
end

