-- ==== Sys2Proof/Machine/StepCore.lean ====
section
/-! DEFINITION. Chapter 07: state tables, their areas, and the element programs of the optimizer step
(R196 to R216, Tables 7.1, 7.2, 7.7). -/

namespace Sys2Proof.Machine

/-! ### Tables -/

def getTable (s : State) (t : Nat) : Table := kget Table.init s.tables.table t

/-- Commands that wait in a table's queue: those at work are not among them (R201, R217). -/
def waiting (x : Table) : Nat := (x.queue.filter fun c => c.start.isNone).length

/-- COACH_STBL of a table: LAST_STEP, STATE (3 INTERRUPTED, 2 BUSY, 1 READY), TRAIN, KIND, QUEUED, SHARDED. -/
def stblOf (x : Table) : W64 :=
  match x.st with
  | .free => BitVec.ofNat 64 (0xF * 2 ^ 32)
  | st =>
    let code := if st = .interrupted then 3 else if x.run.isSome || x.applying.isSome then 2 else 1
    BitVec.ofNat 64 (x.last * 2 ^ 40 + code * 2 ^ 36 + field x.raw 3 1 % 16 * 2 ^ 32 + field x.raw 0 1 * 2 ^ 24 +
      min 0xFF (waiting x) * 2 ^ 16 + field x.raw 2 1 / 4 % 2 * 2 ^ 15)

def putTable (s : State) (t : Nat) (x : Table) : State :=
  let s := { s with tables := { s.tables with table := kset Table.init s.tables.table t x } }
  regSet s (rStbl t) (stblOf x)

def tbKind (x : Table) : Nat := field x.raw 0 1
def tbOut (x : Table) : Fmt := match field x.raw 1 1 with | 0 => .fp32 | 1 => .bf16 | _ => .fp16
def tbSr (x : Table) : Bool := nbit (field x.raw 2 1) 0
def tbNesterov (x : Table) : Bool := nbit (field x.raw 2 1) 1
def tbSharded (x : Table) : Bool := nbit (field x.raw 2 1) 2
def tbTrain (x : Table) : Nat := field x.raw 3 1
def tbBase (x : Table) : Nat := field x.raw 8 8
def tbCount (x : Table) : Nat := field x.raw 0x10 8
def tbDim (x : Table) : Nat := field x.raw 0x18 4
def tbStride (x : Table) : Nat := field x.raw 0x1C 4
def tbBeta1 (x : Table) : Nat := field x.raw 0x20 4
def tbOmb1 (x : Table) : Nat := field x.raw 0x24 4
def tbBeta2 (x : Table) : Nat := field x.raw 0x28 4
def tbOmb2 (x : Table) : Nat := field x.raw 0x2C 4
def tbEps (x : Table) : Nat := field x.raw 0x30 4
def tbWd (x : Table) : Nat := field x.raw 0x34 4
def tbAux (x : Table) : Nat := field x.raw 0x38 8
def tbList (x : Table) : Nat := field x.raw 0x40 8
def tbListN (x : Table) : Nat := field x.raw 0x48 4
def tbDense (x : Table) : Bool := decide (tbKind x < 0x20)

/-- Bytes of one element in a format. -/
def fmtBytes (f : Fmt) : Nat := fmtWidth f / 8

/-- Segment `i` of `n` elements over `h` hubs, from element `first`: start and length (R187). -/
def segment (first n h i : Nat) : Nat × Nat :=
  let z := (n + h - 1) / h
  (first + min (i * z) n, min ((i + 1) * z) n - min (i * z) n)

/-- R214: the segments of this hub: of the first half and of the second. -/
def ownSegments (s : State) (p : Nat) : (Nat × Nat) × (Nat × Nat) :=
  let t := s.consist.cfg.topology
  let h1 := (p + 1) / 2
  (segment 0 h1 t.hubCount t.hubIndex, segment h1 (p - h1) t.hubCount t.hubIndex)

/-- R198, R214: parameters whose state this hub holds. -/
def localCount (s : State) (x : Table) : Nat :=
  if tbSharded x then
    let g := ownSegments s (tbCount x)
    g.1.2 + g.2.2
  else tbCount x

/-- R214: the global index of a local parameter. -/
def globalIdx (s : State) (x : Table) (l : Nat) : Nat :=
  if tbSharded x then
    let g := ownSegments s (tbCount x)
    if l < g.1.2 then g.1.1 + l else g.2.1 + (l - g.1.2)
  else l

/-- R214: the local index of a global parameter, where this hub holds it. -/
def localIdx (s : State) (x : Table) (i : Nat) : Option Nat :=
  if tbSharded x then
    let g := ownSegments s (tbCount x)
    if g.1.1 ≤ i ∧ i < g.1.1 + g.1.2 then some (i - g.1.1)
    else if g.2.1 ≤ i ∧ i < g.2.1 + g.2.2 then some (g.1.2 + (i - g.2.1))
    else none
  else some i

/-- Table 7.2: bytes of state per parameter. -/
def stateBytes (x : Table) : Nat :=
  if tbKind x = 1 ∨ tbKind x = 4 then 12 else if tbKind x = 0xF then tbStride x else 8

/-- Table 7.2: address of word `k` (0 W, 1 A, 2 B) of a local parameter. -/
def wordAddr (x : Table) (l k : Nat) : Nat := tbBase x + 64 * stateBytes x * (l / 64) + 256 * k + 4 * (l % 64)

/-- Table 7.2: entry `i` of an Adafactor shape list: FIRST, ROWS, COLS. -/
def shapeEntry (s : State) (x : Table) (i : Nat) : Nat × Nat × Nat :=
  let a := tbList x + 16 * i
  (memVal s a 8, memVal s (a + 8) 4, memVal s (a + 12) 4)

/-- Factors of the entries before entry `i`. -/
def factorsBefore (s : State) (x : Table) (i : Nat) : Nat :=
  lsum ((rangeFrom 0 i).map fun k => let e := shapeEntry s x k; e.2.1 + e.2.2)

/-- R196, R204, Table 7.2: the areas of a table, as (address, bytes): state or rows, auxiliary, accumulation. A shape list is none of
them. -/
def tableAreas (s : State) (x : Table) : List (Nat × Nat) :=
  if tbDense x then
    let pl := (localCount s x + 63) / 64 * 64
    [(tbBase x, stateBytes x * pl)] ++
    (if tbKind x = 4 then [(tbAux x, 4 * factorsBefore s x (tbListN x))] else [])
  else
    let w := fmtBytes (tbOut x)
    [(tbBase x, tbCount x * tbDim x * w)] ++ (if tbKind x = 0x21 then [(tbAux x, 4 * tbCount x)] else []) ++
    [(tbList x, 2 ^ tbListN x * (8 + 64 * tbDim x))]

/-- R204: whether a range meets an area of a defined table. -/
def meetsTable (s : State) (a n : Nat) : Bool :=
  s.tables.table.any fun e => e.2.st != .free && (tableAreas s e.2).any fun r => rangesMeet r.1 r.2 a n

/-! ### FP32 arithmetic (R207): each operation rounds once to nearest even -/

def f32 (b : Nat) : Num := numDecode .fp32 b
def fRound (v : Num) : Nat := roundArith .fp32 .rne false 0 v
def fMul (a b : Nat) : Nat := fRound (numMul (f32 a) (f32 b))
def fAdd (a b : Nat) : Nat := fRound (numAdd (f32 a) (f32 b))
/-- `c + a × b`, fused. -/
def fFma (a b c : Nat) : Nat := fRound (numAdd (f32 c) (numMul (f32 a) (f32 b)))
/-- `c − a × b`, fused. -/
def fNfma (a b c : Nat) : Nat := fRound (numAdd (f32 c) (numNeg (numMul (f32 a) (f32 b))))
def fDiv (a b : Nat) : Nat := divRound .fp32 .rne false 0 (f32 a) (f32 b)
def fSqrt (a : Nat) : Nat := sqrtRound .fp32 .rne false 0 (f32 a)

/-- Infinite or NaN. -/
def fSpecial (a : Nat) : Bool := match f32 a with | .fin _ _ _ => false | _ => true

/-- The exact units of 2^-149 of a value, none when it is infinite, NaN or 2^138 and more (R157). -/
def fUnits (a : Nat) : Option Int :=
  match f32 a with
  | .fin n m e => let u := accUnits n m e; if u.natAbs ≥ accLimit.natAbs then none else some u
  | _ => none

/-- An exact sum rounded once to FP32; an overflowed sum reads as canonical NaN. -/
def sumRound (u : Int) (bad : Bool) : Nat :=
  if bad then fmtNaN .fp32 else roundFin .fp32 .rne false 0 (decide (u < 0)) u.natAbs (-149) false

/-! ### Command fields (Table 7.3) -/

def cmId (r : List Byte) : Nat := field r 0 4
def cmCmd (r : List Byte) : Nat := field r 4 1
def cmTable (r : List Byte) : Nat := field r 5 1
def cmFlags (r : List Byte) : Nat := field r 6 1
def cmGmode (r : List Byte) : Nat := cmFlags r % 4
def cmLinkOut (r : List Byte) : Bool := nbit (cmFlags r) 2
def cmSkip (r : List Byte) : Bool := nbit (cmFlags r) 3
def cmStep (r : List Byte) : Nat := field r 8 8
def cmGrad (r : List Byte) : Nat := field r 0x10 4
def cmOut (r : List Byte) : Nat := field r 0x14 4
def cmLr (r : List Byte) : Nat := field r 0x18 4
def cmClip (r : List Byte) : Nat := field r 0x1C 4
def cmC1 (r : List Byte) : Nat := field r 0x20 4
def cmC2 (r : List Byte) : Nat := field r 0x24 4
def cmSrc (r : List Byte) : Nat := field r 0x28 8
def cmDst (r : List Byte) : Nat := field r 0x30 8

/-! ### Element programs (Table 7.7, R208) -/

/-- AdamW: (w, m, v) after one element. -/
def adamw (x : Table) (c : List Byte) (g w m v : Nat) : Nat × Nat × Nat :=
  let m := fMul (tbBeta1 x) m
  let m := fFma (tbOmb1 x) g m
  let q := fMul g g
  let v := fMul (tbBeta2 x) v
  let v := fFma (tbOmb2 x) q v
  let mh := fMul m (cmC1 c)
  let vh := fMul v (cmC2 c)
  let d := fAdd (fSqrt vh) (tbEps x)
  let u := fDiv mh d
  let u := fFma (tbWd x) w u
  (fNfma (cmLr c) u w, m, v)

/-- Lion: (w, m). -/
def lion (x : Table) (c : List Byte) (g w m : Nat) : Nat × Nat :=
  let k := fMul (tbBeta1 x) m
  let k := fFma (tbOmb1 x) g k
  let u := match f32 k with
    | .nan => fmtNaN .fp32
    | .inf n => if n then 0xBF800000 else 0x3F800000
    | .fin n a _ => if a = 0 then 0 else if n then 0xBF800000 else 0x3F800000
  let u := fFma (tbWd x) w u
  let w := fNfma (cmLr c) u w
  let m := fMul (tbBeta2 x) m
  (w, fFma (tbOmb2 x) g m)

/-- SGD with momentum: (w, m). -/
def sgd (x : Table) (c : List Byte) (g w m : Nat) : Nat × Nat :=
  let m := fAdd (fMul (tbBeta1 x) m) g
  let d := if tbNesterov x then fFma (tbBeta1 x) m g else m
  let d := fFma (tbWd x) w d
  (fNfma (cmLr c) d w, m)

/-- R208, pass 2: (w, m) from g, the factors and SR. -/
def adafactor (x : Table) (c : List Byte) (g w m r k sr : Nat) : Nat × Nat :=
  let v := fDiv (fMul r k) sr
  let u := fDiv g (fSqrt v)
  let m := fFma (tbOmb1 x) u (fMul (tbBeta1 x) m)
  let d := fFma (tbWd x) w m
  (fNfma (cmLr c) d w, m)

/-- R208: the shape entry and the positions of the row and column factors of parameter `i`: base, row, column, rows. -/
def factorOf (s : State) (x : Table) (i : Nat) : Nat × Nat × Nat × Nat :=
  match (rangeFrom 0 (tbListN x)).find? fun k =>
      let e := shapeEntry s x k
      decide (e.1 ≤ i) && decide (i < e.1 + e.2.1 * e.2.2) with
  | some k =>
    let e := shapeEntry s x k
    let b := factorsBefore s x k
    (b, b + (i - e.1) / max 1 e.2.2, b + e.2.1 + (i - e.1) % max 1 e.2.2, e.2.1)
  | none => (0, 0, 0, 0)

/-- R156, R157, R208: the run with a term added to the accumulator record of one factor's sum. An OVF that it sets raises XACC_OVERFLOW
(R158) with ADDRESS 0 (DESIGN CHOICE, log 126). -/
def addSum (s : State) (x : Table) (r : StepRun) (k : Nat) (q : Nat) : State × StepRun :=
  let old := kget XLane.zero r.rowSum k
  let new := old.addVal (addValOf (f32 q) false)
  (if new.ovf && !old.ovf then raise s (srcTrain (tbTrain x)) 0x06 1 0 else s, { r with rowSum := kput r.rowSum k new })

/-- R223: a poisoned state word, row, record or gradient block met by the state train. -/
def statePoison (s : State) (x : Table) (a : Nat) : State := raise s (srcTrain (tbTrain x)) 0x0C 2 a

/-! ### User programs (R212, Table 7.8) -/

/-- Elements of a user chunk but the last (DESIGN CHOICE, log 47). -/
def userChunk : Nat := 1024

/-- Log 47: the seat's yard addresses of chunk `j`'s gradient; its weights lie 4 KiB above. -/
def userBuf (j : Nat) : Nat := 0xFD0001000000 + 0x400000 + j % 512 * 0x2000

/-- Whether a step of a user table puts weights out. -/
def userOut (c : List Byte) : Bool := cmLinkOut c || cmDst c != 0

/-- Table 7.8: the block of chunk `j`. -/
def userBlock (x : Table) (c : List Byte) (j : Nat) : List Byte :=
  leBytes 8 (userChunk * j) ++ leBytes 4 (min userChunk (tbCount x - userChunk * j)) ++ leBytes 4 (cmFlags c) ++
  leBytes 8 (if cmGmode c = 2 then 0 else userBuf j) ++ leBytes 8 (wordAddr x (userChunk * j) 0) ++
  leBytes 8 (if userOut c then userBuf j + 0x1000 else 0) ++ leBytes 4 (cmStep c % 2 ^ 32) ++ leBytes 4 (cmLr c) ++
  leBytes 4 (cmClip c) ++ leBytes 4 (cmC1 c) ++ leBytes 4 (cmC2 c) ++ leBytes 4 0

/-- R212: after the last chunk, one block with N zero for each running seat. -/
def userEnds (s : State) (x : Table) (c : List Byte) : List (List Byte) :=
  List.replicate ((trainCoaches s (tbTrain x)).length * field x.raw 0x59 1)
    (leBytes 8 0 ++ leBytes 4 0 ++ leBytes 4 (cmFlags c) ++ List.replicate 48 0)

def getChunks (s : State) (t : Nat) : List (List Byte) := kget [] s.tables.chunks t
def putChunks (s : State) (t : Nat) (l : List (List Byte)) : State :=
  { s with tables := { s.tables with chunks := kset [] s.tables.chunks t l } }

/-- R205, R212: the gradient of the next parameter of a linked user step joins its chunk. -/
def userElement (s : State) (x : Table) (r : StepRun) (g0 : Nat) : State × StepRun :=
  let c := r.cmd.raw
  let t := cmTable c
  let l := getChunks s t
  let l := if r.done % userChunk = 0 then l ++ [userBlock x c (r.done / userChunk) ++ leBytes 4 g0]
           else lset l (l.length - 1) (lget [] l (l.length - 1) ++ leBytes 4 g0)
  let l := if r.done + 1 = tbCount x then l ++ userEnds s x c else l
  (putChunks s t l, { r with done := r.done + 1 })

/-- R212: the next chunk of a buffered or emit-only user step, with its gradient read from GRAD_ADDR. -/
def userProduce (s : State) (x : Table) (r : StepRun) : State × StepRun :=
  let c := r.cmd.raw
  if r.done ≥ tbCount x ∨ cmGmode c = 0 then (s, r)
  else
    let n := min userChunk (tbCount x - r.done)
    let a := cmSrc c + 4 * r.done
    let s := if cmGmode c = 1 then
        ((blocksOf a (4 * n)).filter fun b => blockPoisoned s b).foldl (fun s b => statePoison s x (64 * b)) s
      else s
    let g := if cmGmode c = 1 then memBytes s a (4 * n) else []
    let l := getChunks s (cmTable c) ++ [userBlock x c (r.done / userChunk) ++ g]
    let l := if r.done + n = tbCount x then l ++ userEnds s x c else l
    (putChunks s (cmTable c) l, { r with done := r.done + n })

/-- R207 to R211: the gradient `g0` of local parameter `l` is run. Each poisoned state word raises STATE_POISON, and the element stays as
it is (log 42). -/
def stepElement (s : State) (x : Table) (r : StepRun) (l g0 : Nat) : State × StepRun :=
  let c := r.cmd.raw
  let n := if tbKind x = 1 ∨ tbKind x = 4 then 3 else 2
  if tbKind x = 0xF then userElement s x r g0 else
  match (rangeFrom 0 n).filter fun k => blockPoisoned s (wordAddr x l k / 64) with
  | b :: bs => ((b :: bs).foldl (fun s k => statePoison s x (wordAddr x l k)) s, { r with done := r.done + 1 })
  | [] =>
    let word := fun (k : Nat) => memVal s (wordAddr x l k) 4
    let put := fun (s : State) (k v : Nat) => storeBytes s (wordAddr x l k) (leBytes 4 v) false
    let g := fMul g0 (cmClip c)
    let special := fSpecial g
    let r := { r with done := r.done + 1, nan := if special then min 0xFFFFFFFF (r.nan + 1) else r.nan }
    if special && cmSkip c then (s, if tbKind x = 4 then { r with skipped := l :: r.skipped } else r)
    else
      let r := match fUnits (fMul g g) with
        | some u => { r with norm := r.norm + u, began := true }
        | none => { r with normBad := true, began := true }
      match tbKind x with
      | 1 =>
        let o := adamw x c g (word 0) (word 1) (word 2)
        (put (put (put s 0 o.1) 1 o.2.1) 2 o.2.2, r)
      | 2 =>
        let o := lion x c g (word 0) (word 1)
        (put (put s 0 o.1) 1 o.2, r)
      | 3 =>
        let o := sgd x c g (word 0) (word 1)
        (put (put s 0 o.1) 1 o.2, r)
      | _ =>
        let q := fFma g g (tbEps x)
        let f := factorOf s x l
        let p := addSum (put s 2 g) x r f.2.1 q
        addSum p.1 x p.2 f.2.2.1 q

/-- R208, R223, between passes: the factors updated. A poisoned one raises STATE_POISON and stays as it is (log 42). -/
def updateFactors (s : State) (x : Table) (r : StepRun) : State :=
  (rangeFrom 0 (factorsBefore s x (tbListN x))).foldl (fun s k =>
    let a := tbAux x + 4 * k
    if blockPoisoned s (a / 64) then statePoison s x a
    else
      let f := fMul (tbBeta2 x) (memVal s a 4)
      let sum := kget XLane.zero r.rowSum k
      let f := fFma (tbOmb2 x) (sumRound sum.value.toInt sum.ovf) f
      storeBytes s a (leBytes 4 f) false) s

/-- R208: SR of the tensor whose factors start at `b` with `rows` row factors. -/
def sumRows (s : State) (x : Table) (b rows : Nat) : Nat :=
  let us := (rangeFrom b rows).map fun k => fUnits (memVal s (tbAux x + 4 * k) 4)
  sumRound (us.foldl (fun (z : Int) u => z + u.getD 0) 0) (us.any fun u => u.isNone)

/-- R223: the poisoned state words of a parameter that pass 2 meets. -/
def passPoison (s : State) (x : Table) (l : Nat) : List Nat :=
  ([0, 1, 2].map fun k => wordAddr x l k).filter fun a => blockPoisoned s (a / 64)

/-- R223: a factor that pass 2 needs for a parameter is poisoned; `updateFactors` has raised it. `f` gives the factors' places. -/
def factorPoison (s : State) (x : Table) (f : Nat × Nat × Nat × Nat) : Bool :=
  ([f.2.1, f.2.2.1] ++ rangeFrom f.1 f.2.2.2).any fun k => blockPoisoned s ((tbAux x + 4 * k) / 64)

/-- R208, R223, pass 2 over every local parameter. One that meets a poisoned word or factor stays as it is (log 42). -/
def passTwo (s : State) (x : Table) (r : StepRun) : State :=
  let s := updateFactors s x r
  (rangeFrom 0 (localCount s x)).foldl (fun s l =>
    let word := fun (k : Nat) => memVal s (wordAddr x l k) 4
    let g := word 2
    if r.skipped.contains l then s
    else
      let f := factorOf s x l
      let bad := passPoison s x l
      if bad ≠ [] ∨ factorPoison s x f = true then bad.foldl (fun s a => statePoison s x a) s
      else
      let o := adafactor x r.cmd.raw g (word 0) (word 1) (memVal s (tbAux x + 4 * f.2.1) 4) (memVal s (tbAux x + 4 * f.2.2.1) 4)
        (sumRows s x f.1 f.2.2.2)
      storeBytes (storeBytes s (wordAddr x l 0) (leBytes 4 o.1) false) (wordAddr x l 1) (leBytes 4 o.2) false) s

/-- R207, R210: the weight that local parameter `l` emits. -/
def emitWeight (s : State) (t : Nat) (x : Table) (step l : Nat) : Nat :=
  let w := memVal s (wordAddr x l 0) 4
  if tbSr x then
    let d := roundingDraw (regGet s rSeed) (BitVec.ofNat 32 (0x53000000 + t)) (BitVec.ofNat 64 (step * 2 ^ 40 + globalIdx s x l))
    roundNum (tbOut x) .sr false d.toNat (f32 w)
  else roundNum (tbOut x) .rne false 0 (f32 w)

/-- Local parameters whose weights exist: of Adafactor all after pass 2 and none before. -/
def weightsReady (x : Table) (r : StepRun) : Nat :=
  if tbKind x = 4 ∧ cmGmode r.cmd.raw ≠ 2 then (if r.pass2 then r.done else 0) else r.done

/-- R202, R223: a buffered or emit-only step processes its elements up to `n`. Each poisoned gradient block raises STATE_POISON. -/
def produceTo (s : State) (x : Table) (r : StepRun) (n : Nat) : State × StepRun :=
  if cmGmode r.cmd.raw = 2 then (s, { r with done := max r.done n })
  else
    (rangeFrom r.done (n - r.done)).foldl (fun (p : State × StepRun) l =>
      let a := cmSrc r.cmd.raw + 4 * l
      if blockPoisoned p.1 (a / 64) then
        (if l % 16 = 0 ∨ l = r.done then statePoison p.1 x (a / 64 * 64) else p.1, { p.2 with done := p.2.done + 1 })
      else stepElement p.1 x p.2 l (memVal p.1 a 4)) (s, r)

/-- R223: the master weights that a step emits are met: a poisoned block of them raises STATE_POISON. -/
def weightPoison (s : State) (x : Table) (ls : List Nat) : State :=
  ((ls.filter fun l => l % 16 == 0 || ls.head? == some l).filter fun l => blockPoisoned s (wordAddr x l 0 / 64)).foldl
    (fun s l => statePoison s x (wordAddr x l 0)) s

/-- R202: the weights that this hub holds written to OUT_ADDR when the step writes them there. Those of another hub's segments come with
the linked REDUCE (R215); an emit-only step, which names none, writes its own segments alone (DESIGN CHOICE, log 134). -/
def writeWeights (s : State) (t : Nat) (x : Table) (c : List Byte) : State :=
  if cmLinkOut c ∨ cmDst c = 0 ∨ tbKind x = 0xF then s
  else
    let s := weightPoison s x (rangeFrom 0 (localCount s x))
    let w := fmtBytes (tbOut x)
    (rangeFrom 0 (localCount s x)).foldl (fun s l =>
      storeBytes s (cmDst c + w * globalIdx s x l) (leBytes w (emitWeight s t x (cmStep c) l)) false) s

end Sys2Proof.Machine
end

