-- ==== Sys2Proof/Machine/StepEnd.lean ====
section
/-! DEFINITION. Chapter 07: how state commands end (R200, R206, R213, R224). -/

namespace Sys2Proof.Machine

/-- Table 7.4. `step` is STEP_NO as posted, or LAST_STEP of a TABLE_DEFINE. -/
def stateEntry (c : Cmd) (status fld step : Nat) (fin : W64) (norm nan rows out : Nat) : List Byte :=
  leBytes 4 (cmId c.raw) ++ leBytes 1 status ++ leBytes 1 fld ++ leBytes 1 (cmTable c.raw) ++ leBytes 1 (cmCmd c.raw) ++
  leBytes 8 step ++ leBytes 8 (c.start.getD 0).toNat ++ leBytes 8 fin.toNat ++ leBytes 4 norm ++ leBytes 4 nan ++
  leBytes 4 rows ++ leBytes 1 out ++ List.replicate 19 0

/-- R206: the status of the linked BROADCAST of a STEP that waits, once that has failed. -/
def waitingOut (x : Table) (raw : List Byte) : Option Nat := (x.outFail.find? fun e => e.1 == raw).map fun e => e.2

/-- A table without the kept status of a STEP that waits no longer. -/
def forgetOut (x : Table) (raw : List Byte) : Table := { x with outFail := x.outFail.filter fun e => e.1 != raw }

/-- R200: a command that ends without results; OUT_STATUS is that of a STEP whose linked BROADCAST has ended, otherwise 0xFF. -/
def endCmd (s : State) (c : Cmd) (status fld : Nat) : State :=
  let x := getTable s (cmTable c.raw)
  let step := if cmCmd c.raw = 1 then x.last else cmStep c.raw
  let out := if cmCmd c.raw = 3 ∧ cmLinkOut c.raw then (waitingOut x c.raw).getD 0xFF else 0xFF
  postEntry s (complRing c.origin 2) (stateEntry c status fld step s.drum.count 0 0 0 out)

/-- R200, R211: a STEP that ends. -/
def endStep (s : State) (x : Table) (r : StepRun) (status : Nat) : State :=
  let norm := if tbKind x = 0xF ∨ cmGmode r.cmd.raw = 2 then 0 else sumRound r.norm r.normBad
  let out := match r.outStatus with | some o => if cmLinkOut r.cmd.raw then o else 0xFF | none => 0xFF
  postEntry s (complRing r.cmd.origin 2) (stateEntry r.cmd status 0 (cmStep r.cmd.raw) s.drum.count norm r.nan 0 out)

/-- R224: a table becomes INTERRUPTED. -/
def interrupt (s : State) (t : Nat) (x : Table) : State :=
  regAddSat (putTable s t { x with st := .interrupted, run := none, applying := none }) rSstat 63 48 1

/-- What the user-program rings of a table hold is dropped (R212). -/
def dropChunks (s : State) (t : Nat) : State :=
  { s with tables := { s.tables with
      chunks := kdel s.tables.chunks t
      outs := s.tables.outs.filter fun e => e.1 / 2 ^ 40 != t } }

/-- R215: the other hubs of the ring. -/
def otherHubs (s : State) : List Nat :=
  (rangeFrom 0 s.consist.cfg.topology.hubCount).filter fun o => o != s.consist.cfg.topology.hubIndex

/-- R215: the hubs' XH_STEPs of the step that a table runs are spent; those still to come will be. -/
def takeSteps (s : State) (t : Nat) : State :=
  (otherHubs s).foldl (fun s o =>
    match s.colls.steps.find? fun e => e.table == t && e.origin == o with
    | some e => { s with colls := { s.colls with steps := s.colls.steps.erase e } }
    | none => { s with colls := { s.colls with stale := s.colls.stale ++ [(t, o)] } }) s

/-- R203, R206, R215: the running or waiting STEP `raw` of a table ends BAD_LINK and the table is unchanged. Its user kernel, queued or
running, goes on (DESIGN CHOICE, log 132). -/
def failLink (s : State) (t : Nat) (raw : List Byte) : State :=
  let x := getTable s t
  match x.run with
  | some r =>
    if r.cmd.raw = raw then
      let s := if tbSharded x && !r.checked then takeSteps s t else s
      putTable (endStep s x r 6) t { x with run := none }
    else
      match x.queue.find? fun c => c.raw == raw with
      | some c => putTable (endCmd s c 6 0) t (forgetOut { x with queue := x.queue.erase c } c.raw)
      | none => s
  | none =>
    match x.queue.find? fun c => c.raw == raw with
    | some c => putTable (endCmd s c 6 0) t (forgetOut { x with queue := x.queue.erase c } c.raw)
    | none => s

/-- A change to the STEP that a table runs. -/
def onRun (s : State) (t : Nat) (f : StepRun → StepRun) : State :=
  let x := getTable s t
  match x.run with
  | some r => putTable s t { x with run := some (f r) }
  | none => s

/-- R202, R205: whether a running step takes its gradients from the REDUCE `id`, which has not completed. -/
def namesGrad (r : StepRun) (id : Nat) : Bool := cmGmode r.cmd.raw == 0 && cmGrad r.cmd.raw == id && !r.reduced

/-- R202, R205: whether a running step sends its weights to the BROADCAST `id`, which has not ended. -/
def namesOut (r : StepRun) (id : Nat) : Bool := cmLinkOut r.cmd.raw && cmOut r.cmd.raw == id && r.outStatus.isNone

/-- The STEP (running or waiting) of a table that names a collective still to come: as its REDUCE, or as its BROADCAST. -/
def stepNaming (x : Table) (id : Nat) (bcast : Bool) : Option (List Byte) :=
  let run := match x.run with
    | some r => if (if bcast then namesOut r id else namesGrad r id) then [r.cmd.raw] else []
    | none => []
  let waiting := (x.queue.map fun c => c.raw).filter fun r => cmCmd r == 3 &&
    (if bcast then cmLinkOut r && cmOut r == id && !(x.outFail.any fun e => e.1 == r) else cmGmode r == 0 && cmGrad r == id)
  (run ++ waiting).head?

/-- R206: the BROADCAST that a STEP of a table names has failed: its status is kept for OUT_STATUS, of a STEP that waits too. -/
def outFailed (s : State) (t : Nat) (raw : List Byte) (status : Nat) : State :=
  let x := getTable s t
  let waits := putTable s t { x with outFail := x.outFail ++ [(raw, status)] }
  match x.run with
  | some r => if r.cmd.raw = raw then onRun s t fun r => { r with outStatus := some status } else waits
  | none => waits

/-- The tables and STEPs that name a collective. -/
def linksOf (s : State) (id : Nat) (bcast : Bool) : List (Nat × List Byte) :=
  s.tables.table.filterMap fun e => (stepNaming e.2 id bcast).map fun r => (e.1, r)

/-- R202, R208, R215: the weights of a step as far as it may produce them now: a buffered or emit-only step runs to its end, a sharded one
once the hubs' check has passed, and Adafactor its second pass once its gradients are in. -/
def produceAll (s : State) (t : Nat) : State :=
  let x := getTable s t
  match x.run with
  | none => s
  | some r =>
    let n := localCount s x
    if tbKind x = 0xF ∨ (tbSharded x ∧ r.checked = false) then s
    else
      let (s, r) := if cmGmode r.cmd.raw = 0 then (s, r) else produceTo s x r n
      let ready := decide (n ≤ r.done) && (cmGmode r.cmd.raw != 0 || r.reduced)
      let (s, r) := if tbKind x = 4 ∧ cmGmode r.cmd.raw ≠ 2 ∧ ready = true ∧ r.pass2 = false then (passTwo s x r, { r with pass2 := true, began := true }) else (s, r)
      putTable s t { x with run := some r }

/-- R200, R213: a STEP whose elements are done ends. LAST_STEP rises but for GMODE 2. -/
def finishStep (s : State) (t : Nat) (x : Table) (r : StepRun) : State :=
  let c := r.cmd.raw
  let s := writeWeights s t x c
  let s := endStep s x r (if r.nan = 0 then 0 else 1)
  putTable s t { x with run := none, last := if cmGmode c = 2 then x.last else cmStep c }

end Sys2Proof.Machine
end

