-- ==== Sys2Proof/Machine/Levels.lean ====
section
/-! DEFINITION. Chapters 06, 12, 14 and 15: the slot table of the Peal program in use, effective caps, emergencies, and the
throttle levels and slope shares with the changes that open windows hold (R191 to R194, R360, R402, R426, R427, R431). -/

namespace Sys2Proof.Machine

/-! ### The slot table (Table 14.3, R402) -/

/-- A byte of a slot's entry in the program in use, the built-in one marking slots 0 to 23. -/
def slotField (s : State) (slot off n : Nat) : Nat :=
  match s.peal.prog with
  | some img => field img (0x100 + 8 * slot + off) n
  | none => if 24 ≤ slot then 0 else if off = 0 ∨ off = 2 then 1 else if off = 6 then Config.builtinMv slot else 0

def slotUsed (s : State) (slot : Nat) : Bool := slotField s slot 0 1 == 1
def slotOwner (s : State) (slot : Nat) : Nat := slotField s slot 1 1
def slotMon (s : State) (slot : Nat) : Nat := slotField s slot 2 1
def slotMv (s : State) (slot : Nat) : Nat := slotField s slot 6 2

/-- R419: a counted slot. -/
def slotCounted (s : State) (slot : Nat) : Bool :=
  slotUsed s slot && slotMon s slot == 2 && (slotOwner s slot == 0x20 || decide (0x10 ≤ slotOwner s slot) && decide (slotOwner s slot < 0x18)) &&
  !nbit (regGet s rPcapChain).toNat slot

/-- R419: P_n in mW. -/
def partnerMw (s : State) (n : Nat) : Nat :=
  lsum ((s.power.slotMw.filter fun e => slotCounted s e.1 && slotOwner s e.1 == 0x10 + n).map fun e => e.2)

/-- R419: P_tray in mW. -/
def trayMw (s : State) : Nat := s.power.pIn + lsum ((s.power.slotMw.filter fun e => slotCounted s e.1).map fun e => e.2)

/-! ### Caps (R360, R420, R431) -/

def putPower (s : State) (p : Power) : State := { s with power := p }

/-- R359: the effective power order. -/
def orderOn (s : State) : Bool := !s.host.offHost && !s.host.offRack

/-- R476: the effective power order as the sequencer takes it: off while a supply is out of range. -/
def seqOn (s : State) : Bool := orderOn s && !s.board.bad54 && !s.board.bad12

/-- R360: the effective hub cap [W]. -/
def roleHubCap (s : State) : Nat := min (min s.host.capHubHost s.host.capHubRack) s.consist.cfg.limits.hubMax

/-- R360: the effective tray cap [W]; 0xFFFFFFFF when none is in force. -/
def trayCap (s : State) : Nat := min (min s.host.capTrayHost s.host.capTrayRack) s.consist.cfg.limits.trayMax

/-- Table 15.4: the hub emergency cap, in mW. -/
def emergCap (s : State) : Option Nat :=
  let e := s.power.emerg
  let l := (if e.contains 0 then [s.power.capHot] else []) ++ (if e.contains 1 then [s.power.capMem] else []) ++
    (if e.contains 2 || e.contains 3 then [1000 * s.consist.cfg.limits.hubMin] else [])
  match l with
  | [] => none
  | c :: r => some (r.foldl min c)

/-- R420: C_h in mW. -/
def capMw (s : State) : Nat :=
  match emergCap s with
  | some c => min c (1000 * roleHubCap s)
  | none => 1000 * roleHubCap s

/-- Table 12.8: the data of CAP_CHANGED and POWER_CHANGED. -/
def capData (s : State) : List Byte :=
  let b := fun (x : Bool) => leBytes 1 (if x then 1 else 0)
  leBytes 4 (capMw s / 1000) ++ leBytes 4 (trayCap s) ++ b (orderOn s) ++ b (!s.host.offHost) ++ b (!s.host.offRack)

/-- PCAP_EMERG.SOURCES. -/
def emergBits (s : State) : Nat :=
  let e := s.power.emerg
  (if e.contains 0 then 1 else 0) + (if e.contains 1 then 2 else 0) +
  (if e.any fun x => decide (0x10 ≤ x) && decide (x < 0x28) then 4 else 0) + (if e.any fun x => decide (0x40 ≤ x) then 8 else 0) +
  (if e.contains 2 then 16 else 0) + (if e.contains 3 then 32 else 0)

/-- R362, R431: the registers that show caps, and CAP_CHANGED when an effective cap has changed. -/
def syncCaps (s : State) : State :=
  let now := (capMw s / 1000, trayCap s)
  let s := regPut (regPut s rPcapStatus 47 32 now.1) rPcapStatus 31 0 now.2
  let s := regPut s rPcapEmerg 63 32 (match emergCap s with | some c => c / 1000 | none => 0xFFFFFFFF)
  let s := regPut s rPcapEmerg 5 0 (emergBits s)
  if s.power.capSeen = now then s
  else emitEvent (putPower s { s.power with capSeen := now }) 1 (capData s)

/-! ### Throttle levels -/

/-- R16: the populated partners. -/
def populated (s : State) : List Nat := (rangeFrom 0 8).filter fun n => s.consist.cfg.topology.aPresent.getLsbD n

/-- Member ports of a collective (Table 6.2). -/
def windowPorts (c : Coll) : List Nat := (rangeFrom 0 8).filter fun n => nbit (field ((c.posts.head?.map fun p => p.2).getD []) 6 1) n

/-- R171: a window is open until the last completion entry is posted. -/
def windowOpen (c : Coll) : Bool := c.phase == .opened || (c.phase == .posting && c.openBeat != 0)

/-- Members of every open window, by SLOT. -/
def openWindows (s : State) : List (Nat × List Nat) :=
  (s.colls.list.filter fun c => windowOpen c).map fun c => (c.slot, windowPorts c)

/-- Table 15.4: the level that one emergency sets for a partner. -/
def emergFor (s : State) (n e : Nat) : Nat :=
  if e = 2 ∨ e = 3 then 3
  else if e = 0x10 + n then 2
  else if e = 0x20 + n then 3
  else if 0x40 ≤ e ∧ (slotOwner s (e - 0x40) = 0x10 + n ∨ slotOwner s (e - 0x40) = 0x20) then 2
  else 0

/-- Table 15.4: a partner's own emergency level. -/
def ownEmerg (s : State) (n : Nat) : Nat := (s.power.emerg.map fun e => emergFor s n e).foldl max 0

/-- R193: a partner's emergency level, with what it follows in open windows. -/
def emergLevel (s : State) (n : Nat) : Nat :=
  let ws := openWindows s
  (s.power.spread.map fun e => if ws.any fun w => w.1 == e.1 && w.2.contains n then ownEmerg s e.2 else 0).foldl max (ownEmerg s n)

/-- R194, R427: the level driven. -/
def level (s : State) (n : Nat) : Nat := max (kget 0 s.power.policy n) (emergLevel s n)

/-- PCAP_THR of every partner. -/
def syncLevels (s : State) : State :=
  (rangeFrom 0 8).foldl (fun s n =>
    let s := regPut s (rThr n) 63 62 (level s n)
    let s := regPut s (rThr n) 61 60 (kget 0 s.power.policy n)
    let s := regPut s (rThr n) 59 58 (emergLevel s n)
    regPut s (rThr n) 57 56 (kget 0 s.power.pendPolicy n - 1)) s

/-- R193: the pairs of an open window and a member whose emergency it follows from now on. -/
def spreadNow (s : State) (before : Nat → Nat) : State :=
  let add := (openWindows s).flatMap fun w => (w.2.filter fun p => decide (before p < ownEmerg s p)).map fun p => (w.1, p)
  let keep := s.power.spread.filter fun e => decide (0 < ownEmerg s e.2) && !add.contains e
  putPower s { s.power with spread := keep ++ add }

/-- The set of emergencies changes: levels and caps follow at once (R193, R431). -/
def setEmerg (s : State) (l : List Nat) : State :=
  let before := fun (n : Nat) => ownEmerg s n
  let s := putPower s { s.power with emerg := l }
  syncCaps (syncLevels (spreadNow s before))

/-- R431: an emergency is entered. -/
def enterEmerg (s : State) (e : Nat) : State :=
  if s.power.emerg.contains e then s else setEmerg s (nadd s.power.emerg e)

/-- R431: an emergency is left. -/
def leaveEmerg (s : State) (e : Nat) : State := if s.power.emerg.contains e then setEmerg s (ndel s.power.emerg e) else s

/-! ### Held changes (R191, R192) -/

/-- R191: of the changed partners, those whose change an open window holds: every window is left with all or none of its members
changed. A change of all members of a window that does not change them alike is not held (DESIGN CHOICE, log 131). `fuel` counts the
partners. -/
def heldSet (ws : List (List Nat)) (changed : List Nat) : Nat → List Nat → List Nat
  | 0, held => held
  | fuel + 1, held =>
    let bad := ws.filter fun w =>
      (w.any fun n => changed.contains n && !held.contains n) && w.any fun n => !changed.contains n || held.contains n
    let more := dedup (bad.flatMap fun w => w.filter fun n => changed.contains n && !held.contains n)
    if more = [] then held else heldSet ws changed fuel (held ++ more)

/-- Partners for which a change is held. -/
def heldPorts (s : State) : List Nat := (s.power.pendPolicy.map fun e => e.1) ++ (s.power.pendShare.map fun e => e.1)

/-- A change of a per-partner value: what applies now and what is held, each plus 1. -/
def splitChange (s : State) (cur : Nat → Nat) (target : Nat → Nat) : KMap Nat × KMap Nat :=
  let changed := (rangeFrom 0 8).filter fun n => decide (target n ≠ cur n)
  let held := heldSet ((openWindows s).map fun w => w.2) changed 8 []
  changed.foldl (fun (p : KMap Nat × KMap Nat) n =>
    if held.contains n then (p.1, kput p.2 n (target n + 1)) else (kput p.1 n (target n + 1), p.2)) ([], [])

/-- R191, R427: new policy levels. -/
def changePolicy (s : State) (target : Nat → Nat) : State :=
  let c := splitChange s (fun n => kget 0 s.power.policy n) target
  syncLevels (putPower s { s.power with policy := c.1.foldl (fun m e => kset 0 m e.1 (e.2 - 1)) s.power.policy, pendPolicy := c.2 })

/-- R191, R430: new slope shares. -/
def changeShares (s : State) (target : List Nat) : State :=
  let c := splitChange s (fun n => lget 0 s.power.share n) (fun n => lget 0 target n)
  putPower s { s.power with share := c.1.foldl (fun l e => lset l e.1 (e.2 - 1)) s.power.share, pendShare := c.2 }

/-- R191, R194: a window has closed: a change none of whose partners lies in an open window applies, and raised members no longer
follow a closed window. A window whose start beat fell while the change was pending opens at the beat after. -/
def releaseHeld (s : State) : State :=
  let ws := openWindows s
  let free := fun (m : KMap Nat) => m.all fun e => !(ws.any fun w => w.2.contains e.1)
  let p := s.power
  let p := if free p.pendPolicy then
      { p with policy := p.pendPolicy.foldl (fun m e => kset 0 m e.1 (e.2 - 1)) p.policy, pendPolicy := [] } else p
  let p := if free p.pendShare then
      { p with share := p.pendShare.foldl (fun l e => lset l e.1 (e.2 - 1)) p.share, pendShare := [] } else p
  let t := syncLevels (putPower s { p with spread := p.spread.filter fun e => ws.any fun w => w.1 == e.1 })
  let was := heldPorts s
  let now := heldPorts t
  let freed := fun (c : Coll) =>
    c.phase == .matched && c.openAt.ule s.drum.count && (windowPorts c).any (fun n => was.contains n && !now.contains n)
  let after := fun (c : Coll) => if freed c then { c with openAt := s.drum.count + 1 } else c
  { t with colls := { t.colls with list := t.colls.list.map after } }

end Sys2Proof.Machine
end

