-- ==== Sys2Proof/Machine/Collectives.lean ====
section
/-! DEFINITION. Chapter 06: tray collectives: descriptors, matching, windows, staging, exact reduction, completion, the
all-to-all and the cross-hub rings (R163 to R194, R298 to R302). -/

namespace Sys2Proof.Machine

/-! ### Descriptors (Table 6.2) -/

def dId (d : List Byte) : Nat := field d 0 4
def dOp (d : List Byte) : Nat := field d 4 1
def dRedop (d : List Byte) : Nat := field d 5 1
def dMembers (d : List Byte) : Nat := field d 6 1
def dRoot (d : List Byte) : Nat := field d 7 1
def dInCode (d : List Byte) : Nat := field d 8 1 % 16
def dOutCode (d : List Byte) : Nat := field d 8 1 / 16
def dRf (d : List Byte) : Nat := field d 9 1
def dCross (d : List Byte) : Bool := nbit (dRf d) 3
def dVariable (d : List Byte) : Bool := nbit (dRf d) 4
def dXfmt (d : List Byte) : Nat := field d 0xA 1
def dScale (d : List Byte) : Int := signedOf 8 (field d 0xB 1)
def dTag (d : List Byte) : Nat := field d 0xC 4
def dCount (d : List Byte) : Nat := field d 0x10 8
def dStart (d : List Byte) : Nat := field d 0x18 8
def dHub (d : List Byte) : Nat := field d 0x30 8
def dRootHub (d : List Byte) : Nat := field d 0x38 2
def dChunk (d : List Byte) : Nat := 2 ^ field d 0x3A 1

/-- Table 6.1: a reduction. -/
def dReduces (d : List Byte) : Bool := decide (dOp d ≤ 3)
def dIn (d : List Byte) : Fmt := (fmtOfCode (dInCode d)).getD .fp32
def dOutFmt (d : List Byte) : Fmt := (fmtOfCode (dOutCode d)).getD .fp32

/-- Table 6.2: member ports in ascending order; a member's rank is its place. -/
def dPorts (d : List Byte) : List Nat := (rangeFrom 0 8).filter fun n => nbit (dMembers d) n

/-- R165, R166: each field's offset and whether it is in its range, for a descriptor that port `n` posts. -/
def descChecks (s : State) (n : Nat) (d : List Byte) : List (Nat × Bool) :=
  let op := dOp d
  let red := dReduces d
  let sum := red && dRedop d == 0
  let i := dInCode d
  let o := dOutCode d
  let fmt := fun (c : Nat) => decide (c ≤ 4) || c == 0xB
  let inJob := fun (m : Nat) => s.consist.cfg.topology.aPresent.getLsbD m &&
    (match s.host.job with | some j => j.ports.getLsbD m | none => false)
  let rm := dRf d % 4
  let cross := dCross d
  [(4, decide (1 ≤ op) && decide (op ≤ 6)),
   (5, if red then decide (dRedop d ≤ 2) else dRedop d == 0),
   (6, nbit (dMembers d) n && (dPorts d).all inJob),
   (7, if op = 1 ∨ op = 5 then dRoot d == 8 || (decide (dRoot d < 8) && nbit (dMembers d) (dRoot d)) else dRoot d == 0),
   (8, if !red then field d 8 1 == 0
       else if sum then fmt i && fmt o && (i == 0xB) == (o == 0xB)
       else i == o && decide (i ≤ 4)),
   (9, rm != 3 && decide (dRf d < 32) && (sum || dRf d % 8 == 0) &&
       (!cross || ((op == 2 || op == 4 || op == 5) && decide (2 ≤ s.consist.cfg.topology.hubCount))) &&
       (!dVariable d || op == 6)),
   (0xA, decide (dXfmt d ≤ 2) && (dXfmt d == 0 || (cross && sum))),
   (0xB, decide (-32 ≤ dScale d) && decide (dScale d ≤ 32) && (dScale d == 0 || (sum && i != 0xB))),
   (0x10, decide (64 ≤ dCount d) && decide (dCount d ≤ 2 ^ 40) && dCount d % 64 == 0),
   (0x20, field d 0x20 8 % 64 == 0),
   (0x28, field d 0x28 8 % 64 == 0 || (op == 1 && dRoot d != n) || (op == 6 && dPorts d == [n]) ||
     (op == 5 && dRoot d == n && (!cross || dRootHub d == s.consist.cfg.topology.hubIndex))),
   (0x30, if (op = 1 ∨ op = 5) ∧ dRoot d = 8 then dHub d % 64 == 0 && decide (dHub d < memTop s) else dHub d == 0),
   (0x38, if cross ∧ op = 5 then decide (dRootHub d < s.consist.cfg.topology.hubCount) else dRootHub d == 0),
   (0x3A, decide (14 ≤ field d 0x3A 1) && decide (field d 0x3A 1 ≤ 20)),
   (0x3B, field d 0x3B 5 == 0)]

/-- R167: the fields that must agree, as (offset, bytes). -/
def agreeFields : List (Nat × Nat) :=
  [(0, 4), (4, 1), (5, 1), (6, 1), (7, 1), (8, 1), (9, 1), (0xA, 1), (0xB, 1), (0xC, 4), (0x10, 8), (0x18, 8), (0x30, 8),
   (0x38, 2), (0x3A, 1), (0x3B, 5)]

/-- R167: the first field in which the descriptors differ. -/
def disagreement (ds : List (List Byte)) : Option Nat :=
  match ds with
  | [] => none
  | d :: r => (agreeFields.find? fun f => r.any fun e => field d f.1 f.2 != field e f.1 f.2).map fun f => f.1

/-! ### Collectives -/

def putColls (s : State) (x : Colls) : State :=
  regPut { s with colls := x } rCollStat 63 56 (x.list.filter fun c => windowOpen c).length

def collDesc (c : Coll) : List Byte := (c.posts.head?.map fun p => p.2).getD []
def collPorts (c : Coll) : List Nat := dPorts (collDesc c)

/-- The collective of a SLOT, from its matching to its last completion entry. -/
def collOf (s : State) (slot : Nat) : Option Coll := s.colls.list.find? fun c => c.slot == slot && c.phase != .posted

/-- The collective with its record replaced. -/
def putColl (s : State) (c : Coll) : State :=
  { s with colls := { s.colls with list := s.colls.list.map fun e => if e.uid = c.uid then c else e } }

/-- A collective just posted. It has no SLOT yet. -/
def newColl (uid id n : Nat) (d : List Byte) (now : Nat) : Coll :=
  { uid := uid, id := id, posts := [(n, d)], since := now, phase := .posted, train := 0, slot := 64, openAt := 0, startAt := 0, openBeat := 0,
    openMark := 0, order := 0, late := 0, heldBack := false, link := none, stage := [], next := [], granted := [], served := 0,
    part := [], fin := [], handed := [], blocks := [], ended := [], sent := [], xout := [], nan := 0, pois := 0, ovf := false,
    poiRaised := false, stalled := false, status := 0, fld := 0, due := [] }

/-- Table 6.3: a completion entry. -/
def collEntry (id status fld : Nat) (openB endB : W64) (nan pois : Nat) (rx : List Nat) : List Byte :=
  leBytes 4 id ++ leBytes 1 status ++ leBytes 1 fld ++ leBytes 2 0 ++ leBytes 8 openB.toNat ++ leBytes 8 endB.toNat ++
  leBytes 4 (min 0xFFFFFFFF nan) ++ leBytes 4 (min 0xFFFFFFFF pois) ++ (rangeFrom 0 8).flatMap fun r => leBytes 4 (lget 0 rx r)

/-- R170: an entry to one member. -/
def collReport (s : State) (n : Nat) (e : List Byte) : State := postEntry s (partnerRing n 1) e

/-- R206: what a collective that fails with a status means for the steps that name it: BAD_LINK where it was to be the REDUCE,
OUT_STATUS where it was to be the BROADCAST. -/
def linkEnded (s : State) (id status : Nat) : State :=
  let s := (linksOf s id false).foldl (fun s l => failLink s l.1 l.2) s
  (linksOf s id true).foldl (fun s l => outFailed s l.1 l.2 status) s

/-- R200, R206: the job ends a collective ABORTED: a STEP that names it as its BROADCAST carries that in OUT_STATUS. -/
def outAborted (s : State) (id : Nat) : State := (linksOf s id true).foldl (fun s l => outFailed s l.1 l.2 7) s

/-- R202, R215: the STEP of a sharded table that sends its weights round the ring with the linked REDUCE that brings its gradients: one
without LINK_OUT that writes them to OUT_ADDR. -/
def weightStep (s : State) (c : Coll) : Option (Nat × List Byte) :=
  match c.link with
  | some t =>
    if dOp (collDesc c) = 1 ∧ tbSharded (getTable s t) then
      match stepNaming (getTable s t) c.id false with
      | some raw => if cmLinkOut raw = false ∧ cmDst raw ≠ 0 then some (t, raw) else none
      | none => none
    else none
  | none => none

/-- R203: the collective that the STEP `raw` names, as its BROADCAST (`bcast`) or as its REDUCE, has matched and fails Table 7.6. -/
def linkMisfit (s : State) (t : Nat) (raw : List Byte) (bcast : Bool) : State :=
  match (getTable s t).run with
  | some r => if bcast = true ∧ r.cmd.raw = raw ∧ r.began = true ∧ cmGmode raw ≠ 2 then outFailed s t raw 6 else failLink s t raw
  | none => failLink s t raw

/-! ### Shapes: units, streams, segments. A unit is a result element, or 16 bytes of a copy -/

/-- Whether the collective's data cross hubs: CROSS, or linked to a sharded table (R215). -/
def collCross (s : State) (c : Coll) : Bool :=
  dCross (collDesc c) || (match c.link with | some t => tbSharded (getTable s t) | none => false)

/-- Bytes of one unit of the result. -/
def unitBytes (s : State) (c : Coll) : Nat :=
  let d := collDesc c
  if dReduces d then fmtBytes (dOutFmt d)
  else match c.link with
    | some t => fmtBytes (tbOut (getTable s t))
    | none => 16

/-- Bytes that a member sends. -/
def sendBytes (c : Coll) : Nat :=
  let d := collDesc c
  let n := (collPorts c).length
  if dOp d = 3 then n * dCount d * fmtBytes (dIn d) else if dReduces d then dCount d * fmtBytes (dIn d) else dCount d

/-- The ports that send through staging. -/
def senders (s : State) (c : Coll) : List Nat :=
  let d := collDesc c
  if dOp d = 5 then
    (if dRoot d < 8 ∧ (!dCross d || dRootHub d == s.consist.cfg.topology.hubIndex) then [dRoot d] else [])
  else if dOp d = 6 then [] else collPorts c

/-- The members that receive results. -/
def receivers (s : State) (c : Coll) : List Nat :=
  let d := collDesc c
  if dOp d = 1 then (if dRoot d < 8 then [dRoot d] else [])
  else if dOp d = 5 then
    (collPorts c).filter fun n => !(n == dRoot d && (!dCross d || dRootHub d == s.consist.cfg.topology.hubIndex))
  else if dOp d = 6 then [] else collPorts c

/-- Hubs that take part, and this hub's place. -/
def collHubs (s : State) (c : Coll) : Nat × Nat :=
  if collCross s c then (s.consist.cfg.topology.hubCount, s.consist.cfg.topology.hubIndex) else (1, 0)

/-- Units of the whole result. -/
def resultUnits (s : State) (c : Coll) : Nat :=
  let d := collDesc c
  let n := (collPorts c).length
  if dOp d = 3 then n * dCount d
  else if dReduces d then dCount d
  else if dOp d = 4 then (collHubs s c).1 * n * (dCount d / unitBytes s c)
  else dCount d / unitBytes s c

/-- The part of the result that a member receives: first unit and number of units. -/
def shareOf (s : State) (c : Coll) (n : Nat) : Nat × Nat :=
  let d := collDesc c
  if dOp d = 3 then (((collPorts c).findIdx fun p => p == n) * dCount d, dCount d) else (0, resultUnits s c)

/-- Chunks of a number of bytes. -/
def chunksOf (c : Coll) (bytes : Nat) : Nat := (bytes + dChunk (collDesc c) - 1) / dChunk (collDesc c)

/-- A segment of a cross-hub operation: first unit, units, ring (0 out on P1, 1 out on P0), owning hub (R187). -/
structure Seg where
  first : Nat
  n     : Nat
  ring  : Nat
  owner : Nat
  deriving DecidableEq, Repr

/-- R187, R214 and log 46 for the copies: the segments in the order in which the P ports number their chunks. -/
def collSegs (s : State) (c : Coll) : List Seg :=
  let d := collDesc c
  let h := (collHubs s c).1
  let u := resultUnits s c
  let halves := fun (u : Nat) =>
    let h1 := (u + 1) / 2
    ((rangeFrom 0 h).map fun i => let g := segment 0 h1 h i; (⟨g.1, g.2, 0, i⟩ : Seg)) ++
    (rangeFrom 0 h).map fun i => let g := segment h1 (u - h1) h i; (⟨g.1, g.2, 1, i⟩ : Seg)
  if dOp d = 4 then
    let k := (collPorts c).length
    (rangeFrom 0 (h * k)).map fun i => ⟨i * (dCount d / 16), dCount d / 16, 0, i / k⟩
  else if dOp d = 5 ∧ dCross d = true then [⟨0, u, 0, dRootHub d⟩]
  else halves u

/-- The segment of a unit. -/
def segOf (s : State) (c : Coll) (u : Nat) : Option Seg :=
  (collSegs s c).find? fun g => decide (g.first ≤ u) && decide (u < g.first + g.n)

/-- The hub after hub `i` on a ring of `h`. -/
def nextHub (h ring i : Nat) : Nat := if ring = 0 then (i + 1) % h else (i + h - 1) % h
/-- The P port that a ring leaves by, and the one it comes in on. -/
def ringOut (ring : Nat) : Nat := if ring = 0 then 9 else 8
def ringIn (ring : Nat) : Nat := if ring = 0 then 8 else 9

/-- The format of partials: XFMT of a SUM, FP32 of a linked step (R215), the input format of MIN and MAX. -/
def partFmt (c : Coll) : Fmt :=
  let d := collDesc c
  if dRedop d ≠ 0 then dIn d else if dXfmt d = 1 then .bf16 else if dXfmt d = 2 then .fp16 else .fp32

/-- Bytes of a unit on a P port: of a partial (RESULT 0), or of a finished unit (1), which of a linked REDUCE is an emitted weight
(R215). -/
def xBytes (s : State) (c : Coll) (result : Nat) : Nat :=
  if result = 0 then fmtBytes (partFmt c)
  else match weightStep s c with
    | some w => fmtBytes (tbOut (getTable s w.1))
    | none => unitBytes s c

/-- Log 46: chunks, on the P ports, of the segments before the k-th. -/
def segBase (s : State) (c : Coll) (result k : Nat) : Nat :=
  lsum (((collSegs s c).take k).map fun g => chunksOf c (g.n * xBytes s c result))

/-! ### Results to members and hub memory -/

/-- The units of a range as bytes. -/
def unitRange (c : Coll) (ub first n : Nat) : List Byte :=
  (rangeFrom first n).flatMap fun u => leBytes ub (kget (0, false) c.fin u).1

/-- A byte of the result lies in a 64-byte unit with a poisoned unit. -/
def resPoisoned (c : Coll) (ub base byte : Nat) : Bool :=
  let b := byte / 64 * 64
  (rangeFrom (base + b / ub) ((63 + ub) / ub)).any fun u => (kget (0, false) c.fin u).2

/-- R287, R299: the flits of one result chunk: header fields below VC and payload. -/
def resFlits (slot chunk result : Nat) (bytes : List Byte) (pois : Nat → Bool) : List (Nat × List Byte) :=
  (rangeFrom 0 ((bytes.length + 239) / 240)).map fun f =>
    let p := (bytes.drop (240 * f)).take 240
    let q := lsum ((rangeFrom 0 4).map fun k =>
      if (rangeFrom (240 * f + 60 * k) 60).any fun x => decide (x < 240 * f + p.length) && pois x then 2 ^ k else 0)
    (slot * 2 ^ 52 + chunk % 2 ^ 20 * 2 ^ 32 + f * 2 ^ 19 + p.length * 2 ^ 11 + q * 2 ^ 7 + result * 2 ^ 6, p)

/-- COLL_DATA flits of collective `uid` sent on a port, marked with it while they wait. -/
def sendColl (s : State) (uid n : Nat) (fl : List (Nat × List Byte)) : State :=
  fl.foldl (fun s f => sendTagged s n 7 2 f.1 f.2 [0, uid]) s

/-- R299: result chunks that are whole go to a receiver, in order. `fuel` counts the chunks left. -/
def emitTo (s : State) (c : Coll) (n : Nat) : Nat → State × Coll
  | 0 => (s, c)
  | fuel + 1 =>
    let ub := unitBytes s c
    let sh := shareOf s c n
    let k := kget 0 c.sent n
    let per := dChunk (collDesc c) / ub
    let cnt := min per (sh.2 - k * per)
    if k * per < sh.2 ∧ (rangeFrom (sh.1 + k * per) cnt).all (fun u => c.fin.any fun e => e.1 == u) then
      let bytes := unitRange c ub (sh.1 + k * per) cnt
      let off := k * per * ub
      let s := sendColl s c.uid n (resFlits c.slot k 1 bytes fun x => resPoisoned c ub sh.1 (off + x))
      emitTo s { c with sent := kset 0 c.sent n (k + 1) } n fuel
    else (s, c)

/-- Results to every receiver as far as they are whole. -/
def emitResults (s : State) (c : Coll) : State :=
  let (s, c) := (receivers s c).foldl (fun (p : State × Coll) n =>
    emitTo p.1 p.2 n (chunksOf p.2 ((shareOf p.1 p.2 n).2 * unitBytes p.1 p.2))) (s, c)
  putColl s c

/-- R163, R180, R204, R321: results of a REDUCE to HUB_ADDR, unless it is linked: each 64-byte block written whole once unit `u`
completes it, poisoned when one of its units is. -/
def writeHub (s : State) (c : Coll) (u : Nat) : State :=
  let d := collDesc c
  if dOp d = 1 ∧ dRoot d = 8 ∧ c.link = none then
    let ub := unitBytes s c
    let b := u * ub / 64
    let us := rangeFrom (64 / ub * b) (64 / ub)
    if us.all fun i => c.fin.any fun e => e.1 == i then
      storeBytes s (dHub d + 64 * b) (unitRange c ub (64 / ub * b) (64 / ub)) (us.any fun i => (kget (0, false) c.fin i).2)
    else s
  else s

/-! ### Cross-hub sending (R187, R302, log 46) -/

/-- Log 46: the flits of one segment on a P port are numbered; flit `i` of it: chunk within the segment, flit within the chunk, first
unit, units. No units: the segment has no such flit. -/
def segFlit (s : State) (c : Coll) (result : Nat) (g : Seg) (i : Nat) : Nat × Nat × Nat × Nat :=
  let ub := xBytes s c result
  let per := 240 / ub
  let perChunk := dChunk (collDesc c) / ub
  let fpc := (perChunk + per - 1) / per
  let first := i / fpc * perChunk + i % fpc * per
  (i / fpc, i % fpc, g.first + first, min (min per (perChunk - i % fpc * per)) (g.n - first))

/-- R287: the 60-byte quarters of a payload that `n` bytes from byte `a` touch. -/
def quarters (a n : Nat) : List Nat := rangeFrom (a / 60) ((a + n - 1) / 60 + 1 - a / 60)

/-- The key under which the flits sent and received of a segment are counted. -/
def segKey (k result : Nat) : Nat := 2 ^ 40 + 2 ^ 21 * result + k

/-- Units formed here go out on the P ports in order, as their flits become whole and their chunks are granted. `fuel` counts the
flits left. -/
def flushSeg (s : State) (c : Coll) (k result : Nat) (g : Seg) : Nat → State × Coll
  | 0 => (s, c)
  | fuel + 1 =>
    let ub := xBytes s c result
    let out := ringOut g.ring
    let i := kget 0 c.sent (segKey k result)
    let (ch, f, first, n) := segFlit s c result g i
    let chunk := segBase s c result k + ch
    let us := rangeFrom first n
    let key := fun (u : Nat) => 2 * u + result
    if n ≠ 0 ∧ kget 0 c.granted (2 ^ 32 * out + chunk) ≠ 0 ∧ us.all (fun u => c.xout.any fun e => e.1 == key u) then
      let v := fun (u : Nat) => kget (0, false) c.xout (key u)
      let bytes := us.flatMap fun u => leBytes ub (v u).1
      let q := lsum ((rangeFrom 0 4).map fun z =>
        if ((rangeFrom 0 us.length).zip us).any fun e => (quarters (e.1 * ub) ub).contains z && (v e.2).2 then 2 ^ z else 0)
      let s := sendColl s c.uid out [(c.slot * 2 ^ 52 + chunk % 2 ^ 20 * 2 ^ 32 + f * 2 ^ 19 + bytes.length * 2 ^ 11 + q * 2 ^ 7 +
        result * 2 ^ 6, bytes)]
      flushSeg s { c with xout := us.foldl (fun m u => kdel m (key u)) c.xout, sent := kset 0 c.sent (segKey k result) (i + 1) } k result g
        fuel
    else (s, c)

/-- Every segment's ready units sent on. -/
def flushX (s : State) (c : Coll) : State × Coll :=
  if collCross s c then
    let segs := collSegs s c
    ((rangeFrom 0 segs.length).zip segs).foldl (fun (p : State × Coll) e =>
      let p := flushSeg p.1 p.2 e.1 0 e.2 e.2.n
      flushSeg p.1 p.2 e.1 1 e.2 e.2.n) (s, c)
  else (s, c)

/-- A finished unit: kept for the members, and sent round the ring by its owner or forwarded (R187, step 4). -/
def finishUnit (s : State) (c : Coll) (g : Seg) (u : Nat) (v : Nat × Bool) : Coll :=
  let h := collHubs s c
  let c := { c with fin := kput c.fin u v }
  if collCross s c ∧ nextHub h.1 g.ring h.2 ≠ g.owner then { c with xout := kput c.xout (2 * u + 1) v } else c

/-! ### Reduction (R177 to R180) -/

/-- The bits and the poison of input element `j` of a sender's staged chunk. -/
def stagedElem (c : Coll) (n chunk ib j : Nat) : Nat × Bool :=
  match c.stage.find? fun g => g.port == n && g.chunk == chunk with
  | some g => (field g.bytes (ib * j) ib, g.pois.contains (ib * j / 64))
  | none => (0, false)

/-- The exact sum of values in units of 2^-149 and whether one is out of the accumulator's range (R157). -/
def sumValues (vs : List Num) : Int × Bool :=
  vs.foldl (fun (z : Int × Bool) v =>
    match v with
    | .fin n m e => let a := accUnits n m e; (z.1 + a, z.2 || decide (a.natAbs ≥ accLimit.natAbs))
    | _ => (z.1, true)) (0, false)

/-- R177, R178: a SUM element rounded once into OUT_FMT: its bits and whether its lane overflowed. A linked one is rounded to nearest
even, RM and SAT being unused (Table 7.6, R215). -/
def sumElem (s : State) (d : List Byte) (linked : Bool) (index : Nat) (vs : List Num) : Nat × Bool :=
  let z := sumValues vs
  let rm := if linked then RMode.rne else if dRf d % 4 = 1 then .rtz else if dRf d % 4 = 2 then .sr else .rne
  let draw := roundingDraw (regGet s rSeed) (BitVec.ofNat 32 (dTag d)) (BitVec.ofNat 64 index)
  if z.2 then (fmtNaN (dOutFmt d), true)
  else (roundFin (dOutFmt d) rm (nbit (dRf d) 2 && !linked) draw.toNat (decide (z.1 < 0)) z.1.natAbs (-149 + dScale d) false, false)

/-- R179: MIN or MAX of the inputs, and whether the result is a NaN. -/
def minMaxElem (f : Fmt) (mx : Bool) (bs : List Nat) : Nat × Bool :=
  match bs with
  | [] => (0, false)
  | b :: r =>
    let v := r.foldl (minMaxBits f mx false) b
    let v := if (numDecode f v) = .nan then fmtNaN f else v
    (v, decide (numDecode f v = .nan))

/-- R180: poison met by a reduction: one COLL_POISON, naming the first port whose data was poisoned. -/
def collPoison (s : State) (c : Coll) (port : Nat) : State × Coll :=
  if c.poiRaised then (s, c)
  else (raise s (srcTrain c.train) 0x09 2 (port + c.id * 2 ^ 16), { c with poiRaised := true })

/-- R177: one XACC_OVERFLOW per collective. -/
def collOverflow (s : State) (c : Coll) : State × Coll :=
  if c.ovf then (s, c) else (raise s (srcTrain c.train) 0x06 1 c.id, { c with ovf := true })

/-- R215: a weight that the step has made of gradient `u` goes to the ring with the linked REDUCE, unless a BROADCAST carries it. -/
def sentWeight (s : State) (c : Coll) (u l : Nat) : Coll :=
  match weightStep s c, segOf s c u with
  | some (t, raw), some g =>
    let x := getTable s t
    let h := collHubs s c
    let v := (emitWeight s t x (cmStep raw) l, blockPoisoned s (wordAddr x l 0 / 64))
    if nextHub h.1 g.ring h.2 ≠ g.owner then { c with xout := kput c.xout (2 * u + 1) v } else c
  | _, _ => c

/-- R215: a weight of another hub's segment: written at OUT_ADDR and passed on. -/
def arrivedWeight (s : State) (c : Coll) (t : Nat) (raw : List Byte) (g : Seg) (u : Nat) (v : Nat × Bool) : State × Coll :=
  let w := fmtBytes (tbOut (getTable s t))
  (storeBytes s (cmDst raw + w * u) (leBytes w v.1) v.2, finishUnit s c g u v)

/-- A finished element of this hub: counted, delivered, written to hub memory or handed to the linked step (R205). An element that a CROSS
collective sends on as a NaN counts as one on every hub (DEDUCED, log 133). -/
def deliverElem (s : State) (c : Coll) (u : Nat) (bits : Nat) (pois ovf nan : Bool) : State × Coll :=
  let d := collDesc c
  let bits := if pois then fmtNaN (dOutFmt d) else bits
  let nan := ovf || nan || (dCross d && numDecode (dOutFmt d) bits == .nan)
  let c := { c with nan := if nan && !pois then c.nan + 1 else c.nan }
  let (s, c) := if ovf then collOverflow s c else (s, c)
  match c.link with
  | some t =>
    let x := getTable s t
    match x.run, localIdx s x u with
    | some r, some l =>
      let (s, r) := stepElement s x r l bits
      let s := putTable s t { x with run := some r }
      (s, sentWeight s { c with fin := kput c.fin u (bits, pois) } u l)
    | _, _ => (s, c)
  | none =>
    let g := match segOf s c u with | some g => g | none => ⟨0, 0, 0, 0⟩
    let c := finishUnit s c g u (bits, pois)
    (writeHub s c u, c)

/-- One element of a reduction's chunk: formed here, or passed on as a partial; an element whose partial has not come waits. A poisoned
element adds nothing (R159, R180). -/
def reduceElem (s : State) (c : Coll) (chunk ib j : Nat) : State × Coll :=
  let d := collDesc c
  let f := dIn d
  let u := chunk * (dChunk d / ib) + j
  if c.handed.contains u then (s, c)
  else
    let ins := (senders s c).map fun n => (n, stagedElem c n chunk ib j)
    let sum := dRedop d == 0
    let fmt := partFmt c
    let part := c.part.find? fun e => e.1 == u
    let pois := ins.any fun e => e.2.2
    let ppois := match part with | some (_, p) => p.2 | none => false
    let own := (ins.filter fun e => !e.2.2).map fun e => numDecode f e.2.1
    let h := collHubs s c
    let done := fun (s : State) (c : Coll) => (s, { c with handed := u :: c.handed, part := kdel c.part u })
    let mark := fun (s : State) (c : Coll) =>
      match ins.find? fun e => e.2.2 with
      | some e => collPoison s c e.1
      | none => if ppois then collPoison s c (match segOf s c u with | some g => ringIn g.ring | none => 0) else (s, c)
    let finish := fun (extra : List Num) (extraBits : List Nat) =>
      let (s, c) := mark s c
      let r := if sum then sumElem s d c.link.isSome u (extra ++ own) else minMaxElem f (dRedop d == 2) (extraBits ++ ins.map fun e => e.2.1)
      let (s, c) := deliverElem s c u r.1 (pois || ppois) (sum && r.2) (!sum && r.2)
      done s c
    let pass := fun (extra : List Num) (extraBits : List Nat) =>
      let (s, c) := mark s c
      let (s, c, v) :=
        if sum then
          let z := sumValues (extra ++ own)
          let (s, c) := if z.2 then collOverflow s c else (s, c)
          (s, c, if z.2 then fmtNaN fmt else roundFin fmt .rne false 0 (decide (z.1 < 0)) z.1.natAbs (-149) false)
        else (s, c, (minMaxElem f (dRedop d == 2) (extraBits ++ ins.map fun e => e.2.1)).1)
      done s { c with xout := kput c.xout (2 * u) (v, pois || ppois) }
    if collCross s c then
      match segOf s c u with
      | none => done s c
      | some g =>
        if h.2 = nextHub h.1 g.ring g.owner then
          (if h.1 = 1 then finish [] [] else pass [] [])
        else
          match part with
          | none => (s, c)
          | some (_, p) =>
            let v := if p.2 then [] else [numDecode fmt p.1]
            if h.2 = g.owner then finish v [p.1] else pass v [p.1]
    else finish [] []

/-! ### Staging and credits (R175, R298) -/

/-- Chunks that a member sends. -/
def memberChunks (c : Coll) : Nat := chunksOf c (sendBytes c)

/-- R174: the in-service coach to which a chunk goes. -/
def chunkCoach (s : State) (c : Coll) (k : Nat) : Option Nat :=
  let l := trainCoaches s c.train
  l[k % l.length]?

/-- Bytes of a yard. -/
def yardSize : Nat := 0x800000

/-- Chunks that every sender has been granted. -/
def grantedTo (s : State) (c : Coll) : Nat := match senders s c with | [] => 0 | n :: _ => kget 0 c.granted n

/-- R175: bytes of staging that chunk `k` of every sender takes. -/
def stageBytes (s : State) (c : Coll) (k : Nat) : Nat :=
  (senders s c).length * min (dChunk (collDesc c)) (sendBytes c - k * dChunk (collDesc c))

/-- R175: bytes of the yard of rake `r` reserved for chunks that are granted and not served. -/
def yardStaged (s : State) (r : Nat) : Nat :=
  lsum (s.colls.list.flatMap fun c =>
    if c.phase = .matched ∨ c.phase = .opened then
      ((rangeFrom c.served (grantedTo s c - c.served)).filter fun k => (chunkCoach s c k).map (fun h => h / 32) == some r).map
        fun k => stageBytes s c k
    else [])

/-- R175: the yard of the rake that holds a chunk's coach has room for it (log 113). -/
def stageRoom (s : State) (c : Coll) (k : Nat) : Bool :=
  match chunkCoach s c k with
  | some h => decide (yardStaged s (h / 32) + stageBytes s c k ≤ yardSize)
  | none => false

/-- R175: one more chunk reserved for every sender of a collective, four not yet served at most. -/
def grantOne (s : State) (uid : Nat) : State :=
  match s.colls.list.find? fun c => c.uid == uid with
  | some c =>
    let g := grantedTo s c
    if (c.phase = .matched ∨ c.phase = .opened) ∧ g < min (memberChunks c) (c.served + 4) ∧ stageRoom s c g then
      putColl s { c with granted := (senders s c).foldl (fun m n => kset 0 m n (g + 1)) c.granted }
    else s
  | none => s

/-- R175, R298: a collective's senders are granted the chunks that can be staged, in one COLL_CREDIT each. -/
def grantColl (s : State) (uid : Nat) : State :=
  let old := fun (s : State) => match s.colls.list.find? fun c => c.uid == uid with | some c => grantedTo s c | none => 0
  let t := (rangeFrom 0 4).foldl (fun s _ => grantOne s uid) s
  match t.colls.list.find? fun c => c.uid == uid with
  | some c =>
    if old s < grantedTo t c then
      (senders t c).foldl (fun t n => sendCtl t n 0x11 [(1, c.slot), (2, grantedTo t c - old s), (4, old s)]) t
    else t
  | none => t

/-- R173: ascending start beat, then ascending COLL_ID. -/
def opensBefore (a b : Coll) : Bool :=
  decide (a.startAt.toNat < b.startAt.toNat) || (a.startAt == b.startAt && decide (a.id ≤ b.id))

/-- Windows in the order in which they opened, then those still to open. -/
def openedBefore (a b : Coll) : Bool :=
  match a.phase == .opened, b.phase == .opened with
  | true, true => decide (a.order ≤ b.order)
  | true, false => true
  | false, true => false
  | false, false => opensBefore a b

/-- Insertion in an order. -/
def insColl (le : Coll → Coll → Bool) (c : Coll) : List Coll → List Coll
  | [] => [c]
  | a :: l => if le c a then c :: a :: l else a :: insColl le c l

/-- Collectives in an order. -/
def sortColls (le : Coll → Coll → Bool) (l : List Coll) : List Coll := l.foldr (insColl le) []

/-- R175: staging is granted to collectives in the order in which their windows opened, then to those still to open (log 113). -/
def grantAll (s : State) : State := (sortColls openedBefore s.colls.list).foldl (fun s c => grantColl s c.uid) s

/-- R302, log 46: the hub grants the chunks that it is to receive on its P ports, four at most in a message. -/
def grantX (s : State) (c : Coll) : State :=
  if collCross s c then
    let h := collHubs s c
    let segs := collSegs s c
    ((rangeFrom 0 segs.length).zip segs).foldl (fun s e =>
      let g := e.2
      let go := fun (s : State) (result : Nat) =>
        let n := chunksOf c (g.n * xBytes s c result)
        (rangeFrom 0 ((n + 3) / 4)).foldl (fun s i =>
          sendCtl s (ringIn g.ring) 0x11 [(1, c.slot), (2, min 4 (n - 4 * i)), (4, segBase s c result e.1 + 4 * i)]) s
      let s := if dReduces (collDesc c) ∧ h.2 ≠ nextHub h.1 g.ring g.owner then go s 0 else s
      if h.2 ≠ g.owner ∧ (dOp (collDesc c) ≠ 1 ∨ (weightStep s c).isSome = true) then go s 1 else s) s
  else s

/-- Whether every sender has staged the whole of a chunk. -/
def chunkStaged (s : State) (c : Coll) (chunk : Nat) : Bool :=
  let len := min (dChunk (collDesc c)) (sendBytes c - chunk * dChunk (collDesc c))
  (senders s c).all fun n => c.stage.any fun g => g.port == n && g.chunk == chunk && decide (g.bytes.length ≥ len)

/-! ### Completion entries (R168, R170, R171, R206, R306) -/

/-- R170: 64-byte units of the result that are poisoned. -/
def poisonUnits (s : State) (c : Coll) : Nat :=
  let d := collDesc c
  let bad := c.fin.filter fun e => e.2.2
  if dOp d = 6 then bad.length else (dedup (bad.map fun e => e.1 * unitBytes s c / 64)).length

/-- R306: the completion ring of a member can take one more entry of the collective service. -/
def entryRoom (s : State) (n : Nat) : Bool := !postWaits s (partnerRing n 1) && canPost s (partnerRing n 1) (List.replicate 64 0)

/-- R24, R306: the collective service waits for room in a completion ring. Meanwhile it takes no descriptor and serves no chunk. -/
def collWaits (s : State) : Bool :=
  (rangeFrom 0 8).any (fun n => postWaits s (partnerRing n 1)) || s.colls.list.any fun c => c.phase == .posting

/-- R206, R213: what the end of a collective means for the step that it is linked to or named by. -/
def collTold (s : State) (c : Coll) : State :=
  if 2 < c.status then linkEnded s c.id c.status
  else match c.link with
    | some t =>
      if dOp (collDesc c) = 1 then (if c.status = 2 then s else onRun s t fun r => { r with reduced := true })
      else onRun s t fun r => { r with outStatus := some c.status }
    | none => s

/-- RX_BYTES of a member of an ALL_TO_ALL with VARIABLE that has completed. -/
def rxBytes (c : Coll) (n : Nat) : List Nat :=
  if dVariable (collDesc c) ∧ c.status ≤ 2 then
    (rangeFrom 0 8).map fun r => kget 0 c.blocks (8 * r + (collPorts c).findIdx fun p => p == n)
  else []

/-- R168, R170, R171, R306: the completion entries of a collective that has ended are posted, all in one beat, once every member's ring can
take its own (log 112); the window closes and held changes apply. END_BEAT of one whose window never opened is the present beat
(DESIGN CHOICE, log 130). -/
def tellColl (s : State) (uid : Nat) : State :=
  match s.colls.list.find? fun c => c.uid == uid with
  | none => s
  | some c =>
    if c.phase = .posting ∧ c.due.all (fun n => entryRoom s n) = true then
      let e := fun (s : State) (n : Nat) =>
        collEntry c.id c.status c.fld c.openBeat s.drum.count c.nan (poisonUnits s c) (rxBytes c n)
      let s := c.due.foldl (fun s n => collReport s n (e s n)) s
      let s := collTold (putColls s { s.colls with list := s.colls.list.filter fun c => c.uid != uid }) c
      grantAll (if c.openBeat = 0 then s else releaseHeld s)
    else s

/-- Every collective that has ended and is not told yet. -/
def tellColls (s : State) : State := (s.colls.list.map fun c => c.uid).foldl tellColl s

/-- A collective ends with a status: every posted descriptor completes. -/
def endColl (s : State) (c : Coll) (status fld : Nat) : State :=
  tellColl (putColl s { c with phase := .posting, status := status, fld := fld, due := c.posts.map fun p => p.1 }) c.uid

/-! ### Matching (R167 to R174) -/

/-- Table 7.6: whether a collective that a step names as its BROADCAST (`bcast`) or as its REDUCE meets the requirements. -/
def linkFits (x : Table) (d : List Byte) (bcast : Bool) : Bool :=
  dRoot d == 8 && dHub d == tbBase x && !dCross d &&
  (if bcast then dOp d == 5 && dCount d == tbCount x * fmtBytes (tbOut x) && field d 8 1 == 0
   else dOp d == 1 && dRedop d == 0 && dOutCode d == 0 && dCount d == tbCount x)

/-- The collective trains in service (Table 2.4). -/
def collTrains (s : State) : List Nat :=
  (rangeFrom 0 s.consist.cfg.trains.length).filter fun t => (lget { rakes := 0, service := 0 } s.consist.cfg.trains t).service == 1

/-- R174: the train with the fewest collectives that are matched and not closed, the lowest on a tie. -/
def pickTrain (s : State) : Nat :=
  let load := fun (t : Nat) => (s.colls.list.filter fun c => (c.phase == .matched || windowOpen c) && c.train == t).length
  match collTrains s with
  | [] => 0
  | t :: r => r.foldl (fun b t => if load t < load b then t else b) t

/-- The lowest free SLOT. -/
def freeSlot (s : State) : Nat :=
  match (rangeFrom 0 64).find? fun k => !(s.colls.list.any fun c => c.slot == k) with
  | some k => k
  | none => 64

/-- R166, R204: the range at HUB_ADDR against the rights of a train. -/
def hubRangeOk (s : State) (d : List Byte) (t : Nat) : Bool :=
  if dRoot d = 8 ∧ (dOp d = 1 ∨ dOp d = 5) then
    let n := if dOp d = 1 then dCount d * fmtBytes (dOutFmt d) else dCount d
    mayAccessRange s (.train t) (trainSecure s t) (dHub d) n (dOp d == 1)
  else true

/-- R302: the digest of a descriptor. -/
def descDigest (d : List Byte) : Nat := crc64 (d.take 0x20 ++ List.replicate 16 0 ++ d.drop 0x30) % 2 ^ 32

/-- R302: the grants of a neighbour hub that came for a SLOT: those chunks may be sent. -/
def takeGrants (c : Coll) (l : List EarlyGrant) : Coll :=
  l.foldl (fun c g => { c with granted := (rangeFrom g.first g.count).foldl (fun m k => kset 0 m (2 ^ 32 * g.port + k) 1) c.granted }) c

/-- R171, R172: the matched collective takes its train, SLOT and start beat, or completes LATE; members are told and get their
first chunks. -/
def startColl (s : State) (c : Coll) (link : Option Nat) (train start : Nat) : State :=
  let b := s.drum.count.toNat
  let rule := if start = 0 then BeatRule.at (BitVec.ofNat 64 (b + 1)) 0 else beatRule start b s.consist.cfg.drum.lateTol
  match rule with
  | .refuse => regAddSat (endColl s c 5 0) rCollStat 15 0 1
  | .at x late =>
    let slot := freeSlot s
    let c := { c with phase := .matched, train := train, slot := slot, openAt := x, startAt := x, late := late, link := link }
    let c := takeGrants c
      (s.colls.grants.filter fun g => g.slot == slot)
    let s := putColl { s with colls := { s.colls with grants := s.colls.grants.filter fun g => g.slot != slot } } c
    let h := collHubs s c
    let k := (collPorts c).length
    let s := ((rangeFrom 0 k).zip (collPorts c)).foldl (fun s e =>
      sendCtl s e.2 0x10 [(1, c.slot), (2, if dCross (collDesc c) then h.2 * k + e.1 else e.1),
        (3, if dCross (collDesc c) then h.1 * k else k), (4, c.id), (8, x.toNat)]) s
    grantX (grantAll s) c

/-- R166, R167, R203, R204: every member has posted: agreement, links, the hub range, then the start. -/
def matchColl (s : State) (c : Coll) (start : Nat) : State :=
  let d := collDesc c
  match disagreement (c.posts.map fun p => p.2) with
  | some o => endColl s c 3 o
  | none =>
    let bad := fun (s : State) => endColl s c 6 0x30
    let plain := fun (s : State) =>
      let t := pickTrain s
      let n := if dOp d = 1 then dCount d * fmtBytes (dOutFmt d) else dCount d
      if dRoot d = 8 ∧ (dOp d = 1 ∨ dOp d = 5) ∧ (meetsTable s (dHub d) n ∨ ¬ hubRangeOk s d t) then bad s
      else startColl s c none t start
    let one := fun (p : State × Option Nat) (bcast : Bool) =>
      (linksOf p.1 c.id bcast).foldl (fun (p : State × Option Nat) l =>
        if linkFits (getTable p.1 l.1) d bcast && p.2.isNone then (p.1, some l.1) else (linkMisfit p.1 l.1 l.2 bcast, p.2)) p
    match one (one (s, none) false) true with
    | (s, some t) => if hubRangeOk s d (tbTrain (getTable s t)) then startColl s c (some t) (pickTrain s) start else bad s
    | (s, none) => plain s

/-- R302: a CROSS collective matched here tells the neighbour behind P1, and every hub waits for the others. -/
def crossMatched (s : State) (c : Coll) : State :=
  let d := collDesc c
  let h := s.consist.cfg.topology.hubCount
  let mine := s.colls.posts.filter fun p => p.id == c.id
  if mine.length < h - 1 then s
  else
    let s := { s with colls := { s.colls with posts := s.colls.posts.filter fun p => p.id != c.id } }
    if mine.any fun p => p.digest != descDigest d then endColl s c 3 0
    else
      let own := max (dStart d) (c.openAt.toNat)
      matchColl s c (mine.foldl (fun m p => max m p.beat) own)

/-- All members of this hub have posted. -/
def localMatch (s : State) (c : Coll) : State :=
  let d := collDesc c
  if dCross d ∧ disagreement (c.posts.map fun p => p.2) = none then
    let beat := max (dStart d) (s.drum.count.toNat + 2500)
    let c := { c with openAt := BitVec.ofNat 64 beat, handed := [1] }
    let s := putColl s c
    let s := sendCtl s 9 0x50 [(2, s.consist.cfg.topology.hubIndex), (4, c.id), (8, descDigest d), (12, beat % 2 ^ 32)]
    crossMatched s { c with handed := [] }
  else matchColl s c (dStart d)

/-- R165, R168: a descriptor that a port posts. -/
def postColl (s : State) (n : Nat) (d : List Byte) : State :=
  let refuse := fun (f : Nat) => collReport s n (collEntry (dId d) 6 f 0 s.drum.count 0 0 [])
  match (descChecks s n d).find? fun k => !k.2 with
  | some k => refuse k.1
  | none =>
    if s.colls.list.any fun c => c.id == dId d && c.posts.any fun p => p.1 == n then refuse 0
    else
      match s.colls.list.find? fun c => c.phase == .posted && c.id == dId d with
      | some c =>
        let c := { c with posts := c.posts ++ [(n, d)] }
        let s := putColl s c
        if (dPorts (collDesc c)).all fun m => c.posts.any fun p => p.1 == m then localMatch s c else s
      | none =>
        let c := newColl s.colls.made (dId d) n d s.drum.beats
        let s := { s with colls := { s.colls with list := s.colls.list ++ [c], made := s.colls.made + 1 } }
        if dPorts d = [n] then localMatch s c else s

/-- R169, R306, R504: whether the hub takes a descriptor of a port. -/
def collTakes (s : State) (n : Nat) : Bool :=
  collTrains s != [] && !collWaits s && decide (s.colls.list.length < 64) &&
  decide ((s.colls.list.filter fun c => c.posts.any fun p => p.1 == n).length < 64) &&
  (match s.host.job with | some j => j.ports.getLsbD n | none => false)

/-- A collective command: the descriptor posted by a port, or taken from its ring; its OP is the command's. -/
def collPost (s : State) (src : Origin) (raw : List Byte) (op : Nat) : State :=
  match src with
  | .port n => if raw.length = 64 ∧ dOp raw = op ∧ collTakes s n = true ∧ n < 8 then postColl s n raw else s
  | .ring _ => s

/-- REDUCE (R163, R165 to R168). -/
def execReduce (src : Origin) (raw : List Byte) (s : State) : Host.Outcome State Fault Refusal := .next (collPost s src raw 1)
/-- ALL_REDUCE (R163, R165 to R168). -/
def execAllReduce (src : Origin) (raw : List Byte) (s : State) : Host.Outcome State Fault Refusal := .next (collPost s src raw 2)
/-- REDUCE_SCATTER (R163, R165 to R168). -/
def execReduceScatter (src : Origin) (raw : List Byte) (s : State) : Host.Outcome State Fault Refusal := .next (collPost s src raw 3)
/-- ALL_GATHER (R163, R165 to R168). -/
def execAllGather (src : Origin) (raw : List Byte) (s : State) : Host.Outcome State Fault Refusal := .next (collPost s src raw 4)
/-- BROADCAST (R163, R165 to R168). -/
def execBroadcast (src : Origin) (raw : List Byte) (s : State) : Host.Outcome State Fault Refusal := .next (collPost s src raw 5)
/-- ALL_TO_ALL (R163, R165 to R168). -/
def execAllToAll (src : Origin) (raw : List Byte) (s : State) : Host.Outcome State Fault Refusal := .next (collPost s src raw 6)

/-- COLL_UNMATCHED (R168): MATCH_BEATS have passed since the first descriptor of a COLL_ID. -/
def execCollUnmatched (id : Nat) (s : State) : Host.Outcome State Fault Refusal :=
  match s.colls.list.find? fun c => c.phase == .posted && c.id == id with
  | some c =>
    if c.since + max 2500 (regBits s rCollCtl 31 0) ≤ s.drum.beats then
      .next (endColl s c 4 0)
    else .next s
  | none => .next s

/-! ### Windows (R171 to R173, R191, R236) -/

/-- R236: the members and the tables that a take holds, from its CUT_BEAT to its resume beat. -/
def cutsNow (s : State) : List (Nat × Nat) :=
  (match s.snap.take with
   | some t => if t.fits && decide (field t.raw 0x10 8 ≤ s.drum.count.toNat) then [(field t.raw 6 1, field t.raw 0x18 8)] else []
   | none => []) ++
  (match s.snap.hold with
   | some h => if h.resume.ule s.drum.count then [] else [(h.members, h.tables)]
   | none => [])

/-- R236: a take holds what contains its members. -/
def cutHolds (s : State) (ports : List Nat) : Bool := (cutsNow s).any fun c => ports.any fun n => nbit c.1 n

/-- R191: a change is held for one of the ports. -/
def changeHolds (s : State) (ports : List Nat) : Bool := ports.any fun n => (heldPorts s).contains n

/-- R171 to R173, R191: a matched window opens once its start beat is here, unless a cut or a held change stops it. -/
def openColl (s : State) (c : Coll) : State :=
  if c.phase ≠ .matched ∨ ¬ c.openAt.ule s.drum.count then s
  else if changeHolds s (collPorts c) ∧ c.heldBack = false then putColl (regAddSat s rCollStat 47 32 1) { c with heldBack := true }
  else if changeHolds s (collPorts c) ∨ cutHolds s (collPorts c) then s
  else
    let s := if c.late = 0 then s else
      let s := regAddSat s rCollStat 31 16 1
      if regBits s rDrumLate 31 0 < c.late then regPut s rDrumLate 31 0 (min c.late 0xFFFFFFFF) else s
    let c := { c with phase := .opened, openBeat := s.drum.count, openMark := s.drum.beats, order := s.colls.opens }
    let s := putColl s c
    putColls s { s.colls with opens := s.colls.opens + 1 }

/-- Every window that is due opens, in order. -/
def openDue (s : State) : State :=
  (sortColls opensBefore s.colls.list).foldl (fun s c => openColl s c) s

/-- COLL_WINDOW_OPEN (R171): the window of a SLOT opens at its start beat. -/
def execCollWindowOpen (slot : Nat) (s : State) : Host.Outcome State Fault Refusal :=
  match collOf s slot with
  | some c => .next (openColl s c)
  | none => .next s

/-- A window that contains a member is open. -/
def memberOpen (s : State) (n : Nat) : Bool := s.colls.list.any fun c => windowOpen c && (collPorts c).contains n

/-- A window is open on a train (R470). -/
def windowOpenOn (s : State) (t : Nat) : Bool := s.colls.list.any fun c => windowOpen c && c.train == t

/-! ### Data (R175, R180, R298) -/

/-- R287: the 64-byte units that marked quarters of a payload reach. -/
def markedUnits (base bytes pois : Nat) : List Nat :=
  dedup ((rangeFrom 0 4).flatMap fun q =>
    if nbit pois q then (rangeFrom (base + 60 * q) (min 60 (bytes - 60 * q))).map fun x => x / 64 else [])

/-- A member's flit: it must be the next of its port. -/
def memberFlit (s : State) (f : Flit) (c : Coll) : State :=
  let h := flitHdr f
  let n := f.port
  let chunk := nbits h 51 32
  let off := nbits h 31 19
  let bytes := nbits h 18 11
  let L := dChunk (collDesc c)
  let nx := kget (0, 0) c.next n
  let len := min L (sendBytes c - chunk * L)
  if !(senders s c).contains n || nx != (chunk, off) || decide (kget 0 c.granted n ≤ chunk) || nbit h 6 ||
     bytes != min 240 (len - 240 * off) || c.phase != .opened then protocolError s n 7 0
  else
    let g := match c.stage.find? fun g => g.port == n && g.chunk == chunk with
      | some g => g
      | none => { port := n, chunk := chunk, bytes := [], pois := [] }
    let g := { g with bytes := g.bytes ++ f.payload.take bytes, pois := (markedUnits (240 * off) bytes (nbits h 10 7)).foldl nadd g.pois }
    let rest := c.stage.filter fun e => !(e.port == n && e.chunk == chunk)
    let nx := if 240 * (off + 1) ≥ len then (chunk + 1, 0) else (chunk, off + 1)
    putColl s { c with stage := rest ++ [g], next := kset (0, 0) c.next n nx }

/-- R187, R302: whether this hub receives partials (0) or finished units (1) of a segment, and so has granted its chunks. -/
def segComes (s : State) (c : Coll) (result : Nat) (g : Seg) : Bool :=
  let h := collHubs s c
  collCross s c && (if result = 0 then dReduces (collDesc c) && h.2 != nextHub h.1 g.ring g.owner
    else h.2 != g.owner && (dOp (collDesc c) != 1 || (weightStep s c).isSome))

/-- R170: a unit that arrives finished: one of a reduction's result that is the canonical NaN counts. -/
def arrivedUnit (s : State) (c : Coll) (g : Seg) (u : Nat) (v : Nat × Bool) : Coll :=
  let d := collDesc c
  let c := if dReduces d && !v.2 && numDecode (dOutFmt d) v.1 == .nan then { c with nan := c.nan + 1 } else c
  finishUnit s c g u v

/-- A neighbour hub's flit: partials and finished units of the segment that its chunk lies in (R187, R302, log 46). It must be the next
of its segment. -/
def neighbourFlit (s : State) (f : Flit) (c : Coll) : State :=
  let h := flitHdr f
  let result := nbits h 6 6
  let chunk := nbits h 51 32
  let ub := xBytes s c result
  let segs := collSegs s c
  match ((rangeFrom 0 segs.length).zip segs).find? fun e =>
      let b := segBase s c result e.1
      decide (b ≤ chunk) && decide (chunk < b + chunksOf c (e.2.n * ub)) with
  | some (k, g) =>
    let i := (kget (0, 0) c.next (segKey k result)).1
    let (ch, fl, first, n) := segFlit s c result g i
    if ringIn g.ring ≠ f.port ∨ segComes s c result g = false ∨ chunk ≠ segBase s c result k + ch ∨ nbits h 31 19 ≠ fl ∨ n = 0 ∨
       nbits h 18 11 ≠ n * ub then protocolError s f.port 7 0
    else
      let vs := (rangeFrom 0 n).map fun j => (first + j, field f.payload (ub * j) ub, (quarters (ub * j) ub).any fun z => nbit (nbits h 10 7) z)
      let c := { c with next := kset (0, 0) c.next (segKey k result) (i + 1, 0) }
      let (s, c) := vs.foldl (fun (p : State × Coll) v =>
        if result = 0 then (p.1, { p.2 with part := kput p.2.part v.1 (v.2.1, v.2.2) })
        else match weightStep p.1 p.2 with
          | some (t, raw) => arrivedWeight p.1 p.2 t raw g v.1 (v.2.1, v.2.2)
          | none => (p.1, arrivedUnit p.1 p.2 g v.1 (v.2.1, v.2.2))) (s, c)
      let s := putColl s c
      let (s, c) := flushX s c
      emitResults (putColl s c) c
  | none => protocolError s f.port 7 0

/-- COLL_DATA (R175, R298, R302): a collective data flit arrives. Flits of a partner that come while no job runs are discarded
(R308). -/
def execCollData (f : Flit) (s : State) : Host.Outcome State Fault Refusal :=
  let h := flitHdr f
  let bytes := nbits h 18 11
  let (s, a) := takeFlit s f 7 2 (nbits h 5 0 == 0 && decide (1 ≤ bytes) && decide (bytes ≤ 240) && zeroFrom f.payload bytes)
  if !a || s.host.job.isNone then .next s
  else match collOf s (nbits h 57 52) with
    | some c => .next (if f.port < 8 then memberFlit s f c else neighbourFlit s f c)
    | none => .next (protocolError s f.port 7 0)

/-! ### Serving chunks (R173, R177, R205) -/

/-- A reduction's chunk: every element that can be formed; the staging is freed once all are. -/
def reduceChunk (s : State) (c : Coll) : State :=
  let d := collDesc c
  let ib := fmtBytes (dIn d)
  let k := c.served
  let n := min (dChunk d) (sendBytes c - k * dChunk d) / ib
  let (s, c) := (rangeFrom 0 n).foldl (fun (p : State × Coll) j => reduceElem p.1 p.2 k ib j) (s, c)
  let all := (rangeFrom (k * (dChunk d / ib)) n).all fun u => c.handed.contains u
  let c := if all then
      { c with served := k + 1, stage := c.stage.filter fun g => g.chunk != k,
               handed := c.handed.filter fun u => decide ((k + 1) * (dChunk d / ib) ≤ u) }
    else c
  let (s, c) := flushX s c
  emitResults (putColl s c) c

/-- The units of one staged chunk of a copy: ALL_GATHER and BROADCAST from a member. -/
def copyChunk (s : State) (c : Coll) : State :=
  let d := collDesc c
  let k := c.served
  let h := collHubs s c
  let m := (collPorts c).length
  let c := (senders s c).foldl (fun (c : Coll) n =>
    match c.stage.find? fun g => g.port == n && g.chunk == k with
    | some st =>
      let block := if dOp d = 4 then h.2 * m + (collPorts c).findIdx (fun p => p == n) else 0
      let base := block * (dCount d / 16) + k * (dChunk d / 16)
      (rangeFrom 0 (st.bytes.length / 16)).foldl (fun (c : Coll) j =>
        let u := base + j
        let g := match segOf s c u with | some g => g | none => ⟨0, 0, 0, 0⟩
        finishUnit s c g u (field st.bytes (16 * j) 16, st.pois.contains (16 * j / 64))) c
    | none => c) c
  let c := { c with served := k + 1, stage := c.stage.filter fun g => g.chunk != k }
  let (s, c) := flushX s c
  emitResults (putColl s c) c

/-- A chunk of a BROADCAST from hub memory, poison and all. -/
def hubChunk (s : State) (c : Coll) : State :=
  let d := collDesc c
  let k := c.served
  let n := min (dChunk d) (dCount d - k * dChunk d) / 16
  let c := (rangeFrom (k * (dChunk d / 16)) n).foldl (fun (c : Coll) u =>
    let a := dHub d + 16 * u
    let g := match segOf s c u with | some g => g | none => ⟨0, 0, 0, 0⟩
    finishUnit s c g u (memVal s a 16, blockPoisoned s (a / 64))) c
  let c := { c with served := k + 1 }
  let (s, c) := flushX s c
  emitResults (putColl s c) c

/-- The bytes of a linked BROADCAST that the step has produced, of `n` units from `u`: units of 16 bytes, or weights of a sharded
table. None while one is missing. -/
def linkedUnits (s : State) (t ub u : Nat) (x : Table) (r : StepRun) : Option Nat :=
  let w := fmtBytes (tbOut x)
  let ready := weightsReady x r
  let one := fun (i : Nat) =>
    match localIdx s x i with
    | some l =>
      if tbKind x = 0xF then
        (match s.tables.outs.find? fun e => e.1 == t * 2 ^ 40 + l / 1024 with
         | some (_, b) => some (field b (w * (l % 1024)) w)
         | none => none)
      else if l < ready ∧ (tbSharded x = false ∨ localCount s x ≤ ready) then some (emitWeight s t x (cmStep r.cmd.raw) l) else none
    | none => none
  (rangeFrom (u * ub / w) (ub / w)).foldr (fun i acc =>
    match one i, acc with
    | some v, some a => some (v + a * 2 ^ (8 * w))
    | _, _ => none) (some 0)

/-- R205: the units of the next chunk of a linked BROADCAST; of a sharded table the own units not handed over yet. -/
def linkedNext (s : State) (c : Coll) (x : Table) : List Nat :=
  if tbSharded x then
    (rangeFrom 0 (tbCount x)).filter fun i => (localIdx s x i).isSome && !(c.fin.any fun e => e.1 == i)
  else
    let per := dChunk (collDesc c) / fmtBytes (tbOut x)
    rangeFrom (c.served * per) (min per (tbCount x - c.served * per))

/-- R205, R215: whether the step has produced the weights that a linked BROADCAST sends next: all of its next chunk; of a sharded table,
any. -/
def linkedReady (s : State) (c : Coll) (t : Nat) : Bool :=
  let x := getTable s t
  match x.run with
  | none => false
  | some r =>
    let us := linkedNext s c x
    let made := fun (u : Nat) => (linkedUnits s t (fmtBytes (tbOut x)) u x r).isSome
    namesOut r c.id && (r.checked || !tbSharded x) && us != [] && (if tbSharded x then us.any made else us.all made)

/-- R205: a chunk of a linked BROADCAST: sent once the step has produced every weight that it holds. -/
def linkedChunk (s : State) (c : Coll) (t : Nat) : State :=
  let s := produceAll s t
  let x := getTable s t
  match x.run with
  | none => s
  | some r =>
    let ub := fmtBytes (tbOut x)
    let put := fun (c : Coll) (u : Nat) =>
      match linkedUnits s t ub u x r with
      | some v => finishUnit s c (match segOf s c u with | some g => g | none => ⟨0, 0, 0, 0⟩) u (v, false)
      | none => c
    let us := linkedNext s c x
    let s := if tbKind x = 0xF then s else
      weightPoison s x ((us.filter fun u => (linkedUnits s t ub u x r).isSome).filterMap fun u => localIdx s x u)
    let c := us.foldl put c
    let c := if tbSharded x then c else { c with served := c.served + 1 }
    let (s, c) := flushX s c
    emitResults (putColl s c) c

/-- R187: whether an element of a cross-hub reduction can be formed now. -/
def elemReady (s : State) (c : Coll) (u : Nat) : Bool :=
  let h := collHubs s c
  !c.handed.contains u &&
  (match segOf s c u with
   | some g => h.2 == nextHub h.1 g.ring g.owner || c.part.any fun e => e.1 == u
   | none => true)

/-- R205, R215: the step of a linked REDUCE is ready for its elements. -/
def stepReady (s : State) (c : Coll) : Bool :=
  match c.link with
  | some t =>
    let x := getTable s t
    (match x.run with | some r => namesGrad r c.id && (r.checked || !tbSharded x) | none => false)
  | none => true

/-- R173, R177, R205: the next chunk of a collective can be served now. -/
def chunkReady (s : State) (c : Coll) : Bool :=
  let d := collDesc c
  let staged := senders s c != [] && decide (c.served < memberChunks c) && chunkStaged s c c.served
  if c.phase ≠ .opened ∨ dOp d = 6 then false
  else match c.link, dOp d with
    | some t, 5 => linkedReady (produceAll s t) c t
    | none, 5 =>
      if dRoot d = 8 then decide (c.served < chunksOf c (dCount d)) && (!dCross d || dRootHub d == s.consist.cfg.topology.hubIndex)
      else staged
    | _, 4 => staged
    | _, _ =>
      let per := dChunk d / fmtBytes (dIn d)
      stepReady s c && staged && (!collCross s c || (rangeFrom (c.served * per) per).any fun u => elemReady s c u)

/-- The service of the next chunk of a collective. -/
def serveChunk (s : State) (c : Coll) : State :=
  let d := collDesc c
  match c.link, dOp d with
  | some t, 5 => linkedChunk s c t
  | none, 5 => if dRoot d = 8 then hubChunk s c else copyChunk s c
  | _, 4 => copyChunk s c
  | _, _ => reduceChunk s c

/-- R173: the collective whose turn it is: of those that a chunk of which can be served, the next one in the order in which their windows
opened. -/
def nextServed (s : State) : Option Coll :=
  let l := sortColls openedBefore (s.colls.list.filter fun c => chunkReady s c)
  match l.find? fun c => decide (s.colls.turn ≤ c.order) with
  | some c => some c
  | none => l.head?

/-- COLL_CHUNK_REDUCE (R173, R177 to R180, R187, R205): the next chunk of the collective of a SLOT is served when it is its turn. Elements
of a cross-hub reduction whose partial has not come keep the chunk staged. -/
def execCollChunkReduce (slot : Nat) (s : State) : Host.Outcome State Fault Refusal :=
  match nextServed s with
  | some c =>
    if c.slot = slot ∧ !collWaits s then
      .next (grantAll (serveChunk { s with colls := { s.colls with turn := c.order + 1 } } c))
    else .next s
  | none => .next s

/-! ### All-to-all (R185, R186, R300) -/

/-- The dispatch pool of a pair of ports. -/
def poolUsed (s : State) (a b : Nat) : Nat := kget 0 s.colls.pools (8 * a + b)

/-- A flit of an ALL_TO_ALL: checked for rank and credit, forwarded unmodified. -/
def dispatchFlit (s : State) (f : Flit) (kind : Nat) (c : Coll) : State :=
  let h := flitHdr f
  let ps := collPorts c
  let src := nbits h 51 49
  let dst := nbits h 48 46
  match ps[src]?, ps[dst]? with
  | some a, some b =>
    if a ≠ f.port ∨ a = b ∨ poolUsed s a b ≥ 64 ∨ dOp (collDesc c) ≠ 6 ∨ c.phase ≠ .opened then protocolError s f.port kind 0
    else
      let s := { s with colls := { s.colls with pools := kset 0 s.colls.pools (8 * a + b) (poolUsed s a b + 1) } }
      let key := 8 * src + dst
      let c := if kind = 9 then { c with ended := nadd c.ended key }
        else
          let bytes := nbits h 25 18
          let fl := nbits h 45 26
          let c := { c with blocks := kset 0 c.blocks key (kget 0 c.blocks key + bytes) }
          { c with fin := (markedUnits (240 * fl) bytes (nbits h 17 14)).foldl (fun m u => kput m (key * 2 ^ 40 + u) (0, true)) c.fin }
      let s := putColl s c
      forwardFlit s a b kind (h % 2 ^ 58) c.uid f.payload
  | _, _ => protocolError s f.port kind 0

/-- DISPATCH (R185, R186, R300). -/
def execDispatch (f : Flit) (s : State) : Host.Outcome State Fault Refusal :=
  let h := flitHdr f
  let bytes := nbits h 25 18
  let (s, a) := takeFlit s f 8 2 (nbits h 13 0 == 0 && decide (1 ≤ bytes) && decide (bytes ≤ 240) && zeroFrom f.payload bytes &&
    decide (f.port < 8))
  if !a || s.host.job.isNone then .next s
  else match collOf s (nbits h 57 52) with
    | some c => .next (dispatchFlit s f 8 c)
    | none => .next (protocolError s f.port 8 0)

/-- DISPATCH_END (R186, R300): the end of a block of variable length; it takes a credit like any other flit. -/
def execDispatchEnd (f : Flit) (s : State) : Host.Outcome State Fault Refusal :=
  let h := flitHdr f
  let (s, a) := takeFlit s f 9 2 (nbits h 45 0 == 0 && zeroFrom f.payload 8 && decide (f.port < 8))
  if !a || s.host.job.isNone then .next s
  else match collOf s (nbits h 57 52) with
    | some c => .next (if dVariable (collDesc c) then dispatchFlit s f 9 c else protocolError s f.port 9 0)
    | none => .next (protocolError s f.port 9 0)

/-- DISPATCH_CREDIT (R186, R300): a forwarded flit has left the destination port and its credit goes back to the sender. -/
def execDispatchCredit (src dst : Nat) (s : State) : Host.Outcome State Fault Refusal :=
  if src < 8 ∧ dst < 8 ∧ unsentFrom s src dst < poolUsed s src dst then
    let s := { s with colls := { s.colls with pools := kset 0 s.colls.pools (8 * src + dst) (poolUsed s src dst - 1) } }
    .next (sendCtl s src 0x12 [(1, dst), (2, 1)])
  else .next s

/-! ### Completion (R170, R182, R183) -/

/-- R186, R300: whether every block of an ALL_TO_ALL is through. -/
def dispatchDone (c : Coll) : Bool :=
  let d := collDesc c
  let n := (collPorts c).length
  (rangeFrom 0 n).all fun a => (rangeFrom 0 n).all fun b =>
    a == b || (if dVariable d then c.ended.contains (8 * a + b) else decide (dCount d ≤ kget 0 c.blocks (8 * a + b)))

/-- R170: whether the last result has been delivered. -/
def collDone (s : State) (c : Coll) : Bool :=
  let d := collDesc c
  let h := collHubs s c
  if c.phase ≠ .opened then false
  else if dOp d = 6 then dispatchDone c
  else
    ((receivers s c).all fun n => decide (chunksOf c ((shareOf s c n).2 * unitBytes s c) ≤ kget 0 c.sent n)) &&
    (senders s c == [] || decide (memberChunks c ≤ c.served)) && c.xout == [] &&
    (!(collCross s c) || !dReduces d || (c.link.isSome && (weightStep s c).isNone) || (rangeFrom 0 (resultUnits s c)).all fun u => c.fin.any fun e => e.1 == u) &&
    (h.1 == 1 || c.part == [])

/-- COLL_COMPLETE (R170, R171, R191): the last result is delivered: the completion entries are posted, the window closes, held changes
apply; a linked REDUCE or BROADCAST tells its step. -/
def execCollComplete (slot : Nat) (s : State) : Host.Outcome State Fault Refusal :=
  match collOf s slot with
  | none => .next s
  | some c =>
    if collDone s c then .next (endColl s c (if poisonUnits s c ≠ 0 then 2 else if c.nan ≠ 0 then 1 else 0) 0) else .next s

/-- R182: the first member in rank order whose input has not all arrived. -/
def missingMember (s : State) (c : Coll) : Option Nat :=
  let d := collDesc c
  let ps := collPorts c
  if dOp d = 6 then
    ((rangeFrom 0 ps.length).zip ps).findSome? fun e =>
      if (rangeFrom 0 ps.length).all fun b => e.1 == b ||
          (if dVariable d then c.ended.contains (8 * e.1 + b) else decide (dCount d ≤ kget 0 c.blocks (8 * e.1 + b))) then none
      else some e.2
  else (senders s c).find? fun n => decide ((kget (0, 0) c.next n).1 < memberChunks c)

/-- COLL_STALL (R182): STALL_BEATS after its opening a collective still misses input. A linked BROADCAST has none to miss (R205). -/
def execCollStall (slot : Nat) (s : State) : Host.Outcome State Fault Refusal :=
  match collOf s slot with
  | none => .next s
  | some c =>
    if c.phase = .opened ∧ c.stalled = false ∧ c.openMark + max 2500 (regBits s rCollCtl 63 32) ≤ s.drum.beats then
      match missingMember s c with
      | some n => .next (putColl (raise s (srcTrain c.train) 0x0A 2 (n + c.id * 2 ^ 16)) { c with stalled := true })
      | none => .next s
    else .next s

/-- R183: collective data and forwarded flits of the collectives that end, which wait at a port, are not sent; those of one that has
posted its entries go before these. Entries that wait for a port that is not ACTIVE are not posted. -/
def dropCollData (s : State) : State :=
  let s := (rangeFrom 0 10).foldl (fun s n =>
    let l := getLink s n
    let ends := fun (e : Nat × Out) =>
      let k := nbits (lget 0 e.2.args 0) 63 60
      (k == 7 || k == 8 || k == 9) && s.colls.list.any fun c => c.uid == lget 0 e.2.args 2
    putLink s n { l with wait := l.wait.filter fun e => !ends e }) s
  putHost s { s.host with waiting := s.host.waiting.filter fun e => isHostRing e.1 || ringK e.1 != 1 || portActive s (ringPort e.1) }

/-- R183: at the end of the job every collective that has not posted its entries completes ABORTED to the members whose ports are
ACTIVE. -/
def abortColls (s : State) : State :=
  let s := dropCollData s
  let cs := s.colls.list
  let s := cs.foldl (fun s c => outAborted s c.id) s
  let s := cs.foldl (fun s c =>
    c.posts.foldl (fun s p =>
      if portActive s p.1 then collReport s p.1 (collEntry c.id 7 0 c.openBeat s.drum.count c.nan (poisonUnits s c) []) else s) s) s
  releaseHeld (putColls s { s.colls with list := [], posts := [], steps := [], pools := [], grants := [], stale := [] })

/-- COLL_CREDIT (R302): a neighbour hub grants chunks; a grant for a collective that has not matched here waits for it. -/
def execCollCredit (c : Ctl) (s : State) : Host.Outcome State Fault Refusal :=
  let (s, a) := takeCtl s c 0x11 (fromHub c)
  if !a then .next s
  else
    let g : EarlyGrant := { port := c.port, slot := field c.msg 1 1, first := field c.msg 4 4, count := field c.msg 2 1 }
    match s.colls.list.find? fun e => e.slot == g.slot && collCross s e with
    | some co =>
      let (s, co) := flushX s (takeGrants co [g])
      .next (putColl s co)
    | none => .next { s with colls := { s.colls with grants := s.colls.grants ++ [g] } }

/-- XH_POST (R302): forwarded unless its origin is the hub behind P1, counted towards the match. -/
def execXhPost (c : Ctl) (s : State) : Host.Outcome State Fault Refusal :=
  let (s, a) := takeCtl s c 0x50 (fromHub c)
  if !a then .next s
  else
    let h := s.consist.cfg.topology
    let o := field c.msg 2 2
    let s := if o = (h.hubIndex + 1) % max 1 h.hubCount then s
      else sendFlit s 9 6 3 (2 ^ 54) c.msg
    let low := field c.msg 12 4
    let now := s.drum.count.toNat
    -- the proposed beat's high bits are those that bring it nearest to the present beat
    let beat := ((now + 2 ^ 31 - low) / 2 ^ 32) * 2 ^ 32 + low
    let p : XhPost := { id := field c.msg 4 4, origin := o, digest := field c.msg 8 4, beat := beat }
    let s := { s with colls := { s.colls with posts := (s.colls.posts.filter fun (e : XhPost) => !(e.id == p.id && e.origin == o)) ++ [p] } }
    match s.colls.list.find? fun (e : Coll) => e.phase == .posted && e.id == p.id && e.handed == [1] with
    | some e => .next (crossMatched s { e with handed := [] })
    | none => .next s

/-- DRUM_COLL_FULL (R175, R186), once per beat: ports from which credits are withheld, ports toward which a pool is empty. Completion
entries that waited for room are posted (R306). -/
def collBeat (s : State) : State :=
  let s := tellColls s
  (rangeFrom 0 8).foldl (fun s n =>
    let full := s.colls.list.any fun c => c.phase == .opened && (senders s c).contains n &&
      decide (kget 0 c.granted n < memberChunks c)
    let s := if full then regAddSat s (rCollFull n) 63 32 1 else s
    if (rangeFrom 0 8).any fun a => decide (poolUsed s a n ≥ 64) then regAddSat s (rCollFull n) 31 0 1 else s) s

/-- R205, R215: of a sharded table, a chunk that a member is to get next lacks a weight that this hub's step has not made: one of its own
still to come, or another hub's. -/
def shardWaits (s : State) (c : Coll) (t : Nat) : Bool :=
  let x := getTable s t
  let ub := fmtBytes (tbOut x)
  let per := dChunk (collDesc c) / ub
  let made := fun (u : Nat) => match x.run with | some r => (linkedUnits s t ub u x r).isSome | none => false
  (receivers s c).any fun n =>
    let k := kget 0 c.sent n
    (rangeFrom (k * per) (min per (tbCount x - k * per))).any fun u => !(c.fin.any fun e => e.1 == u) && !made u

/-- R205, once per beat: a chunk of a linked BROADCAST waits for its weights. -/
def linkBeat (s : State) : State :=
  if s.colls.list.any fun c => c.phase == .opened && dOp (collDesc c) == 5 &&
      (match c.link with
       | some t =>
         if tbSharded (getTable s t) then shardWaits s c t else linkedNext s c (getTable s t) != [] && !linkedReady s c t
       | none => false) then regAddSat s rSstat 31 0 1
  else s

end Sys2Proof.Machine
end

