-- ==== Sys2Proof/Machine/StateService.lean ====
section
/-! DEFINITION. Chapter 07: the state service: commands, tables, steps, user programs, embedding tables (R196 to R226), and the
coach's ring instructions (R129, R130). -/

namespace Sys2Proof.Machine

/-! ### Checking a command (R199, Table 7.3) -/

/-- Table 7.3: each field's offset and whether it is in its range, in ascending order. -/
def cmdChecks (r : List Byte) : List (Nat × Bool) :=
  let c := cmCmd r
  let fl := cmFlags r
  let z := fun (o n : Nat) => field r o n == 0
  let ix := c == 4 || c == 5
  let out := field r 0x14 4
  let gs := field r 0x20 4
  [(4, decide (1 ≤ c) && decide (c ≤ 6)),
   (5, decide (cmTable r ≤ 63)),
   (6, if c = 3 then decide (fl < 16) && fl % 4 != 3 else if c = 5 then decide (fl ≤ 1) else fl == 0),
   (7, z 7 1),
   (8, if c = 1 then cmStep r % 256 == 0 else if c = 2 then z 8 8 else decide (1 ≤ cmStep r) && decide (cmStep r < 2 ^ 24)),
   (0x10, c == 3 || (if ix then decide (1 ≤ cmGrad r) && decide (cmGrad r ≤ 65536) else z 0x10 4)),
   (0x14, c == 3 || (if c = 4 then decide (out % 16 ≤ 2) && decide (out / 256 % 16 ≤ 8) && out % 256 / 16 == 0 && out / 4096 == 0
      else if c = 5 then decide (out ≤ 2) else z 0x14 4)),
   (0x18, c == 3 || c == 6 || z 0x18 4),
   (0x1C, c == 3 || (if c = 6 then decide (1 ≤ field r 0x1C 4) && decide (field r 0x1C 4 < 512) else z 0x1C 4)),
   (0x20, c == 3 || (if c = 6 then decide (gs < 256) && decide (-32 ≤ signedOf 8 gs) && decide (signedOf 8 gs ≤ 32) else z 0x20 4)),
   (0x24, c == 3 || z 0x24 4),
   (0x28, if c = 3 ∨ ix = true then cmSrc r % 64 == 0 else z 0x28 8),
   (0x30, if c = 3 ∨ ix = true then cmDst r % 64 == 0 else z 0x30 8),
   (0x38, z 0x38 8)]

/-- Who posted a command, as a bit of MEMBERS (R220): partner n, or 8 for the host. -/
def srcBit (o : Origin) : Nat := match o with | .port n => n | .ring _ => 8

/-! ### Defining tables (R196, R197, Tables 7.1, 7.2) -/

/-- R196: a range lies in regions that the state train owns, in its world. -/
def ownedRange (s : State) (t a n : Nat) : Bool :=
  (blocksOf a n).all fun b =>
    match regionOf s (64 * b) with
    | some g => g.owner == 0x20 + t && g.secure == trainSecure s t && decide (64 * b < memTop s)
    | none => false

/-- R196: a range meets no area of another table. -/
def areaFree (s : State) (t a n : Nat) : Bool :=
  !s.tables.table.any fun e => e.1 != t && e.2.st != .free && (tableAreas s e.2).any fun r => rangesMeet r.1 r.2 a n

/-- Table 7.2: the entries of an Adafactor shape list tile 0 to P − 1. -/
def shapesTile (s : State) (x : Table) : Bool :=
  ((rangeFrom 0 (tbListN x)).foldl (fun (p : Nat × Bool) k =>
    let e := shapeEntry s x k
    (e.1 + e.2.1 * e.2.2, p.2 && e.1 == p.1 && decide (1 ≤ e.2.1) && decide (1 ≤ e.2.2))) (0, true)) == (tbCount x, true)

/-- Table 7.1, R196 and Table 7.2: each field's offset in the block and whether it stands. -/
def tableChecks (s : State) (t : Nat) (x : Table) : List (Nat × Bool) :=
  let k := tbKind x
  let emb := k == 0x20 || k == 0x21
  let w := fmtBytes (tbOut x)
  let z := fun (o n : Nat) => field x.raw o n == 0
  let area := fun (i : Nat) => match (tableAreas s x)[i]? with
    | some r => ownedRange s (tbTrain x) r.1 r.2 && areaFree s t r.1 r.2
    | none => true
  let auxIdx := 1
  let listIdx := if k = 0x20 then 1 else 2
  let isUser := k == 0xF
  [(0, k == 1 || k == 2 || k == 3 || k == 4 || isUser || emb),
   (1, decide (field x.raw 1 1 ≤ 2)),
   (2, decide (field x.raw 2 1 < 8) && (!tbNesterov x || k == 3) && (!tbSharded x || (decide (1 ≤ k) && decide (k ≤ 3)))),
   (3, decide (tbTrain x ≤ 7) && (lget { rakes := 0, service := 0 } s.consist.cfg.trains (tbTrain x)).service == 2),
   (4, decide (field x.raw 4 4 ≤ 2 ^ 24 - 2)),
   (8, tbBase x % 4096 == 0 && area 0),
   (0x10, if emb then decide (1 ≤ tbCount x) && decide (tbCount x ≤ 2 ^ 32)
          else decide (64 ≤ tbCount x) && decide (tbCount x ≤ 2 ^ 40) && tbCount x % 64 == 0),
   (0x18, if emb then tbDim x * w % 64 == 0 && decide (64 ≤ tbDim x * w) && decide (tbDim x * w ≤ 16384) &&
            (k != 0x21 || tbDim x == 2 ^ (bitLen (tbDim x) - 1)) else tbDim x == 0),
   (0x1C, if isUser then decide (4 ≤ tbStride x) && decide (tbStride x ≤ 64) && tbStride x % 4 == 0 else tbStride x == 0),
   (0x34, !emb || tbWd x == 0),
   (0x38, if k = 4 ∨ k = 0x21 then area auxIdx else tbAux x == 0),
   (0x40, if k = 4 then shapesTile s x else if emb then area listIdx else tbList x == 0),
   (0x48, if k = 4 then decide (1 ≤ tbListN x) && decide (tbListN x ≤ 65536)
          else if emb then decide (6 ≤ tbListN x) && decide (tbListN x ≤ 24) else tbListN x == 0),
   (0x4C, z 0x4C 4),
   (0x50, if isUser then field x.raw 0x50 8 % 4096 == 0 &&
            (decide (16 < field x.raw 0x58 1) || codeReadable s (tbTrain x) (field x.raw 0x50 8) (field x.raw 0x58 1)) else z 0x50 8),
   (0x58, if isUser then decide (1 ≤ field x.raw 0x58 1) && decide (field x.raw 0x58 1 ≤ 16) else z 0x58 1),
   (0x59, if isUser then decide (1 ≤ field x.raw 0x59 1) && decide (field x.raw 0x59 1 ≤ 16) else z 0x59 1),
   (0x5A, z 0x5A 6),
   (0x60, isUser || z 0x60 8),
   (0x68, z 0x68 152)]

/-- R197: a table has a command queued or running. -/
def tableBusy (x : Table) : Bool := x.queue != [] || x.run.isSome || x.applies != [] || x.applying.isSome

/-- R197: TABLE_DEFINE by G3. -/
def defineTable (s : State) (c : Cmd) : State :=
  let t := cmTable c.raw
  let a := cmStep c.raw
  if tableBusy (getTable s t) then endCmd s c 0xD 0
  else if !mayAccessRange s (.guard 3) (s.consist.cfg.worlds.guardSecure.getLsbD 3) a 256 false then endCmd s c 2 8
  else match (rangeFrom 0 4).find? fun k => blockPoisoned s (a / 64 + k) with
    | some k => endCmd s c 3 (64 * k)
    | none =>
      let x := { Table.init with st := .ready, raw := memBytes s a 256, last := memVal s (a + 4) 4 }
      match (tableChecks s t x).find? fun k => !k.2 with
      | some k => endCmd s c 3 k.1
      | none => endCmd (putTable s t x) c 0 0

/-- R197, R199: TABLE_RELEASE by G3. -/
def releaseTable (s : State) (c : Cmd) : State :=
  let t := cmTable c.raw
  if (getTable s t).st = .free then endCmd s c 3 0
  else if tableBusy (getTable s t) then endCmd s c 0xD 0
  else endCmd (putTable s t Table.init) c 0 0

/-- A table command by G3. -/
def guardTable (s : State) (c : Cmd) : State :=
  let c := { c with start := some s.drum.count }
  if cmCmd c.raw = 1 then defineTable s c else releaseTable s c

/-- R225: G3 restarts with a table command in progress. -/
def resubmitDefine (s : State) : State :=
  match s.tables.define with
  | some c => endCmd { s with tables := { s.tables with define := none } } c 0xC 0
  | none => s

/-! ### Taking commands (R199, R201, R203, R217, R504) -/

/-- R201, R217: a table whose queue is full stops the hub from taking commands for its train. -/
def queueFull (x : Table) : Bool :=
  x.st != .free && decide ((if tbDense x then 4 else 256) ≤ waiting x)

/-- R201, R343, R504: whether the service takes the command. A table command waits for the one that G3 works on. -/
def stateTakes (s : State) (r : List Byte) : Bool :=
  let c := cmCmd r
  let tr := tbTrain (getTable s (cmTable r))
  let def12 := c == 1 || c == 2
  !svcWaits s 8 && (def12 || s.host.job.isSome) && (!def12 || s.tables.define.isNone) &&
  !(decide (cmTable r ≤ 63) && (getTable s (cmTable r)).st != .free &&
    s.tables.table.any fun e => tbTrain e.2 == tr && queueFull e.2)

/-- A command joins its table's queue. -/
def queueCmd (s : State) (c : Cmd) : State :=
  let t := cmTable c.raw
  let x := getTable s t
  putTable s t { x with queue := x.queue ++ [c] }

/-- R203: a collective of a COLL_ID is in use and matched. -/
def matchedAlready (s : State) (id : Nat) : Bool :=
  s.colls.list.any fun c => c.id == id && c.phase != .posted && !(c.phase == .posting && c.status == 4)

/-- R217, R220: the EMB_APPLY of a source for a step has been posted. -/
def applyPosted (x : Table) (src step : Nat) : Bool :=
  (x.queue ++ x.applies).any fun c => cmCmd c.raw == 6 && srcBit c.origin == src && cmStep c.raw == step

/-- R220: empties the accumulation: every slot in use has its records and its directory entry cleared. -/
def clearSlots (s : State) (x : Table) : State :=
  let n := 2 ^ tbListN x
  (rangeFrom 0 n).foldl (fun s h =>
    let e := tbList x + 8 * h
    if nbit (memVal s e 8) 63 then
      let s := storeBytes s e (List.replicate 8 0) false
      storeBytes s (tbList x + 8 * n + 64 * tbDim x * h) (List.replicate (64 * tbDim x) 0) false
    else s) s

/-- Table 7.4 for an apply, to each source that has posted it. -/
def endApplies (s : State) (x : Table) (status nan rows : Nat) : State :=
  x.applies.foldl (fun s c =>
    postEntry s (complRing c.origin 2) (stateEntry { c with start := x.applying } status 0 (cmStep c.raw) s.drum.count 0 nan rows 0xFF)) s

/-- R220, R221: the apply of the present step is over: LAST_STEP rises, the accumulation is empty again. -/
def closeApply (s : State) (t status nan rows : Nat) : State :=
  let x := getTable s t
  let s := endApplies s x status nan rows
  let s := clearSlots s x
  putTable s t { x with applies := [], applying := none, appRows := 0, appNan := 0, overflow := false, last := x.last + 1 }

/-- R220: every source in MEMBERS of the first has posted. -/
def applyMatched (x : Table) : Bool :=
  match x.applies with
  | [] => false
  | c :: _ => (rangeFrom 0 9).all fun n => !nbit (field c.raw 0x1C 4) n || x.applies.any fun e => srcBit e.origin == n

/-- R220: the posted applies agree. -/
def applyAgrees (x : Table) : Bool :=
  match x.applies with
  | [] => true
  | c :: r => r.all fun e => field e.raw 0x18 12 == field c.raw 0x18 12

/-- R220: an apply for step A + 1 is posted; when all have posted and they differ, the step ends MISMATCH. -/
def joinApply (s : State) (t : Nat) (c : Cmd) : State :=
  let x := getTable s t
  let x := { x with applies := x.applies ++ [c] }
  let s := putTable s t x
  if applyMatched x ∧ ¬ applyAgrees x then closeApply s t 9 0 0 else s

/-- Table 7.10 and R220 for an embedding command just taken. -/
def takeEmb (s : State) (c : Cmd) : State :=
  let t := cmTable c.raw
  let x := getTable s t
  let n := cmStep c.raw
  if n ≤ x.last then endCmd s c 5 0
  else match cmCmd c.raw with
    | 4 => if n = x.last + 1 ∧ x.applying.isSome then endCmd s c 5 0 else queueCmd s c
    | 5 =>
      let late := applyPosted x (srcBit c.origin) n
      if late ∧ n = x.last + 1 then endCmd s c 5 0 else queueCmd s { c with late := late }
    | _ =>
      if applyPosted x (srcBit c.origin) n then endCmd s c 4 0
      else if n = x.last + 1 then joinApply s t c else queueCmd s c

/-- R199, R203: a command taken from a ring. -/
def takeState (s : State) (src : Origin) (r : List Byte) : State :=
  let c : Cmd := { origin := src, raw := r, start := none, late := false }
  match (cmdChecks r).find? fun k => !k.2 with
  | some k => endCmd s c 2 k.1
  | none =>
    let x := getTable s (cmTable r)
    if cmCmd r = 1 ∨ cmCmd r = 2 then
      (if guardRuns s 3 then guardTable s c else { s with tables := { s.tables with define := some c } })
    else if x.st = .free ∨ tbDense x ≠ (cmCmd r == 3) then endCmd s c 3 0
    else if x.st = .interrupted then endCmd s c 0xA 0
    else if cmCmd r = 3 then
      (if (cmGmode r = 0 ∧ matchedAlready s (cmGrad r)) ∨ (cmLinkOut r ∧ matchedAlready s (cmOut r)) then endCmd s c 6 0
       else queueCmd s c)
    else takeEmb s c

/-- A state command of a kind, posted by a ring or a port. -/
def stateCommand (s : State) (src : Origin) (raw : List Byte) (ok : Bool) : State :=
  let here := match src with | .port n => decide (n < 8) | .ring r => decide (r < 256) && r % 2 == 0
  if raw.length = 64 ∧ ok = true ∧ here = true ∧ stateTakes s raw = true then takeState s src raw else s

/-- TABLE_DEFINE (R196, R197). -/
def execTableDefine (src : Origin) (raw : List Byte) (s : State) : Host.Outcome State Fault Refusal :=
  .next (stateCommand s src raw (cmCmd raw == 1))
/-- TABLE_RELEASE (R197). -/
def execTableRelease (src : Origin) (raw : List Byte) (s : State) : Host.Outcome State Fault Refusal :=
  .next (stateCommand s src raw (cmCmd raw == 2))
/-- STEP_LINKED (R202, R203). -/
def execStepLinked (src : Origin) (raw : List Byte) (s : State) : Host.Outcome State Fault Refusal :=
  .next (stateCommand s src raw (cmCmd raw == 3 && cmGmode raw == 0))
/-- STEP_BUFFERED (R202). -/
def execStepBuffered (src : Origin) (raw : List Byte) (s : State) : Host.Outcome State Fault Refusal :=
  .next (stateCommand s src raw (cmCmd raw == 3 && cmGmode raw == 1))
/-- STEP_EMIT_ONLY (R202). -/
def execStepEmitOnly (src : Origin) (raw : List Byte) (s : State) : Host.Outcome State Fault Refusal :=
  .next (stateCommand s src raw (cmCmd raw == 3 && cmGmode raw == 2))
/-- EMB_GATHER (R217, R218): queued. -/
def execEmbGather (src : Origin) (raw : List Byte) (s : State) : Host.Outcome State Fault Refusal :=
  .next (stateCommand s src raw (cmCmd raw == 4))
/-- EMB_SCATTER_ADD (R217, R219): queued. -/
def execEmbScatterAdd (src : Origin) (raw : List Byte) (s : State) : Host.Outcome State Fault Refusal :=
  .next (stateCommand s src raw (cmCmd raw == 5))
/-- EMB_APPLY (R217, R220): posted. -/
def execEmbApply (src : Origin) (raw : List Byte) (s : State) : Host.Outcome State Fault Refusal :=
  .next (stateCommand s src raw (cmCmd raw == 6))

/-! ### The head of a dense table's queue (R199, R201, R212, R215, R236) -/

/-- R236: a cut holds state commands that write a table. -/
def cutHoldsTable (s : State) (t : Nat) : Bool := (cutsNow s).any fun c => nbit c.2 t

/-- R199: the ranges of a STEP, as (field offset, address, bytes, written). -/
def stepRanges (x : Table) (c : List Byte) : List (Nat × Nat × Nat × Bool) :=
  (if cmGmode c = 1 then [(0x28, cmSrc c, 4 * tbCount x, false)] else []) ++
  (if cmDst c ≠ 0 ∧ cmLinkOut c = false then [(0x30, cmDst c, tbCount x * fmtBytes (tbOut x), true)] else [])

/-- R199: the first range that the table's train may not touch. -/
def rangeRefused (s : State) (x : Table) (l : List (Nat × Nat × Nat × Bool)) : Option Nat :=
  (l.find? fun g => !mayAccessRange s (.train (tbTrain x)) (trainSecure s (tbTrain x)) g.2.1 g.2.2.1 g.2.2.2).map fun g => g.1

/-- R302: the digest of the check of a sharded step. -/
def stepDigest (x : Table) (c : List Byte) : Nat :=
  crc64 (leBytes 1 (tbKind x) ++ leBytes 1 (cmGmode c) ++ leBytes 2 0 ++ leBytes 4 (cmGrad c) ++ leBytes 8 (tbCount x) ++
    leBytes 8 (cmStep c))

/-- R215: the hubs' checks of a table's step are compared, of each hub its oldest, once all have come; one that differs ends the step
at once. -/
def checkSharded (s : State) (t : Nat) : State :=
  let x := getTable s t
  match x.run with
  | none => s
  | some r =>
    if r.checked ∨ ¬ tbSharded x then s
    else
      let got := (otherHubs s).filterMap fun o => s.colls.steps.find? fun e => e.table == t && e.origin == o
      if got.any fun e => e.digest != stepDigest x r.cmd.raw || e.grad != cmGrad r.cmd.raw then failLink s t r.cmd.raw
      else if got.length = (otherHubs s).length then onRun (takeSteps s t) t fun r => { r with checked := true }
      else s

/-- R212: the launch block of a user step. -/
def userLaunch (x : Table) (t : Nat) : Launch :=
  { raw := leBytes 8 (field x.raw 0x50 8) ++ leBytes 1 (field x.raw 0x58 1) ++ leBytes 1 (field x.raw 0x59 1) ++ List.replicate 6 0 ++
      leBytes 8 0 ++ leBytes 8 (field x.raw 0x60 8) ++ List.replicate 32 0
    src := .service t }

/-- A STEP starts. -/
def startStep (s : State) (t : Nat) (x : Table) (c : Cmd) (rest : List Cmd) : State :=
  let c := { c with start := some s.drum.count }
  let r : StepRun :=
    { cmd := c, done := 0, began := false, norm := 0, normBad := false, nan := 0, rowSum := [], skipped := [], pass2 := false,
      reduced := false, outStatus := waitingOut x c.raw, checked := false, kernel := none, pushed := [] }
  let s := putTable s t (forgetOut { x with queue := rest, run := some r } c.raw)
  let s := if tbKind x = 0xF then
      let u := getTrain s (tbTrain x)
      putTrain (dropChunks s t) (tbTrain x) { u with queue := u.queue ++ [userLaunch x t] }
    else s
  if tbSharded x then
    let s := sendCtl s 9 0x51 [(1, t), (2, s.consist.cfg.topology.hubIndex), (4, cmGrad c.raw), (8, stepDigest x c.raw)]
    if cmGmode c.raw = 1 then failLink s t c.raw else checkSharded s t
  else s

/-- The head of a dense table's queue. -/
def headDense (s : State) (t : Nat) : State :=
  let x := getTable s t
  match x.run, x.queue with
  | none, c :: rest =>
    let n := cmStep c.raw
    let refused := fun (status fld : Nat) => putTable (endCmd s c status fld) t (forgetOut { x with queue := rest } c.raw)
    if x.st = .interrupted then refused 0xA 0
    else if (if cmGmode c.raw = 2 then n ≠ x.last else n ≠ x.last + 1) then refused 4 0
    else match rangeRefused s x (stepRanges x c.raw) with
      | some o => refused 2 o
      | none =>
        if cmGmode c.raw ≠ 2 ∧ cutHoldsTable s t then s
        else if tbKind x = 0xF ∧ 64 ≤ (getTrain s (tbTrain x)).queue.length then s
        else startStep s t x c rest
  | _, _ => s

/-! ### Embedding commands at work (R218, R219) -/

/-- Bytes of one element in a format code 0 to 2. -/
def valFmt (code : Nat) : Fmt := match code with | 0 => .fp32 | 1 => .bf16 | _ => .fp16

/-- The indices of a gather or scatter-add. -/
def embIdx (s : State) (c : List Byte) : List Nat := (rangeFrom 0 (cmGrad c)).map fun k => memVal s (cmSrc c + 4 * k) 4

/-- A poisoned block among the indices. -/
def idxPoison (s : State) (c : List Byte) : Option Nat := (blocksOf (cmSrc c) (4 * cmGrad c)).find? fun b => blockPoisoned s b

/-- R199: the ranges of an embedding command. -/
def embRanges (x : Table) (c : List Byte) : List (Nat × Nat × Nat × Bool) :=
  let n := cmGrad c * tbDim x * fmtBytes (valFmt (field c 0x14 4 % 16))
  (0x28, cmSrc c, 4 * cmGrad c, false) ::
  (if cmCmd c = 5 then [(0x30, cmDst c, n, false)] else if field c 0x14 4 / 256 % 16 = 8 then [(0x30, cmDst c, n, true)] else [])

/-- R218: a row converted to the output format, with the poison of each of its elements. -/
def gatherRow (s : State) (x : Table) (f : Fmt) (row : Nat) : List Byte × List Bool :=
  let w := fmtBytes (tbOut x)
  let es := (rangeFrom 0 (tbDim x)).map fun e =>
    let a := tbBase x + (row * tbDim x + e) * w
    let p := blockPoisoned s (a / 64)
    (leBytes (fmtBytes f) (roundNum f .rne false 0 (numDecode (tbOut x) (memVal s a w))), p)
  (es.flatMap fun e => e.1, es.flatMap fun e => List.replicate (fmtBytes f) e.2)

/-- R218, R286: bytes sent to a partner's memory in WRITE flits of three 64-byte units; a last unit that is not full is filled
with zeros (DESIGN CHOICE, log 48). -/
def sendWrites (s : State) (n addr : Nat) (bs : List Byte) (pois : List Bool) : State :=
  (rangeFrom 0 ((bs.length + 191) / 192)).foldl (fun s i =>
    let d := (bs.drop (192 * i)).take 192
    let p := (pois.drop (192 * i)).take 192
    let u := (d.length + 63) / 64
    let q := lsum ((rangeFrom 0 u).map fun k => if ((p.drop (64 * k)).take 64).any id then 2 ^ k else 0)
    sendFlit s n 1 2 ((2 ^ u - 1) * 2 ^ 55 + q * 2 ^ 52) (leBytes 8 (addr + 192 * i) ++ List.replicate 40 0 ++ d)) s

/-- R218: the rows of a gather delivered. -/
def runGather (s : State) (x : Table) (c : List Byte) : State :=
  let f := valFmt (field c 0x14 4 % 16)
  let dest := field c 0x14 4 / 256 % 16
  let rows := (embIdx s c).map fun r => gatherRow s x f r
  let bs := rows.flatMap fun r => r.1
  let ps := rows.flatMap fun r => r.2
  if dest = 8 then
    storeCells s (cellsAt (cmDst c) bs)
      (dedup (((rangeFrom 0 ps.length).zip ps).filterMap fun e => if e.2 then some ((cmDst c + e.1) / 64) else none))
  else sendWrites s dest (cmDst c) bs ps

/-- R219: where the search for a row's slot starts. -/
def slotHash (x : Table) (r : Nat) : Nat := r * 0x9E3779B9 % 2 ^ 32 / 2 ^ (32 - tbListN x)

/-- R219: the slot of a row: found, or the first empty one. -/
def slotFor (s : State) (x : Table) (r : Nat) : Option (Nat × Bool) :=
  let n := 2 ^ tbListN x
  (rangeFrom 0 n).findSome? fun i =>
    let h := (slotHash x r + i) % n
    let e := memVal s (tbList x + 8 * h) 8
    if nbit e 63 then (if e % 2 ^ 32 = r then some (h, true) else none) else some (h, false)

/-- Address of a record of a slot. -/
def recAddr (x : Table) (h e : Nat) : Nat := tbList x + 8 * 2 ^ tbListN x + 64 * (h * tbDim x + e)

/-- R156, R158, R159: one exact addition into a record of the accumulation. A poisoned record stays as it is. -/
def addRec (s : State) (x : Table) (a : Nat) (v : AddVal) : State :=
  if poisonedAt s a 64 then s
  else
    let old := recordLane (memBytes s a 64)
    let new := old.addVal v
    let s := storeBytes s a (recordBytes new) false
    if new.ovf && !old.ovf then raise s (srcTrain (tbTrain x)) 6 1 a else s

/-- R219: every row of a scatter-add added; none when a slot is wanted and none is free. -/
def runScatter (s : State) (x : Table) (c : List Byte) : Option State :=
  let f := valFmt (field c 0x14 4 % 16)
  let w := fmtBytes f
  let sub := cmFlags c % 2 == 1
  ((rangeFrom 0 (cmGrad c)).zip (embIdx s c)).foldl (fun (o : Option State) p =>
    match o with
    | none => none
    | some s =>
      match slotFor s x p.2 with
      | none => none
      | some (h, found) =>
        let s := if found then s else storeBytes s (tbList x + 8 * h) (leBytes 8 (2 ^ 63 + p.2)) false
        some ((rangeFrom 0 (tbDim x)).foldl (fun s e =>
          let a := cmDst c + (p.1 * tbDim x + e) * w
          addRec s x (recAddr x h e)
            (if blockPoisoned s (a / 64) then .poisoned else addValOf (numDecode f (memVal s a w)) sub)) s)) (some s)

/-- Replaces a queued command. -/
def markCmd (x : Table) (c d : Cmd) : Table := { x with queue := x.queue.map fun e => if e = c then d else e }

/-- The first command of an embedding table's queue that may start: an older one that waits for its step is passed by. -/
def nextEmb (s : State) (t : Nat) (x : Table) : Option Cmd :=
  x.queue.find? fun c => c.start.isNone && (decide (cmStep c.raw ≤ x.last) || x.st == .interrupted ||
    (cmStep c.raw == x.last + 1 && (c.late || !(cmCmd c.raw == 5 && cutHoldsTable s t))))

/-- The first ready command of an embedding table: checked and set to work. -/
def headEmb (s : State) (t : Nat) : State :=
  let x := getTable s t
  match nextEmb s t x with
  | none => s
  | some c =>
    let out := putTable s t { x with queue := x.queue.erase c }
    let d := { c with start := some s.drum.count }
    if x.st = .interrupted then endCmd out c 0xA 0
    else if cmStep c.raw ≤ x.last ∨ (cmCmd c.raw = 4 ∧ x.applying.isSome) ∨ c.late then endCmd out c 5 0
    else if cmCmd c.raw = 6 then joinApply out t c
    else match rangeRefused s x (embRanges x c.raw) with
      | some o => endCmd out c 2 o
      | none =>
        match idxPoison s c.raw with
        | some b => endCmd (raise out (srcTrain (tbTrain x)) 5 2 (64 * b)) d 0xB 0
        | none =>
          if (embIdx s c.raw).any fun r => decide (tbCount x ≤ r) then endCmd out d 7 0
          else if cmCmd c.raw = 4 then runGather (putTable s t (markCmd x c d)) x c.raw
          else if x.overflow then endCmd out d 8 0
          else match runScatter s x c.raw with
            | some s => putTable s t (markCmd x c d)
            | none =>
              regAddSat (endCmd (putTable s t { x with queue := x.queue.erase c, overflow := true }) d 8 0) rSstat 47 32 1

/-- STATE_COMMAND_HEAD (R199, R201, R217 to R219, R343): the command at the head of a table's queue is checked and set to work. -/
def execStateCommandHead (table : Nat) (s : State) : Host.Outcome State Fault Refusal :=
  let x := getTable s table
  if table ≥ 64 ∨ x.st = .free ∨ svcWaits s 8 then .next s
  else .next (if tbDense x then headDense s table else headEmb s table)

/-- STATE_COMMAND_COMPLETE (R200): the oldest gather or scatter-add at work finishes. -/
def execStateCommandComplete (table : Nat) (s : State) : Host.Outcome State Fault Refusal :=
  let x := getTable s table
  match (if svcWaits s 8 then none else x.queue.find? fun c => c.start.isSome) with
  | some c =>
    let s := putTable s table { x with queue := x.queue.erase c }
    .next (postEntry s (complRing c.origin 2)
      (stateEntry c 0 0 (cmStep c.raw) s.drum.count 0 0 (if cmCmd c.raw = 4 then cmGrad c.raw else 0) 0xFF))
  | none => .next s

/-! ### The end of a step (R206, R208, R212, R213) -/

/-- R212: a user step whose kernel is over. -/
def endUser (s : State) (t : Nat) (x : Table) (r : StepRun) (kernel : Nat) : State :=
  let n := (tbCount x + userChunk - 1) / userChunk
  if kernel ≠ 0 then dropChunks (interrupt (endStep s x r 0xA) t x) t
  else if r.pushed.length < n then s
  else dropChunks (finishStep s t x r) t

/-- STEP_END (R200, R206, R208, R211, R213): a step whose elements are done completes. -/
def execStepEnd (table : Nat) (s : State) : Host.Outcome State Fault Refusal :=
  let s1 := produceAll s table
  let x := getTable s1 table
  match (if svcWaits s 8 then none else x.run) with
  | none => .next s
  | some r =>
    let c := r.cmd.raw
    let outDone := !cmLinkOut c || r.outStatus.isSome
    if tbKind x = 0xF then
      match r.kernel with
      | some k => if k ≠ 0 ∨ (outDone ∧ (cmGmode c ≠ 0 ∨ r.reduced)) then .next (endUser s1 table x r k) else .next s1
      | none => .next s1
    else
      let all := (r.checked || !tbSharded x) && decide (localCount s1 x ≤ r.done) && (cmGmode c != 0 || r.reduced) && (tbKind x != 4 || cmGmode c == 2 || r.pass2)
      if all ∧ outDone then .next (finishStep s1 table x r) else .next s1

/-! ### Applies (R220 to R223) -/

/-- R223: a record whose POI is set, or whose block is poisoned. -/
def recPoison (s : State) (x : Table) (h e : Nat) : Bool :=
  poisonedAt s (recAddr x h e) 64 || (recordLane (memBytes s (recAddr x h e) 64)).poi

/-- The address of element `e` of a row. -/
def rowAddr (x : Table) (row e : Nat) : Nat := tbBase x + (row * tbDim x + e) * fmtBytes (tbOut x)

/-- R223: the state word of a row of KIND 0x21 is poisoned. -/
def rowStatePoison (s : State) (x : Table) (row : Nat) : Bool := tbKind x == 0x21 && blockPoisoned s ((tbAux x + 4 * row) / 64)

/-- R223: every poisoned record, block of the row and state word that an apply of slot `h`, row `row` meets. -/
def applyPoison (s : State) (x : Table) (h row : Nat) : List Nat :=
  (((rangeFrom 0 (tbDim x)).filter fun e => recPoison s x h e).map fun e => recAddr x h e) ++
  (((blocksOf (rowAddr x row 0) (tbDim x * fmtBytes (tbOut x))).filter fun b => blockPoisoned s b).map fun b => 64 * b) ++
  (if rowStatePoison s x row then [tbAux x + 4 * row] else [])

/-- R222, R223: one row updated: the state and the elements left unchanged that count. An element whose record or stored value is poisoned
stays as it is, every element with a poisoned state word of the row (log 42). -/
def applyRow (s : State) (t : Nat) (x : Table) (c : List Byte) (h row : Nat) : State × Nat :=
  let w := fmtBytes (tbOut x)
  if rowStatePoison s x row then (s, 0) else
  let lanes := ((rangeFrom 0 (tbDim x)).filter fun e => !recPoison s x h e).map fun e => (e, recordLane (memBytes s (recAddr x h e) 64))
  let gs := lanes.map fun p =>
    (p.1, p.2.ovf, roundFin .fp32 .rne false 0 (decide (p.2.value.toInt < 0)) p.2.value.toInt.natAbs (-149 + signedOf 8 (field c 0x20 1)) false)
  let lr := cmLr c
  let (s, div) :=
    if tbKind x = 0x21 then
      let qs := (gs.filter fun g => !g.2.1).map fun g => fUnits (fMul g.2.2 g.2.2)
      let sum := qs.foldl (fun (z : Int) q => z + q.getD 0) 0
      let mean := if qs.any fun q => q.isNone then fmtNaN .fp32
        else roundFin .fp32 .rne false 0 (decide (sum < 0)) sum.natAbs (-149 - (((bitLen (tbDim x) - 1 : Nat)) : Int)) false
      let a := fAdd (memVal s (tbAux x + 4 * row) 4) mean
      (storeBytes s (tbAux x + 4 * row) (leBytes 4 a) false, some (fAdd (fSqrt a) (tbEps x)))
    else (s, none)
  gs.foldl (fun (p : State × Nat) g =>
    let a := rowAddr x row g.1
    if g.2.1 then (p.1, p.2 + 1)
    else if blockPoisoned p.1 (a / 64) then p
    else
      let old := roundNum .fp32 .rne false 0 (numDecode (tbOut x) (memVal p.1 a w))
      let d := match div with | some v => fDiv g.2.2 v | none => g.2.2
      let new := fNfma lr d old
      let out :=
        if tbSr x then
          let draw := roundingDraw (regGet p.1 rSeed) (BitVec.ofNat 32 (0x45000000 + t))
            (BitVec.ofNat 64 (cmStep c * 2 ^ 44 + row * tbDim x + g.1))
          roundNum (tbOut x) .sr false draw.toNat (f32 new)
        else roundNum (tbOut x) .rne false 0 (f32 new)
      (storeBytes p.1 a (leBytes w out) false, p.2)) (s, 0)

/-- EMB_APPLY_BEGIN (R220 to R223): once the members' scatter-adds for the step are done, a matched apply updates every row in use;
of an overflowed step it updates none and completes DIR_FULL. -/
def execEmbApplyBegin (table : Nat) (s : State) : Host.Outcome State Fault Refusal :=
  let x := getTable s table
  let adds := x.queue.any fun c => cmCmd c.raw == 5 && !c.late && cmStep c.raw == x.last + 1 &&
    x.applies.any fun a => srcBit a.origin == srcBit c.origin
  match x.applies with
  | c :: _ =>
    if svcWaits s 8 = false ∧ x.st = .ready ∧ x.applying.isNone ∧ applyMatched x ∧ ¬ adds ∧ ¬ cutHoldsTable s table then
      let x := { x with applying := some s.drum.count }
      if x.overflow then
        let s := raise s (srcTrain (tbTrain x)) 0xB 1 (table + cmStep c.raw * 2 ^ 16)
        .next (closeApply (putTable s table x) table 8 0 0)
      else
        let r := (rangeFrom 0 (2 ^ tbListN x)).foldl (fun (p : State × Nat × Nat) h =>
          let e := memVal p.1 (tbList x + 8 * h) 8
          if nbit e 63 then
            let s := (applyPoison p.1 x h (e % 2 ^ 32)).foldl (fun s a => statePoison s x a) p.1
            let q := applyRow s table x c.raw h (e % 2 ^ 32)
            (q.1, p.2.1 + 1, p.2.2 + q.2)
          else p) (s, 0, 0)
        .next (putTable r.1 table { x with appRows := r.2.1, appNan := min 0xFFFFFFFF r.2.2 })
    else .next s
  | [] => .next s

/-- EMB_APPLY_COMPLETE (R222): the slots are cleared, LAST_STEP rises, every member gets its completion. -/
def execEmbApplyComplete (table : Nat) (s : State) : Host.Outcome State Fault Refusal :=
  let x := getTable s table
  if svcWaits s 8 = false ∧ x.st = .ready ∧ x.applying.isSome then
    .next (closeApply s table (if x.appNan = 0 then 0 else 1) x.appNan x.appRows)
  else .next s

/-- XH_STEP (R215, R302): forwarded unless its origin is the hub behind P1, compared once every hub's has come; that of a step that has
already failed here is spent. -/
def execXhStep (c : Ctl) (s : State) : Host.Outcome State Fault Refusal :=
  let (s, a) := takeCtl s c 0x51 (fromHub c)
  if !a then .next s
  else
    let h := s.consist.cfg.topology
    let o := field c.msg 2 2
    let t := field c.msg 1 1
    let s := if o = (h.hubIndex + 1) % max 1 h.hubCount then s else sendFlit s 9 6 3 (2 ^ 54) c.msg
    let p : XhStep := { table := t, origin := o, grad := field c.msg 4 4, digest := field c.msg 8 8 }
    if s.colls.stale.contains (t, o) then .next { s with colls := { s.colls with stale := s.colls.stale.erase (t, o) } }
    else .next (checkSharded { s with colls := { s.colls with steps := s.colls.steps ++ [p] } } t)

/-! ### Job end and job start (R224) -/

/-- R224: the commands of one table end with the job. -/
def abortTable (s : State) (t : Nat) : State :=
  let x := getTable s t
  let wrote := (match x.run with | some r => r.began && cmGmode r.cmd.raw != 2 | none => false) || decide (0 < x.appRows)
  let s := match x.run with | some r => endStep s x r 0xB | none => s
  let s := x.queue.foldl (fun s c => endCmd s c 0xB 0) s
  let s := endApplies s x 0xB 0 0
  let x' := { x with queue := [], applies := [], run := none, applying := none, appRows := 0, appNan := 0, outFail := [] }
  dropChunks (if wrote then interrupt s t x' else putTable s t x') t

/-- R224: every state command ends ABORTED. -/
def abortState (s : State) : State :=
  let s := match s.tables.define with
    | some c => endCmd { s with tables := { s.tables with define := none } } c 0xB 0
    | none => s
  s.tables.table.foldl (fun s e => abortTable s e.1) s

/-- R224: at a job start every embedding table's accumulation is emptied. -/
def emptyDirectories (s : State) : State :=
  s.tables.table.foldl (fun s e =>
    if e.2.st = .free ∨ tbDense e.2 then s else putTable (clearSlots s e.2) e.1 { getTable s e.1 with overflow := false }) s

/-! ### Ring instructions (R129, R130, R212) -/

/-- R129: a ring number that a seat of train `t` may use, submission or completion. -/
def ringOfSeat (s : State) (t q : Nat) (compl : Bool) : Bool :=
  let odd := if compl then 1 else 0
  if q < 256 then
    q % 2 == odd && ringType s q == 4 && ringEnabled s q && ringTrain s q == t
  else if 0x1000 ≤ q ∧ q < 0x1080 then
    decide (6 ≤ ringK q) && q % 2 == odd && ringEnabled s q && ringTrain s q == t
  else
    let b := if compl then 0xFF40 else 0xFF00
    decide (b ≤ q) && decide (q < b + 64) && tbKind (getTable s (q - b)) == 0xF && (getTable s (q - b)).st != .free &&
    tbTrain (getTable s (q - b)) == t

/-- R212: the next chunk of a user step for a seat of rake `k`: its gradient goes to the rake's yard. None when no chunk waits. -/
def popChunk (s : State) (t k : Nat) : State × Option (List Byte) :=
  let x := getTable s t
  match x.run with
  | none => (s, none)
  | some r =>
    let (s, r) := if getChunks s t = [] then userProduce s x r else (s, r)
    let s := putTable s t { x with run := some r }
    match getChunks s t with
    | [] => (s, none)
    | e :: rest =>
      let n := field e 8 4
      let j := field e 0 8 / userChunk
      let whole := n == 0 || cmGmode r.cmd.raw == 2 || decide (64 + 4 * n ≤ e.length)
      if whole = false ∨ (n ≠ 0 ∧ 512 ≤ j ∧ r.pushed.contains (j - 512) = false) then (s, none)
      else
        let s := putChunks s t rest
        let s := if n = 0 then s
          else onRun (storeBytes s (yardAddr k (userBuf j - 0xFD0001000000)) (e.drop 64) false) t fun r => { r with began := cmGmode r.cmd.raw != 2 || r.began }
        (s, some (e.take 64))

/-- R212: an entry pushed for a chunk: the service takes the chunk's weights from the yard of rake `k`. -/
def pushChunk (s : State) (t k : Nat) (e : List Byte) : State :=
  let x := getTable s t
  match x.run with
  | none => s
  | some r =>
    let i := field e 0 8
    let j := i / userChunk
    if i % userChunk ≠ 0 ∨ tbCount x ≤ i ∨ r.pushed.contains j then s
    else
      let w := fmtBytes (tbOut x)
      let n := min userChunk (tbCount x - i)
      let bs := memBytes s (yardAddr k (userBuf j + 0x1000 - 0xFD0001000000)) (w * n)
      let s := if cmLinkOut r.cmd.raw then { s with tables := { s.tables with outs := kset [] s.tables.outs (t * 2 ^ 40 + j) bs } }
        else if cmDst r.cmd.raw = 0 then s else storeBytes s (cmDst r.cmd.raw + w * i) bs false
      onRun s t fun r => { r with pushed := nadd r.pushed j }

/-- RPOP (R129, R130, R342). An Sb outside the seat's own coach memory takes ACCESS (DESIGN CHOICE, log 125). -/
def execRpop (seat : Nat) (w : Fields) (s : State) : Host.Outcome State Fault Refusal :=
  issueNext s seat w { op := 0xC0, d := .s, a := .s, b := .s } true [] fun t =>
    let x := sget t w.a.toNat
    let y := sget t w.b.toNat
    let q := x.1.toNat % 2 ^ 16
    let tr := (trainOfCoach s (seat / 16)).getD 8
    let win := seatWin s (seat / 16) (codeLimit s seat) y.1.toNat 64
    let own := match win with | some (.own h) => some h | _ => none
    match firstExc [(own.isNone, 3), (y.1.toNat % 64 != 0, 4), (x.2 || y.2, 5), (!ringOfSeat s tr q false, 0xA)] with
    | some c => .exc c
    | none =>
      match own with
      | none => .exc 3
      | some h =>
        let put := fun (s : State) (v : W64) => doneSeat s seat (sset t w.d.toNat v false)
        if q < 0xFF00 then
          (if ringFill s q = 0 then put s (BitVec.allOnes 64)
           else
             let i := getCons s q
             let s' := storeBytes s h (headEntry s q) (poisonedAt s (headAddr s q) 64)
             put (takeEntry s' q) (i.setWidth 64))
        else
          match popChunk s (q - 0xFF00) (seat / 16 / 32) with
          | (s, some e) =>
            let i := getCons s q
            put (setCons (storeBytes s h e false) q (i + 1)) (i.setWidth 64)
          | (s, none) => put s (BitVec.allOnes 64)

/-- R80, R130: what a seat did before a push has been performed. -/
def pushReady (s : State) (p : RingPush) : Bool :=
  let co := getCoach s (p.seat / 16)
  storesDone co p.seat p.accBound && descsDone co p.seat p.descBound

/-- R130, R212, R306, R343: the slot write of a push and the advance of the ring, once the partner's port is ACTIVE. -/
def performPush (s : State) (p : RingPush) : State :=
  if p.ring ≥ 0xFF40 then pushChunk s (p.ring - 0xFF40) (p.seat / 16 / 32) p.entry else postEntry s p.ring p.entry

/-- R80, R130: the pushes that need wait no longer are performed, oldest first; a push waits behind an earlier one to its ring. -/
def flushPushes (s : State) : State :=
  let step := fun (r : State × List RingPush) (p : RingPush) =>
    if pushReady r.1 p && !r.2.any fun x => x.ring == p.ring then (performPush r.1 p, r.2) else (r.1, r.2 ++ [p])
  let r := s.coaches.pushes.foldl step (s, [])
  { r.1 with coaches := { r.1.coaches with pushes := r.2 } }

/-- TRANSACTION_PERFORMED (R64, R78, R81): one block of an access is performed and frees its entry. -/
def execTransactionPerformed (coach id block : Nat) (s : State) : Host.Outcome State Fault Refusal :=
  .next (flushPushes (transact s coach id block))

/-- DRAY_DESCRIPTOR_COMPLETE (R69): the oldest descriptor's writes are all performed; INC raises the count. -/
def execDrayDescriptorComplete (coach engine : Nat) (s : State) : Host.Outcome State Fault Refusal :=
  .next (flushPushes (drayComplete s coach engine))

/-- R129, R343: a completion ring has room for one more entry, those placed and not yet written counted. -/
def pushRoom (s : State) (q : Nat) : Bool :=
  decide (0xFF40 ≤ q) ||
    (kget [] s.host.waiting q == [] && decide (ringFill s q + (s.coaches.pushes.filter fun p => p.ring == q).length < ringDepth s q))

/-- RPUSH (R80, R129, R130, R343). The seat does not park: the slot write waits for its earlier stores, atomics and descriptors.
The entry is written without POISON (DESIGN CHOICE, log 118). Table 4.13 asks no alignment of Sb here; outside the seat's own coach
memory it takes ACCESS (DESIGN CHOICE, log 125). -/
def execRpush (seat : Nat) (w : Fields) (s : State) : Host.Outcome State Fault Refusal :=
  issueNext s seat w { op := 0xC1, d := .s, a := .s, b := .s } true [] fun t =>
    let x := sget t w.a.toNat
    let y := sget t w.b.toNat
    let q := x.1.toNat % 2 ^ 16
    let tr := (trainOfCoach s (seat / 16)).getD 8
    let win := seatWin s (seat / 16) (codeLimit s seat) y.1.toNat 64
    let own := match win with | some (.own h) => some h | _ => none
    match firstExc [(own.isNone, 3), (x.2 || y.2, 5), (!ringOfSeat s tr q true, 0xA)] with
    | some c => .exc c
    | none =>
      match own with
      | none => .exc 3
      | some h =>
        if pushRoom s q then
          let p : RingPush := { seat := seat, ring := q, entry := memBytes s h 64, accBound := s.coaches.nextAcc, descBound := s.coaches.nextDesc }
          let s := { s with coaches := { s.coaches with pushes := s.coaches.pushes ++ [p] } }
          doneSeat (flushPushes s) seat (sset t w.d.toNat 0 false)
        else doneSeat s seat (sset t w.d.toNat 1 false)

end Sys2Proof.Machine
end

