-- ==== Sys2Proof/Machine/Snapshot.lean ====
section
/-! DEFINITION. Chapter 08: takes, restores, drains and imports (R232 to R247). -/

namespace Sys2Proof.Machine

/-! ### Commands (Tables 8.3, 8.4, R233) -/

def snCmd (r : List Byte) : Nat := field r 4 1
def snFlag (r : List Byte) (i : Nat) : Bool := nbit (field r 5 1) i
def snMembers (r : List Byte) : Nat := field r 6 1
def snGen (r : List Byte) : Nat := field r 8 8
def snCut (r : List Byte) : Nat := field r 0x10 8
def snTables (r : List Byte) : Nat := field r 0x18 8
def snUser (r : List Byte) : Nat := field r 0x20 8

/-- Members of a take or a record as port numbers. -/
def portsOf (mask : Nat) : List Nat := (rangeFrom 0 8).filter fun n => nbit mask n
/-- Tables named by a mask. -/
def tablesOf (mask : Nat) : List Nat := (rangeFrom 0 64).filter fun t => nbit mask t

/-- Table 8.3: each field's offset and whether it is in its range, in ascending order. -/
def snapChecks (s : State) (r : List Byte) : List (Nat × Bool) :=
  let c := snCmd r
  let fl := field r 5 1
  let z := fun (o n : Nat) => field r o n == 0
  let inJob := fun (n : Nat) => s.consist.cfg.topology.aPresent.getLsbD n &&
    (match s.host.job with | some j => j.ports.getLsbD n | none => false)
  [(4, decide (1 ≤ c) && decide (c ≤ 4)),
   (5, if c = 1 then decide (fl ≤ 1) else if c = 2 then decide (fl < 8) && fl % 4 != 3 else if c = 3 then fl == 0 else decide (fl ≤ 1)),
   (6, if c = 1 then (portsOf (snMembers r)).all inJob else z 6 1),
   (7, z 7 1),
   (8, c == 2 || c == 3 || z 8 8),
   (0x10, c == 1 || z 0x10 8),
   (0x18, if c = 1 then (tablesOf (snTables r)).all fun t => bits (stblOf (getTable s t)) 39 36 == 1 else z 0x18 8),
   (0x20, c == 1 || z 0x20 8),
   (0x28, c == 3 || z 0x28 8),
   (0x30, c == 3 || z 0x30 4),
   (0x34, if c = 3 then s.host.conns.any fun e => e.1 == field r 0x34 4 else z 0x34 4),
   (0x38, z 0x38 8)]

/-- R233: the completion entry. -/
def snapEntry (s : State) (o : Origin) (r : List Byte) (status fld source gen cut bytes user : Nat) : State :=
  postEntry s (complRing o 0)
    (field r 0 4 |> leBytes 4 |> fun id => id ++ leBytes 1 status ++ leBytes 1 (snCmd r) ++ leBytes 1 fld ++ leBytes 1 source ++
      leBytes 8 gen ++ leBytes 8 cut ++ leBytes 8 s.drum.count.toNat ++ leBytes 8 bytes ++ leBytes 8 user)

/-- R233: image bytes that a map of partners holds. -/
def movedBytes (m : KMap Nat) : Nat := lsum (m.map fun e => e.2)

/-- RESTORE with BY_USER: its GEN field holds a USER value (Table 8.3). -/
def snByUser (r : List Byte) : Bool := snCmd r == 2 && snFlag r 2

/-- R233: the entry of a command that ends without an image: no slot, the GEN or USER that the command names (log 135). -/
def snapFail (s : State) (o : Origin) (r : List Byte) (status fld : Nat) : State :=
  snapEntry s o r status fld 0 (if snCmd r = 1 ∨ snByUser r = true then 0 else snGen r) (snCut r) 0
    (if snByUser r then snGen r else snUser r)

/-- A message to each of a list of partners. -/
def tellAll (s : State) (ns : List Nat) (code : Nat) (fields : List (Nat × Nat)) : State :=
  ns.foldl (fun s n => sendCtl s n code fields) s

/-! ### Takes (R234 to R239) -/

/-- R230: the areas of the named tables that an image holds, as (address, bytes). -/
def imageAreas (s : State) (mask : Nat) : List (Nat × Nat) :=
  (tablesOf mask).flatMap fun t =>
    let x := getTable s t
    let a := tableAreas s x
    if tbKind x = 4 then a ++ [(tbList x, 16 * tbListN x)] else if tbDense x then a else if tbKind x = 0x21 then a.take 2 else a.take 1

/-- Bytes of a list of ranges. -/
def rangesLen (l : List (Nat × Nat)) : Nat := lsum (l.map fun r => r.2)

/-- PART_BYTES of a partner in a take. -/
def partBytes (t : Take) (n : Nat) : Nat := rangesLen (kget [] t.parts n)

/-- TOTAL_BYTES of a take. -/
def takeTotal (s : State) (t : Take) : Nat :=
  lsum ((portsOf (snMembers t.raw)).map fun n => partBytes t n) + rangesLen (imageAreas s (snTables t.raw))

/-- A take ends without a commit: SNAP_CANCEL to its members, its slot EMPTY when it has begun or the job has ended (R239), its
completion. -/
def cancelTake (s : State) (status : Nat) : State :=
  match s.snap.take with
  | none => s
  | some t =>
    let s := tellAll s (portsOf (snMembers t.raw)) 0x32 [(4, t.gen % 2 ^ 32)]
    let s := if t.cut = true ∨ status = 0xE then emptySlot s t.slot else s
    let s := putSnap s { s.snap with take := none }
    snapEntry s t.origin t.raw status 0 t.slot t.gen (snCut t.raw) (movedBytes t.got) (snUser t.raw)

/-- R228, R235: the manifests are checked. -/
def checkManifests (s : State) (t : Take) : State :=
  if takeTotal s t + 2 ^ 21 ≤ slotUnits s * 2 ^ 21 then putSnap s { s.snap with take := some { t with fits := true } }
  else cancelTake s 7

/-- R234: the generation of a take. -/
def nextGen (s : State) : Nat :=
  1 + (rangeFrom 0 (slotCount (snapMode s))).foldl (fun m i => if slotState s i = 0 then m else max m (slotGen s i)) s.snap.peerGen

/-- R234 to R238: a TAKE. -/
def beginTake (s : State) (o : Origin) (r : List Byte) : State :=
  let b := s.drum.count.toNat
  if snCut r < b + 2500 then snapFail s o r 4 0
  else if mirrorOwed s ∧ snFlag r 0 = false then snapFail s o r 0xA 0
  else if snapMode s = 2 ∧ ¬ mirrorReady s then snapFail s o r 0xB 0
  else
    let s := if mirrorOwed s then dropMirror (putSnap s { s.snap with mirOut := none }) else s
    let g := nextGen s
    let t : Take :=
      { origin := o, raw := r, gen := g, slot := targetSlot s, parts := [], last := [], fits := false, cut := false, got := [],
        sent := [], granted := [] }
    let s := putSnap s { s.snap with take := some t }
    let s := tellAll s (portsOf (snMembers r)) 0x30 [(4, g % 2 ^ 32), (8, snCut r)]
    if snMembers r = 0 then checkManifests s t else s

/-- R233: the completion of a drain, whose slot still holds its generation. -/
def drainEntry (s : State) (d : Drain) (status : Nat) : State :=
  snapEntry s d.origin d.raw status 0 d.slot d.gen (slotVal s d.slot 0x18 8) (d.acked - 2 ^ 21) (slotVal s d.slot 0x30 8)

/-- R241: drains from a slot that is overwritten. -/
def supersedeDrains (s : State) (slot : Nat) : State :=
  let ds := s.snap.drains.filter fun d => d.slot == slot
  let s := putSnap s { s.snap with drains := s.snap.drains.filter fun d => d.slot != slot }
  ds.foldl (fun s d => drainEntry s d 0xF) s

/-- R236: no window with a member is open, no STEP or EMB_APPLY writes a named table. -/
def cutQuiet (s : State) (t : Take) : Bool :=
  !(s.colls.list.any fun c => windowOpen c && (collPorts c).any fun n => nbit (snMembers t.raw) n) &&
  (tablesOf (snTables t.raw)).all fun k =>
    let x := getTable s k
    (match x.run with | some r => cmGmode r.cmd.raw == 2 | none => true) && x.applying.isNone

/-- R235, R236: the cut. The slot becomes TAKING and every member is granted the flits of its ranges. -/
def cutTake (s : State) (t : Take) : State :=
  if cutQuiet s t then
    let s := supersedeDrains s t.slot
    let s := setSlotState s t.slot 1
    let ms := portsOf (snMembers t.raw)
    let g : KMap Nat := ms.foldl (fun m n => kset 0 m n (streamFlits (partBytes t n))) []
    let s := putSnap s { s.snap with take := some { t with cut := true, granted := g } }
    ms.foldl (fun s n => sendCtl s n 0x33 [(4, t.gen % 2 ^ 32), (8, streamFlits (partBytes t n))]) s
  else cancelTake s 9

/-- R230: where a partner's bytes begin in the image of a take. -/
def takePartBase (t : Take) (n : Nat) : Nat :=
  lsum (((portsOf (snMembers t.raw)).filter fun m => decide (m < n)).map fun m => partBytes t m)

/-- R235, R301: a partner's snapshot data flit. -/
def takeFlitData (s : State) (f : Flit) (t : Take) : State :=
  let h := flitHdr f
  let n := f.port
  let got := kget 0 t.got n
  let k := nbits h 17 10
  if !nbit (snMembers t.raw) n || !t.cut || nbits h 57 50 != t.gen % 256 || nbits h 49 18 != got / 240 ||
     k != min 240 (partBytes t n - got) || k == 0 || decide (kget 0 t.granted n ≤ got / 240) then protocolError s n 0xA 0
  else
    let bad := (rangeFrom 0 k).filter fun o => nbit (nbits h 9 6) (o / 60)
    let s := slotWrite s t.slot (2 ^ 21 + takePartBase t n + got) (f.payload.take k) bad
    putSnap s { s.snap with take := some { t with got := kset 0 t.got n (got + k) } }

/-- Table 8.2: the record of a take, RECORD_CODE included, STATE as given. -/
def takeRecord (s : State) (t : Take) (total : Nat) : List Byte :=
  let body := recMagic ++ leBytes 8 t.gen ++ leBytes 1 1 ++ leBytes 1 0 ++ leBytes 1 (snMembers t.raw) ++ List.replicate 5 0 ++
    leBytes 8 (snCut t.raw) ++ leBytes 8 s.drum.count.toNat ++ leBytes 8 (regGet s rSeed).toNat ++ leBytes 8 (snUser t.raw) ++
    leBytes 8 (snTables t.raw) ++ leBytes 8 total ++ leBytes 4 ((total + 2 ^ 24 - 1) / 2 ^ 24) ++
    leBytes 2 s.consist.cfg.topology.hubIndex ++ leBytes 2 0 ++ (Config.sha512 Config.identityKey).take 8 ++ List.replicate 40 0 ++
    ((rangeFrom 0 8).flatMap fun n => leBytes 8 (if nbit (snMembers t.raw) n then partBytes t n else 0)) ++ List.replicate 64 0 ++
    ((rangeFrom 0 64).flatMap fun k =>
      let x := getTable s k
      if nbit (snTables t.raw) k then leBytes 8 x.last ++ leBytes 1 (tbKind x) ++ leBytes 1 (field x.raw 1 1) ++ List.replicate 6 0
      else List.replicate 16 0) ++ List.replicate 2808 0
  body ++ leBytes 8 (recordCode (body ++ List.replicate 8 0))

/-- R230: a table area copied into the image, poison and all. -/
def copyArea (s : State) (slot off : Nat) (a n : Nat) : State :=
  slotWrite s slot off (memBytes s a n) ((rangeFrom 0 n).filter fun o => blockPoisoned s ((a + o) / 64))

/-- R235: every member has sent all its bytes. -/
def takeWhole (t : Take) : Bool :=
  t.cut && (portsOf (snMembers t.raw)).all fun n => t.sent.contains n && kget 0 t.got n == partBytes t n

/-- R230, R235, R240: the commit: tables, manifests, chunk codes and record written, STATE COMMITTED last; members are told the
resume beat, a mirror starts, the host gets its completion. -/
def commitTake (s : State) (t : Take) : State :=
  let i := t.slot
  let total := takeTotal s t
  let base := takePartBase t 8
  let s := ((imageAreas s (snTables t.raw)).foldl (fun (p : State × Nat) g => (copyArea p.1 i (2 ^ 21 + p.2) g.1 g.2, p.2 + g.2)) (s, base)).1
  let s := (rangeFrom 0 8).foldl (fun s n =>
    let l := if nbit (snMembers t.raw) n then kget [] t.parts n else []
    slotWrite s i (0x1000 + 512 * n)
      ((l.flatMap fun g => leBytes 8 g.1 ++ leBytes 8 g.2) ++ List.replicate (512 - 16 * l.length) 0)) s
  let s := (rangeFrom 0 ((total + 2 ^ 24 - 1) / 2 ^ 24)).foldl (fun s c =>
    slotWrite s i (0x2000 + 8 * c) (leBytes 8 (crc64 (slotRead s i (2 ^ 21 + c * 2 ^ 24) (chunkLen total c))))) s
  let s := slotWrite s i 0 (takeRecord s t total)
  let s := setSlotState s i 2
  let resume := s.drum.count + 50
  let s := putSnap (regPut s rSnapMirror 63 32 0)
    { s.snap with take := none, hold := some { members := snMembers t.raw, tables := snTables t.raw, resume := resume } }
  let s := tellAll s (portsOf (snMembers t.raw)) 0x35 [(4, t.gen % 2 ^ 32), (8, resume.toNat)]
  let s := if snapMode s = 2 then
      startMirror (putSnap s { s.snap with mirOut := some (newMirror t.gen i) })
    else s
  snapEntry s t.origin t.raw 0 0 i t.gen (snCut t.raw) total (snUser t.raw)

/-- R239: the job ends during a take. -/
def abortTake (s : State) : State := cancelTake s 0xE

/-! ### Drains (R242) -/

/-- Packets of its drains that a connection has on the way at most (DESIGN CHOICE, log 49). -/
def drainWindow : Nat := 64

/-- One packet of a drain, while the connection has room and its port is not paused (R334). -/
def drainStep (s : State) (key : Nat) : State :=
  match s.snap.drains.find? fun d => d.key == key with
  | some d =>
    match s.host.conns.find? fun e => e.1 == field d.raw 0x34 4 with
    | some (cn, c) =>
      if d.sent < d.total ∧ c.sent.length < drainWindow ∧ !s.host.paused.contains c.port then
        let n := min c.mtu (d.total - d.sent)
        let s := rdmaSend s cn (field d.raw 0x28 8 + d.sent) (field d.raw 0x30 4) (slotRead s d.slot d.sent n) (some key)
        putSnap s { s.snap with drains := s.snap.drains.map fun e => if e.key = key then { e with sent := d.sent + n } else e }
      else s
    | none => s
  | none => s

/-- The drains of a connection send as far as there is room. -/
def drainPump (s : State) (conn : Nat) : State :=
  let ks := (s.snap.drains.filter fun d => field d.raw 0x34 4 == conn).map fun d => d.key
  ks.foldl (fun s k => (rangeFrom 0 drainWindow).foldl (fun s _ => drainStep s k) s) s

/-- R242: bytes of a drain acknowledged; a drain that is through completes. -/
def drainAcked (s : State) (key n : Nat) : State :=
  match s.snap.drains.find? fun d => d.key == key with
  | some d =>
    if d.acked + n ≥ d.total then
      let s := putSnap s { s.snap with drains := s.snap.drains.filter fun e => e.key != key }
      drainEntry s { d with acked := d.total } 0
    else putSnap s { s.snap with drains := s.snap.drains.map fun e => if e.key = key then { e with acked := d.acked + n } else e }
  | none => s

/-- The drains of a connection that closes end ABORTED (DEDUCED, log 49). -/
def abortDrains (s : State) (conn : Nat) : State :=
  let ds := s.snap.drains.filter fun d => field d.raw 0x34 4 == conn
  let s := putSnap s { s.snap with drains := s.snap.drains.filter fun d => field d.raw 0x34 4 != conn }
  ds.foldl (fun s d => drainEntry s d 0xE) s

/-- R242: a slot holds the generation `g`, whole or DAMAGED, with a record that checks. -/
def slotHolds (s : State) (i g : Nat) : Bool :=
  (slotCommitted s i || slotState s i == 4) && slotGen s i == g && recordOk s i && imageFits s i

/-- R242: DRAIN of the named generation, which a mirror slot may hold too: an intact local one first, then a local one, then a mirror; or
of the newest intact local one. -/
def beginDrain (s : State) (o : Origin) (r : List Byte) : State :=
  let ok := (localSlots s).filter fun i => slotCommitted s i && slotIntact s i && (snGen r == 0 || slotGen s i == snGen r)
  let held := ((rangeFrom 0 (slotCount (snapMode s))).filter fun i => snGen r != 0 && slotHolds s i (snGen r)).take 1
  match if ok = [] then held else ok with
  | [] => snapFail s o r 0xC 0
  | i :: l =>
    let i := l.foldl (fun b j => if slotGen s b < slotGen s j then j else b) i
    let d : Drain := { key := s.snap.nextDrain, origin := o, raw := r, gen := slotGen s i, slot := i, beat := s.drum.count, sent := 0, acked := 0,
                       total := mirrorBytes s i }
    drainPump (putSnap s { s.snap with drains := s.snap.drains ++ [d], nextDrain := s.snap.nextDrain + 1 }) (field r 0x34 4)

/-! ### Imports (R243) -/

/-- R243: IMPORT with OPEN. BYTES gives the slot's address. -/
def openImport (s : State) (o : Origin) (r : List Byte) : State :=
  let i := targetSlot s
  let s := emptySlot (supersedeDrains s i) i
  let s := putSnap s { s.snap with importing := some i }
  snapEntry s o r 0 0 i 0 0 (slotAddr s i 0) 0

/-- R243: IMPORT without OPEN. -/
def checkImport (s : State) (o : Origin) (r : List Byte) : State :=
  let i := s.snap.importing.getD (targetSlot s)
  let s := putSnap s { s.snap with importing := none, acked := none }
  if imageFits s i ∧ slotIntact s i then
    let s := syncSlot (setOrigin s i 2) i
    snapEntry s o r 0 0 i (slotGen s i) (slotVal s i 0x18 8) (recTotal s i) (slotVal s i 0x30 8)
  else snapEntry (emptySlot s i) o r 0xC 0 i 0 0 0 0

/-- R243: whether the host may write a byte of the import slot. -/
def importAllows (s : State) (a : Nat) : Bool :=
  match s.snap.importing with
  | some i => (rangeFrom 0 (slotUnits s)).any fun u => storeUnit (snapRegions s) (i * slotUnits s + u) == a / 2 ^ 21
  | none => false

/-! ### Restores (R244 to R247) -/

/-- Bytes of the copy being restored from: a local slot, or what has been fetched. -/
def srcBytes (s : State) (r : Restore) (src : Option Nat) (off n : Nat) : List Byte :=
  match src with
  | some i => slotRead s i off n
  | none => (r.fetched.drop off).take n

/-- A field of its record. -/
def srcVal (s : State) (r : Restore) (src : Option Nat) (off n : Nat) : Nat := leVal (srcBytes s r src off n)

/-- R244: the fetched mirror is eligible. -/
def fetchedOk (r : Restore) : Bool :=
  let b := r.fetched.take 4096
  b.length == 4096 && recordCode b == field b 0xFF8 8 && field b 0x10 1 == 2

/-- R244: whether GEN or BY_USER names a copy. -/
def named (s : State) (r : Restore) (src : Option Nat) : Bool :=
  if snFlag r.raw 2 then srcVal s r src 0x30 8 == snGen r.raw else snGen r.raw == 0 || srcVal s r src 8 8 == snGen r.raw

/-- Insertion by falling GEN; a local copy before the mirror of the same generation. -/
def insCand (s : State) (r : Restore) (c : Option Nat) : List (Option Nat) → List (Option Nat)
  | [] => [c]
  | a :: l => if srcVal s r a 8 8 < srcVal s r c 8 8 then c :: a :: l else a :: insCand s r c l

/-- R244: the eligible copies in the order in which they are tried. -/
def candidates (s : State) (r : Restore) : List (Option Nat) :=
  let here := if snFlag r.raw 1 then [] else ((localSlots s).filter fun i => slotCommitted s i && recordOk s i).map some
  let there := if fetchedOk r then [none] else []
  ((here ++ there).filter fun c => named s r c).foldl (fun l c => insCand s r c l) []

def putRestore (s : State) (r : Option Restore) : State := putSnap s { s.snap with restore := r }

/-- R233, R247: a restore ends: its entry tells of the copy in use, the first of its candidates; one without any tells what the command
names. Which slot holds the neighbour's mirror no message tells: its number is a free value (log 111). -/
def endRestore (s : State) (r : Restore) (status : Nat) : State :=
  let s := putRestore s none
  match r.cands with
  | src :: _ =>
    let (s, slot) := match src with
      | some i => (s, i)
      | none => ((takeFree s).1, 0x81 + (takeFree s).2.toNat % 2)
    snapEntry s r.origin r.raw status 0 slot (srcVal s r src 8 8) (srcVal s r src 0x18 8)
      (if status = 0 then srcVal s r src 0x40 8 else movedBytes r.loaded) (srcVal s r src 0x30 8)
  | [] => snapFail s r.origin r.raw status 0

/-- The generation being loaded, as messages carry it. -/
def loadGen (s : State) (r : Restore) : Option Nat :=
  match r.begun, r.cands with
  | true, src :: _ => some (srcVal s r src 8 8 % 2 ^ 32)
  | _, _ => none

/-- Members of the copy being loaded. -/
def restPorts (s : State) (r : Restore) : List Nat :=
  match r.cands with
  | src :: _ => portsOf (srcVal s r src 0x12 1)
  | [] => []

/-- R240, R301, log 51: more of the mirror asked for, so that `want` bytes come. The first grant of a fetch names GEN 0: the generation is
not known before the record. -/
def askMirror (s : State) (r : Restore) (want : Nat) : State :=
  let s := putRestore s (some { r with want := want })
  sendCtl s 9 0x64 [(4, if r.want = 0 then 0 else srcVal s r none 8 8 % 2 ^ 32), (8, streamFlits want - streamFlits r.want)]

/-- R245: SNAP_LOAD and the manifest to one member. -/
def sendLoad (s : State) (r : Restore) (src : Option Nat) (n : Nat) : State :=
  let g := srcVal s r src 8 8 % 2 ^ 32
  let l := ((rangeFrom 0 32).map fun k =>
    (srcVal s r src (0x1000 + 512 * n + 16 * k) 8, srcVal s r src (0x1000 + 512 * n + 16 * k + 8) 8)).filter fun m => m.2 != 0
  let s := sendCtl s n 0x36 [(1, l.length), (4, g)]
  ((rangeFrom 0 l.length).zip l).foldl (fun s e =>
    sendCtl s n 0x31 [(1, e.1 + (if e.1 + 1 = l.length then 128 else 0)), (2, e.2.1 / 4096), (8, e.2.2 / 4096)]) s

/-- R244, R245: the first candidate's load begins. -/
def startLoad (s : State) (r : Restore) : State :=
  match r.cands with
  | [] => endRestore s r 0xC
  | src :: _ =>
    let ms := restPorts s r
    if ms.any fun n => !portActive s n then endRestore s r 0xD
    else
      let r := { r with begun := true, chunk := 0, grants := [], loaded := [], told := [], acked := [] }
      let s := putRestore s (some r)
      let s := ms.foldl (fun s n => sendLoad s r src n) s
      match src with
      | some _ => s
      | none => askMirror s r (2 ^ 21 + srcVal s r none 0x40 8)

/-- Image offset at which a member's bytes begin. -/
def restBase (s : State) (r : Restore) (src : Option Nat) (n : Nat) : Nat :=
  lsum ((rangeFrom 0 n).map fun m => srcVal s r src (0x80 + 8 * m) 8)

/-- R246: a chunk reads without poison and matches its code. -/
def restChunkOk (s : State) (r : Restore) (src : Option Nat) (c : Nat) : Bool :=
  match src with
  | some i => chunkOk s i c
  | none =>
    let n := chunkLen (srcVal s r none 0x40 8) c
    let o := 2 ^ 21 + c * 2 ^ 24
    crc64 (srcBytes s r none o n) == srcVal s r none (0x2000 + 8 * c) 8 &&
    !(r.badFlits.any fun k => decide (o < 240 * k + 240) && decide (240 * k < o + n))

/-- R245: a member's flits, as far as they are checked and granted, then SNAP_LOADED. -/
def deliver (s : State) (r : Restore) (src : Option Nat) (n : Nat) : State × Restore :=
  let g := srcVal s r src 8 8
  let part := srcVal s r src (0x80 + 8 * n) 8
  let base := restBase s r src n
  let checked := min part (r.chunk * 2 ^ 24 - base)
  let sentF := streamFlits (kget 0 r.loaded n)
  let full := if checked = part then streamFlits part else checked / 240
  let stop := min full (kget 0 r.grants n)
  let s := (rangeFrom sentF (stop - sentF)).foldl (fun s k =>
    let m := min 240 (part - 240 * k)
    sendFlit s n 0xA 2 (g % 256 * 2 ^ 50 + k % 2 ^ 32 * 2 ^ 18 + m * 2 ^ 10) (srcBytes s r src (2 ^ 21 + base + 240 * k) m)) s
  let r := { r with loaded := kset 0 r.loaded n (min part (240 * max stop sentF)) }
  if kget 0 r.loaded n = part ∧ ¬ r.told.contains n then
    (sendCtl s n 0x37 [(4, g % 2 ^ 32), (8, part)], { r with told := nadd r.told n })
  else (s, r)

/-- Whether every member has the bytes of the checked chunks. -/
def delivered (s : State) (r : Restore) (src : Option Nat) : Bool :=
  (restPorts s r).all fun n =>
    let part := srcVal s r src (0x80 + 8 * n) 8
    decide (min part (r.chunk * 2 ^ 24 - restBase s r src n) < kget 0 r.loaded n + 240)

/-- R246: a copy fails: it is DAMAGED, the neighbour told where it holds it (log 51), its members are told, the next candidate is
loaded. -/
def failCopy (s : State) (r : Restore) : State :=
  match r.cands with
  | [] => endRestore s r 0xC
  | src :: rest =>
    let s := match src with
      | some i => setSlotState s i 4
      | none => sendCtl s 9 0x63 [(4, srcVal s r none 8 8 % 2 ^ 32)]
    let s := tellAll s (restPorts s r) 0x32 [(4, srcVal s r src 8 8 % 2 ^ 32)]
    if rest = [] then endRestore s r 0xC else startLoad s { r with cands := rest }

/-- R245, R246: the restore goes on: checked bytes are delivered, then the next chunk is checked. `fuel` bounds the chunks. -/
def restoreGo : Nat → State → State
  | 0, s => s
  | fuel + 1, s =>
    match s.snap.restore with
    | none => s
    | some r =>
      match r.begun, r.cands with
      | true, src :: _ =>
        let p := (restPorts s r).foldl (fun (p : State × Restore) n => deliver p.1 p.2 src n) (s, r)
        let s := putRestore p.1 (some p.2)
        let r := p.2
        let total := srcVal s r src 0x40 8
        let there : Bool := match src with
          | some _ => true
          | none => decide (2 ^ 21 + min total ((r.chunk + 1) * 2 ^ 24) ≤ r.fetched.length)
        if r.chunk < imgChunks total ∧ there = true ∧ delivered s r src then
          if restChunkOk s r src r.chunk then restoreGo fuel (putRestore s (some { r with chunk := r.chunk + 1 }))
          else restoreGo fuel (failCopy s r)
        else s
      | _, _ => s

/-- The chunks of every candidate and one more. -/
def restoreFuel (s : State) : Nat :=
  match s.snap.restore with
  | some r => 2 + lsum (r.cands.map fun c => imgChunks (srcVal s r c 0x40 8) + 1)
  | none => 0

def restorePump (s : State) : State := restoreGo (restoreFuel s) s

/-- R244: a RESTORE begins: the mirror's record is fetched first where the mirror may be a candidate. -/
def beginRestore (s : State) (o : Origin) (r : List Byte) : State :=
  let x : Restore :=
    { origin := o, raw := r, cands := [], begun := false, chunk := 0, grants := [], loaded := [], told := [], acked := [], fetched := [],
      badFlits := [], want := 0 }
  if snapMode s = 2 ∧ snFlag r 0 = false ∧ portActive s 9 then askMirror (putRestore s (some x)) x (2 ^ 21)
  else restorePump (startLoad (putRestore s (some x)) { x with cands := candidates s x })

/-- R244, R246, log 51: the neighbour holds no mirror of this hub, or no longer the one that is being fetched: the local copies are the
candidates, or the next copy is. -/
def mirrorAbsent (s : State) : State :=
  match s.snap.restore with
  | some r =>
    if r.begun = true ∧ r.cands.head? = some none ∧ r.fetched.length < r.want then restorePump (failCopy s r)
    else if r.begun = false ∧ r.want ≠ 0 then
      let r := { r with want := 0, fetched := [], badFlits := [] }
      restorePump (startLoad (putRestore s (some r)) { r with cands := candidates s r })
    else s
  | none => s

/-- R244, R301, log 51: a flit of the neighbour's mirror, of the generation that its record gives. The record tells the hub the
generation that its neighbour holds (R234). Flits of an earlier fetch that still come before the first one are passed over. -/
def fetchFlit (s : State) (f : Flit) (r : Restore) : State :=
  let h := flitHdr f
  let k := nbits h 49 18
  let n := nbits h 17 10
  let gen := field ((r.fetched.take 16) ++ f.payload.take 16) 8 8
  if r.fetched = [] ∧ k ≠ 0 then s
  else if k ≠ streamFlits r.fetched.length ∨ r.fetched.length % 240 ≠ 0 ∨ streamFlits r.want ≤ k ∨ n = 0 ∨ 240 < n ∨ nbits h 57 50 ≠ gen % 256 then
    protocolError s 9 0xA 0
  else
    let s := putSnap s { s.snap with peerGen := max s.snap.peerGen gen }
    let r := { r with fetched := r.fetched ++ f.payload.take n, badFlits := if nbits h 9 6 = 0 then r.badFlits else r.badFlits ++ [k] }
    let s := putRestore s (some r)
    if r.begun = false ∧ 2 ^ 21 ≤ r.fetched.length then restorePump (startLoad s { r with cands := candidates s r }) else restorePump s

/-- R246, R247: every chunk is checked and every member has answered. -/
def restoreWhole (s : State) (r : Restore) : Bool :=
  match r.begun, r.cands with
  | true, src :: _ => r.chunk == imgChunks (srcVal s r src 0x40 8) && (restPorts s r).all fun n => r.acked.contains n
  | _, _ => false

/-- R245, R247: the tables are written back and become INTERRUPTED, and the restore completes. -/
def finishRestore (s : State) (r : Restore) : State :=
  match r.cands with
  | [] => s
  | src :: _ =>
    let mask := srcVal s r src 0x38 8
    let s := ((imageAreas s mask).foldl (fun (p : State × Nat) g =>
      (storeBytes p.1 g.1 (srcBytes p.1 r src (2 ^ 21 + p.2) g.2) false, p.2 + g.2)) (s, restBase s r src 8)).1
    let s := (tablesOf mask).foldl (fun s t => interrupt s t (getTable s t)) s
    endRestore s r 0

/-- R246: a fault ends a restore. -/
def abortRestore (s : State) : State :=
  match s.snap.restore with
  | some r =>
    let s := match r.begun, r.cands with
      | true, src :: _ => tellAll s (restPorts s r) 0x32 [(4, srcVal s r src 8 8 % 2 ^ 32)]
      | _, _ => s
    endRestore s r 0xE
  | none => s

/-! ### Taking commands (R232) -/

/-- R232, R242, R244: an accepted command. The order of the refusals is DEDUCED (log 50). -/
def acceptSnap (s : State) (o : Origin) (r : List Byte) : State :=
  let c := snCmd r
  let busy := s.snap.take.isSome || s.snap.restore.isSome
  if snapMode s = 0 then snapFail s o r 3 0
  else if c = 1 ∧ s.host.job.isNone then snapFail s o r 5 0
  else match (snapChecks s r).find? fun k => !k.2 with
    | some k => snapFail s o r 2 k.1
    | none =>
      if c ≠ 3 ∧ busy then snapFail s o r 1 0
      else if (c = 2 ∨ c = 4) ∧ s.host.job.isSome then snapFail s o r 6 0
      else if c = 1 then beginTake s o r
      else if c = 2 then beginRestore s o r
      else if c = 3 then beginDrain s o r
      else if snFlag r 0 then openImport s o r
      else checkImport s o r

/-- R242: while G3 does not run, a command waits unaccepted. -/
def takeSnapCmd (s : State) (o : Origin) (r : List Byte) : State :=
  if guardRuns s 3 then acceptSnap s o r
  else putSnap s { s.snap with waiting := s.snap.waiting ++ [{ origin := o, raw := r, start := none, late := false }] }

/-- R242: G3 restarts: what it has not accepted is answered. -/
def resubmitSnap (s : State) : State :=
  let w := s.snap.waiting
  let s := putSnap s { s.snap with waiting := [] }
  w.foldl (fun s c => snapFail s c.origin c.raw 0x10 0) s

end Sys2Proof.Machine
end

