-- ==== Sys2Proof/Machine/JobEnd.lean ====
section
/-! DEFINITION. The end of a job, whatever ends it (R21, R90, R183, R224, R239, R307, R308, R364, R365, R472), a partner's
reset pin (R485), and the effects of a fatal latch (R462). -/

namespace Sys2Proof.Machine

def jobRunning (s : State) : Bool := s.host.job.isSome

/-- R446, Table 16.1: the 128 bits of a message. -/
def msgVal (m : FaultMsg) : Nat :=
  m.source % 2 ^ 10 + m.kind % 2 ^ 6 * 2 ^ 10 + m.cls % 4 * 2 ^ 16 + m.addr % 2 ^ 48 * 2 ^ 18 +
  m.beat % 2 ^ 32 * 2 ^ 66 + m.seq % 2 ^ 30 * 2 ^ 98

/-- R446: its 16 bytes. -/
def msgBytes (m : FaultMsg) : List Byte := leBytes 16 (msgVal m)

/-- An I3C write or read of partner n's register `index` (R310, R491): purpose 1 write, 0 read. -/
def i3cOp (s : State) (n write index value : Nat) : State := emit s .i3c [n, write, index, value]

/-- R307: JOB_ABORT on every ACTIVE A port, and on every ACTIVE P port when the Consist spans hubs; the abort write to a
partner whose port is not ACTIVE and whose watch is open. -/
def sendAborts (s : State) (reason : Nat) : State :=
  let msg := fun (s : State) (n : Nat) => sendCtl s n 1 [(1, reason), (8, s.drum.count.toNat)]
  let s := (rangeFrom 0 8).foldl (fun s n =>
    if portActive s n then msg s n
    else if portNamed s n && regBits s (rSidePart n) 63 60 == 2 then i3cOp s n 1 8 1 else s) s
  if s.consist.cfg.topology.hubCount < 2 then s
  else [8, 9].foldl (fun s n => if portActive s n then msg s n else s) s

/-- R90: no seat issues any longer, and every kernel is to complete ABORTED. -/
def stopAllKernels (s : State) : State :=
  (rangeFrom 0 8).foldl (fun s t =>
    match (getTrain s t).kernel with
    | some k =>
      let k := { k with phase := .stopping, status := 3, startBeat := if k.phase = .loading then 0 else k.startBeat }
      stopKernel (putKernel s t k) k
    | none => s) s

/-- R472: a coach slice that runs when the job ends restores nothing: its coach is idle but for what comes after (a next kernel, an apply). -/
def keepSlice (s : State) : State :=
  match s.bist.run with
  | some sl => { s with bist := { s.bist with run := some { sl with saved := sl.saved.map fun _ => .idle, restore := false } } }
  | none => s

/-- R21, R90, R307, R364: the job ends. `reason` is JOB_ABORT's, `msg` the message that ended it, `byHost` says that the host's
JOB_END did, whose reply reports the end. -/
def endJob (s : State) (reason : Nat) (msg : Option FaultMsg) (byHost : Bool) : State :=
  match s.host.job with
  | none => s
  | some j =>
    let s := sendAborts s reason
    let s := abortState (abortColls (abortTake s))
    let s := keepSlice (stopAllKernels s)
    let rec' : JobRecord := { id := j.id, endBeat := s.drum.count, msg := msg, posted := byHost }
    let s := putHost s { s.host with job := none, record := some rec', ending := some { byHost := byHost } }
    let s := if s.host.heldEnd.isSome then
        answerOwed (putHost s { s.host with heldEnd := none }) 0x21 none (ansStatus 0xA)
      else s
    retestDue s

/-- R364: JOB_ABORTED to both roles, from the record. -/
def postRecord (s : State) : State :=
  match s.host.record with
  | some r =>
    if r.posted then s
    else
      let body := leBytes 8 r.id ++ leBytes 8 r.endBeat.toNat ++ (match r.msg with | some m => msgBytes m | none => List.replicate 16 0)
      let s := putHost s { s.host with record := some { r with posted := true } }
      notifyRole (notifyRole s 0 0x81 body) 1 0x81 body
  | none => s

/-- KERNELS_STOPPED (R90, R364, R365): every kernel has stopped; what ran completes ABORTED, the queues are emptied, and the end is
reported. -/
def execKernelsStopped (s : State) : Host.Outcome State Fault Refusal :=
  match s.host.ending with
  | none => .next s
  | some e =>
    let s := putHost (abortAllKernels s) { (abortAllKernels s).host with ending := none }
    if e.byHost then
      .next (answerOwed s 0x21 none (ansOk (match s.host.record with | some r => leBytes 8 r.endBeat.toNat | none => [])))
    else .next (postRecord s)

/-- R464: the job ends under a fault message. -/
def abortJob (s : State) (m : Option FaultMsg) : State := endJob s 1 m false

/-- R239: a JOB_END held by a take ends the job once the take is over. -/
def releaseHeldEnd (s : State) : State :=
  if s.host.heldEnd.isSome && s.snap.take.isNone then endJob (putHost s { s.host with heldEnd := none }) 2 none true else s

/-! ### A partner's reset pin -/

/-- R311: no second read of LINK_STATE is due any more: the partner's watch has closed. -/
def linkWatchEnd (s : State) (n : Nat) : State := { s with board := { s.board with linkBad := ndel s.board.linkBad n } }

/-- R490: a partner in reset has been sent no RSTDAA for its next release. -/
def forgetDaa (s : State) (n : Nat) : State := { s with board := { s.board with daaSent := ndel s.board.daaSent n } }

/-- R485, R505: ACCn_RST_N is asserted: the partner is in reset, its watch closes and its port leaves training without a fault. -/
def assertReset (s : State) (n : Nat) : State :=
  if regBits s (rSidePart n) 50 50 = 0 then s
  else
    let s := regPut s (rSidePart n) 50 50 0
    let s := regPut (regPut s (rSidePart n) 63 60 0) (rSidePart n) 59 53 0
    let s := emit s .pin [n, 0]
    disablePort (forgetDaa (linkWatchEnd s n) n) n

/-- PSEQ_STATUS.PARTNERS bit n clears (R485, R505). -/
def partnerDown (s : State) (n : Nat) : State :=
  if nbit (regBits s rPseq 47 40) n then
    let s := regPut s rPseq (40 + n) (40 + n) 0
    let s := regPut s rSideCtl (40 + n) (40 + n) 0
    assertReset (leaveEmerg (leaveEmerg s (0x10 + n)) (0x20 + n)) n
  else s

/-! ### Fatal latches (R462) -/

/-- R462: what a fatal latch of a port or a guard does beyond the report. -/
def latchEffects (s : State) (src : Nat) : State :=
  if 0x240 ≤ src ∧ src < 0x24A then setPortSt (quietPort s (src - 0x240) 8) (src - 0x240) 8
  else if 0x270 ≤ src ∧ src < 0x276 then regPut s (rCfgGuard (src - 0x270)) 63 60 4
  else s

/-- Yards with a fatal latch (R462). -/
def failedYards (s : State) : BitVec 16 := BitVec.ofNat 16 (regBits s (rFatal 8) 15 0)

/-! ### Conditions other units ask for -/

def applyRunning (s : State) : Bool := s.consist.apply.isSome
def tripStands (s : State) : Bool := decide (regBits s rTrip 63 61 ≠ 0)
def snapBusy (s : State) : Bool := s.snap.take.isSome || s.snap.restore.isSome

end Sys2Proof.Machine
end

