-- ==== Sys2Proof/Machine/SnapshotCmd.lean ====
section
/-! DEFINITION. Chapter 08: the commands and events of takes, restores, drains and imports (R232 to R247). -/

namespace Sys2Proof.Machine

/-- A snapshot command from the service's ring (R232); Table 12.9 lets the service take it at any time but while a completion entry of its
own waits for room (R24, R343). -/
def snapCommand (s : State) (src : Origin) (raw : List Byte) (ok : Bool) : State :=
  let here := match src with | .ring r => decide (r < 256) && r % 2 == 0 | .port _ => false
  if raw.length = 64 ∧ here = true ∧ ok = true ∧ svcWaits s 9 = false then takeSnapCmd s src raw else s

/-- TAKE (R232 to R235). -/
def execTake (src : Origin) (raw : List Byte) (s : State) : Host.Outcome State Fault Refusal :=
  .next (snapCommand s src raw (snCmd raw == 1))
/-- RESTORE (R244). -/
def execRestore (src : Origin) (raw : List Byte) (s : State) : Host.Outcome State Fault Refusal :=
  .next (snapCommand s src raw (snCmd raw == 2))
/-- DRAIN (R242). -/
def execDrain (src : Origin) (raw : List Byte) (s : State) : Host.Outcome State Fault Refusal :=
  .next (snapCommand s src raw (snCmd raw == 3))
/-- IMPORT_OPEN (R243): an IMPORT with FLAGS [0]. -/
def execImportOpen (src : Origin) (raw : List Byte) (s : State) : Host.Outcome State Fault Refusal :=
  .next (snapCommand s src raw (snCmd raw == 4 && snFlag raw 0))
/-- IMPORT_CHECK (R243): an IMPORT without it. -/
def execImportCheck (src : Origin) (raw : List Byte) (s : State) : Host.Outcome State Fault Refusal :=
  .next (snapCommand s src raw (snCmd raw == 4 && !snFlag raw 0))

/-- R228, R235: one range of a member's manifest. -/
def addManifest (s : State) (c : Ctl) (t : Take) : State :=
  let n := c.port
  let idx := field c.msg 1 1 % 32
  let last := nbit (field c.msg 1 1) 7
  let l := kget [] t.parts n
  if !nbit (snMembers t.raw) n || t.last.contains n || idx != l.length || field c.msg 1 1 / 32 % 4 != 0 || (idx == 31 && !last) then
    protocolError s n 6 0x31
  else
    let r := (field c.msg 2 6 * 4096, field c.msg 8 6 * 4096)
    let t := { t with parts := kput t.parts n (l ++ [r]), last := if last then nadd t.last n else t.last }
    let s := putSnap s { s.snap with take := some t }
    if !t.fits && (portsOf (snMembers t.raw)).all fun m => t.last.contains m then checkManifests s t else s

/-- SNAP_MANIFEST (R235): a range of a partner's manifest arrives. -/
def execSnapManifest (c : Ctl) (s : State) : Host.Outcome State Fault Refusal :=
  match takeCtl s c 0x31 (fromPartner c) with
  | (s, true) =>
    match s.snap.take with
    | some t => .next (releaseHeldEnd (addManifest s c t))
    | none => .next s
  | (s, false) => .next s

/-- SNAP_MANIFEST_DEADLINE (R235): CUT_BEAT − 250 beats. -/
def execSnapManifestDeadline (s : State) : Host.Outcome State Fault Refusal :=
  match s.snap.take with
  | some t =>
    if t.fits = false ∧ t.cut = false ∧ snCut t.raw ≤ s.drum.count.toNat + 250 then .next (releaseHeldEnd (cancelTake s 8)) else .next s
  | none => .next s

/-- SNAP_CUT (R235, R236): CUT_BEAT. -/
def execSnapCut (s : State) : Host.Outcome State Fault Refusal :=
  match s.snap.take with
  | some t =>
    if t.fits = true ∧ t.cut = false ∧ snCut t.raw ≤ s.drum.count.toNat then .next (releaseHeldEnd (cutTake s t)) else .next s
  | none => .next s

/-- SNAP_DATA (R235, R240, R244, R301): a data flit from a member of a take, of a mirror that P0 sends, or of the mirror that
is fetched over P1. Data for a take that has ended are discarded (R308). -/
def execSnapData (f : Flit) (s : State) : Host.Outcome State Fault Refusal :=
  let ok := nbits (flitHdr f) 5 0 == 0 && zeroFrom f.payload (nbits (flitHdr f) 17 10)
  match takeFlit s f 0xA 2 ok with
  | (s, true) =>
    if f.port < 8 then
      match s.snap.take with
      | some t => .next (takeFlitData s f t)
      | none => .next s
    else if f.port = 8 then
      match s.snap.mirIn with
      | some m => .next (mirrorFlit s f m)
      | none => .next (protocolError s 8 0xA 0)
    else
      match s.snap.restore with
      | some r => .next (fetchFlit s f r)
      | none => .next s
  | (s, false) => .next s

/-- SNAP_SENT (R235): a partner has sent all its bytes. -/
def execSnapSent (c : Ctl) (s : State) : Host.Outcome State Fault Refusal :=
  match takeCtl s c 0x34 (fromPartner c) with
  | (s, true) =>
    match s.snap.take with
    | some t =>
      if field c.msg 4 4 ≠ t.gen % 2 ^ 32 then .next s
      else if t.cut = true ∧ nbit (snMembers t.raw) c.port = true ∧ field c.msg 8 8 = partBytes t c.port ∧
          kget 0 t.got c.port = partBytes t c.port then
        .next (putSnap s { s.snap with take := some { t with sent := nadd t.sent c.port } })
      else .next (protocolError s c.port 6 0x34)
    | none => .next s
  | (s, false) => .next s

/-- SNAP_COMMIT (R24, R230, R235, R343): every image byte is in the slot and performed. The commit waits while a completion entry of the
service waits for room. -/
def execSnapCommit (s : State) : Host.Outcome State Fault Refusal :=
  match s.snap.take with
  | some t => if takeWhole t ∧ svcWaits s 9 = false then .next (releaseHeldEnd (commitTake s t)) else .next s
  | none => .next s

/-- SNAP_RESUME (R235, R236): the resume beat: held items may start. -/
def execSnapResume (s : State) : Host.Outcome State Fault Refusal :=
  match s.snap.hold with
  | some h => if h.resume.ule s.drum.count then .next (putSnap s { s.snap with hold := none }) else .next s
  | none => .next s

/-- SNAP_PCREDIT (R245, R301): a partner grants flits of the generation being loaded. -/
def execSnapPcredit (c : Ctl) (s : State) : Host.Outcome State Fault Refusal :=
  match takeCtl s c 0x39 (fromPartner c) with
  | (s, true) =>
    match s.snap.restore with
    | some r =>
      if loadGen s r = some (field c.msg 4 4) then
        .next (restorePump (putRestore s (some { r with grants := kset 0 r.grants c.port (kget 0 r.grants c.port + field c.msg 8 4) })))
      else .next s
    | none => .next s
  | (s, false) => .next s

/-- SNAP_LOADED_ACK (R245, R246): a partner's writes are performed. One for a copy that has failed is passed over. -/
def execSnapLoadedAck (c : Ctl) (s : State) : Host.Outcome State Fault Refusal :=
  match takeCtl s c 0x38 (fromPartner c) with
  | (s, true) =>
    match s.snap.restore with
    | some r =>
      if loadGen s r ≠ some (field c.msg 4 4) then .next s
      else if r.told.contains c.port then .next (putRestore s (some { r with acked := nadd r.acked c.port })) else .next (protocolError s c.port 6 0x38)
    | none => .next s
  | (s, false) => .next s

/-- MIR_BEGIN (R240): a transfer into a mirror slot starts. A transfer that this hub cannot take is answered MIR_NAK. -/
def execMirBegin (c : Ctl) (s : State) : Host.Outcome State Fault Refusal :=
  let (s, a) := takeCtl s c 0x60 (fromHub c)
  if !a || c.port != 8 then .next s
  else
    let gen := field c.msg 4 4
    let total := field c.msg 8 8
    if snapMode s ≠ 2 ∨ slotUnits s * 2 ^ 21 < 2 ^ 21 + total then .next (sendCtl s 8 0x63 [(4, gen)])
    else
      let i := mirrorTarget s
      let s := setSlotState (supersedeDrains s i) i 3
      let s := putSnap s { s.snap with mirIn := some { gen := gen, slot := i, total := total, got := 0 } }
      .next (sendCtl s 8 0x64 [(4, gen), (8, streamFlits (2 ^ 21 + total))])

/-- MIR_END (R240): the copy is checked; a whole one becomes the newest mirror and the other mirror slot EMPTY. -/
def execMirEnd (c : Ctl) (s : State) : Host.Outcome State Fault Refusal :=
  let (s, a) := takeCtl s c 0x61 (fromHub c)
  match s.snap.mirIn with
  | some m =>
    if !a || c.port != 8 || field c.msg 4 4 != m.gen then .next s
    else
      let s := putSnap s { s.snap with mirIn := none }
      if m.got = 2 ^ 21 + m.total ∧ recTotal s m.slot = m.total ∧ imageFits s m.slot ∧ copyOk s m.slot then
        let s := setSlotState (setOrigin s m.slot 1) m.slot 2
        let s := emptySlot s (3 - m.slot)
        .next (sendCtl s 8 0x62 [(4, m.gen)])
      else .next (sendCtl (setSlotState s m.slot 4) 8 0x63 [(4, m.gen)])
  | none => .next s

/-- MIR_ACK (R240): the neighbour holds the generation. -/
def execMirAck (c : Ctl) (s : State) : Host.Outcome State Fault Refusal :=
  let (s, a) := takeCtl s c 0x62 (fromHub c)
  match s.snap.mirOut with
  | some m =>
    if !a || c.port != 9 || field c.msg 4 4 != m.gen % 2 ^ 32 then .next s
    else .next (regPut (putSnap s { s.snap with mirOut := none, acked := some m.gen, peerGen := max s.snap.peerGen m.gen }) rSnapMirror 63 32 0)
  | none => .next s

/-- MIR_NAK (R240): the sender starts again from MIR_BEGIN. On P0, the hub there has found the mirror that it fetched not whole, and the
slot is DAMAGED; on P1, the neighbour has no mirror of this hub to restore from (R244, R246, log 51). -/
def execMirNak (c : Ctl) (s : State) : Host.Outcome State Fault Refusal :=
  let (s, a) := takeCtl s c 0x63 (fromHub c)
  let gen := field c.msg 4 4
  if !a then .next s
  else if c.port = 8 then
    match [1, 2].find? fun i => snapMode s == 2 && slotState s i == 2 && slotGen s i % 2 ^ 32 == gen with
    | some i => .next (setSlotState (putSnap s { s.snap with serve := none }) i 4)
    | none => .next s
  else
    match s.snap.mirOut, s.snap.restore with
    | some m, _ => if m.begun = true ∧ gen = m.gen % 2 ^ 32 then .next (restartMirror s) else .next (mirrorAbsent s)
    | none, _ => .next (mirrorAbsent s)

/-- MIR_CREDIT (R301): the neighbour grants flits; on P0 it asks for the mirror that this hub holds: GEN 0 begins a fetch from the first
byte, its generation's goes on with it (log 51). -/
def execMirCredit (c : Ctl) (s : State) : Host.Outcome State Fault Refusal :=
  let (s, a) := takeCtl s c 0x64 (fromHub c)
  let n := field c.msg 8 4
  if !a then .next s
  else if c.port = 9 then
    match s.snap.mirOut with
    | some m =>
      if field c.msg 4 4 = m.gen % 2 ^ 32 then .next (mirPump (putSnap s { s.snap with mirOut := some { m with credits := m.credits + n } }))
      else .next s
    | none => .next s
  else
    let gen := field c.msg 4 4
    match gen, s.snap.serve, newestMirror s with
    | 0, _, some i => .next (servePump (openServe s i) n)
    | _ + 1, some (i, _), _ =>
      if slotGen s i % 2 ^ 32 = gen then .next (servePump s n) else .next (sendCtl s 8 0x63 [(4, gen)])
    | _, _, _ => .next (sendCtl s 8 0x63 [(4, gen)])

/-- MIR_SLOTS (R241, R301): the neighbour's mirror slot size is fixed or changes: a mirror that has begun starts again. -/
def execMirSlots (c : Ctl) (s : State) : Host.Outcome State Fault Refusal :=
  let (s, a) := takeCtl s c 0x65 (fromHub c)
  if !a || c.port != 9 then .next s else .next (restartMirror (putSnap s { s.snap with peerUnits := some (field c.msg 8 8) }))

/-- RESTORE_COMPLETE (R24, R247, R343). -/
def execRestoreComplete (s : State) : Host.Outcome State Fault Refusal :=
  match s.snap.restore with
  | some r => if restoreWhole s r ∧ svcWaits s 9 = false then .next (finishRestore s r) else .next s
  | none => .next s

end Sys2Proof.Machine
end

