-- ==== Sys2Proof/Machine/Resets.lean ====
section
/-! DEFINITION. Resets and restarts: what a main-domain reset or power loss takes away and what it keeps (R12 to R15, R48, R263,
R327, R367, R452 to R454), restarts of guards, compartments and the standby controller (R371 to R376), and block resets
(Table 16.4). -/

namespace Sys2Proof.Machine

/-! ### Connections (R335, R337, R339) -/

/-- A connection ends: its drains end, a notification target on it is gone, its role is told. CAUSE as Table 12.8. -/
def closeConn (s : State) (k cause : Nat) : State :=
  match s.host.conns.find? fun e => e.1 == k with
  | none => s
  | some (_, c) =>
    let s := abortDrains s k
    let s := putHost s { s.host with conns := kdel s.host.conns k, target := s.host.target.filter fun e => e.2.conn != k }
    eventTo s c.role 0x10 (leBytes 1 0 ++ leBytes 1 k ++ leBytes 1 cause)

/-- Every connection of an Ethernet port ends. -/
def closePort (s : State) (p cause : Nat) : State :=
  (s.host.conns.filter fun e => e.2.port == p).foldl (fun s e => closeConn s e.1 cause) s

/-! ### Update sessions and selectors (R384, R386) -/

def putTrust (s : State) (t : Trust) : State := { s with trust := t }

/-- R386: the selector of a kind. Where there is no authenticated region (R392) it is what the boots have found. -/
def selectorOf (s : State) (k : Nat) : Nat := if s.trust.puf then kget 0 s.trust.selector k else kget 0 s.trust.found k

/-- R381, R386: a selector written in the authenticated region; without one there is nothing to write (log 140). -/
def putSelector (s : State) (k v : Nat) : State :=
  if s.trust.puf then putTrust s { s.trust with selector := kset 0 s.trust.selector k v } else s

/-- R377: the selector that a boot finds, stored where it can be. -/
def showSelector (s : State) (k v : Nat) : State :=
  if s.trust.puf then putSelector s k v else putTrust s { s.trust with found := kset 0 s.trust.found k v }

/-- A partition's content; a partition that nothing has written holds the factory image in slot A and nothing in slot B (log 3). -/
def partImage (s : State) (key : Nat) : Option (List Byte) :=
  match s.trust.images.find? fun e => e.1 == key with
  | some (_, []) => none
  | some (_, img) => some img
  | none => if key % 2 = 0 ∧ key < 6 then some (Config.factoryImage (key / 2)) else none

/-- R397: the image in a slot of a kind runs from now on, whatever becomes of the partition. -/
def runFrom (s : State) (k slot : Nat) : State :=
  putTrust s { s.trust with running := kset [] s.trust.running k ((partImage s (2 * k + slot)).getD []) }

/-- The running image of a kind. -/
def runImage (s : State) (k : Nat) : List Byte := kget [] s.trust.running k

/-- The partition that a session of a kind writes: the inactive slot, or the staging area (key 6). -/
def updTarget (s : State) (kind : Nat) : Nat := if kind = 3 then 6 else 2 * kind + (1 - selectorOf s kind % 2)

/-- A partition's image, header and body; the empty list marks it empty. -/
def putImage (s : State) (key : Nat) (img : List Byte) : State := putTrust s { s.trust with images := kput s.trust.images key img }

/-- UPD_ABORT and what acts like it (Table 13.8): the session ends; `keep` leaves the written image. -/
def dropSession (s : State) (keep : Bool) : State :=
  match s.trust.session with
  | none => s
  | some x =>
    let s := if keep then s else putImage s (updTarget s x.kind) []
    putTrust s { s.trust with session := none }

/-- Table 13.8: a G5 restart or a main-domain reset. `reset` says which: a deferred boot-stage or guard image stays written (R387). -/
def endSession (s : State) (reset : Bool) : State :=
  let s := answerOwed (answerOwed s 0x52 none (ansStatus 0xB)) 0x53 none (ansStatus 0xB)
  match s.trust.session with
  | some x => dropSession s (reset && x.state == 4 && (x.kind == 1 || x.kind == 2))
  | none => s

/-! ### Restarts -/

/-- R376: what a G5 restart does to a load and to an apply. An apply that it aborts changes nothing, STATE as it was among that. -/
def restartConsist (s : State) : State :=
  let s := if s.consist.load.isSome then
      let s := answerOwed s 0x41 none (ansStatus 0xB)
      let c := s.consist
      let c := if c.activeSlot = some false then { c with slotB := [] } else { c with slotA := [] }
      { s with consist := { c with load := none, pendingImg := false } }
    else s
  match s.consist.apply with
  | some a =>
    if a.betweenJobs && !a.structureDone && !a.boot then
      answerOwed (regPut { s with consist := { s.consist with apply := none } } rConsist 23 20 a.was) 0x42 none (ansStatus 0xB)
    else s
  | none => s

/-- R376: an SPDM exchange in progress, from a role's GET_VERSION on, starts again; the role's next request but GET_VERSION is answered
ABORTED_RESUBMIT (DEDUCED, log 117). -/
def restartSpdm (s : State) : State :=
  (rangeFrom 0 2).foldl (fun s role =>
    if kget 0 s.trust.spdm role = 0 then s
    else putTrust s { s.trust with spdm := kdel s.trust.spdm role, spdmLog := kdel s.trust.spdmLog role
                                   spdmLost := nadd s.trust.spdmLost role }) s

/-- R372: what the commands become that components of a guard had taken. `owns` is a mask: of G0 and G1, bit 0 the role's messages (R368);
of G3, bit 0 TABLE_DEFINE and TABLE_RELEASE (R225), bit 1 the snapshot commands (R242); of G5, bit 0 the Consist, bit 1 the update session,
bit 2 SPDM (R376). -/
def resubmitOwned (s : State) (g owns : Nat) : State :=
  let has := fun (i : Nat) (f : State → State) (s : State) => if nbit owns i then f s else s
  if g < 2 then has 0 (fun s => abortOwed s g) s
  else if g = 3 then has 1 resubmitSnap (has 0 resubmitDefine s)
  else if g = 5 then has 2 restartSpdm (has 1 (fun s => endSession s false) (has 0 restartConsist s))
  else s

/-- R372, R373: every component of a guard restarts. -/
def resubmitGuard (s : State) (g : Nat) : State := resubmitOwned s g 7

/-- Entries of a window of `beats` beats, with one more now. -/
def restartsIn (s : State) (l : List Nat) (beats : Nat) : List Nat :=
  (l.filter fun b => decide (s.drum.beats < b + beats)) ++ [s.drum.beats]

/-- Table 13.2: a guard restart; the 8th within 1 h leaves the guard held. A restart is over within the step (DESIGN CHOICE, log 60). -/
def guardRestart (s : State) (g : Nat) : State :=
  if s.mainDom ≠ .up ∨ 6 ≤ g ∨ guardHeld s g then s
  else
    let l := restartsIn s (kget [] s.trust.gRestarts g) 9000000000
    let s := putTrust s { s.trust with gRestarts := kset [] s.trust.gRestarts g l, cRestarts := kset [] s.trust.cRestarts g [] }
    let s := resubmitGuard s g
    if 8 ≤ l.length then raise (regPut s (rCfgGuard g) 63 60 4) (srcGuard g) 0x26 3 0
    else raise (regAddSat s (rCfgGuard g) 47 32 1) (srcGuard g) 0x25 2 0

/-- R371, R372: a compartment is stopped and restarted; the 4th restart on its guard within 60 s restarts the guard. `owns` says which
of the guard's commands the compartment serves. -/
def compartmentRestart (s : State) (g index owns : Nat) : State :=
  if s.mainDom ≠ .up ∨ 6 ≤ g ∨ !guardRuns s g then s
  else
    let l := restartsIn s (kget [] s.trust.cRestarts g) 150000000
    let s := putTrust s { s.trust with cRestarts := kset [] s.trust.cRestarts g l }
    let s := raise (regAddSat s (rCfgGuard g) 31 16 1) (srcGuard g) 0x24 1 index
    let s := resubmitOwned s g owns
    if 4 ≤ l.length then guardRestart s g else s

/-- R374, R388: the standby controller restarts: on a new image that awaits the restart, on the previous one when the trial's watchdog
expired, else on its active image. Outputs hold. -/
def sctlRestart (s : State) (wdog : Bool) : State :=
  let s := if wdog then raise (regAddSat s 0x000140 63 48 1) srcSctl 0x27 1 0 else s
  let v := selectorOf s 0
  if nbit v 3 then runFrom (putSelector s 0 (v - 8)) 0 (v % 2)
  else if wdog && nbit v 2 then runFrom (putSelector s 0 ((1 - v % 2) + 2)) 0 (1 - v % 2)
  else runFrom s 0 (v % 2)

/-! ### Loss of the main domain -/

/-- R12: registers of some domains return to their reset values, staged copies with them. -/
def resetRegs (s : State) (p : Dom → Bool) : State :=
  let keep := fun (e : Nat × W64) => match regFind e.1 with | some (d, _, _) => !p d.dom | none => true
  { s with regs := s.regs.filter keep, staged := s.staged.filter keep }

/-- R452, R453, R454: what the Belfry keeps: messages of standby sources, their ERR_N holds, and the holds of R458. -/
def belfryDown (b : Belfry) (carried : Option FaultMsg) : Belfry :=
  { Belfry.init with
    retained := b.retained ++ b.raised.filter fun m => isStandbySource m.source
    carried := carried
    errReact := b.errReact.filter fun e => isStandbySource e.1
    errEsc := b.errEsc, errBoot := b.errBoot }

/-- What the roles keep in the standby domain (R359, R364); the caps are the Consist's defaults from now on (R360). -/
def hostDown (h : HostSt) (l : PowerLimits) : HostSt :=
  { HostSt.init with
    capHubHost := l.hubDefault, capHubRack := l.hubDefault, capTrayHost := l.trayDefault, capTrayRack := l.trayDefault
    offHost := h.offHost, offRack := h.offRack, storedOffHost := h.storedOffHost, storedOffRack := h.storedOffRack
    record := h.record }

/-! ### Slope buckets (R430) -/

/-- STEP_W. -/
def stepW (s : State) : Nat := regBits s rPcapSlope 63 56

/-- One watt in the unit of the buckets. -/
def bucketWatt : Nat := 100000 * 215040

/-- R430: STEP_W has changed from `old`: a bucket keeps what it holds, up to the new 2 × STEP_W. The change is the same for every partner,
so it applies at once (R192). -/
def rebucket (old : Nat) (s : State) : State :=
  let lacks := fun (n : Nat) => kget 0 s.power.bucket n + 2 * stepW s * bucketWatt - 2 * old * bucketWatt
  { s with power := { s.power with bucket := (rangeFrom 0 8).foldl (fun (m : KMap Nat) n => kset 0 m n (lacks n)) [] } }

/-- R426, R484: what PCAP keeps outside the main domain: throttle levels, slope shares and buckets, standby-watched emergencies,
the trips' history and the cooling's own, the last scan with the grants since (R419, R429) and, while the main domain is powered, the
energy carried (R433). -/
def powerDown (p : Power) (power : Bool) : Power :=
  { Power.init with
    emerg := p.emerg.filter fun e => decide (2 ≤ e), policy := p.policy, share := p.share, budget := p.budget, bucket := p.bucket
    allow := p.allow, tripTimes := p.tripTimes, leakWarn := p.leakWarn, leakTrip := p.leakTrip
    offLeak := p.offLeak, offTherm := p.offTherm, cleared := p.cleared, railBad := p.railBad, hot := p.hot, sweepAt := p.sweepAt
    trimSteps := p.trimSteps, duty10 := p.duty10, kicking := p.kicking, pIn := p.pIn, coreScan := p.coreScan, slotMw := p.slotMw, granted := p.granted
    third := p.third, fine := if power then p.fine else [] }

/-- R259, R263: the Drum loses its source and holds its rate; one that is FREE has the DEPTH of Table 9.3. -/
def drumDown (s : State) : State :=
  let st := regBits s rDrumStatus 63 60
  let s := { s with drum := { s.drum with ptp := Ptp.init, sync0 := SyncRec.init, sync1 := SyncRec.init, aligned := 0, shown := false, step := none } }
  let s := regPut (regPut s rDrumStatus 59 58 0) rDrumStatus 31 0 0
  if st = 1 ∨ st = 2 then
    let s := if st = 2 then raise s srcDrum 0x0E 1 0 else s
    regPut s rDrumStatus 63 60 3
  else if st = 0 then regPut s rDrumStatus 55 48 (if s.consist.cfg.topology.hubIndex = 0 then 0 else 0xFF)
  else s

/-- The main domain leaves operation: held in reset, or unpowered when `power` is false. What it holds is lost but for what R25,
R48, R229, R327, R359, R364 and R452 keep; module memory keeps its content while it is powered. -/
def mainDown (s : State) (power : Bool) : State :=
  if s.mainDom = .off ∨ (s.mainDom = .inReset ∧ power = true) then s
  else
    let s := drumDown (endSession (endJob s 1 none false) true)
    let s := (rangeFrom 0 10).foldl disableNow s
    let carried := s.belfry.carried
    let was := stepW s
    let s := { s with
      mainDom := if power then .inReset else .off
      mainPower := power
      consist := { s.consist with load := none, apply := none, booted := false, applied := false }
      coaches := Coaches.init
      memctl := if power then { MemCtl.init with filled := s.memctl.filled, map := s.memctl.map, savedVals := s.memctl.savedVals, badBlocks := s.memctl.badBlocks }
                else { MemCtl.init with savedVals := s.memctl.savedVals }
      belfry := belfryDown s.belfry carried
      bist := Bist.init
      ports := []
      host := hostDown s.host s.consist.cfg.limits
      colls := Colls.init
      tables := Tables.init
      snap := { Snap.init with acked := s.snap.acked, peerGen := s.snap.peerGen }
      trust := { s.trust with spdm := [], spdmLog := [], spdmLost := [], gRestarts := [], cRestarts := [], accepts := 0, restart := none
                              running := s.trust.running.filter fun e => e.1 == 0 }
      peal := { s.peal with loading := none }
      power := powerDown s.power power
      board := { s.board with cold := false, applyMark := 0 } }
    let s := if power then s else { s with mem := [], poison := [] }
    rebucket was (resetRegs s fun d => d == .main || (d == .mpwr && !power))

/-- R460: a main-domain reset that the hub orders. -/
def mainReset (s : State) : State := mainDown s true

/-- MAIN_DOMAIN_RESET (R326, R327): a main-domain reset is requested. -/
def execMainDomainReset (s : State) : Host.Outcome State Fault Refusal :=
  .next (if s.mainDom = .up then mainDown s true else s)

/-! ### Block resets (Table 16.4) -/

/-- An Ethernet port: link retrained, connections closed. -/
def ethBlockReset (s : State) (p : Nat) : State :=
  let s := regPut s (rEthStatus p) 63 63 0
  closePort s p 4

/-- The hub sends RSTDAA and ENTDAA on partner n's bus (R490). Purposes of an I3C output: 0 read, 1 write, 2 RSTDAA, 3 ENTDAA with
the address, 4 ENEC, 5 target reset, 6 NACK. -/
def assignAddress (s : State) (n : Nat) : State :=
  let a := if s.consist.applied then lget (8 + n) s.consist.cfg.topology.i3cAddr n else 8 + n
  let s := { s with board := { s.board with daaSent := nadd s.board.daaSent n } }
  let s := regPut (regPut s (rSidePart n) 63 60 1) (rSidePart n) 59 53 0
  emit (emit s .i3c [n, 2]) .i3c [n, 3, a]

/-- A side-band: I3C target reset, then the dynamic address assigned again. -/
def sideBlockReset (s : State) (n : Nat) : State :=
  if regBits s (rSidePart n) 50 50 = 1 then assignAddress (emit s .i3c [n, 5]) n else s

/-- A Coupler port: retrained from DETECT; one that is held out stays so (R34, log 105). -/
def portBlockReset (s : State) (n : Nat) : State := if portMayRun s n ∧ portSt s n ≠ 7 then enterDetect s n else s

end Sys2Proof.Machine
end

