-- ==== Sys2Proof/Machine/Drum.lean ====
section
/-! DEFINITION. Chapter 09: the beat edge, time sources, offsets and states of the Drum (R248 to R263). -/

namespace Sys2Proof.Machine


def drumState (s : State) : Nat := regBits s rDrumStatus 63 60
def drumSource (s : State) : Nat := regBits s rDrumStatus 59 58
def putDrumState (s : State) (x : Nat) : State := regPut s rDrumStatus 63 60 x
def drumOffset (s : State) : Int := signedOf 32 (regBits s rDrumStatus 31 0)

/-- R258, R259: whether beat-sync flits have arrived on P0 within the last 7,500 beats. -/
def p0Receiving (s : State) : Bool :=
  decide (s.drum.sync0.last ≠ 0) && decide (s.drum.beats < s.drum.sync0.last + 7500)

/-- R255: the source in effect: 2 P0 beat-sync, 1 PTP, 0 none. -/
def chooseSource (s : State) : Nat :=
  let c := s.consist.cfg
  if c.topology.hubIndex ≠ 0 ∧ c.drum.beatSync.getLsbD 0 ∧ portActive s 8 ∧ p0Receiving s then 2
  else if s.drum.ptp.master.isSome then 1 else 0

/-- R255, R259: the source chosen anew. A new source has shown no offset yet; with none OFFSET is 0, and DEPTH is that of
Table 9.3 while FREE. -/
def setSource (s : State) : State :=
  let src := chooseSource s
  let s := if drumSource s = src then s else { s with drum := { s.drum with aligned := 0, shown := false } }
  let s := regPut s rDrumStatus 59 58 src
  if src = 2 then regPut s rDrumStatus 55 48 (min 0xFF (s.drum.sync0.depth + 1))
  else if src = 1 then regPut s rDrumStatus 55 48 0
  else
    let s := regPut s rDrumStatus 31 0 0
    regPut s rDrumStatus 55 48 (if s.consist.cfg.topology.hubIndex = 0 then 0 else 0xFF)

/-- R255, R259: the source chosen at a between-jobs apply. With none the Drum runs free. -/
def applySource (s : State) : State :=
  let s := setSource s
  if drumSource s = 0 then { putDrumState s 0 with drum := { s.drum with step := none } } else s

/-- Whether a job that spans hubs runs (R260). -/
def crossJob (s : State) : Bool := jobRunning s && decide (2 ≤ s.consist.cfg.topology.hubCount)

/-- R259, R260: an offset from the source in effect, in ns; `regained` says that a regained source shows a count that differs
from the hub's own. -/
def measured (s : State) (off : Int) (regained : Bool) : State :=
  let s := regPut s rDrumStatus 31 0 (satSigned 32 off)
  let out := decide (20 < off.natAbs)
  let s := if out then
      let s := if drumState s = 2 then raise s srcDrum 0x0D 1 (satSigned 48 off) else s
      let s := { s with drum := { s.drum with aligned := 0 } }
      putDrumState s 1
    else s
  let s := if crossJob s && (decide (400 < off.natAbs) || regained) then raise s srcDrum 0x0F 2 (satSigned 48 off) else s
  { s with drum := { s.drum with step := if out then some off else none, shown := true } }

/-- R257: a hub time in ns: the beat of the count begins at the count × 400 ns. -/
def timeNs (count : W64) (ns : Nat) : Int := (count.toNat * 400 + ns : Nat)

/-- R260: the source's count at the hub time `t`, given its offset, in units of `beat` a beat, differs from the hub's own. -/
def countDiffers (t off beat : Int) : Bool := decide ((t - off) / beat ≠ t / beat)

/-- A hub time in steps of 625 ps. -/
def timeSteps (count : W64) (phase : Nat) : Int := (count.toNat * 640 + phase : Nat)

/-- R258: delay and offset, in steps, of one pair of exchanges. -/
def linkDelay (t1 t2 t3 t4 : Int) : Int := ((t4 - t1) - (t3 - t2)) / 2
def linkOffset (t1 t2 t3 t4 : Int) : Int := (t2 - t1) - linkDelay t1 t2 t3 t4

/-- Table 9.2, R286, R289: a BEAT_SYNC flit whose CRC checks and whose unused fields are zero. -/
def syncOk (f : Flit) : Bool := flitVc f == 3 && nbits (flitHdr f) 57 0 == 0 && zeroFrom f.payload 32

/-- R258, R260: what a beat-sync flit that arrives in the present beat, `phase` steps after its edge, shows: with a pair of
exchanges the offset in steps. The echoed flit's departure is the one the hub kept. -/
def syncOffset (s : State) (r : SyncRec) (p : List Byte) (phase : Nat) : Option Int :=
  if field p 2 2 ≠ 0xFFFF ∧ (r.sent.any fun e => e.1 == field p 2 2) = true then
    let d := kget (0, 0) r.sent (field p 2 2)
    some (linkOffset (timeSteps (BitVec.ofNat 64 (field p 4 8)) (field p 12 4)) (timeSteps s.drum.count phase)
      (timeSteps (BitVec.ofNat 64 d.1) d.2) (timeSteps (BitVec.ofNat 64 (field p 16 8)) (field p 24 4)))
  else none

/-- R260: whether a regained source shows another count than the hub's own. Without a pair of exchanges the delay is not known, and
the count at departure must be that of the arrival or of the beat before (log 108). -/
def syncDiffers (s : State) (p : List Byte) (phase : Nat) (off : Option Int) : Bool :=
  match off with
  | some o => countDiffers (timeSteps s.drum.count phase) o 640
  | none =>
    let c := BitVec.ofNat 64 (field p 4 8)
    c != s.drum.count && c + 1 != s.drum.count

/-- R260: a source regained with another count while a job spans hubs. -/
def unaligned (s : State) (off : Int) : State := if crossJob s then raise s srcDrum 0x0F 2 (satSigned 48 off) else s

/-- R255, R258 to R260: a beat-sync flit taken. -/
def takeSync (s : State) (port : Nat) (p : List Byte) (phase : Nat) : State :=
  let old := if port = 0 then s.drum.sync0 else s.drum.sync1
  let off := syncOffset s old p phase
  let ns := off.map fun o => o * 5 / 8
  let new : SyncRec := { old with rxSeq := field p 0 2, rxCount := s.drum.count, rxPhase := phase, depth := field p 0x1D 1,
                                  last := s.drum.beats + 1, offset := ns.getD old.offset }
  let regained := decide (port = 0) && decide (drumState s = 3) && syncDiffers s p phase off
  let s := { s with drum := if port = 0 then { s.drum with sync0 := new } else { s.drum with sync1 := new } }
  if port = 1 then s
  else
    let s := setSource s
    if drumSource s ≠ 2 then s
    else match ns with
      | some o => measured s o regained
      | none => if regained then unaligned s 0 else s

/-- Table 9.2: a beat-sync flit from its fields: `info` holds STATE, DEPTH and HUB_INDEX, `rest` the payload after them. -/
def syncFlit (port : Nat) (header : W64) (seq echoSeq txCount txPhase rxCount rxPhase info : Nat) (rest : List Byte) (crc : W64) : Flit :=
  { port := port, header := header, crc := crc,
    payload := leBytes 2 seq ++ leBytes 2 echoSeq ++ leBytes 8 txCount ++ leBytes 4 txPhase ++ leBytes 8 rxCount ++ leBytes 4 rxPhase ++
      leBytes 4 info ++ rest }

/-- BEAT_SYNC (R255, R258 to R260, R286): a beat-sync flit with the contents of Table 9.2 arrives on a P port, `phase` steps of
625 ps after the present beat's edge. One whose CRC fails is dropped and counted. -/
def execBeatSync (port : Nat) (header : W64) (seq echoSeq txCount txPhase rxCount rxPhase info : Nat) (rest : List Byte) (crc : W64)
    (phase : Nat) (s : State) : Host.Outcome State Fault Refusal :=
  let f := syncFlit port header seq echoSeq txCount txPhase rxCount rxPhase info rest crc
  if f.port < 8 ∨ 10 ≤ f.port ∨ !portActive s f.port ∨ flitKind f ≠ 0xC then .next s
  else if !crcOk f then .next (crcFailed s f.port 0xC)
  else if !syncOk f then .next (protocolError s f.port 0xC 0)
  else if !s.consist.cfg.drum.beatSync.getLsbD (f.port - 8) then .next s
  else .next (takeSync s (f.port - 8) f.payload phase)

/-! ### PTP (R256) -/

/-- R256: the Ethernet port that PTP runs on: the rack manager's, else the host's. -/
def ptpPort (s : State) : Option Nat :=
  match (rangeFrom 0 2).find? fun p => portRole s p == 1 with
  | some p => some p
  | none => (rangeFrom 0 2).find? fun p => portRole s p == 0

/-- R256: DRUM_PTP and the master at an apply: domain and port in use. A port with no role, or another port or domain than before,
has no master. -/
def applyPtp (s : State) : State :=
  let d := s.consist.cfg.drum.ptpDomain
  match ptpPort s with
  | none => regPut (regPut { s with drum := { s.drum with ptp := Ptp.init } } rPtp 63 56 3) rPtp 55 48 d
  | some p =>
    let same := regBits s rPtp 47 47 == p && regBits s rPtp 55 48 == d && s.drum.ptp.master.isSome
    let s := if same then s else regPut { s with drum := { s.drum with ptp := Ptp.init } } rPtp 63 56 4
    regPut (regPut s rPtp 55 48 d) rPtp 47 47 p

/-- R256: a PTP message of the domain in use, in UDP to the port of its class on the PTP port; others are ignored. -/
def ptpAccepts (s : State) (p : PtpIn) (udp : Nat) : Bool :=
  s.mainDom == .up && ptpPort s == some p.port && p.udp == some udp && p.domain == s.consist.cfg.drum.ptpDomain

/-- Delay_Req is sent at the Sync rate (R256). The nanoseconds from the present beat's edge to its departure are a free value. -/
def sendDelayReq (s : State) : State :=
  let ns := (Config.freeValue s.free).toNat % 400
  let p := { s.drum.ptp with t3 := some (timeNs s.drum.count ns) }
  emit { s with free := s.free + 1, drum := { s.drum with ptp := p } } .ptpFrame [(ptpPort s).getD 0, 1]

/-- PTP_SYNC (R256, R257): a Sync of the selected master, sent at `t1` [ns] and received `phase` ns after the present beat's edge;
a two-step master gives `t1` later. -/
def execPtpSync (p : PtpIn) (master : Nat) (twoStep : Bool) (t1 : Int) (phase : Nat) (s : State) : Host.Outcome State Fault Refusal :=
  if ptpAccepts s p 319 && s.drum.ptp.master == some master then
    let x := { s.drum.ptp with t1 := if twoStep then none else some t1, t2 := some (timeNs s.drum.count phase), t3 := none,
                               needFollowUp := twoStep }
    let s := { s with drum := { s.drum with ptp := x } }
    .next (if twoStep then s else sendDelayReq s)
  else .next s

/-- PTP_FOLLOW_UP (R256): the two-step master's `t1` arrives. -/
def execPtpFollowUp (p : PtpIn) (master : Nat) (t1 : Int) (s : State) : Host.Outcome State Fault Refusal :=
  if ptpAccepts s p 320 && s.drum.ptp.master == some master && s.drum.ptp.needFollowUp then
    .next (sendDelayReq { s with drum := { s.drum with ptp := { s.drum.ptp with t1 := some t1, needFollowUp := false } } })
  else .next s

/-- R256, R259, R260: the offset of a whole PTP exchange. -/
def ptpOffset (s : State) (t1 t2 t3 t4 : Int) : State :=
  let off := linkOffset t1 t2 t3 t4
  let regained := decide (drumState s = 3) && countDiffers t2 off 400
  let s := { s with drum := { s.drum with ptp := { s.drum.ptp with t1 := none, t2 := none, t3 := none } } }
  let s := setSource (regPut (regPut s rPtp 31 0 (satSigned 32 off)) rPtp 63 56 9)
  if drumSource s = 1 then measured s off regained else s

/-- PTP_DELAY_RESP (R256, R257, R259, R260): the exchange completes: the hub's Delay_Req reached the master at `t4`. One that answers
another requester is ignored (`own` false; log 20). -/
def execPtpDelayResp (p : PtpIn) (master : Nat) (own : Bool) (t4 : Int) (s : State) : Host.Outcome State Fault Refusal :=
  match s.drum.ptp.t1, s.drum.ptp.t2, s.drum.ptp.t3 with
  | some t1, some t2, some t3 =>
    if own && ptpAccepts s p 320 && s.drum.ptp.master == some master then .next (ptpOffset s t1 t2 t3 t4) else .next s
  | _, _, _ => .next s

/-- R259, R260: the source in effect is lost: a Drum that is LOCKED or ACQUIRING enters HOLDOVER, and corrects nothing until the source
then chosen under R255 (another one, or the same regained) shows its offset (log 136). -/
def loseSource (s : State) : State :=
  let was := drumState s
  let s := setSource s
  let s := { s with drum := { s.drum with aligned := 0, shown := false, step := none } }
  if was = 1 ∨ was = 2 then putDrumState (if was = 2 then raise s srcDrum 0x0E 1 0 else s) 3 else s

/-- PTP_ANNOUNCE (R255, R256, R259): the best master clock algorithm, `rank` being the announced data set's place in its order
(lower is better), and selection of a new master, whereby the one followed so far is lost. -/
def execPtpAnnounce (p : PtpIn) (master rank : Nat) (s : State) : Host.Outcome State Fault Refusal :=
  if ptpAccepts s p 320 then
    let better := match s.drum.ptp.master with
      | none => true
      | some m => m == master || decide (rank < s.drum.ptp.priority)
    if better then
      let fresh := s.drum.ptp.master != some master
      let x := if fresh then { Ptp.init with master := some master, priority := rank } else { s.drum.ptp with priority := rank }
      let lost := fresh && s.drum.ptp.master.isSome && drumSource s == 1
      let s := { s with drum := { s.drum with ptp := x } }
      let s := if fresh then regPut s rPtp 63 56 7 else s
      .next (if lost then loseSource s else setSource s)
    else .next s
  else .next s

/-- DRUM_SOURCE_LOST (R255, R259, R260): P0 is followed and has brought no beat-sync flit for 7,500 beats or is out of training; else
the PTP master has sent no Sync for three intervals and is deselected, whichever source is followed. -/
def execDrumSourceLost (s : State) : Host.Outcome State Fault Refusal :=
  if drumSource s = 2 ∧ !(p0Receiving s && portActive s 8) then .next (loseSource s)
  else if s.drum.ptp.master.isNone then .next s
  else
    let s := regPut { s with drum := { s.drum with ptp := Ptp.init } } rPtp 63 56 4
    .next (if drumSource s = 1 then loseSource s else s)

/-- DRUM_REPORT (R252, R309): a partner reports a frame whose count disagrees with its own. -/
def execDrumReport (c : Ctl) (s : State) : Host.Outcome State Fault Refusal :=
  match takeCtl s c 0x40 (fromPartner c) with
  | (s, true) => .next (raise s (srcPort c.port) 0x10 1 (field c.msg 8 6))
  | (s, false) => .next s

/-- R258: a beat-sync flit sent on P0 (0) or P1 (1), in a KIND 0xC flit (R287). The steps from the beat's edge to its departure are
a free value; the departure is kept for the echo. -/
def sendBeatSync (s : State) (port : Nat) : State :=
  if portActive s (8 + port) && s.consist.cfg.drum.beatSync.getLsbD port then
    let r := if port = 0 then s.drum.sync0 else s.drum.sync1
    let phase := (Config.freeValue s.free).toNat % 640
    let s := sendPlain { s with free := s.free + 1 } (8 + port) (0xC * 2 ^ 60 + 3 * 2 ^ 58)
      (leBytes 2 r.txSeq ++ leBytes 2 r.rxSeq ++ leBytes 8 s.drum.count.toNat ++ leBytes 4 phase ++ leBytes 8 r.rxCount.toNat ++
        leBytes 4 r.rxPhase ++ leBytes 1 (drumState s) ++ leBytes 1 (regBits s rDrumStatus 55 48) ++
        leBytes 2 s.consist.cfg.topology.hubIndex)
    let r := { r with txSeq := (r.txSeq + 1) % 2 ^ 16, sent := kput r.sent r.txSeq (s.drum.count.toNat, phase) }
    { s with drum := if port = 0 then { s.drum with sync0 := r } else { s.drum with sync1 := r } }
  else s

/-- R249, R250: the count at the next edge: one more, and with no job running a pending step. -/
def nextCount (s : State) : W64 × Bool :=
  match s.drum.step with
  | some off =>
    if jobRunning s then (s.drum.count + 1, false)
    else (BitVec.ofInt 64 (((s.drum.count.toNat + 1 : Nat) : Int) - (off * 8 / 5 + 320) / 640), true)
  | none => (s.drum.count + 1, false)

/-- R254: the delays of the outputs from the next edge on. -/
def pinDelays (s : State) : List Nat := (rangeFrom 0 8).map fun n => regBits s rPinDly (4 * n + 3) (4 * n)

/-- The Drum's own part of a beat edge (R249 to R251, R254, R258, R259). -/
def drumEdge (s : State) : State :=
  let (c, stepped) := nextCount s
  let d := { s.drum with count := c, beats := s.drum.beats + 1 }
  let d := if c.toNat % 64 = 0 then { d with stepMark := false } else d
  let d := if stepped then { d with stepMark := true, step := none } else d
  let s := { s with drum := { d with pinDly := pinDelays s } }
  let s := if stepped then regAddSat s rDrumStatus 47 32 1 else s
  let s := if drumSource s ≠ 0 ∧ s.drum.shown ∧ (drumOffset s).natAbs ≤ 20 then
      let s := { s with drum := { s.drum with aligned := s.drum.aligned + 1 } }
      if s.drum.aligned ≥ 2500 ∧ drumState s ≠ 2 then putDrumState s 2 else s
    else { s with drum := { s.drum with aligned := 0 } }
  let s := if c.toNat % 2500 = 0 ∧ s.mainDom = .up then sendBeatSync (sendBeatSync s 0) 1 else s
  if c.toNat % 2500 = 0 then (rangeFrom 0 10).foldl repeatPart0 s else s

/-- R249, R254: the edge that follows a valid reference begins beat 0. -/
def firstEdge (s : State) : State :=
  { s with drum := { s.drum with running := true, beats := s.drum.beats + 1, pinDly := pinDelays s } }

/-- Table 9.1: the high time [ns] of the pulse at a beat. The parity counts what the frame's earlier beats carried. -/
def pulseHigh (s : State) (count : W64) : Nat :=
  let i := count.toNat % 64
  let base := count.toNat - i
  let one := if i = 0 then false
    else if i ≤ 58 then nbit base (i - 1 + 6)
    else if i = 59 then drumState s == 2
    else if i = 60 then s.drum.stepMark
    else if i = 63 then s.drum.ones % 2 == 1
    else false
  if i = 0 then 200 else if one then 300 else 100

/-- R251: the outputs' pulse at the present beat: pin 16 of the outbox, with the high time and the delay of each. -/
def sendPulse (s : State) : State :=
  let hi := pulseHigh s s.drum.count
  let ones := if s.drum.count.toNat % 64 = 0 then 0 else s.drum.ones + (if hi = 300 then 1 else 0)
  emit { s with drum := { s.drum with ones := ones } } .pin (16 :: hi :: s.drum.pinDly)

end Sys2Proof.Machine
end

