-- ==== Sys2Proof/Machine/Belfry.lean ====
section
/-! DEFINITION. Chapter 16: how the Belfry takes a message, its queue, reactions, domains and acknowledgements
(R446 to R465). -/

namespace Sys2Proof.Machine

/-- Table 16.2: the domain of a source, as its bit of FLT_DOMAIN. -/
def domainOf (src : Nat) : Option Nat :=
  if src < 0x200 then some (src / 32)
  else if src < 0x210 then some (src - 0x200)
  else if src < 0x240 then some (16 + (src - 0x210) / 3)
  else if src < 0x24A then some (32 + (src - 0x240))
  else if 0x270 ≤ src ∧ src < 0x276 then some (42 + (src - 0x270))
  else none

/-- Table 16.2: whether a source touches the datapath. -/
def touches (s : State) (src : Nat) : Bool :=
  if src < 0x248 then true
  else if src < 0x24A then decide (2 ≤ s.consist.cfg.topology.hubCount) && jobRunning s
  else (decide (0x258 ≤ src) && decide (src ≤ 0x261)) || src == 0x27A

/-- Table 16.2: a number listed as a source. -/
def isSource (src : Nat) : Bool :=
  decide (src < 0x24A) || (decide (0x250 ≤ src) && decide (src < 0x265)) || (decide (0x270 ≤ src) && decide (src ≤ 0x27C))

/-- Table 16.3: the class of each kind from 0x01; codes 0x00 and 0x3D to 0x3F are not used. -/
def kindClass (kind : Nat) : Nat :=
  lget 0 [0, 1, 1, 1, 1, 2, 1, 1, 2, 2, 2, 1, 2, 1, 1, 2,
          1, 1, 1, 2, 2, 2, 1, 1, 1, 2, 1, 1, 2, 1, 1, 3,
          1, 1, 1, 1, 1, 2, 3, 1, 3, 1, 3, 1, 2, 3, 1, 1,
          1, 2, 1, 1, 3, 1, 1, 1, 1, 3, 3, 3, 1] kind

/-- Tables 16.2 and 16.3: a kind that the rules let a source raise; the kinds of initiators and of memories come from many. -/
def kindFrom (kind src : Nat) : Bool :=
  let within := fun (lo hi : Nat) => decide (lo ≤ src) && decide (src ≤ hi)
  if kind = 0x04 then within 0 0x1FF
  else if 0x09 ≤ kind ∧ kind ≤ 0x0C then within 0x258 0x25F
  else if 0x0D ≤ kind ∧ kind ≤ 0x0F then src == 0x261
  else if 0x10 ≤ kind ∧ kind ≤ 0x19 then within 0x240 0x249
  else if kind = 0x1A then within 0x250 0x257
  else if 0x1B ≤ kind ∧ kind ≤ 0x20 then within 0x210 0x23F
  else if kind = 0x21 ∨ kind = 0x23 then within 0x262 0x263
  else if kind = 0x24 then within 0x270 0x276
  else if kind = 0x25 ∨ kind = 0x26 then within 0x270 0x275
  else if kind = 0x27 then src == 0x276
  else if kind = 0x28 then src == 0x277
  else if kind = 0x29 then src == 0x279
  else if kind = 0x2A then src == 0x278
  else if 0x2B ≤ kind ∧ kind ≤ 0x2D then src == 0x27A
  else if 0x2E ≤ kind ∧ kind ≤ 0x34 then within 0x27B 0x27C
  else if 0x35 ≤ kind ∧ kind ≤ 0x3A then src == 0x27C
  else if 0x3B ≤ kind then within 0 0x20F
  else true

/-- R453: the message enters the queue, or is counted in OVERFLOW. -/
def enqueueMsg (s : State) (m : FaultMsg) : State :=
  let limit := if m.cls = 1 then 4032 else 4096
  if s.belfry.queue.length < limit then { s with belfry := { s.belfry with queue := s.belfry.queue ++ [m] } }
  else regAddSat s rQstat 31 0 1

/-- R454: the message with the next SEQ. -/
def assignSeq (s : State) (m : FaultMsg) : State × FaultMsg :=
  let q := regBits s rFltSeq 29 0
  (regInc s rFltSeq 29 0, { m with seq := q })

/-- R455: every U- and F-class message goes to both roles as it enters. -/
def announceMsg (s : State) (m : FaultMsg) : State := if m.cls = 1 then s else emitEvent s 0x40 (msgBytes m)

/-- R460: the message copied into a guard's FIFO and the guard interrupted or trapped; for a held guard the reaction
becomes 0x7, with the FIFO full the message stays in the queue alone. -/
def notifyGuard (s : State) (m : FaultMsg) (g : Nat) (nmi : Bool) : State :=
  if guardHeld s g then holdErr s m.source m.cls
  else
    let q := kget [] s.belfry.gfifo g
    if q.length ≥ 64 then s
    else
      let s := { s with belfry := { s.belfry with gfifo := kset [] s.belfry.gfifo g (q ++ [m]) } }
      emit s .irq [if nmi then 1 else 0, g]

/-- Table 16.4, R327: a memory device's eight channels are retrained, their content kept. The training is over within the step and leaves
each in service or, of a rake that is out, out of service; a channel that has failed stays so (R328; DESIGN CHOICE, log 146). -/
def retrainDevice (s : State) (d : Nat) : State :=
  (rangeFrom (8 * d) 8).foldl (fun s c =>
    if regBits s (rChErr c) 31 28 = 2 then s
    else regPut s (rChErr c) 31 28 (if s.consist.rakeOut.getLsbD (c / 24) then 3 else 1)) s

/-- Table 16.4: the block reset of a source, at once. -/
def blockResetNow (s : State) (src : Nat) : State :=
  if src < 0x200 then
    let co := getCoach s src
    let s := putCoach s src { Coach.init with cond := if coachInService s src then .idle else .excluded, cause := co.cause, seat := co.seat }
    (rangeFrom (16 * src) 16).foldl (fun s n => putSeat s n Seat.init) s
  else if src < 0x210 then memZero s (yardAddr (src - 0x200) 0) (yardAddr (src - 0x200) 0x800000)
  else if src < 0x240 then
    retrainDevice s (src - 0x210)
  else if src < 0x24A then portBlockReset s (src - 0x240)
  else if 0x250 ≤ src ∧ src < 0x258 then sideBlockReset s (src - 0x250)
  else if 0x258 ≤ src ∧ src < 0x260 then putTrain s (src - 0x258) { getTrain s (src - 0x258) with queue := [] }
  else if src = 0x262 ∨ src = 0x263 then ethBlockReset s (src - 0x262)
  else if 0x270 ≤ src ∧ src < 0x276 then guardRestart s (src - 0x270)
  else if src = 0x276 then sctlRestart (raise s srcSctl 0x27 1 0) false
  else s

/-- Table 16.4: sources whose block reset waits until no job runs. -/
def resetWaits (src : Nat) : Bool := decide (src < 0x24A) || (decide (0x258 ≤ src) && decide (src < 0x260))

/-- Table 16.4: sources that have a block to reset. -/
def hasBlock (src : Nat) : Bool :=
  resetWaits src || (decide (0x250 ≤ src) && decide (src < 0x258)) || src == 0x262 || src == 0x263 ||
  (decide (0x270 ≤ src) && decide (src ≤ 0x276))

/-- R460: the reaction of a message, but for a chip reset. -/
def react (s : State) (m : FaultMsg) : State :=
  let r := reactionOf s m.source m.cls
  if 1 ≤ r ∧ r ≤ 6 then notifyGuard s m (r - 1) false
  else if r = 7 then holdErr s m.source m.cls
  else if 8 ≤ r ∧ r ≤ 13 then notifyGuard s m (r - 8) true
  else if r = 14 then
    if !hasBlock m.source then holdErr s m.source m.cls
    else if resetWaits m.source && jobRunning s then
      { s with belfry := { s.belfry with resets := if s.belfry.resets.contains m.source then s.belfry.resets else s.belfry.resets ++ [m.source] } }
    else blockResetNow s m.source
  else s

/-- R463: slices of a rake that has become degraded are taken next, those of one degraded before after them. -/
def urgentSlices (k : Nat) : List Nat :=
  (rangeFrom 0 32).flatMap fun i => [2 * (32 * k + i), 2 * (32 * k + i) + 1]

/-- R462, R463: the source's domain becomes degraded, or its quiet period starts again. -/
def updateDomain (s : State) (m : FaultMsg) : State :=
  if m.cls = 1 then s
  else match domainOf m.source with
    | none => s
    | some d =>
      if nbit (regGet s rDomain).toNat d then s
      else
        let s := regPut s rDomain d d 1
        let s := if d < 16 then
            let l := urgentSlices d
            { s with bist := { s.bist with urgent := l ++ s.bist.urgent.filter fun n => !l.contains n } }
          else s
        emitEvent s 0x41 (leBytes 1 d)

/-- R452: the message copied for the Belfry to take after a chip reset. -/
def carryMsg (s : State) (m : FaultMsg) : State := { s with belfry := { s.belfry with carried := some m } }

/-- R63: an uncorrectable SRAM error poisons its 64-byte block. -/
def sramPoison (s : State) (m : FaultMsg) : State :=
  if m.kind = 0x08 then { s with poison := nadd s.poison (m.addr / 64) } else s

/-- R462: a source has its fatal latch. -/
def fatalLatch (s : State) (src : Nat) : Bool := nbit (regGet s (rFatal (src / 64))).toNat (src % 64)

/-- R450, R246: the seven steps, and then the chip reset that the reaction or the escalation ordered. -/
def takeMsg (s : State) (m : FaultMsg) : State :=
  let (cls, escd, chip) := escalate s m.source m.cls
  let m := { m with cls := cls }
  let (s, m) := assignSeq s m
  let s := accountMsg s m.source m.cls escd
  let s := if fatalLatch s m.source then latchEffects s m.source else s
  let s := sramPoison s m
  let s := enqueueMsg s m
  let s := announceMsg s m
  let s := react s m
  let s := if chip then { s with belfry := { s.belfry with errEsc := nadd s.belfry.errEsc m.source } } else s
  let s := updateDomain s m
  let fetch := m.source == 0x249 && snapMode s == 2 && s.snap.restore.isSome
  let s := if decide (2 ≤ m.cls) && touches s m.source then abortRestore (abortJob s (some m))
    else if decide (2 ≤ m.cls) && fetch then abortRestore s else s
  if chip ∨ reactionOf s m.source m.cls = 15 then mainReset (carryMsg s m) else s

/-- FAULT_MESSAGE (R449, R450): the Belfry takes a message. One that a unit of the model has found is taken with the beat of
its find; any other is found by the source now: at the class of its kind (R448), and, as the fifth that waits, merged (R449). What no
source raises is no message. While the main domain is not up the Belfry takes nothing, and a standby
source's message waits (R452). -/
def execFaultMessage (source kind cls addr : Nat) (s : State) : Host.Outcome State Fault Refusal :=
  if isSource source ∧ 1 ≤ kind ∧ kind ≤ 0x3C ∧ cls = kindClass kind ∧ kindFrom kind source then
    let fresh := newMsg s source kind cls addr
    if s.mainDom = .up then
      match s.belfry.raised.find? fun m => m.source == source && m.kind == kind && m.addr == fresh.addr && m.cls == cls with
      | some m =>
        let s := { s with belfry := { s.belfry with raised := s.belfry.raised.erase m } }
        .next (takeMsg s m)
      | none => .next (if underTest s source ∨ 4 ≤ (waitingOf s source).length then raiseMsg s fresh else takeMsg s fresh)
    else .next (raiseMsg s fresh)
  else .next s

/-- R452: the copy of a message that a chip reset carried over, taken without steps 1, 5 and 7. -/
def takeCarried (s : State) (m : FaultMsg) : State :=
  let (s, m) := assignSeq s m
  let s := setSticky s m.source
  let s := if m.cls = 1 then regAddSat s (rSrc m.source) 63 48 1 else regAddSat s (rSrc m.source) 47 40 1
  let s := regPut s (rSrc m.source) (35 + m.cls) (35 + m.cls) 1
  let s := enqueueMsg s m
  let s := announceMsg s m
  updateDomain s m

/-- R452: retained messages taken in order; once one has brought the main domain down again, the rest wait on. -/
def takeEach : List FaultMsg → State → State
  | [], s => s
  | m :: r, s =>
    if s.mainDom = .up then takeEach r (takeMsg s m)
    else { s with belfry := { s.belfry with retained := m :: r ++ s.belfry.retained } }

/-- R452: what the Belfry takes when it runs again: the carried copy first, then the retained messages in order. -/
def takeRetained (s : State) : State :=
  let c := s.belfry.carried
  let r := s.belfry.retained
  let s := { s with belfry := { s.belfry with carried := none, retained := [] } }
  let s := match c with | some m => takeCarried s m | none => s
  takeEach r s

/-- R459: an acknowledgement of a source's class. It releases the ERR_N holds and leaves a fatal latch. -/
def ackMsg (s : State) (src cls : Nat) : State :=
  if 1 ≤ cls ∧ cls ≤ 3 ∧ src < 1024 then
    let s := regPut s (rSrc src) (35 + cls) (35 + cls) 0
    { s with belfry := { s.belfry with
      errReact := s.belfry.errReact.filter fun e => e != (src, cls)
      errEsc := if cls = 3 then ndel s.belfry.errEsc src else s.belfry.errEsc } }
  else s

/-- R457, R459: what a write of FLT_ACK does. -/
def ackWrite (s : State) (value : W64) : State :=
  let src := bits value 9 0
  let s := ackMsg s src (bits value 17 16)
  if bits value 63 63 = 1 then regPut (regPut s (rSrc src) 63 48 0) (rSrc src) 47 40 0 else s

/-- FLT_ACK (R457, R459): a write of FLT_ACK. -/
def execFltAck (value : W64) (s : State) : Host.Outcome State Fault Refusal :=
  .next (if s.mainDom = .up then ackWrite s value else s)

/-- R455: the oldest message leaves the queue. -/
def popQueue (s : State) : State := { s with belfry := { s.belfry with queue := s.belfry.queue.drop 1 } }

/-- R460: the oldest message leaves guard g's FIFO. -/
def popGfifo (s : State) (g : Nat) : State :=
  { s with belfry := { s.belfry with gfifo := kset [] s.belfry.gfifo g ((kget [] s.belfry.gfifo g).drop 1) } }

/-- FLT_QPOP_HI (R455): a read of FLT_QPOP_HI removes the oldest message. -/
def execFltQpopHi (s : State) : Host.Outcome State Fault Refusal :=
  .next (if s.mainDom = .up then popQueue s else s)

/-- FLT_GFIFO_HI (R460): a read of a guard's FIFO high word removes its oldest message. -/
def execFltGfifoHi (guard : Nat) (s : State) : Host.Outcome State Fault Refusal :=
  .next (if s.mainDom = .up ∧ guard < 6 then popGfifo s guard else s)

/-- BLOCK_RESET (R460, Table 16.4): a deferred block reset takes place once no job runs. -/
def execBlockReset (source : Nat) (s : State) : Host.Outcome State Fault Refusal :=
  if s.belfry.resets.contains source && !jobRunning s then
    .next (blockResetNow { s with belfry := { s.belfry with resets := s.belfry.resets.filter fun x => x != source } } source)
  else .next s

/-- DOMAIN_QUIET_EXPIRY (R463): QUIET has passed without a U- or F-class message and the domain recovers. -/
def execDomainQuietExpiry (domain : Nat) (s : State) : Host.Outcome State Fault Refusal :=
  if domain < 48 ∧ s.mainDom = .up ∧ nbit (regGet s rDomain).toNat domain then
    let s := regPut s rDomain domain domain 0
    let j := domain % 4
    let s := regAddSat s (rRecov (domain / 4)) (16 * j + 15) (16 * j) 1
    .next (emitEvent s 0x42 (leBytes 1 domain))
  else .next s

/-- R465: whether ERR_N is asserted, and the holds FLT_ERRN shows: reaction, escalation, Peal lock-out, trip, boot. -/
def errnVal (s : State) (peal trip : Bool) : W64 :=
  let a := s.belfry.errReact != []
  let e := s.belfry.errEsc != []
  let b := s.belfry.errBoot
  let bit := fun (x : Bool) (n : Nat) => if x then 2 ^ n else 0
  BitVec.ofNat 64 (bit a 63 + bit e 62 + bit peal 61 + bit trip 60 + bit b 59 + bit (a || e || peal || trip || b) 0)

end Sys2Proof.Machine
end

