-- ==== Sys2Proof/Machine/Boot.lean ====
section
/-! DEFINITION. The release of the main domain: what comes back from flash, the boot chain, and what the Belfry then takes
(R15, R335, R360, R377, R378, R388, R452, R493, R494, R501). -/

namespace Sys2Proof.Machine

/-! ### Images (Table 13.5) -/

def imVersion (img : List Byte) : Nat := field img 0x18 8
def imRaises (img : List Byte) : Bool := nbit (field img 0xE 1) 0

/-- R377, Table 13.7: the reason for which a partition fails its check; `bad` names those whose flash content no longer checks. What was
checked as it was written can fail only so, by a floor that has risen since, or by a DEVICE that no longer compares (log 140). -/
def partReason (s : State) (bad : List Nat) (key : Nat) : Option Nat :=
  match partImage s key with
  | none => some 0x01
  | some img =>
    if imVersion img < floorOf s (key / 2) then some 0x12
    else if nbit (field img 0xE 1) 1 && (!s.trust.puf || (img.drop 0x40).take 32 != (Config.sha512 Config.identityKey).take 32) then some 0x07
    else if bad.contains key then some 0x06
    else none

/-- A partition passes its check. -/
def partOk (s : State) (bad : List Nat) (key : Nat) : Bool := (partReason s bad key).isNone

/-- The selector that a boot goes by, the mark of a MODE 0 activation taken off. Without an authenticated region there is none. -/
def bootSelector (s : State) (k : Nat) : Nat :=
  let v := if s.trust.puf then selectorOf s k else 0
  if nbit v 3 then v - 8 else v

/-- R388: this boot follows a trial's first failure and runs the previous slot. -/
def bootPrevious (s : State) (bad : List Nat) (k : Nat) : Bool :=
  let v := bootSelector s k
  k != 0 && nbit v 2 && s.trust.trialFails == 2 && partOk s bad (2 * k + (1 - v % 2))

/-- R377, R388: the slot that runs at a boot: the active one, else the other one, else none. -/
def bootSlot (s : State) (bad : List Nat) (k : Nat) : Option Nat :=
  let a := bootSelector s k % 2
  if bootPrevious s bad k then some (1 - a)
  else if partOk s bad (2 * k + a) then some a
  else if partOk s bad (2 * k + (1 - a)) then some (1 - a)
  else none

/-- R377: a boot of a kind: its slot runs, under FALLBACK where it is not the active one. After a trial's first failure the selector
stays (R388). -/
def bootKind (s : State) (bad : List Nat) (k : Nat) : State × Bool :=
  let v := bootSelector s k
  match bootSlot s bad k with
  | none => (showSelector s k v, false)
  | some i =>
    let v := if i = v % 2 ∨ bootPrevious s bad k = true then v else i + 2
    (runFrom (showSelector s k v) k i, true)

/-! ### Release -/

/-- R388: what a boot does to the count of a trial: after a first failure the previous image runs once, then the trial is tried
again. -/
def trialStep (s : State) : State :=
  let n := s.trust.trialFails
  putTrust s { s.trust with trialFails := if n = 1 then 2 else if n = 2 then 3 else n }

/-- Registers stored in flash that return at the release: partner power and Ethernet settings (R335). -/
def loadFlash (s : State) (p : Nat → Bool) : State :=
  ((storedRegs s).filter fun e => p e.1).foldl (fun s e => regSet s e.1 e.2) s

/-- R434: the voltage offset that the authenticated region holds. -/
def storedTrim (s : State) : Nat := if s.trust.puf then s.power.trimSteps else 0

/-- R360: both roles' caps at the Consist's defaults. -/
def defaultCaps (s : State) : State :=
  let l := s.consist.cfg.limits
  putHost s { s.host with capHubHost := l.hubDefault, capHubRack := l.hubDefault, capTrayHost := l.trayDefault, capTrayRack := l.trayDefault }

/-- Milliseconds since the reference of the present timeline, for a 16-bit field (Table 17.10). -/
def bootMs (s : State) : Nat := min 0xFFFF ((s.drum.beats - s.board.refMark + (if s.board.cold then s.board.lead else 0)) / 2500)

/-- R377, R378: the boot stage and the guard firmware are checked; without either the hub is in recovery. -/
def bootGuards (s : State) (bad : List Nat) : State :=
  let (s, stage) := bootKind s bad 1
  if !stage then raise (regPut (putTrust s { s.trust with accepts := 2 }) (rCfgGuard 5) 63 60 5) srcBoot 0x28 3 2
  else
    let (s, fw) := bootKind s bad 2
    if fw then s else raise (regPut (putTrust s { s.trust with accepts := 3 }) (rCfgGuard 5) 63 60 5) srcBoot 0x28 3 3

/-- R462: a guard with a fatal latch stays held, over a main-domain reset too (DEDUCED, log 148). -/
def holdLatched (s : State) : State :=
  (rangeFrom 0 6).foldl (fun s g => if fatalLatch s (0x270 + g) then regPut s (rCfgGuard g) 63 60 4 else s) s

/-- R409, R460, R493, R494: the main domain is released. `bad` names the image partitions that fail their check. -/
def mainRelease (s : State) (bad : List Nat) : State :=
  let s := { s with mainDom := .up, mainPower := true, board := { s.board with filling := !s.memctl.filled } }
  let s := if s.board.cold then regPut s rBoot 63 48 (bootMs s) else { s with board := { s.board with refMark := s.drum.beats } }
  let s := loadFlash s fun a => decide (a / 0x100000 = 3) || decide (a / 0x100000 = 13)
  let s := putTrust s { s.trust with damaged := bad }
  let s := regPut (defaultCaps s) rTrim 63 59 (storedTrim s)
  let s := putPower s { s.power with capSeen := (capMw s / 1000, trayCap s) }
  let s := syncLevels (syncCaps s)
  takeRetained (bootGuards (trialStep (holdLatched s)) bad)

end Sys2Proof.Machine
end

