-- ==== Sys2Proof/Machine/Peal.lean ====
section
/-! DEFINITION. Chapter 14: Peal images, the sequence record, the words of a program, runs, failures and the log
(R398 to R416). -/

namespace Sys2Proof.Machine

def putPeal (s : State) (p : Peal) : State := { s with peal := p }
def putRun (s : State) (r : PealRun) : State := putPeal s { s.peal with run := some r }

/-- Table 14.5: 0 OFF, 1 UP, 2 ON, 3 DOWN, 4 FAULT_DOWN, 5 RETRY_WAIT, 6 LOCKED_OUT, 7 HOLD. -/
def pealState (s : State) : Nat := regBits s rPseq 63 60
def setPealState (s : State) (n : Nat) : State := regPut s rPseq 63 60 n
def pealPc (s : State) : Nat := regBits s rPseq 31 23
def setPealPc (s : State) (n : Nat) : State := regPut s rPseq 31 23 n

/-! ### Images (R400, R401) -/

/-- "GLNKPEAL". -/
def pealMagic : List Byte := [0x47, 0x4C, 0x4E, 0x4B, 0x50, 0x45, 0x41, 0x4C]

def pealWords (img : List Byte) : Nat := field img 0xE 2
def pealSeq (img : List Byte) : Nat := field img 0x10 4
def pealLength (img : List Byte) : Nat := 896 + 4 * pealWords img
def pealWordAt (img : List Byte) (i : Nat) : Nat := field img (0x380 + 4 * i) 4
def pealDep (img : List Byte) (d : Nat) : Nat := field img (0x300 + 8 * d) 8
def pealSlotByte (img : List Byte) (slot off n : Nat) : Nat := field img (0x100 + 8 * slot + off) n

/-- Table 14.3: an entry of the slot table. -/
def pealSlotOk (img : List Byte) (slot : Nat) : Bool :=
  let use := pealSlotByte img slot 0 1
  let own := pealSlotByte img slot 1 1
  let mon := pealSlotByte img slot 2 1
  let seg := pealSlotByte img slot 3 1
  let adr := pealSlotByte img slot 4 1
  let page := pealSlotByte img slot 5 1
  let mv := pealSlotByte img slot 6 2
  decide (use ≤ 1) && (decide (24 ≤ slot) || (use == 1 && own == 0 && mon == 1)) &&
  (decide (slot < 24) || (if slot < 32 then own == 0x10 + (slot - 24) else own == 0x20 || (decide (0x10 ≤ own) && decide (own < 0x18)))) &&
  (mon == 0 || mon == 2 || (mon == 1 && decide (slot < 24))) &&
  (if mon = 2 then decide (seg ≤ 3) && decide (0x08 ≤ adr) && decide (adr ≤ 0x77) else seg == 0 && adr == 0 && page == 0) &&
  (if mon = 0 then mv == 0 else decide (300 ≤ mv) && decide (mv ≤ 60000))

/-- Table 14.4: a program word. -/
def pealWordOk (img : List Byte) (w : Nat) : Bool :=
  let slotUse := pealSlotByte img (nbits w 27 22) 0 1 == 1
  match nbits w 31 28 with
  | 0 => decide (nbits w 27 1 = 0)
  | 1 => slotUse && decide (nbits w 17 16 = 0) && decide (1 ≤ nbits w 15 0)
  | 2 => slotUse && decide (nbits w 20 0 = 0)
  | 3 => decide (nbits w 27 24 = 0) && decide (1 ≤ nbits w 23 0)
  | 4 => slotUse && decide (nbits w 17 16 = 0) && decide (1 ≤ nbits w 15 0)
  | 5 => decide (nbits w 27 9 = 0) && decide (nbits w 8 0 < pealWords img)
  | 6 => decide (nbits w 27 9 = 0) && decide (nbits w 8 0 < pealWords img)
  | 7 => decide (nbits w 27 0 = 0)
  | _ => false

/-- R401 step 6. -/
def pealStructure (img : List Byte) : Bool :=
  let n := pealWords img
  decide (1 ≤ n) && decide (n ≤ 512) && decide (field img 0xD 1 < 2) && (nbit (field img 0xD 1) 0 || field img 0x20 32 == 0) &&
  field img 0x1C 4 == 0 && field img 0x80 64 == 0 &&
  decide (field img 0x18 2 < n) && decide (field img 0x1A 2 < n) && decide (img.length = pealLength img) &&
  ((rangeFrom 0 64).all fun k => pealSlotOk img k) && pealDep img 0 == 0 &&
  ((rangeFrom 0 16).all fun d => (rangeFrom 0 64).all fun k => !nbit (pealDep img d) k || pealSlotByte img k 0 1 == 1) &&
  ((rangeFrom 0 n).all fun i => pealWordOk img (pealWordAt img i))

/-- R401 steps 1 to 5, with the reason of the first that fails. -/
def pealHeader (s : State) (img : List Byte) : Option Nat :=
  match ownerKey s with
  | none => some 0x0E
  | some key =>
    if img.take 8 ≠ pealMagic then some 0x01
    else if field img 8 2 ≠ 1 then some 0x03
    else if field img 0xA 2 ≠ 0x4708 ∨ field img 0xC 1 ≠ 1 then some 0x02
    else if field img 0x14 4 ≠ keyId key then some 0x04
    else if !Config.edVerify key (img.take 0xC0) ((img.drop 0xC0).take 64) then some 0x05
    else if nbit (field img 0xD 1) 0 && (img.drop 0x20).take 32 != (Config.sha512 Config.identityKey).take 32 then some 0x07
    else if Config.sha512 (img.drop 0x100) ≠ (img.drop 0x40).take 64 then some 0x06
    else none

/-- R401 step 7, R402: the image has a referenced digest. -/
def pealReferenced (digest img : List Byte) : Bool := digest.all (fun b => b == 0) || (Config.sha512 img).take 32 == digest

/-- R401: the checks in order. -/
def pealCheck (s : State) (digest img : List Byte) : Option Nat :=
  match pealHeader s img with
  | some r => some r
  | none =>
    if !pealStructure img then some 0x18
    else if !pealReferenced digest img then some 0x19
    else none

/-- A copy holds a valid program. -/
def pealValid (s : State) (img : List Byte) : Bool := (pealHeader s img).isNone && pealStructure img

/-- The sequence record, or what stands for an absent one (R402); the authenticated region holds it (R392). -/
def pealRecord (s : State) : PealRecord := if s.trust.puf then s.peal.record.getD PealRecord.none6 else PealRecord.none6

/-! ### Loading (R401, R413) -/

/-- R401: a write of PSEQ_LOAD. While GO is set it changes nothing; one that sets GO has G5 check the image at ADDR. While G5 does not
run, GO is not taken (DESIGN CHOICE, log 114). -/
def pealLoadWrite (s : State) (value : W64) : State :=
  if regBits s rPseqLoad 63 63 = 1 then s
  else
    let s := regPut s rPseqLoad 47 12 (bits value 47 12)
    if bits value 63 63 = 0 ∨ guardRuns s 5 = false then s
    else
      let a := bits value 47 12 * 4096
      let img := memBytes s a (pealLength (memBytes s a 256))
      match pealCheck s (pealRecord s).ref.digest img with
      | some r => regPut (regPut s rPseqLoad 62 60 3) rPseqLoad 55 48 r
      | none => putPeal (regPut (regPut s rPseqLoad 63 63 1) rPseqLoad 62 60 1) { s.peal with loading := some img }

/-- PSEQ_LOAD_GO (R401): a write of PSEQ_LOAD that sets GO; `value` gives the other fields. -/
def execPseqLoadGo (value : W64) (s : State) : Host.Outcome State Fault Refusal :=
  .next (if s.mainDom = .up then pealLoadWrite s (setBits value 63 63 1) else s)

/-- R413: the sequence leaves LOCKED_OUT. -/
def leaveLockout (s : State) : State :=
  putPeal (regPut (setPealState s 0) rPseq 57 54 0) { s.peal with failed := 0, offSeen := false }

/-- PEAL_LOAD_COMPLETE (R401): the image is in the copy with the lower SEQUENCE or without a valid program. G5 writes it (R370). -/
def execPealLoadComplete (s : State) : Host.Outcome State Fault Refusal :=
  match s.peal.loading with
  | none => .next s
  | some img =>
    if guardRuns s 5 = false then .next s else
    let p := { s.peal with loading := none }
    let toB := pealValid s p.copyA && (!pealValid s p.copyB || decide (pealSeq p.copyB < pealSeq p.copyA))
    let s := putPeal s (if toB then { p with copyB := img } else { p with copyA := img })
    let s := regPut (regPut s rPseqLoad 63 63 0) rPseqLoad 62 60 2
    .next (if pealState s = 6 then leaveLockout s else s)

/-! ### The program in use -/

/-- Slots 0 to 23 in the module's fixed order (R399). -/
def moduleOrder : List Nat :=
  let ins := fun (l : List Nat) (k : Nat) =>
    (l.filter fun j => decide (Config.modulePlace j ≤ Config.modulePlace k)) ++ k ::
    (l.filter fun j => !decide (Config.modulePlace j ≤ Config.modulePlace k))
  (rangeFrom 0 24).foldl ins []

/-- R402: the built-in program: the MOD slots in order, the last one awaited, and the reverse. Where its words lie, and its CHK, are the
model's own (DESIGN CHOICE, log 83). -/
def builtinWords : List Nat :=
  (moduleOrder.map fun k => 0x10000000 + k * 2 ^ 22 + 0xFFFF) ++ [0x40000000 + (moduleOrder.getLast?.getD 0) * 2 ^ 22 + 0xFFFF, 0] ++ (moduleOrder.reverse.map fun k => 0x20000000 + k * 2 ^ 22) ++ [0]

def progWord (s : State) (i : Nat) : Nat :=
  match s.peal.prog with
  | some img => pealWordAt img i
  | none => lget 0 builtinWords i

def progEntry (s : State) (up : Bool) : Nat :=
  match s.peal.prog with
  | some img => field img (if up then 0x18 else 0x1A) 2
  | none => if up then 0 else 26

def progDep (s : State) (d : Nat) : Nat :=
  match s.peal.prog with
  | some img => pealDep img d
  | none => 0

/-- The digest of the program in use; zero for the built-in program. -/
def progDigest (s : State) : List Byte :=
  match s.peal.prog with
  | some img => Config.sha512 img
  | none => List.replicate 64 0

/-! ### Slots -/

def slotEnabled (s : State) (k : Nat) : Bool := (regGet s rPseqEn).getLsbD k
def slotGood (s : State) (k : Nat) : Bool := (regGet s rPseqGood).getLsbD k
def slotRunning (s : State) (k : Nat) : Bool := s.peal.running.getLsbD k

/-- A slot's owner is a partner. -/
def partnerOwned (s : State) (k : Nat) : Bool := decide (0x10 ≤ slotOwner s k) && decide (slotOwner s k < 0x18)

/-- R28, R378: the hub powers no partner: in state NO_CONSIST and in recovery. -/
def noPartners (s : State) : Bool := s.mainDom == .up && ((s.consist.booted && !s.consist.applied) || inRecovery s)

/-- R405: a slot of a partner that the record does not name, or of any partner where the hub powers none. -/
def slotSkipped (s : State) (k : Nat) : Bool :=
  partnerOwned s k && (noPartners s || !s.peal.eff.aPresent.getLsbD (slotOwner s k - 0x10))

/-- R405: a slot that counts as good. -/
def slotSatisfied (s : State) (k : Nat) : Bool := slotSkipped s k || slotGood s k

/-- The slots of a mask. -/
def maskSlots (m : Nat) : List Nat := (rangeFrom 0 64).filter fun k => nbit m k

/-- R399: the module rails placed before a MOD slot. -/
def modBefore (k : Nat) : List Nat :=
  if k < 24 then (rangeFrom 0 24).filter fun j => decide (Config.modulePlace j < Config.modulePlace k) else []

/-- The slots that a word waits on, in the order in which a time-out names them: a CHK's SLOT first, then ascending. -/
def waitSlots (s : State) (w : PealWait) : List Nat :=
  match w with
  | .en k d => modBefore k ++ maskSlots (progDep s d)
  | .chk k d => k :: maskSlots (progDep s d)
  | _ => []

def waitOver (s : State) (w : PealWait) : Bool :=
  match w with
  | .en .. => (waitSlots s w).all fun k => slotSatisfied s k
  | .chk .. => (waitSlots s w).all fun k => slotSatisfied s k
  | _ => false

/-- R428: IDLE_W of a partner. -/
def idleW (s : State) (n : Nat) : Nat :=
  bits (if s.mainDom = .up then regGet s (rPart n) else kget (regReset (rPart n)) (storedRegs s) (rPart n)) 47 32

/-- An enable is asserted. ACCn_EN starts the allowance at IDLE_W with a full bucket (R428, R430). One that is asserted stays so. -/
def assertEn (s : State) (k : Nat) : State :=
  if slotEnabled s k then s else
  let s := regPut s rPseqEn k k 1
  let s := if slotGood s k then putPeal s { s.peal with running := s.peal.running ||| BitVec.ofNat 64 (2 ^ k) } else s
  if 24 ≤ k ∧ k < 32 then
    let n := k - 24
    let s := regPut s (rSidePart n) 52 52 1
    putPower s { s.power with allow := kset 0 s.power.allow n (idleW s n), bucket := kdel s.power.bucket n }
  else s

/-- What follows a slot that is good no longer: its partner's PARTNERS bit, and the main domain with a MOD slot. -/
def slotLost (s : State) (k : Nat) : State :=
  let o := slotOwner s k
  let s := if 0x10 ≤ o ∧ o < 0x18 then partnerDown s (o - 0x10) else s
  if k < 24 ∧ regBits s rPseq 53 53 = 1 then mainDown (regPut s rPseq 53 53 0) false else s

/-- An enable is deasserted; the slot is running no longer. It is good until its first sample that is not (R406); its partner's PARTNERS
bit and the main domain do not wait for that (DEDUCED, log 83). -/
def dropEn (s : State) (k : Nat) : State :=
  let s := regPut s rPseqEn k k 0
  let s := putPeal s { s.peal with running := s.peal.running &&& ~~~BitVec.ofNat 64 (2 ^ k) }
  let s := if 24 ≤ k ∧ k < 32 then regPut s (rSidePart (k - 24)) 52 52 0 else s
  slotLost s k

/-- R406: a slot gives a sample that is not good and is good no longer. -/
def notGood (s : State) (k : Nat) : State :=
  slotLost (putPeal (regPut s rPseqGood k k 0) { s.peal with running := s.peal.running &&& ~~~BitVec.ofNat 64 (2 ^ k) }) k

/-- R28, R378: the partners that have power lose it at once, their resets asserted first (DESIGN CHOICE, log 124). -/
def unpowerPartners (s : State) : State :=
  ((maskSlots (regGet s rPseqEn).toNat).filter fun k => partnerOwned s k).foldl (fun s k => dropEn (assertReset s (slotOwner s k - 0x10)) k) s

/-- R407, R443: every enable drops. -/
def dropAllEn (s : State) : State := (maskSlots (regGet s rPseqEn).toNat).foldl dropEn s

/-! ### The log (R415) -/

/-- MV of a record: 0xFFFF without a monitor. -/
def logMv (s : State) (slot : Nat) : Nat :=
  if slot < 64 ∧ slotMon s slot ≠ 0 then min 0xFFFF (kget 0 s.peal.mv slot - 1) else 0xFFFF

/-- Table 14.7, with the chatter count and reading given. -/
def pealRecordBytes (s : State) (event slot chatter mv : Nat) : List Byte :=
  let mode := match s.peal.run with | some r => r.mode | none => 0
  let b := leBytes 8 (s.drum.beats * 2 / 5) ++ leBytes 8 s.drum.count.toNat ++ leBytes 4 s.peal.logNext.toNat ++ leBytes 1 event ++
    leBytes 1 mode ++ leBytes 1 slot ++ leBytes 1 s.peal.failed ++ leBytes 2 chatter ++ leBytes 2 mv ++ leBytes 2 (pealPc s) ++
    leBytes 2 0 ++ (progDigest s).take 8 ++ List.replicate 16 0
  b ++ leBytes 8 (crc64 b)

/-- A record is added; the sector that the ring reaches is erased before it is written. -/
def logRaw (s : State) (event slot chatter mv : Nat) : State :=
  let l := s.peal.log ++ [pealRecordBytes s event slot chatter mv]
  let q := s.peal.logNext.toNat
  let keep := 256 + q % 64 + 1
  putPeal (regPut s rPseqLog 31 0 q) { s.peal with log := l.drop (l.length - keep), logNext := s.peal.logNext + 1 }

def logPeal (s : State) (event slot : Nat) : State := logRaw s event slot (min 0xFFFF (kget 0 s.peal.chatter slot)) (logMv s slot)

/-- R412: the first failing rail, unless one is recorded. -/
def firstFail (s : State) (slot cause : Nat) : State :=
  let s := putPeal s { s.peal with failedSeq := true }
  if regBits s rPseqFirst 63 63 = 1 then s
  else regSet s rPseqFirst (BitVec.ofNat 64 (2 ^ 63 + slot % 64 * 2 ^ 50 + cause * 2 ^ 40 +
    min 0xFFFF (kget 0 s.peal.chatter slot) * 2 ^ 16 + logMv s slot))

/-- PSEQ_FIRST: the first failing slot with its chatter count and reading; none recorded is slot 0xFF without a monitor. -/
def firstSlot (s : State) : Nat × Nat × Nat :=
  let f := regGet s rPseqFirst
  if bits f 63 63 = 1 then (bits f 55 50, bits f 31 16, bits f 15 0) else (0xFF, 0, 0xFFFF)

/-- R415, R416: a record of the first failing rail. -/
def logFirstAs (s : State) (event : Nat) : State :=
  let f := firstSlot s
  logRaw s event f.1 f.2.1 f.2.2

/-- R416: the FIRST_FAIL record of a sequence that ends after a failure. -/
def logFirst (s : State) : State :=
  if s.peal.failedSeq then
    let t := logFirstAs s 0x10
    putPeal t { t.peal with failedSeq := false }
  else s

/-! ### Runs (R409 to R414) -/

/-- A lower run starts: 1 in normal mode, 2 in fault mode. Every partner's reset is asserted (R485). -/
def startLower (s : State) (mode : Nat) (next : PealNext) : State :=
  let s := (rangeFrom 0 8).foldl assertReset s
  let s := setPealPc (setPealState s (if mode = 2 then 4 else 3)) (progEntry s false)
  putPeal s { s.peal with run := some { mode := mode, fail := false, wait := none, steps := 0, stagger := false, stop := false, first := none },
                          next := next }

/-- R410: an attempt fails. -/
def failAttempt (s : State) (mode : Nat) : State :=
  let first := match s.peal.run with | some r => r.first | none => none
  let s := match first with | some (k, c) => firstFail s k c | none => putPeal s { s.peal with failedSeq := true }
  let s := putPeal s { s.peal with failed := s.peal.failed + 1 }
  let s := regPut s rPseq 57 54 (min 15 s.peal.failed)
  let s := raise s srcPeal 0x2B 1 (match first with | some (k, _) => k | none => 0xFF)
  startLower s mode .retry

/-- R410: LOCKED_OUT. -/
def lockOut (s : State) : State :=
  let s := putPeal (setPealState s 6) { s.peal with offSeen := !seqOn s }
  let s := logFirst (logFirstAs s 0x08)
  raise s srcPeal 0x2D 3 (firstSlot s).1

/-- A lower run reaches END (R410, R411, R414, R416). -/
def endLower (s : State) : State :=
  let s := (maskSlots (regGet s rPseqEn).toNat).foldl (fun s k => logPeal (dropEn s k) 0x0E k) s
  let s := logPeal s 0x09 0xFF
  let s := putPeal s { s.peal with run := none }
  match s.peal.next with
  | .hold => setPealState s 7
  | .off => logFirst (setPealState s 0)
  | .retry =>
    if s.peal.eff.ref.retries < s.peal.failed then lockOut s
    else if seqOn s then logPeal (setPealState s 5) 0x07 0xFF
    else logFirst (setPealState s 0)

/-- R409: what every upper run needs. -/
def upperMay (s : State) : Bool :=
  s.board.stbyBoot && seqOn s && regBits s rPins 63 63 == 1 && !tripStands s

/-- R402: the copy that an upper run uses. -/
def chooseProg (s : State) : Option (List Byte) × Nat :=
  let d := (pealRecord s).ref.digest
  let ok := fun (img : List Byte) => (pealCheck s d img).isNone
  let a := s.peal.copyA
  let b := s.peal.copyB
  if ok a && (!ok b || decide (pealSeq b ≤ pealSeq a)) then (some a, 1) else if ok b then (some b, 2) else (none, 0)

/-- R409: every used MOD slot is good. -/
def modGood (s : State) : Bool := (rangeFrom 0 24).all fun k => slotGood s k

/-- R409, R378: the main domain is released; a recovery powers no partner. -/
def releaseInto (s : State) (bad : List Nat) : State :=
  let s := mainRelease s bad
  if inRecovery s then unpowerPartners s else s

/-- MAIN_RESET_RELEASE (R460): the hold is over. -/
def execMainResetRelease (bad : List Nat) (s : State) : Host.Outcome State Fault Refusal :=
  .next (if s.mainDom = .inReset ∧ s.mainPower = true then releaseInto s bad else s)

/-- R409: the main domain is released once every used MOD slot is good, in an upper run or ON. `enabled` asks for their enables too, which
an upper run finds off as it starts. -/
def releaseMain (s : State) (bad : List Nat) (enabled : Bool) : State :=
  if (pealState s = 1 ∨ pealState s = 2) ∧ regBits s rPseq 53 53 = 0 ∧ modGood s = true ∧
      (!enabled || (rangeFrom 0 24).all fun k => slotEnabled s k) = true then
    releaseInto (regPut s rPseq 53 53 1) bad
  else s

/-- R409: the used slots that must be good for partner n. -/
def partnerSlots (s : State) (n : Nat) : List Nat := (rangeFrom 0 64).filter fun k => slotUsed s k && slotOwner s k == 0x10 + n

/-- R409: PARTNERS follows the used slots of each partner that the record names and the hub powers. -/
def syncPartners (s : State) : State :=
  (rangeFrom 0 8).foldl (fun s n =>
    let l := partnerSlots s n
    if s.peal.eff.aPresent.getLsbD n && !noPartners s && l != [] && l.all (fun k => slotGood s k && slotEnabled s k) then
      regPut s rPseq (40 + n) (40 + n) 1
    else s) s

/-- R409: what follows a slot that has become good or enabled. -/
def slotsChanged (s : State) (bad : List Nat) : State := releaseMain (syncPartners s) bad true

/-- R402, R409: an upper run starts. -/
def startUpper (s : State) : State :=
  let (prog, copy) := chooseProg s
  let s := putPeal s { s.peal with
    prog := prog, eff := pealRecord s, chatter := [], next := .off
    run := some { mode := 0, fail := false, wait := none, steps := 0, stagger := false, stop := false, first := none } }
  let s := regPut (regAddSat (setPealState s 1) rPseq 15 0 1) rPseq 59 58 copy
  let s := setPealPc s (progEntry s true)
  let dg := (progDigest s).take 4
  let seq := match prog with | some img => pealSeq img | none => 0
  let s := regSet s rPseqProg (BitVec.ofNat 64 (seq * 2 ^ 32 + leVal dg.reverse))
  let s := if prog.isNone then logPeal s 0x0A 0xFF else s
  releaseMain (logPeal s 0x01 0xFF) s.trust.damaged false

/-- PEAL_UPPER_RUN_START (R409, R402): from OFF, or from HOLD once no trip stands. -/
def execPealUpperRunStart (s : State) : Host.Outcome State Fault Refusal :=
  .next (if (pealState s = 0 ∨ pealState s = 7) ∧ upperMay s then startUpper s else s)

/-- RETRY_WAIT_EXPIRY (R410): 500 ms have passed; with the order off the sequence is OFF. -/
def execRetryWaitExpiry (s : State) : Host.Outcome State Fault Refusal :=
  .next (if pealState s = 5 ∧ upperMay s then startUpper s else s)

/-- ATTEMPT_COUNT_RESET (R410): 60 s ON without a rail fault. -/
def execAttemptCountReset (s : State) : Host.Outcome State Fault Refusal :=
  .next (if pealState s = 2 then putPeal (regPut s rPseq 57 54 0) { s.peal with failed := 0 } else s)

/-! ### Words (R403, R404, R405, R411) -/

/-- The run and the current word, when nothing is being waited for and the word is of operation `op`. -/
def currentWord (s : State) (op : Nat) : Option (PealRun × Nat) :=
  match s.peal.run with
  | some r =>
    let w := progWord s (pealPc s)
    if r.wait = none ∧ nbits w 31 28 = op then some (r, w) else none
  | none => none

/-- R404: 65,536 words end an upper run as a failed attempt; a lower run ends. -/
def stepLimit (s : State) : State :=
  let s := logPeal s 0x0B 0xFF
  match s.peal.run with
  | some r => if r.mode = 0 then failAttempt s 1 else endLower s
  | none => s

/-- The run continues at word `pc`. -/
def continueAt (s : State) (pc : Nat) : State :=
  let s := setPealPc s pc
  match s.peal.run with
  | none => s
  | some r =>
    let s := putRun s { r with wait := none, steps := r.steps + 1 }
    if r.stop && r.mode == 0 then startLower s 1 .off
    else if 65536 ≤ r.steps + 1 then stepLimit s
    else s

/-- The run continues with the next word. -/
def nextWord (s : State) : State := continueAt s (pealPc s + 1)

/-- END. -/
def execPealEnd (s : State) : Host.Outcome State Fault Refusal :=
  match currentWord s 0 with
  | none => .next s
  | some (r, w) =>
    if r.mode ≠ 0 then .next (endLower s)
    else if nbit w 0 then
      let slot := match r.first with | some (k, _) => k | none => 0xFF
      .next (failAttempt (logPeal s 0x0F slot) 1)
    else
      let s := logPeal s 0x02 0xFF
      let s := putPeal (setPealState s 2) { s.peal with run := none, failedSeq := false }
      .next (if r.stop then startLower s 1 .off else slotsChanged s s.trust.damaged)

/-- EN, once what it waits for is good. -/
def finishEn (s : State) (k : Nat) : State :=
  let s := assertEn s k
  nextWord (slotsChanged s s.trust.damaged)

/-- EN. -/
def execPealEn (s : State) : Host.Outcome State Fault Refusal :=
  match currentWord s 1 with
  | none => .next s
  | some (r, w) =>
    let k := nbits w 27 22
    let x := PealWait.en k (nbits w 21 18)
    if r.mode ≠ 0 ∨ slotSkipped s k then .next (nextWord s)
    else if waitOver s x then .next (finishEn s k)
    else .next (putRun s { r with wait := some x })

/-- DIS: the enable, then the discharge check. -/
def execPealDis (s : State) : Host.Outcome State Fault Refusal :=
  match currentWord s 2 with
  | none => .next s
  | some (r, w) =>
    let k := nbits w 27 22
    if slotSkipped s k then .next (nextWord s)
    else
      let s := if r.mode = 2 then s else dropEn s k
      if nbit w 21 then .next (nextWord s) else .next (putRun s { r with wait := some (.discharge k) })

/-- WAIT. -/
def execPealWait (s : State) : Host.Outcome State Fault Refusal :=
  match currentWord s 3 with
  | none => .next s
  | some (r, _) => .next (if r.mode = 2 then nextWord s else putRun s { r with wait := some .time })

/-- CHK. -/
def execPealChk (s : State) : Host.Outcome State Fault Refusal :=
  match currentWord s 4 with
  | none => .next s
  | some (r, w) =>
    let x := PealWait.chk (nbits w 27 22) (nbits w 21 18)
    .next (if r.mode ≠ 0 ∨ waitOver s x then nextWord s else putRun s { r with wait := some x })

/-- JMP. -/
def execPealJmp (s : State) : Host.Outcome State Fault Refusal :=
  match currentWord s 5 with
  | none => .next s
  | some (_, w) => .next (continueAt s (nbits w 8 0))

/-- JFAIL. -/
def execPealJfail (s : State) : Host.Outcome State Fault Refusal :=
  match currentWord s 6 with
  | none => .next s
  | some (r, w) => .next (if r.mode = 0 ∧ r.fail then continueAt (putRun s { r with fail := false }) (nbits w 8 0) else nextWord s)

/-- STAGGER: the first of a run completes at once. -/
def execPealStagger (s : State) : Host.Outcome State Fault Refusal :=
  match currentWord s 7 with
  | none => .next s
  | some (r, _) =>
    .next (if r.mode ≠ 0 then nextWord s
      else if r.stagger then putRun s { r with wait := some .stagger }
      else nextWord (putRun s { r with stagger := true }))

/-! ### What ends a wait -/

/-- PEAL_WAIT_EXPIRY: the time of a WAIT or a STAGGER has passed. -/
def execPealWaitExpiry (s : State) : Host.Outcome State Fault Refusal :=
  match s.peal.run with
  | some r => .next (if r.wait = some .time ∨ r.wait = some .stagger then nextWord s else s)
  | none => .next s

/-- R406: chatter counts raised. -/
def addChatter (s : State) (l : List (Nat × Nat)) : State :=
  putPeal s { s.peal with chatter := l.foldl (fun m e => kset 0 m e.1 (kget 0 m e.1 + e.2)) s.peal.chatter }

/-- PEAL_STEP_TIMEOUT (R404, R410): the time of an EN or CHK has passed. `chatter` gives the runs of good samples that ended since the
wait began, for the slots it waits on. -/
def execPealStepTimeout (chatter : List (Nat × Nat)) (s : State) : Host.Outcome State Fault Refusal :=
  match s.peal.run with
  | none => .next s
  | some r =>
    match r.wait with
    | none => .next s
    | some w =>
      let bad := (waitSlots s w).filter fun k => !slotSatisfied s k
      match w, bad with
      | .en .., k :: _ | .chk .., k :: _ =>
        let s := addChatter s (chatter.filter fun e => (waitSlots s w).contains e.1)
        let ev := match w with | .en .. => 0x04 | _ => 0x03
        let s := logPeal s ev k
        let r := { r with wait := none, fail := true, first := if r.first.isSome then r.first else some (k, ev) }
        let s := putRun s r
        if nbits (progWord s (pealPc s + 1)) 31 28 = 6 ∨ r.stop then .next (nextWord s) else .next (failAttempt s 1)
      | _, _ => .next s

/-- A wait whose slots have become good is over. -/
def resumeRun (s : State) : State :=
  match s.peal.run with
  | some r =>
    match r.wait with
    | some (.en k d) => if waitOver s (.en k d) then finishEn s k else s
    | some (.chk k d) => if waitOver s (.chk k d) then nextWord s else s
    | _ => s
  | none => s

/-- POWER_GOOD_QUALIFIED (R406, R407, R409): 16 consecutive good samples. `chatter` is the runs of good samples that ended before them
while a word waited on the slot; `bad` names the image partitions that fail their check when the main domain is released. -/
def execPowerGoodQualified (slot chatter : Nat) (bad : List Nat) (s : State) : Host.Outcome State Fault Refusal :=
  if 64 ≤ slot then .next s
  else
    let waits := match s.peal.run with
      | some r => (match r.wait with | some w => (waitSlots s w).contains slot | none => false)
      | none => false
    let s := if waits then addChatter s [(slot, chatter)] else s
    let s := regPut s rPseqGood slot slot 1
    let s := if slotEnabled s slot then putPeal s { s.peal with running := s.peal.running ||| BitVec.ofNat 64 (2 ^ slot) } else s
    .next (resumeRun (slotsChanged (putTrust s { s.trust with damaged := bad }) bad))

/-! ### Faults -/

/-- PEAL_RAIL_FAULT (R406, R407, R410): 4 consecutive samples of a running slot are not good, in an upper run or ON. A slot that is not
running is good no longer at the first. -/
def execPealRailFault (slot : Nat) (s : State) : Host.Outcome State Fault Refusal :=
  if slot < 64 ∧ slotRunning s slot ∧ (pealState s = 1 ∨ pealState s = 2) then
    let m := newMsg s srcPeal 0x2C 2 slot
    let s := logPeal s 0x05 slot
    let s := endJob s 1 (some m) false
    let r : PealRun := match s.peal.run with
      | some r => { r with first := if r.first.isSome then r.first else some (slot, 0x05) }
      | none => { mode := 0, fail := false, wait := none, steps := 0, stagger := false, stop := false, first := some (slot, 0x05) }
    let s := raiseMsg (notGood (dropAllEn (putRun s r)) slot) m
    .next (failAttempt s 2)
  else .next (if slot < 64 ∧ !slotRunning s slot ∧ slotGood s slot then notGood s slot else s)

/-- RAIL_LOST_DOWN (R406, R411, R412): a running slot stops being good in a lower run. One that is not running is not logged. -/
def execRailLostDown (slot : Nat) (s : State) : Host.Outcome State Fault Refusal :=
  match s.peal.run with
  | some r =>
    if slot < 64 ∧ r.mode ≠ 0 ∧ slotRunning s slot then
      let s := firstFail (logPeal s 0x0D slot) slot 0x0D
      .next (notGood s slot)
    else .next (if slot < 64 ∧ !slotRunning s slot ∧ slotGood s slot then notGood s slot else s)
  | none => .next s

/-- DISCHARGE_DONE (R406, R412): the monitor reads `mv`, below 10 % of NOMINAL_MV; without a monitor the power-good input has shown the
discharge. A slot that has passed is not good (DEDUCED, log 83). -/
def execDischargeDone (slot mv : Nat) (s : State) : Host.Outcome State Fault Refusal :=
  match s.peal.run with
  | some r =>
    if slot < 64 ∧ r.wait = some (.discharge slot) then
      if slotMon s slot = 0 then .next (nextWord (notGood s slot))
      else
        let s := putPeal s { s.peal with mv := kset 0 s.peal.mv slot (mv + 1) }
        .next (if 10 * mv < slotMv s slot then nextWord (notGood s slot) else s)
    else .next s
  | none => .next s

/-- DISCHARGE_TIMEOUT (R412): DISCHARGE_MS has passed. -/
def execDischargeTimeout (s : State) : Host.Outcome State Fault Refusal :=
  match s.peal.run with
  | some r =>
    match r.wait with
    | some (.discharge k) =>
      let s := logPeal s 0x06 k
      .next (nextWord (if r.mode = 0 then s else firstFail s k 0x06))
    | _ => .next s
  | none => .next s

/-! ### Orders and trips (Table 14.6) -/

/-- R476: the sequencer sees the effective power order go off. -/
def seqWentOff (s : State) : State :=
  let s := endJob s 2 none false
  match pealState s with
  | 1 => (match s.peal.run with | some r => putRun s { r with stop := true } | none => s)
  | 2 => startLower s 1 .off
  | 5 => logFirst (setPealState s 0)
  | 6 => putPeal s { s.peal with offSeen := true }
  | _ => s

/-- R476: the sequencer sees the effective power order go on. -/
def seqWentOn (s : State) : State := if pealState s = 6 ∧ s.peal.offSeen then leaveLockout s else s

/-- R443, R414: a trip drops every enable and holds the sequence. -/
def tripPeal (s : State) : State :=
  let s := logPeal (dropAllEn s) 0x0C 0xFF
  match pealState s with
  | 1 => startLower s 2 .hold
  | 2 => startLower s 2 .hold
  | 3 => (match s.peal.run with
      | some r =>
        let r' := { r with mode := 2, wait := if r.wait = some .time then none else r.wait }
        let s := putPeal (setPealState s 4) { s.peal with next := .hold, run := some r' }
        if r.wait = some .time then nextWord s else s
      | none => s)
  | 4 => putPeal s { s.peal with next := .hold }
  | 5 => setPealState s 7
  | 0 => setPealState s 7
  | _ => s

/-- R359, R414, R476: both orders as they now are, `s` being the state before: what the change of the effective order does, and what the
sequencer sees of it. -/
def orderMoved (s t : State) : State :=
  let t := if orderOn s && !orderOn t then putPower t { t.power with offLeak := true, offTherm := true } else t
  if seqOn s && !seqOn t then seqWentOff t else if !seqOn s && seqOn t then seqWentOn t else t

end Sys2Proof.Machine
end

