-- ==== Sys2Proof/Machine/Power.lean ====
section
/-! DEFINITION. Chapter 15: measurement, the hub and tray cap loops, operating points, slope grants, emergencies, energy and
ageing (R418 to R435, R505). Power is in milliwatts. -/

namespace Sys2Proof.Machine

def capLoop (s : State) (hi lo : Nat) : Nat := regBits s rPcapLoop hi lo
def opPoint (s : State) : Nat := regBits s rPcapStatus 63 60
def bubbles (s : State) : Nat := regBits s rPcapStatus 59 54
def capUnattainable (s : State) : Bool := regBits s rPcapStatus 53 53 == 1

/-- Milliwatts in the unit that energy is carried in. -/
def addEnergy (s : State) (reg key nj : Nat) : State :=
  let t := kget 0 s.power.fine key + nj
  let s := putPower s { s.power with fine := kset 0 s.power.fine key (t % 1000000) }
  regSet s reg (regGet s reg + BitVec.ofNat 64 (t / 1000000))

/-! ### The hub cap (R419 to R424, R432) -/

/-- R419: P_meas from a reading of P_core. -/
def measure (s : State) (core : Nat) : Nat :=
  ((s.power.pIn : Int) + ((core : Int) - (s.power.coreScan : Int)) * 11 / 10).toNat

/-- R420: the new bubble level. -/
def bubbleStep (b meas cap gain hyst : Nat) : Nat :=
  if cap < meas then min 48 (b + (meas - cap + 1000 * gain - 1) / (1000 * gain))
  else if meas + 1000 * hyst < cap then b - 1
  else b

/-- R432: a period's energy in nJ, divided among the tags; `share` lists the coach-cycles of each tag and `whole` is the in-service
coaches times the period's cycles. -/
def tagEnergy (s : State) (nj whole : Nat) (share : List Nat) : State :=
  let part := fun (t : Nat) => if whole = 0 then 0 else nj * lget 0 share t / whole
  let others := lsum ((rangeFrom 1 15).map part)
  let s := (rangeFrom 1 15).foldl (fun s t => addEnergy s (rEnergy t) t (part t)) s
  addEnergy s (rEnergy 0) 0 (nj - others)

/-- HUB_CAP_PERIOD (R418 to R420, R432): `core` is the reading of P_core [mW], `share` the coach-cycles of tags 0 to 15 in the period and
`cycles` its coach cycles. -/
def execHubCapPeriod (core : Nat) (share : List Nat) (cycles : Nat) (s : State) : Host.Outcome State Fault Refusal :=
  if s.mainDom ≠ .up then .next s
  else
    let m := measure s core
    let cap := capMw s
    let b := if capUnattainable s then 48 else bubbleStep (bubbles s) m cap (capLoop s 63 56) (capLoop s 55 48)
    let s := regPut (regPut s rPcapStatus 59 54 b) rPcapPower 63 48 (min 0xFFFF (m / 1000))
    let p := { s.power with meas := m }
    let p := if p.step.isSome then p
      else { p with winN := p.winN + 1, winB := p.winB + b, winMeas := p.winMeas + m
                    winMax := p.winMax + (if b = 48 ∧ cap < m then 1 else 0), winLow := p.winLow + (if m ≤ cap then 1 else 0) }
    let s := putPower s p
    let whole := ((rangeFrom 0 512).filter fun c => coachInService s c).length * cycles
    .next (tagEnergy s (20 * m) whole share)

/-- R422: the windows start anew. -/
def resetWindow (p : Power) : Power := { p with winN := 0, winB := 0, winMax := 0, winLow := 0, winMeas := 0 }

/-- R422: a window of periods is over: windows with b 0 throughout are counted. -/
def closeWindow (p : Power) : Power :=
  let p := if p.winB = 0 ∧ 0 < p.winN then { p with zeroWins := min 10 (p.zeroWins + 1), sumMeas := ((p.winMeas, p.winN) :: p.sumMeas).take 10 }
    else { p with zeroWins := 0, sumMeas := [] }
  p

/-- R422 step 3: the mean of P_meas over the last ten windows is low enough. -/
def mayStepUp (s : State) (p : Power) : Bool :=
  let sum := lsum (p.sumMeas.map fun e => e.1)
  let n := lsum (p.sumMeas.map fun e => e.2)
  p.zeroWins == 10 && decide (sum + n * 1000 * capLoop s 39 32 ≤ n * capMw s)

/-- R423: the AVSBus write that gives the core rails the voltages of operating point `n`, with the offset of R434. The outbox shows it as
purpose 4 on slot 64. -/
def setVolt (s : State) (n : Nat) : State :=
  emit (putPower s { s.power with volt := n }) .pmbus [64, 4, n, regBits s rTrim 63 59]

/-- R422 and R424 over the closed window `p`. A step up raises the voltage first (R423). -/
def evaluateOp (s : State) (p : Power) : State :=
  let op := opPoint s
  let top := capLoop s 31 28
  let s := if capUnattainable s && decide (0 < p.winN) && p.winLow == p.winN then regPut s rPcapStatus 53 53 0 else s
  let go := fun (n : Nat) =>
    let s := putPower s { s.power with step := some n }
    if n < op then setVolt s n else s
  if op < top then go (op + 1)
  else if 0 < p.winN ∧ capLoop s 47 40 * p.winN ≤ p.winB ∧ op ≠ 5 then go (op + 1)
  else if top < op ∧ mayStepUp s p then go (op - 1)
  else if op = 5 ∧ 0 < p.winN ∧ p.winMax = p.winN ∧ !capUnattainable s then
    let s := raise (regPut s rPcapStatus 53 53 1) srcPcap 0x2E 1 (capMw s / 1000)
    emitEvent s 0x03 (leBytes 4 (capMw s / 1000) ++ leBytes 4 (s.power.meas / 1000))
  else s

/-- OP_EVALUATION (R422): at each beat count that is a multiple of 25,000. -/
def execOpEvaluation (s : State) : Host.Outcome State Fault Refusal :=
  if s.mainDom ≠ .up ∨ s.drum.count.toNat % 25000 ≠ 0 ∨ s.power.step.isSome then .next s
  else
    let p := closeWindow s.power
    .next (evaluateOp (putPower s (resetWindow p)) p)

/-- OP_STEP_COMPLETE (R423): the clock switch: b becomes 0 and the windows start anew. A step down lowers the voltage after it, and ends
with that write (DESIGN CHOICE, log 142). -/
def execOpStepComplete (s : State) : Host.Outcome State Fault Refusal :=
  match s.power.step with
  | some n =>
    if s.mainDom = .up then
      let s := regPut (regPut s rPcapStatus 63 60 n) rPcapStatus 59 54 0
      let s := putPower s { resetWindow s.power with step := none, zeroWins := 0, sumMeas := [] }
      .next (if s.power.volt = n then s else setVolt s n)
    else .next s
  | none => .next s

/-- DROOP_DETECT (R425): `detectors` trip and `stretched` coach cycles are stretched until none has for 8 cycles. -/
def execDroopDetect (detectors stretched : Nat) (s : State) : Host.Outcome State Fault Refusal :=
  if s.mainDom ≠ .up ∨ detectors = 0 ∨ 64 < detectors then .next s
  else .next (regAddSat (regAddSat s rDroop 31 0 detectors) rDroop 63 32 stretched)

/-! ### The tray cap (R419, R427, R433) -/

/-- R427: whether a tray cap is in force. -/
def trayCapped (s : State) : Bool := decide (trayCap s ≠ 0xFFFFFFFF)

/-- The policy level of a partner, a held one before the one in effect. -/
def policyOf (s : State) (n : Nat) : Nat :=
  let h := kget 0 s.power.pendPolicy n
  if h = 0 then kget 0 s.power.policy n else h - 1

/-- R427: while no tray cap is in force every policy level is 0. -/
def dropPolicy (s : State) : State := if trayCapped s then s else changePolicy s fun _ => 0

/-- R427: one scan of the tray cap loop. -/
def trayLoop (s : State) : State :=
  let p := { s.power with holdoff := s.power.holdoff - 1 }
  let cap := 1000 * trayCap s
  if !trayCapped s then dropPolicy (putPower s { p with lowScans := 0 })
  else if cap < trayMw s then
    let s := putPower s { p with lowScans := 0 }
    if p.holdoff = 0 then
      let up := fun (n : Nat) => if (populated s).contains n then min 3 (policyOf s n + 1) else policyOf s n
      let s := changePolicy s up
      putPower s { s.power with holdoff := 5 }
    else s
  else if 10 * trayMw s ≤ 9 * cap then
    if 50 ≤ p.lowScans + 1 then
      let s := putPower s { p with lowScans := 0 }
      changePolicy s fun n => policyOf s n - 1
    else putPower s { p with lowScans := p.lowScans + 1 }
  else putPower s { p with lowScans := 0 }

/-- TRAY_SCAN (R418, R419, R427, R431, R433): `pin` is P_in, `core` P_core at the scan, `slots` the READ_PIN of each slot, all in mW. -/
def execTrayScan (pin core : Nat) (slots : List (Nat × Nat)) (s : State) : Host.Outcome State Fault Refusal :=
  if s.mainDom ≠ .up then .next s
  else
    let m := (slots.filter fun e => decide (e.1 < 64) && slotCounted s e.1).foldl (fun (m : KMap Nat) e => kset 0 m e.1 e.2) []
    let s := putPower s { s.power with pIn := pin, coreScan := core, slotMw := m, granted := [] }
    let s := regPut s rPcapPower 31 0 (min 0xFFFFFFFF (trayMw s / 1000))
    let s := (rangeFrom 0 8).foldl (fun s n =>
      addEnergy (regPut s (rThr n) 47 32 (min 0xFFFF (partnerMw s n / 1000))) (rPenergy n) (16 + n) (1000 * partnerMw s n)) s
    let s := if s.power.hotSince && s.power.emerg.contains 0 then
        syncCaps (putPower s { s.power with capHot := s.power.capHot - 20000 })
      else s
    .next (trayLoop s)

/-! ### Slope grants (R428 to R430) -/

/-- A field of PCAP_PARTn; while the main domain is down the value stored in flash. -/
def partBits (s : State) (n hi lo : Nat) : Nat :=
  bits (if s.mainDom = .up then regGet s (rPart n) else kget (regReset (rPart n)) (storedRegs s) (rPart n)) hi lo

/-- R426: F_L × PMAX_n in mW. -/
def partnerLimit (s : State) (n : Nat) : Nat := 1000 * partBits s n 63 48 * (4 - level s n) / 4

/-- R430: what a bucket gains in one side-band cycle. -/
def bucketGain (s : State) (n : Nat) : Nat :=
  let sh := lget 0 s.power.share n
  let all := lsum s.power.share
  let k := (populated s).length
  if all ≠ 0 then s.power.budget * sh * 840 else if k = 0 then 0 else s.power.budget * (215040 / k)

/-- R430: the refill of one beat, 40 side-band cycles. -/
def refillBuckets (s : State) : State :=
  putPower s { s.power with bucket := s.power.bucket.foldl (fun (m : KMap Nat) e => kset 0 m e.1 (e.2 - 40 * bucketGain s e.1)) [] }

/-- R429: the four conditions, `missing` being what the bucket lacks. -/
def slopeOk (s : State) (n missing : Nat) : Bool :=
  let w := stepW s
  let g := fun (k : Nat) => 1000 * kget 0 s.power.granted k
  decide (missing ≤ w * bucketWatt) &&
  decide (partnerMw s n + g n + 1000 * w ≤ partnerLimit s n) &&
  (!trayCapped s || decide (trayMw s + lsum ((rangeFrom 0 8).map g) + 1000 * w ≤ 1000 * trayCap s)) &&
  slotEnabled s (24 + n) && !tripStands s

/-- SLOPE_REQUEST (R429): ACCn_REQ is high in the side-band cycle `phase` of the beat. The bucket is kept as at the beat edge. Pin 8 + n of
the outbox is ACCn_GRANT. -/
def execSlopeRequest (n phase : Nat) (s : State) : Host.Outcome State Fault Refusal :=
  if 8 ≤ n ∨ 40 ≤ phase then .next s
  else
    let gain := phase * bucketGain s n
    let missing := kget 0 s.power.bucket n - gain
    if slopeOk s n missing then
      let w := stepW s
      let s := putPower s { s.power with
        bucket := kset 0 s.power.bucket n (missing + w * bucketWatt + gain)
        granted := kset 0 s.power.granted n (kget 0 s.power.granted n + w)
        allow := kset 0 s.power.allow n (kget 0 s.power.allow n + w) }
      let s := if s.mainDom = .up then regAddSat s (rThr n) 31 0 1 else s
      .next (emit s .pin [8 + n, 1])
    else .next s

/-! ### Trips (R442 to R444) -/

/-- Table 15.7: the duty that the standing trips give an output of a role. -/
def tripDuty (s : State) (role : Nat) : Nat := if role = 3 ∧ regBits s rTrip 62 62 = 1 then 0 else 100

def coolRole (s : State) (k : Nat) : Nat := regBits s (rCoolCfg k) 31 24
def coolState (s : State) (k : Nat) : Nat := regBits s (rCoolStatus k) 63 60
def coolDuty (s : State) (k : Nat) : Nat := regBits s (rCoolStatus k) 55 48
def setCoolState (s : State) (k st : Nat) : State := regPut s (rCoolStatus k) 63 60 st

/-- A duty driven at once. -/
def driveDuty (s : State) (k d : Nat) : State :=
  putPower (regPut s (rCoolStatus k) 55 48 d) { s.power with duty10 := kset 0 s.power.duty10 k (10 * d) }

/-- The used outputs. -/
def usedOutputs (s : State) : List Nat := (rangeFrom 0 12).filter fun k => decide (coolRole s k ≠ 0)

/-- R443: every used output as the standing trips say. -/
def tripOutputs (s : State) : State :=
  let s := putPower s { s.power with kicking := [] }
  (usedOutputs s).foldl (fun s k => driveDuty (setCoolState s k 5) k (tripDuty s (coolRole s k))) s

/-- R442, R443: a trip of bit `bit` of COOL_TRIP, its counter at [hi:lo], its message. -/
def trip (s : State) (bit hi lo kind addr : Nat) : State :=
  if regBits s rTrip bit bit = 1 then s
  else
    let m := newMsg s srcProt kind 3 addr
    let s := regAddSat (regPut s rTrip bit bit 1) rTrip hi lo 1
    let s := endJob s 1 (some m) false
    let s := raiseMsg s m
    let s := tripOutputs s
    let s := tripPeal s
    mainDown (regPut s rPseq 53 53 0) false

/-- Thermal trips within the last hour. -/
def recentTrips (s : State) : List Nat := s.power.tripTimes.filter fun b => decide (s.drum.beats < b + 9000000000)

/-- R442: a thermal trip; whether it is a third within one hour is settled here. -/
def thermalTrip (s : State) (hottest : Nat) : State :=
  if regBits s rTrip 61 61 = 1 then s
  else
    let times := recentTrips s ++ [s.drum.beats]
    let s := putPower s { s.power with tripTimes := times, third := decide (3 ≤ times.length), offTherm := !orderOn s }
    trip s 61 15 0 0x34 hottest

/-! ### Emergencies (R431, R505) -/

/-- TEMP_SWEEP (R418, R431, R442): `rakes` lists the hottest sensor of each rake [°C]. -/
def execTempSweep (rakes : List Nat) (s : State) : Host.Outcome State Fault Refusal :=
  if rakes.length ≠ 16 ∨ rakes.any (fun t => decide (255 < t)) ∨ s.mainDom = .off then .next s
  else
    let hot := rakes.foldl max 0
    let s := putPower s { s.power with hot := hot, sweepAt := s.drum.beats + 1, hotSince := decide (100 ≤ hot)
                                       hotSweeps := if 110 ≤ hot then s.power.hotSweeps + 1 else 0 }
    let s := if s.mainDom = .up then
        let word := fun (i : Nat) => BitVec.ofNat 64 (leVal ((rangeFrom (8 * i) 8).map fun j => BitVec.ofNat 8 (lget 0 rakes j)))
        let s := regPut (regSet (regSet s (rTemp 0) (word 0)) (rTemp 1) (word 1)) rPcapPower 47 40 hot
        if 100 ≤ hot ∧ !s.power.emerg.contains 0 then
          let s := putPower s { s.power with capHot := s.power.meas - 20000 }
          enterEmerg (raise s srcPcap 0x2F 1 hot) 0
        else s
      else s
    .next (if 2 ≤ s.power.hotSweeps then thermalTrip s hot else s)

/-- R408: the last reading of a monitored slot is held. -/
def holdMv (s : State) (slot mv : Nat) : State := putPeal s { s.peal with mv := kset 0 s.peal.mv slot (mv + 1) }

/-- RAIL_STATUS_POLL (R408, R418, R431): STATUS_WORD and READ_VOUT [mV] of a MON 2 slot; of a MON 1 slot, which has no STATUS_WORD, the
voltage alone (DESIGN CHOICE, log 143). The outbox shows CLEAR_FAULTS as purpose 3. -/
def execRailStatusPoll (slot status mv : Nat) (s : State) : Host.Outcome State Fault Refusal :=
  if 64 ≤ slot ∨ !slotUsed s slot ∨ slotMon s slot = 0 then .next s
  else if slotMon s slot = 1 then .next (holdMv s slot mv)
  else
    let bad := nbit status 15 || nbit status 14 || nbit status 13 || nbit status 2
    let s := holdMv s slot mv
    if !bad then .next (putPower s { s.power with railBad := ndel s.power.railBad slot })
    else
      let s := putPower s { s.power with railBad := nadd s.power.railBad slot }
      let last := kget 0 s.power.cleared slot
      let s := if last = 0 ∨ last - 1 + 2500000 ≤ s.drum.beats then
          emit (putPower s { s.power with cleared := kset 0 s.power.cleared slot (s.drum.beats + 1) }) .pmbus [slot, 3]
        else s
      .next (if s.power.emerg.contains (0x40 + slot) then s else enterEmerg (raise s srcPcap 0x32 1 slot) (0x40 + slot))

/-- LEAK_MV of an input. -/
def leakMv (s : State) (input : Nat) : Nat := regBits s (rLeakMv (input / 4)) (16 * (input % 4) + 15) (16 * (input % 4))

/-- LEAK_SAMPLE (R418, R431, R442). -/
def execLeakSample (input mv : Nat) (s : State) : Host.Outcome State Fault Refusal :=
  if 8 ≤ input ∨ 3300 < mv then .next s
  else
    let s := regPut s (rLeakRead (input / 4)) (16 * (input % 4) + 15) (16 * (input % 4)) mv
    let w := if leakMv s input ≤ 2 * mv then kget 0 s.power.leakWarn input + 1 else 0
    let t := if leakMv s input ≤ mv then kget 0 s.power.leakTrip input + 1 else 0
    let s := putPower s { s.power with leakWarn := kset 0 s.power.leakWarn input w, leakTrip := kset 0 s.power.leakTrip input t }
    let s := if 10 ≤ w ∧ !s.power.emerg.contains 2 then
        enterEmerg (raise (regPut s rTrip 60 60 1) srcProt 0x37 1 input) 2
      else s
    if 5 ≤ t then
      let s := regPut s rTrip (48 + input) (48 + input) 1
      if regBits s rTrip 62 62 = 1 then .next s
      else .next (trip (putPower s { s.power with offLeak := !orderOn s }) 62 31 16 0x3A (regBits s rTrip 55 48))
    else .next s

/-- FLOW_OK_LOW (R442): FLOW_OK has been low for 1 µs. -/
def execFlowOkLow (s : State) : Host.Outcome State Fault Refusal := .next (trip (regPut s rPins 63 63 0) 63 47 32 0x39 0)

/-- The trips that stand no longer: outputs in TRIP enter SPINUP once none stands (Table 15.5, R444). -/
def tripOver (s : State) (bit : Nat) : State :=
  let s := regPut s rTrip bit bit 0
  if tripStands s then tripOutputs s
  else (usedOutputs s).foldl (fun s k => if coolState s k = 5 then setCoolState s k 2 else s) s

/-- TRIP_CLEAR (R442, R444): the condition of a trip (0 flow, 1 leak, 2 thermal) has held its time. -/
def execTripClear (which : Nat) (s : State) : Host.Outcome State Fault Refusal :=
  if which = 0 ∧ regBits s rTrip 63 63 = 1 then .next (tripOver (regPut s rPins 63 63 1) 63)
  else if which = 1 ∧ regBits s rTrip 62 62 = 1 ∧ s.power.leakWarn = [] ∧ s.power.offLeak then
    .next (tripOver (regPut s rTrip 55 48 0) 62)
  else if which = 2 ∧ regBits s rTrip 61 61 = 1 ∧ (!s.power.third ∨ s.power.offTherm) then .next (tripOver s 61)
  else .next s

/-- R505: a partner's TEMP_HOT is available. -/
def tempKnown (s : State) (n : Nat) : Bool :=
  regBits s (rSidePart n) 63 60 == 2 && regBits s (rSidePart n) 50 50 == 1 &&
  kget 0 s.board.tempAt n != 0 && decide (s.drum.beats ≤ kget 0 s.board.tempAt n - 1 + 2500000)

/-- The last TEMP_HOT of a partner. -/
def tempOf (s : State) (n : Nat) : Int := signedOf 8 (regBits s (rSidePart n) 39 32)

/-- R431, R505: the warm and hot conditions of a partner whose TEMP_HOT has been read. -/
def partnerTemp (s : State) (n : Nat) : State :=
  if !tempKnown s n ∨ !nbit (regBits s rPseq 47 40) n then s
  else
    let t := tempOf s n
    let s := if (partBits s n 31 24 : Int) ≤ t ∧ !s.power.emerg.contains (0x10 + n) then enterEmerg (raise s srcPcap 0x30 1 n) (0x10 + n) else s
    if (partBits s n 23 16 : Int) ≤ t ∧ !s.power.emerg.contains (0x20 + n) then enterEmerg (raise s srcPcap 0x31 2 n) (0x20 + n) else s

/-- R431: the value that an emergency's clearing condition asks for. -/
def emergClear (s : State) (e : Nat) : Bool :=
  if e = 0 then decide (s.power.hot < 95)
  else if e = 1 then s.memctl.mr4Hot == []
  else if e = 2 then s.power.leakWarn == []
  else if e = 3 then (rangeFrom 0 12).all fun k => decide (coolRole s k ≠ 3) || coolState s k == 1
  else if e < 0x28 then tempKnown s (e % 16) && decide (tempOf s (e % 16) < (partBits s (e % 16) 31 24 : Int) - 5)
  else !s.power.railBad.contains (e - 0x40)

/-- EMERGENCY_CLEAR (R431): the clearing condition of an emergency has held its time. -/
def execEmergencyClear (code : Nat) (s : State) : Host.Outcome State Fault Refusal :=
  if s.power.emerg.contains code && emergClear s code then
    .next (leaveEmerg (if code = 2 then regPut s rTrip 60 60 0 else s) code)
  else .next s

/-! ### Ageing (R434, R435) -/

/-- R434: from the beat edge after a trim the offset that it stored is in use; the rails get it with the voltages that they carry. -/
def applyTrim (s : State) : State :=
  if regBits s rTrim 63 59 = storedTrim s then s else setVolt (regPut s rTrim 63 59 (storedTrim s)) s.power.volt

/-- AGEING_TRIM: G4 measures the worst slack [ps] and finds it below its target or not. The offset is kept in the authenticated region,
which only G5 writes (R370), before it is used (R381): while G5 does not run, or where there is no such region (R392), no offset is raised
(DESIGN CHOICE, log 114). It is in use from the next beat edge (`applyTrim`). -/
def execAgeingTrim (slack : Int) (below : Bool) (s : State) : Host.Outcome State Fault Refusal :=
  if s.mainDom ≠ .up ∨ !guardRuns s 4 then .next s
  else
    let s := regPut (regInc (putPower s { s.power with trimmed := true }) rTrim 31 0) rTrim 47 32 (satSigned 16 slack)
    if !below then .next s
    else if s.power.trimSteps < 20 then
      .next (if guardRuns s 5 && s.trust.puf then putPower s { s.power with trimSteps := s.power.trimSteps + 1 } else s)
    else
      let top := min 5 (capLoop s 31 28 + 1)
      let s := regPut (regPut s rTrim 58 58 1) rPcapLoop 31 28 top
      .next (raise s srcPcap 0x33 1 top)

end Sys2Proof.Machine
end

