-- ==== Sys2Proof/Machine/SelfTest.lean ====
section
/-! DEFINITION. Chapter 16: the BIST controller's slices (R93, R466 to R473). -/

namespace Sys2Proof.Machine

/-- Present coach clock in cycles for 10 µs at operating point OP (Table 3.4): 16,000 at OP0 down to 8,000 at OP5. -/
def coachClock10us (op : Nat) : Nat := lget 8000 [16000, 14000, 12000, 10000, 9000, 8000] op

/-- R468, Table 16.6: the largest pattern set whose time at the present clock, plus 30 µs, fits the budget. -/
def patternSet (op budget : Nat) : Nat :=
  let fits := fun (k : Nat) => decide (64 * (1024 * 2 ^ k) * 10 + 30 * coachClock10us op ≤ budget * coachClock10us op)
  if fits 3 then 3 else if fits 2 then 2 else if fits 1 then 1 else 0

/-- R466: a slice counted as tested without being tested. -/
def sliceAbsent (s : State) (n : Nat) : Bool :=
  match sliceCoach n with
  | some c => !coachInService s c
  | none => s.consist.rakeOut.getLsbD (sliceRake n)

/-- R470: whether a due slice waits. -/
def sliceWaits (s : State) (n : Nat) : Bool :=
  let svc := fun (c v : Nat) => match trainOfCoach s c with
    | some t => (lget { rakes := 0, service := 0 } s.consist.cfg.trains t).service == v
    | none => false
  let win := match sliceCoach n with
    | some c => (svc c 1 && windowOpenOn s ((trainOfCoach s c).getD 8)) || (svc c 3 && snapBusy s)
    | none => false
  win || applyRunning s || tripStands s || regBits s rBistCtl 63 63 == 0

/-- The schedule moves to its next slice, counting a sweep at the end (R466). -/
def nextSlice (s : State) : State :=
  let n := regBits s rBistStatus 63 54
  let s := if n = 1023 then regAddSat s rBistStatus 47 32 1 else s
  let s := { s with bist := { s.bist with aborts := 0, waits := 0 } }
  regPut s rBistStatus 63 54 ((n + 1) % 1024)

/-- R470, R473: the slice to take: of a degraded rake or to take again, requested, else the schedule's. -/
def dueSlice (s : State) : Nat :=
  match s.bist.urgent with
  | n :: _ => n
  | [] => if regBits s rBistReq 63 63 = 1 then regBits s rBistReq 9 0 else regBits s rBistStatus 63 54

/-- R93: the coach drained, its condition kept for the restore. -/
def drainCoach (s : State) (c : Nat) : State := putCoach s c { getCoach s c with cond := .drained }

/-- R93, R466 to R470: a due slice starts, or waits, or is counted without being tested. Its coach stops issuing and its dray engines
start nothing more; the test runs, and so can end, once the transactions in flight are performed. `op` is the operating point. -/
def bistStart (s : State) (op : Nat) : State :=
  let n := dueSlice s
  let fromUrgent := s.bist.urgent != []
  let fromReq := !fromUrgent && regBits s rBistReq 63 63 == 1
  let scheduled := !fromUrgent && !fromReq
  let clear := fun (s : State) =>
    if scheduled then s
    else
      let s := { s with bist := { s.bist with askWaits := 0 } }
      if fromUrgent then { s with bist := { s.bist with urgent := s.bist.urgent.drop 1 } } else regPut s rBistReq 63 63 0
  if s.bist.run.isSome then s
  else if sliceAbsent s n then (if scheduled then nextSlice s else clear s)
  else if sliceWaits s n then
    if scheduled then
      if s.bist.waits ≥ 16 then nextSlice (regAddSat s rBistStatus 15 0 1)
      else { s with bist := { s.bist with waits := s.bist.waits + 1 } }
    else if s.bist.askWaits ≥ 16 then clear (regAddSat s rBistStatus 15 0 1)
    else { s with bist := { s.bist with askWaits := s.bist.askWaits + 1 } }
  else
    let set := patternSet op (regBits s rBistCtl 31 16)
    match sliceCoach n with
    | some c =>
      let sl : Slice := { slice := n, set := set, start := s.drum.beats, saved := some (getCoach s c).cond, restore := true, stopped := false }
      let s := clear s
      drainCoach { s with bist := { s.bist with run := some sl } } c
    | none =>
      let sl : Slice := { slice := n, set := 0, start := s.drum.beats, saved := none, restore := false, stopped := false }
      let s := clear s
      { s with bist := { s.bist with run := some sl } }

/-- BIST_SLICE_START at the present operating point. -/
def execBistSliceStart (s : State) : Host.Outcome State Fault Refusal :=
  .next (if s.mainDom = .up then bistStart s (regBits s rPcapStatus 63 60) else s)

/-- R93: the coach restored; seats parked on a beat that has passed become ready. -/
def restoreCoach (s : State) (c : Nat) (cond : CoachCond) : State :=
  let s := putCoach s c { getCoach s c with cond := cond }
  (rangeFrom (16 * c) 16).foldl (fun s n =>
    let t := getSeat s n
    match t.st with
    | .parked (.beat b) => if b.ule s.drum.count then putSeat s n { t with st := .ready } else s
    | _ => s) s

/-- The coach of a running slice given back (R93, R472): restored, or, when the job ended meanwhile, in the condition that what came after
gave it. -/
def giveBack (s : State) (sl : Slice) : State :=
  match sliceCoach sl.slice, sl.saved with
  | some c, some cond => if sl.restore then restoreCoach s c cond else putCoach s c { getCoach s c with cond := cond }
  | _, _ => s

/-- R473: BIST_LAST after a slice: RESULT 1 PASS, 2 FAIL, 3 ABORTED. -/
def bistLast (s : State) (sl : Slice) (result : Nat) (complete : Bool) : State :=
  let us := min 0xFFFF ((s.drum.beats - sl.start) * 2 / 5)
  let s := regPut s rBistLast 63 62 result
  let s := regPut s rBistLast 61 61 (if complete then 1 else 0)
  let s := regPut s rBistLast 60 59 sl.set
  regPut (regPut s rBistLast 57 48 sl.slice) rBistLast 47 32 us

/-- R473: what follows a slice's result in the schedule. -/
def afterSlice (s : State) (sl : Slice) (result : Nat) : State :=
  let scheduled := sl.slice == regBits s rBistStatus 63 54
  let addr := sl.slice + 1024 * sl.set
  let done := fun (s : State) => if scheduled then nextSlice s else { s with bist := { s.bist with askAborts := 0 } }
  if result = 1 then done s
  else if result = 2 then done (raise s (sliceSource sl.slice) 0x3B 3 addr)
  else
    let s := raise s (sliceSource sl.slice) 0x3C 1 addr
    if !scheduled then
      (if s.bist.askAborts + 1 ≥ 3 then done (regAddSat s rBistStatus 31 16 1)
       else { s with bist := { s.bist with askAborts := s.bist.askAborts + 1, urgent := sl.slice :: s.bist.urgent } })
    else if s.bist.aborts + 1 ≥ 3 then nextSlice (regAddSat s rBistStatus 31 16 1)
    else { s with bist := { s.bist with aborts := s.bist.aborts + 1 } }

/-- R469, R473: a slice's result from COMPLETE, the logic signature and the march comparisons. A yard segment has no logic
signature. -/
def sliceResult (sl : Slice) (complete march : Bool) (sig : W64) : Nat :=
  if !complete then 3
  else if march && ((sliceCoach sl.slice).isNone || sig == Config.bistExpect sl.set) then 1 else 2

/-- R93: the transactions in flight of the slice's coach have been performed. -/
def sliceDrained (s : State) (sl : Slice) : Bool :=
  match sliceCoach sl.slice with
  | some c => (getCoach s c).acc == []
  | none => true

/-- R469: the signature register, x⁶⁴ + x⁴ + x³ + x + 1, shifted once with `x` taken in (DESIGN CHOICE, log 147: the high bit is fed
back). -/
def misrStep (r x : W64) : W64 := ((r <<< 1) ^^^ (if r.getLsbD 63 then 0x1B else 0)) ^^^ x

/-- R469: the responses of the patterns applied, from a register of zero. -/
def misrRun (responses : List W64) : W64 := responses.foldl misrStep 0

/-- R469: the 32-bit count of the patterns applied shifted in, its high bit first (DESIGN CHOICE, log 147). -/
def misrCount (r : W64) (n : Nat) : W64 :=
  (rangeFrom 0 32).foldl (fun r i => misrStep r (BitVec.ofNat 64 (bits (BitVec.ofNat 64 n) (31 - i) (31 - i)))) r

/-- R467, R469: a slice's test came to its end: not stopped (R471), and of a coach every pattern of the set was applied. -/
def sliceComplete (sl : Slice) (responses : List W64) : Bool :=
  !sl.stopped && ((sliceCoach sl.slice).isNone || responses.length == 1024 * 2 ^ sl.set)

/-- BIST_SLICE_END (R469, R472, R473): the response to each pattern applied, and the signatures of the march test's reading and verifying
passes. Patterns beyond the set are not applied. -/
def execBistSliceEnd (responses : List W64) (reading verifying : W64) (s : State) : Host.Outcome State Fault Refusal :=
  match s.bist.run with
  | none => .next s
  | some sl =>
    if !sliceDrained s sl then .next s
    else
    let applied := responses.take (1024 * 2 ^ sl.set)
    let complete := sliceComplete sl applied
    let sig := if complete then misrCount (misrRun applied) applied.length else misrRun applied
    let r := sliceResult sl complete (reading == verifying) sig
    let s := giveBack { s with bist := { s.bist with run := none } } sl
    let s := if (sliceCoach sl.slice).isSome then regSet s rBistSig sig else s
    .next (afterSlice (bistLast s sl r complete) sl r)

/-- BIST_BUDGET_EXPIRY (R471, R473): the test stops before COMPLETE; the slice's end, after the restore, finds it clear. -/
def execBistBudgetExpiry (s : State) : Host.Outcome State Fault Refusal :=
  match s.bist.run with
  | none => .next s
  | some sl => .next { s with bist := { s.bist with run := some { sl with stopped := true } } }

/-- BIST_REQ_GO (R470): GO asks for a slice to be taken next. -/
def execBistReqGo (slice : Nat) (s : State) : Host.Outcome State Fault Refusal :=
  if s.mainDom = .up then .next (regPut (regPut s rBistReq 9 0 slice) rBistReq 63 63 1) else .next s

end Sys2Proof.Machine
end

