-- ==== Sys2Proof/Machine/Beat.lean ====
section
/-! DEFINITION. What a beat edge does in the main domain, in the order in which it does it (R249). -/

namespace Sys2Proof.Machine

/-- R236: a cut holds the kernels launched at a beat. -/
def kernelsHeld (s : State) : Bool := cutsNow s != []

/-- R128: seats parked on a beat that has come become ready. -/
def wakeBeat (s : State) : State :=
  (s.coaches.seat.filter fun e => match e.2.st with | .parked (.beat b) => b.ule s.drum.count | _ => false).foldl
    (fun s e => putSeat s e.1 { e.2 with st := .ready }) s

/-- R268: what one refill adds, in mJ: nothing while an emergency of Table 15.4 is in force, whichever cap it sets (R431). -/
def g4cRefill (s : State) : Nat :=
  if s.power.emerg != [] then 0 else (1000 * trayCap s - trayMw s) * s.consist.cfg.drum.refill / 1024 / 1000

/-- R268: the bucket before launches are served. -/
def fillG4c (s : State) : State :=
  let top := s.consist.cfg.drum.bucketMj
  if !trayCapped s then regPut s rG4c 63 32 top
  else if s.drum.count.toNat % 2500 = 0 then regPut s rG4c 63 32 (min top (regBits s rG4c 63 32 + g4cRefill s))
  else s

/-- R267, R268: launches against the energy budget. -/
def g4cBeat (s : State) : State :=
  if s.consist.cfg.drum.g4cMode then
    let s := fillG4c s
    let s := if kernelsHeld s then s else serveG4c (!trayCapped s) 8 s
    if s.coaches.g4cQueue = [] then s else regAddSat s rG4c 31 0 1
  else s

/-- R306: an ended collective waits for room in a member's completion ring. -/
def collDue (s : State) (q : Nat) : Bool :=
  !isHostRing q && ringK q == 1 && !entryRoom s (ringPort q) && s.colls.list.any fun c => c.phase == .posting && c.due.contains (ringPort q)

/-- R351: whether a ring is full: a submission ring holds its depth, or an entry waits for room in a completion ring. -/
def ringFull (s : State) (q : Nat) : Bool :=
  ringEnabled s q && (if q % 2 = 0 then decide (ringDepth s q ≤ ringFill s q) else postWaits s q || collDue s q)

/-- R351, Table 10.13: entries that can be posted now are, and FULL_BEATS of every ring that is full rises. -/
def ringBeat (s : State) : State :=
  let s := (s.host.waiting.map fun e => e.1).foldl ringDrained s
  let s := ((rangeFrom 0 256).filter fun q => ringFull s q).foldl (fun s q => regAddSat s (rRingStat q) 63 32 1) s
  ((rangeFrom 0x1000 128).filter fun q => ringFull s q).foldl (fun s q => regAddSat s (rCplRingStat (ringPort q) (ringK q)) 63 32 1) s

/-- COACH_FULL: whether a seat of a train waits for transaction entries (`dray` false) or for room in a dray queue. -/
def trainWaits (s : State) (t : Nat) (dray : Bool) : Bool :=
  s.coaches.seat.any fun e =>
    (match e.2.st with | .parked (.entries _) => !dray | .parked (.drayRoom _) => dray | _ => false) && trainOfCoach s (e.1 / 16) == some t

/-- COACH_FULL: one more beat, saturating. -/
def satInc (n : W32) : W32 := if n = BitVec.allOnes 32 then n else n + 1

/-- COACH_FULL: TXN_BEATS and DRAY_BEATS of every train. -/
def coachBeat (s : State) : State :=
  (rangeFrom 0 8).foldl (fun s t =>
    let u := getTrain s t
    putTrain s t { u with txnBeats := if trainWaits s t false then satInc u.txnBeats else u.txnBeats
                          drayBeats := if trainWaits s t true then satInc u.drayBeats else u.drayBeats }) s

/-- LAG_BEATS and STARVED_BEATS of SNAP_MIRROR: beats in which no flit of the mirror left the port (R24). -/
def mirrorBeat (s : State) : State :=
  let s := if mirrorOwed s ∧ slotOrigin s 0 = 0 then regAddSat s rSnapMirror 63 32 1 else s
  match s.snap.mirOut with
  | some m =>
    let wait := ((getLink s 9).wait.filter fun e => nbits (lget 0 e.2.args 0) 63 60 == 0xA).length
    let left := m.flits - wait
    let s := if (!m.ended || wait != 0) && left == m.left then regAddSat s rSnapMirror 31 0 1 else s
    putSnap s { s.snap with mirOut := some { m with left := left } }
  | none => s

/-- R387: a condition that defers an activation is in force. -/
def deferring (s : State) : Bool :=
  s.power.emerg != [] || (pealState s != 0 && pealState s != 2) || regBits s rPins 63 63 == 0 || tripStands s

/-- R387: the last beat with such a condition. -/
def markUnquiet (s : State) : State :=
  if deferring s then { s with trust := { s.trust with unquiet := s.drum.beats + 1 } } else s

/-- What a beat edge does in the main domain: held items are released, windows that are due open, kernels that are due start, waiting
seats wake, and the counters of beats rise. -/
def mainBeat (s : State) : State :=
  if s.mainDom ≠ .up then s
  else applyTrim <| grantCredits <| markUnquiet <| coachBeat <| mirrorBeat (ringBeat (linkBeat (collBeat (wakeBeat (g4cBeat (startDueKernels (openDue s) (kernelsHeld s)))))))

end Sys2Proof.Machine
end

