-- ==== Sys2Proof/Machine/Cooling.lean ====
section
/-! DEFINITION. Chapter 15: fans, blowers and pumps (R437 to R440). -/

namespace Sys2Proof.Machine

/-- R438 step 1: what an unavailable temperature counts as for an output. -/
def absentTemp (s : State) (k : Nat) : Int :=
  if pealState s = 0 ∨ pealState s = 6 ∨ pealState s = 7 then 0 else (regBits s (rCoolCurve k) 47 40 : Int)

/-- The junction temperature, when it has been read within 1 s. -/
def hubTemp (s : State) (k : Nat) : Int :=
  if s.power.sweepAt ≠ 0 ∧ s.drum.beats ≤ s.power.sweepAt - 1 + 2500000 then (s.power.hot : Int) else absentTemp s k

def partTemp (s : State) (k n : Nat) : Int := if tempKnown s n then tempOf s n else absentTemp s k

/-- The temperature that drives an output (Table 2.10). -/
def driverTemp (s : State) (k : Nat) : Int :=
  let d := regBits s (rCoolCfg k) 23 16
  if d = 0 then hubTemp s k
  else if d ≤ 8 then partTemp s k (d - 1)
  else ((populated s).map fun n => partTemp s k n).foldl max (hubTemp s k)

/-- R438 step 2: linear interpolation, rounded up. -/
def curveDuty (s : State) (k : Nat) (t : Int) : Nat :=
  let tp := fun (p : Nat) => (regBits s (rCoolCurve k) (16 * p + 15) (16 * p + 8) : Int)
  let dp := fun (p : Nat) => (regBits s (rCoolCurve k) (16 * p + 7) (16 * p) : Int)
  let seg := fun (p : Nat) => (dp p + -((-((t - tp p) * (dp (p + 1) - dp p))) / (tp (p + 1) - tp p))).toNat
  if t ≤ tp 0 then (dp 0).toNat
  else if tp 3 ≤ t then (dp 3).toNat
  else if t < tp 1 then seg 0
  else if t < tp 2 then seg 1
  else seg 2

def skipLo (s : State) (k b : Nat) : Nat := regBits s (rSkipLo k) (8 * b + 7) (8 * b)
def skipHi (s : State) (k b : Nat) : Nat := regBits s (rSkipHi k) (8 * b + 7) (8 * b)

/-- The skip band that a duty in tenths lies strictly inside. -/
def bandOf (s : State) (k d10 : Nat) : Option Nat :=
  (rangeFrom 0 4).find? fun b => decide (10 * skipLo s k b < d10) && decide (d10 < 10 * skipHi s k b)

/-- R438 step 4: a stalled neighbour of the same role. -/
def neighbourStalled (s : State) (k : Nat) : Bool :=
  let bad := fun (j : Nat) => coolRole s j == coolRole s k && (coolState s j == 3 || coolState s j == 4)
  (decide (0 < k) && bad (k - 1)) || (decide (k < 11) && bad (k + 1))

/-- R438 steps 1 to 5: the duty that the curve asks for. -/
def wantedDuty (s : State) (k : Nat) : Nat :=
  let d := max (curveDuty s k (driverTemp s k)) (regBits s (rCoolCfg k) 15 8)
  let d := if neighbourStalled s k then min 100 (d + 20) else d
  match bandOf s k (10 * d) with
  | some b => skipHi s k b
  | none => d

/-- R438 step 6: the duty of the next 100 ms, in tenths. -/
def nextDuty10 (s : State) (k want10 : Nat) : Nat :=
  let x := kget 0 s.power.duty10 k
  let now := if x = 0 then 10 * coolDuty s k else x
  if now ≤ want10 then want10
  else
    let d := max want10 (now - 2)
    match bandOf s k d with
    | some b => 10 * skipLo s k b
    | none => d

/-- A kick of an output is over, if it had one (R440). -/
def endKick (s : State) (k : Nat) : State := putPower s { s.power with kicking := ndel s.power.kicking k }

/-- R437: an output out of use: 0 %, no kick and none failed. -/
def unuseOutput (s : State) (k : Nat) : State := driveDuty (regPut (setCoolState (endKick s k) k 0) (rCoolStatus k) 59 56 0) k 0

/-- R438, Table 15.5: one update of an output. One that comes into use while a trip stands is in TRIP (Table 15.7, R444). -/
def coolOutput (s : State) (k : Nat) : State :=
  if coolRole s k = 0 then unuseOutput s k
  else
    let s := if coolState s k = 0 then setCoolState s k (if tripStands s then 5 else 2) else s
    match coolState s k with
    | 1 | 2 =>
      let d := nextDuty10 s k (10 * wantedDuty s k)
      let s := if coolDuty s k = 0 ∧ 0 < d then setCoolState s k 2 else s
      putPower (regPut s (rCoolStatus k) 55 48 ((d + 9) / 10)) { s.power with duty10 := kset 0 s.power.duty10 k d }
    | 3 => driveDuty s k (if coolRole s k = 3 ∨ s.power.kicking.contains k then 100 else 0)
    | 4 => driveDuty s k 100
    | _ => driveDuty s k (tripDuty s (coolRole s k))

/-- COOLING_UPDATE (R438): every 100 ms, run by the standby controller. -/
def execCoolingUpdate (s : State) : Host.Outcome State Fault Refusal :=
  .next (if s.board.stbyBoot then (rangeFrom 0 12).foldl coolOutput s else s)

/-- Whether the standby controller serves output k: its image runs (R377), else the ROM holds every output at 100 %. -/
def coolServed (s : State) (k : Nat) : Bool := s.board.stbyBoot && decide (k < 12)

/-- FAN_PULSE_SEEN (R437, R439): pulses of mean period `period` µs; `steady` says that they have come without a gap of 1 s for 10 s. -/
def execFanPulseSeen (k period : Nat) (steady : Bool) (s : State) : Host.Outcome State Fault Refusal :=
  if !coolServed s k ∨ coolRole s k = 0 ∨ period = 0 then .next s
  else
    let s := regPut s (rCoolStatus k) 31 16 (min 0xFFFF (30000000 / period))
    let st := coolState s k
    let run := st == 2 || (st == 3 && s.power.kicking.contains k) || (st == 4 && steady)
    .next (if run then putPower (regPut (setCoolState s k 1) (rCoolStatus k) 59 56 0) { s.power with kicking := ndel s.power.kicking k } else s)

/-- Table 15.4: a pump in STALLED or TACH_LOST brings the coolant-flow emergency. -/
def flowEmerg (s : State) (k : Nat) : State :=
  if coolRole s k = 3 ∧ (coolState s k = 3 ∨ coolState s k = 4) ∧ !s.power.emerg.contains 3 then enterEmerg (raise s srcProt 0x38 1 k) 3 else s

/-- Table 15.5: a commit or an apply of an output in TACH_LOST starts it again; one in STALLED that is a pump now brings the emergency. -/
def coolCommitted (s : State) (k : Nat) : State :=
  if 12 ≤ k then s else if coolState s k = 4 then setCoolState s k 2 else flowEmerg s k

/-- Table 15.5, R440: an output enters STALLED. -/
def enterStalled (s : State) (k : Nat) : State :=
  let s := endKick s k
  let s := regPut (regPut (setCoolState s k 3) (rCoolStatus k) 59 56 0) (rCoolStatus k) 31 16 0
  let s := driveDuty (regAddSat s (rCoolStatus k) 15 0 1) k (if coolRole s k = 3 then 100 else 0)
  flowEmerg (raise s srcProt 0x35 1 k) k

/-- FAN_SPINUP_TIMEOUT (R439): SPINUP × 100 ms without a pulse. -/
def execFanSpinupTimeout (k : Nat) (s : State) : Host.Outcome State Fault Refusal :=
  .next (if coolServed s k ∧ coolState s k = 2 ∧ coolRole s k ≠ 0 then enterStalled s k else s)

/-- FAN_STALL_DETECT (R439): no pulse for 1 s at a duty of 10 % or more. -/
def execFanStallDetect (k : Nat) (s : State) : Host.Outcome State Fault Refusal :=
  .next (if coolServed s k ∧ coolState s k = 1 ∧ 10 ≤ coolDuty s k then enterStalled s k else s)

/-- FAN_KICK_START (R440). -/
def execFanKickStart (k : Nat) (s : State) : Host.Outcome State Fault Refusal :=
  .next (if coolServed s k ∧ coolState s k = 3 ∧ !s.power.kicking.contains k then
      driveDuty (putPower s { s.power with kicking := nadd s.power.kicking k }) k 100
    else s)

/-- FAN_KICK_END (R440): a kick without a pulse has failed; the third leaves TACH_LOST. -/
def execFanKickEnd (k : Nat) (s : State) : Host.Outcome State Fault Refusal :=
  if coolServed s k ∧ coolState s k = 3 ∧ s.power.kicking.contains k then
    let s := endKick s k
    let n := regBits s (rCoolStatus k) 59 56 + 1
    let s := regPut s (rCoolStatus k) 59 56 n
    if 3 ≤ n then .next (raise (driveDuty (setCoolState s k 4) k 100) srcProt 0x36 1 k)
    else .next (driveDuty s k (if coolRole s k = 3 then 100 else 0))
  else .next s

end Sys2Proof.Machine
end

