-- ==== Sys2Proof/Machine/Partner.lean ====
section
/-! DEFINITION. Chapters 10 and 17: what a partner asks of the hub over its port (R303 to R308) and over its side-band (R310, R311,
R485 to R492). -/

namespace Sys2Proof.Machine

/-! ### Reads and writes (R303, Table 10.12) -/

/-- Whether a partner's port lies in the secure world (Table 2.7). -/
def portSecure (s : State) (n : Nat) : Bool := s.consist.cfg.worlds.portSecure.getLsbD n

/-- R303: a partner may reach the unit of 64 bytes at an aligned address of module memory. -/
def partnerMay (s : State) (n a : Nat) (write : Bool) : Bool := a % 64 == 0 && mayAccess s (.partner n) (portSecure s n) a write

/-- A refused unit: CPL_ACCESS, and WORLD_VIOLATION where a region of the secure world was reached (R395). -/
def refuseUnit (s : State) (n a : Nat) : State :=
  worldFault (raise (regAddSat s (rCplErr2 n) 15 0 1) (srcPort n) 0x16 1 a) (srcPort n) (portSecure s n) a

/-- One unit of a WRITE. -/
def writeUnit (s : State) (f : Flit) (a u : Nat) : State :=
  let h := flitHdr f
  if !nbit (nbits h 57 55) u then s
  else if partnerMay s f.port (a + 64 * u) true then
    storeBytes s (a + 64 * u) ((f.payload.drop (48 + 64 * u)).take 64) (nbit (nbits h 54 52) u)
  else sendCtl (refuseUnit s f.port (a + 64 * u)) f.port 0x22 [(1, 1), (8, a + 64 * u)]

/-- Bytes of a flit's payload that its kind does not use are zero (R286). -/
def gapZero (f : Flit) (lo hi : Nat) : Bool := ((f.payload.drop lo).take (hi - lo)).all fun b => b == 0

/-- WRITE (R303). -/
def execWrite (f : Flit) (s : State) : Host.Outcome State Fault Refusal :=
  let ok := decide (f.port < 8) && decide (f.payload.length = 240) && nbits (flitHdr f) 51 0 == 0 && gapZero f 8 48 &&
    ((rangeFrom 0 3).all fun u => nbit (nbits (flitHdr f) 57 55) u || (!nbit (nbits (flitHdr f) 54 52) u && gapZero f (48 + 64 * u) (112 + 64 * u)))
  match takeFlit s f 1 0 ok with
  | (s, true) => .next ((rangeFrom 0 3).foldl (fun s u => writeUnit s f (field f.payload 0 8) u) s)
  | (s, false) => .next s

/-- R391: the byte of the staged image at an offset of the window, for a partner that it names. -/
def stagedImage (s : State) (n : Nat) : List Byte :=
  match s.trust.staged with
  | some img => if nbit (field img 0x20 1) n && !(match s.trust.session with | some x => x.kind == 3 | none => false) then img else []
  | none => []

def stagedBase : Nat := 0xFC0000000000

/-- R303: one unit of a read: its bytes and whether they are poisoned; none where it is refused. -/
def readUnit (s : State) (n a : Nat) : Option (List Byte × Bool) :=
  if partnerMay s n a false then some (memBytes s a 64, blockPoisoned s (a / 64))
  else
    let img := stagedImage s n
    let o := a - stagedBase
    if a % 64 = 0 ∧ stagedBase ≤ a ∧ a < stagedBase + 0x4000000 ∧ o < img.length then
      let b := (img.drop o).take 64
      some (b ++ List.replicate (64 - b.length) 0, false)
    else none

/-- The READ_DATA flit with the units from `i`, at most three. -/
def readFlit (s : State) (n tag i : Nat) (us : List (List Byte × Bool)) : State :=
  let k := us.length
  let bit := fun (u : Nat) => if (lget ([], false) us u).2 then 2 ^ u else 0
  sendFlit s n 3 1 (tag * 2 ^ 46 + i * 2 ^ 40 + (2 ^ k - 1) * 2 ^ 37 + (bit 0 + bit 1 + bit 2) * 2 ^ 34)
    (List.replicate 48 0 ++ us.flatMap fun u => u.1)

/-- The READ_DATA flits of a read, in ascending order. -/
def sendRead (s : State) (n tag : Nat) : Nat → List (List Byte × Bool) → State
  | i, a :: b :: c :: r => sendRead (readFlit s n tag i [a, b, c]) n tag (i + 3) r
  | _, [] => s
  | i, us => readFlit s n tag i us

/-- R303: a read of this TAG is still being answered: a READ_DATA flit of it waits. -/
def tagBusy (s : State) (n tag : Nat) : Bool :=
  (getLink s n).wait.any fun o => let h := lget 0 o.2.args 0; nbits h 63 60 == 3 && nbits h 57 46 == tag

/-- READ_REQ (R303). -/
def execReadReq (f : Flit) (s : State) : Host.Outcome State Fault Refusal :=
  let ok := decide (f.port < 8) && nbits (flitHdr f) 39 0 == 0 && zeroFrom f.payload 8
  match takeFlit s f 2 0 ok with
  | (s, true) =>
    let h := flitHdr f
    let tag := nbits h 57 46
    let a := field f.payload 0 8
    if tagBusy s f.port tag then .next (protocolError s f.port 2 0)
    else
      let as := (rangeFrom 0 (nbits h 45 40 + 1)).map fun i => a + 64 * i
      match as.find? fun x => (readUnit s f.port x).isNone with
      | some x => .next (sendFlit (refuseUnit s f.port x) f.port 3 1 (tag * 2 ^ 46 + 2 ^ 32) [])
      | none => .next (sendRead s f.port tag 0 (as.filterMap fun x => readUnit s f.port x))
  | (s, false) => .next s

/-! ### Partner rings (R305, R306) -/

/-- RING_SUB (R305): descriptors written in order; one without a credit is a protocol error. -/
def execRingSub (f : Flit) (s : State) : Host.Outcome State Fault Refusal :=
  let h := flitHdr f
  let k := nbits h 57 54
  let n := nbits h 53 52
  let ok := decide (f.port < 8) && nbits h 51 0 == 0 && decide (1 ≤ n) && zeroFrom f.payload (64 * n)
  match takeFlit s f 4 0 ok with
  | (s, true) =>
    let q := partnerRing f.port k
    if k % 2 = 0 ∧ ringEnabled s q ∧ n ≤ kget 0 s.host.subCredit q then
      let s := putHost s { s.host with subCredit := kset 0 s.host.subCredit q (kget 0 s.host.subCredit q - n) }
      .next ((rangeFrom 0 n).foldl (fun s i =>
        let p := getProd s q
        let s := storeBytes s (ringBase s q + 64 * (p.toNat % ringDepth s q)) ((f.payload.drop (64 * i)).take 64) false
        setProd s q (p + 1)) s)
    else .next (protocolError s f.port 4 0)
  | (s, false) => .next s

/-- RING_FREE (R306): the partner's consumer index of a completion ring; one outside the entries posted has no effect (DEDUCED). -/
def execRingFree (c : Ctl) (s : State) : Host.Outcome State Fault Refusal :=
  match takeCtl s c 0x21 (fromPartner c) with
  | (s, true) =>
    let k := field c.msg 1 1
    let q := partnerRing c.port (k % 16)
    let i := BitVec.ofNat 32 (field c.msg 4 4)
    if k < 16 ∧ k % 2 = 1 ∧ ringEnabled s q ∧ (i - getCons s q).toNat ≤ ringFill s q then .next (tellColls (ringDrained (setCons s q i) q))
    else .next s
  | (s, false) => .next s

/-! ### Job abort (R307, R308) -/

/-- JOB_ABORT: from a partner a fault in its datapath, from a neighbour hub the end of the job. -/
def execJobAbort (c : Ctl) (s : State) : Host.Outcome State Fault Refusal :=
  match takeCtl s c 0x01 (fromPartner c || fromHub c) with
  | (s, true) =>
    if c.port < 8 then .next (raise s (srcPort c.port) 0x19 2 0)
    else .next (endJob s (field c.msg 1 1) none false)
  | (s, false) => .next s

/-- JOB_ABORT_ACK: the partner's stop is acknowledged; nothing waits for it (R308). -/
def execJobAbortAck (c : Ctl) (s : State) : Host.Outcome State Fault Refusal := .next (takeCtl s c 0x02 (fromPartner c)).1

/-! ### The side-band (R310, R311, R490 to R492) -/

def i3cState (s : State) (n : Nat) : Nat := regBits s (rSidePart n) 63 60

/-- The partner's watch is open (R490). -/
def watchOpen (s : State) (n : Nat) : Bool := i3cState s n == 2

def resetReleased (s : State) (n : Nat) : Bool := regBits s (rSidePart n) 50 50 == 1

/-- R310, R311: a read of LINK_STATE by a private transfer, and what it shows. With the hub's port ACTIVE and the far end's not,
a second read is due 1 ms later; when that one, `recheck`, shows the same, the link is declared down. -/
def linkRead (s : State) (n state : Nat) (recheck : Bool) : State :=
  let s := regPut (i3cOp s n 0 0 0) (rSidePart n) 47 44 state
  let bad := portActive s n && state % 16 != 6 && resetReleased s n
  if recheck then
    if s.board.linkBad.contains n && bad then linkDown (linkWatchEnd s n) n else linkWatchEnd s n
  else if bad then { s with board := { s.board with linkBad := nadd s.board.linkBad n } }
  else s

/-- LINK_STATE_POLL (R310, R311): the scheduled read of every 10 ms, or the second read 1 ms after one that showed a port not
ACTIVE. -/
def execLinkStatePoll (n : Nat) (read : LinkPoll) (s : State) : Host.Outcome State Fault Refusal :=
  if 8 ≤ n ∨ !watchOpen s n ∨ (read.second ∧ !s.board.linkBad.contains n) then .next s
  else .next (linkRead s n read.state read.second)

/-- IN_BAND_INTERRUPT (R310, R311, R490, R492): every one makes the hub read LINK_STATE at once; data 0x02
also FW_STATE and FW_VERSION. -/
def execInBandInterrupt (n : Nat) (i : Interrupt) (s : State) : Host.Outcome State Fault Refusal :=
  if 8 ≤ n then .next s
  else if !watchOpen s n then .next (emit s .i3c [n, 6])
  else
    let s := linkRead s n i.state false
    .next (if i.data = 2 then i3cOp (i3cOp s n 0 0x18 0) n 0 0x19 0 else s)

/-- PARTNER_WATCH_POLL (R492): TEMP_HOT, and on the slower schedule FW_STATE, FW_VERSION and PART_ID. -/
def execPartnerWatchPoll (n temp : Nat) (fw : Option (Nat × Nat × Nat)) (s : State) : Host.Outcome State Fault Refusal :=
  if 8 ≤ n ∨ !watchOpen s n then .next s
  else
    let s := regPut s (rSidePart n) 39 32 temp
    let s := { s with board := { s.board with tempAt := kset 0 s.board.tempAt n (s.drum.beats + 1) } }
    let s := match fw with
      | some (st, ver, part) => regSet (regPut s (rSidePart n) 31 24 st) (rSideFw n) (BitVec.ofNat 64 (part % 2 ^ 32 * 2 ^ 32 + ver % 2 ^ 32))
      | none => s
    .next (partnerTemp s n)

/-- SIDE_NORESP (R311, R492): no acknowledgement for 100 ms. -/
def execSideNoresp (n : Nat) (s : State) : Host.Outcome State Fault Refusal :=
  if 8 ≤ n ∨ !watchOpen s n then .next s
  else
    let s := raise s (srcSide n) 0x1A 1 (regBits s (rSidePart n) 59 53)
    let s := regAddSat (linkWatchEnd s n) (rSidePart n) 15 0 1
    .next (emit (regPut (regPut s (rSidePart n) 63 60 3) (rSidePart n) 59 53 0) .i3c [n, 3, regBits s (rSidePart n) 59 53])

/-- The address that R490 gives a partner. -/
def i3cAddrOf (s : State) (n : Nat) : Nat := if s.consist.applied then lget (8 + n) s.consist.cfg.topology.i3cAddr n else 8 + n

/-- I3C_ADDRESS_ASSIGN (R490): RSTDAA and ENTDAA, and ENTDAA alone where it is repeated; `taken` says that the partner took its address, which opens its watch. -/
def execI3cAddressAssign (n : Nat) (taken : Bool) (s : State) : Host.Outcome State Fault Refusal :=
  if 8 ≤ n ∨ !resetReleased s n ∨ watchOpen s n then .next s
  else
    let s := if i3cState s n = 3 ∨ s.board.daaSent.contains n then emit s .i3c [n, 3, i3cAddrOf s n] else assignAddress s n
    if taken then
      let s := regPut (regPut s (rSidePart n) 63 60 2) (rSidePart n) 59 53 (i3cAddrOf s n)
      .next (emit s .i3c [n, 4])
    else .next s

/-- HOT_JOIN (R490): a new ENTDAA while the watch is open, else a NACK. -/
def execHotJoin (n : Nat) (s : State) : Host.Outcome State Fault Refusal :=
  if 8 ≤ n then .next s
  else if watchOpen s n then
    .next (emit (regPut (regPut (linkWatchEnd s n) (rSidePart n) 63 60 1) (rSidePart n) 59 53 0) .i3c [n, 3, i3cAddrOf s n])
  else .next (emit s .i3c [n, 6])

/-! ### Reset and fault pins (R485, R486) -/

def holdBit (s : State) (n : Nat) : Bool := nbit (regBits s rSideCtl 55 48) n
def partnersBit (s : State) (n : Nat) : Bool := nbit (regBits s rPseq 47 40) n

/-- PARTNER_RESET_RELEASE: RST_DELAY_MS, and the 10 ms of a PULSE, have passed. -/
def execPartnerResetRelease (n : Nat) (s : State) : Host.Outcome State Fault Refusal :=
  if n < 8 ∧ partnersBit s n ∧ !holdBit s n ∧ !resetReleased s n ∧ (pealState s = 1 ∨ pealState s = 2) ∧ !noPartners s then
    let s := regPut (regPut s (rSidePart n) 50 50 1) (rSidePart n) 63 60 1
    .next (emit (regPut s rSideCtl (40 + n) (40 + n) 0) .pin [n, 1])
  else .next s

/-- HOLD or PULSE acts on a partner: a job whose ports name it ends first, as JOB_END ends it. -/
def resetPartner (s : State) (n : Nat) : State :=
  let inJob := match s.host.job with | some j => j.ports.getLsbD n | none => false
  assertReset (if inJob then endJob s 2 none false else s) n

/-- HOLD bit n is set. -/
def sideHold (s : State) (n : Nat) : State :=
  resetPartner (regPut (regPut s rSideCtl (48 + n) (48 + n) 1) rSideCtl (40 + n) (40 + n) 0) n

/-- PULSE bit n is set; it clears at once under HOLD or without PARTNERS. -/
def sidePulse (s : State) (n : Nat) : State :=
  if holdBit s n ∨ !partnersBit s n then s else resetPartner (regPut s rSideCtl (40 + n) (40 + n) 1) n

/-- SIDE_CTL_HOLD: HOLD bit n is set. -/
def execSideCtlHold (n : Nat) (s : State) : Host.Outcome State Fault Refusal :=
  .next (if n < 8 then sideHold s n else s)

/-- SIDE_CTL_PULSE: PULSE bit n is set. -/
def execSideCtlPulse (n : Nat) (s : State) : Host.Outcome State Fault Refusal :=
  .next (if n < 8 then sidePulse s n else s)

/-- ACC_FAULT_ASSERT (R486): ACCn_FLT_N has been low for 1 µs, or, with `low` false, has been released for 1 ms. -/
def execAccFaultAssert (n : Nat) (low : Bool) (s : State) : Host.Outcome State Fault Refusal :=
  if 8 ≤ n then .next s
  else if !low then .next { regPut s (rSidePart n) 49 49 0 with board := { s.board with fltHeld := ndel s.board.fltHeld n } }
  else
    let s := regPut s (rSidePart n) 49 49 1
    if resetReleased s n && partnersBit s n && !s.board.fltHeld.contains n then
      .next (raise { s with board := { s.board with fltHeld := nadd s.board.fltHeld n } } (srcPort n) 0x19 2 0)
    else .next s

end Sys2Proof.Machine
end

