-- ==== Sys2Proof/Machine/Host.lean ====
section
/-! DEFINITION. Chapter 12: the Ethernet ports, RDMA, doorbells, and how services take entries of their rings
(R330 to R351, R367, R504). -/

namespace Sys2Proof.Machine

/-! ### Ports (R330, R334, R335) -/

def ethLink (s : State) (p : Nat) : Bool := decide (p < 2) && s.mainDom == .up && regBits s (rEthStatus p) 63 63 == 1

/-- ETH_LINK_CHANGE (R330): a port whose role is unused stays down. From the first link on, the port's FEC counts (log 104). -/
def execEthLinkChange (port : Nat) (up : Bool) (s : State) : Host.Outcome State Fault Refusal :=
  if 2 ≤ port ∨ s.mainDom ≠ .up then .next s
  else
    let up := up && decide (portRole s port < 2)
    let s := regPut s (rEthStatus port) 63 63 (if up then 1 else 0)
    .next (if up then putHost s { s.host with ethUp := nadd s.host.ethUp port } else s)

/-- R334: a frame of a port whose link is up: dropped when its VLAN is not the port's. -/
def takeFrame (s : State) (p vlan : Nat) (act : State → State) : Host.Outcome State Fault Refusal :=
  if !ethLink s p then .next s else .next (if vlanOk s p vlan then act s else dropFrame s p)

/-- The IPv4 address in use is this one. -/
def isIp4 (s : State) (p addr : Nat) : Bool := regBits s (rEthCtl p) 63 63 == 1 && regBits s (rEthIp4 p) 63 32 == addr

/-- Table 12.1: the link-local address from the MAC address as EUI-64. -/
def linkLocal (s : State) (p : Nat) : Nat :=
  let m := regBits s (rEthMac p) 47 0
  let hi := m / 2 ^ 24
  let u := if nbit hi 17 then hi - 2 ^ 17 else hi + 2 ^ 17
  0xFE80 * 2 ^ 112 + u * 2 ^ 40 + 0xFFFE * 2 ^ 24 + m % 2 ^ 24

/-- The port's IPv6 addresses. -/
def isIp6 (s : State) (p addr : Nat) : Bool :=
  addr == linkLocal s p ||
  (regBits s (rEthCtl p) 56 56 == 1 && addr == (regGet s (rEthIp6H p)).toNat * 2 ^ 64 + (regGet s (rEthIp6L p)).toNat)

/-- ARP_REQUEST. Purposes of an Ethernet frame in the outbox: 1 ARP reply, 2 echo reply, 3 neighbour advertisement. -/
def execArpRequest (port vlan target senderIp senderMac : Nat) (s : State) : Host.Outcome State Fault Refusal :=
  takeFrame s port vlan fun s => if isIp4 s port target then emit s .ethFrame [port, 1, target, senderIp, senderMac] else s

/-- ICMP_ECHO_REQUEST, of ICMP or ICMPv6. -/
def execIcmpEchoRequest (port vlan : Nat) (v6 : Bool) (dst src : Nat) (data : List Byte) (s : State) : Host.Outcome State Fault Refusal :=
  takeFrame s port vlan fun s =>
    if (if v6 then isIp6 s port dst else isIp4 s port dst) then emit s .ethFrame [port, 2, if v6 then 1 else 0, dst, src] data else s

/-- NEIGHBOR_SOLICITATION. -/
def execNeighborSolicitation (port vlan target src : Nat) (s : State) : Host.Outcome State Fault Refusal :=
  takeFrame s port vlan fun s => if isIp6 s port target then emit s .ethFrame [port, 3, target, src] else s

/-- ROUTER_ADVERTISEMENT; a lifetime of zero withdraws the router (PRESUMED: IPv6 neighbour discovery). -/
def execRouterAdvertisement (port vlan router lifetime : Nat) (s : State) : Host.Outcome State Fault Refusal :=
  takeFrame s port vlan fun s =>
    if lifetime ≠ 0 then putHost s { s.host with router := kput s.host.router port router }
    else if (s.host.router.find? fun e => e.1 == port) = some (port, router) then putHost s { s.host with router := kdel s.host.router port }
    else s

/-- R334: what a connection held while its port was paused goes out. -/
def releaseRdma (s : State) (k : Nat) : State :=
  match s.host.conns.find? fun e => e.1 == k with
  | some (_, c) =>
    let s := putHost s { s.host with conns := kput s.host.conns k { c with held := [], reads := 0 } }
    { s with outbox := s.outbox ++ c.held }
  | none => s

/-- PFC_PAUSE (R334): the configured priority is paused while `quanta` is not zero. -/
def execPfcPause (port priority quanta : Nat) (s : State) : Host.Outcome State Fault Refusal :=
  if !ethLink s port ∨ regBits s (rEthCtl port) 48 48 ≠ 1 ∨ priority ≠ regBits s (rEthCtl port) 47 45 then .next s
  else if quanta ≠ 0 then .next (putHost s { s.host with paused := nadd s.host.paused port })
  else
    let s := putHost s { s.host with paused := ndel s.host.paused port }
    .next ((s.host.conns.filter fun e => e.2.port == port).foldl (fun s e => drainPump (releaseRdma s e.1) e.1) s)

/-! ### RDMA as responder (R336 to R338, Table 12.2) -/

def getConn (s : State) (k : Nat) : Option Conn := (s.host.conns.find? fun e => e.1 == k).map fun e => e.2
def putConn (s : State) (k : Nat) (c : Conn) : State := putHost s { s.host with conns := kput s.host.conns k c }

/-- The world of the ETH block (R38). -/
def ethSecure (s : State) : Bool := s.consist.cfg.worlds.blockSecure.getLsbD 13

/-- R331: the role as which a connection acts: its port's present one. -/
def connRole (s : State) (c : Conn) : Nat := portRole s c.port

/-- R333: a range lies in the areas of the rack manager's control pair, taken together. -/
def inRackPair (s : State) (a n : Nat) : Bool :=
  let inArea := fun (x : Nat) => [2, 3].any fun r => ringEnabled s r && decide (ringBase s r ≤ x) && decide (x < ringBase s r + ringArea s r)
  -- the areas begin and end on multiples of 64 bytes
  n == 0 || (blocksOf a n).all fun b => inArea (64 * b)

/-- R36, R243, R333: a role may reach a range of module memory. -/
def roleMay (s : State) (role a n : Nat) (write : Bool) : Bool :=
  decide (a + n ≤ memTop s) && (role == 0 || inRackPair s a n) &&
  (mayAccessRange s .host (ethSecure s) a n write || (write && role == 0 && (blocksOf a n).all fun b => importAllows s (64 * b)))

def doorbellPage : Nat := 0xFB0000000000
def statusPage : Nat := 0xFB0000001000

/-- R395: where a range crosses into the secure world: its first address in a region that the ETH block's world may not reach; where
none is, its first. -/
def crossing (s : State) (a n : Nat) : Nat :=
  match (blocksOf a n).find? fun b => worldBlocked s (ethSecure s) (64 * b) with
  | some b => max a (64 * b)
  | none => a

/-- R338: a refused request: a remote access error NAK and ETH_ACCESS. Kinds of an RDMA output: 10 WRITE, 13 read response, 17
acknowledgement, 96 + code a NAK (0 sequence error, 1 invalid request, 2 remote access error), 129 CNP. -/
def refuseRdma (s : State) (k : Nat) (c : Conn) (psn a n : Nat) : State :=
  let s := regAddSat s (rEthCnt c.port) 47 32 1
  let s := worldFault (raise s (srcEth c.port) 0x21 1 a) (srcEth c.port) (ethSecure s) (crossing s a n)
  rdmaEmit s k [98, psn]

/-- A doorbell acted on ends the role's silence (R367). -/
def heardBell (s : State) (role : Nat) : State := if role = 0 then regPut s rSilence 46 46 0 else regPut s rSilence 15 15 0

/-- R344, R358: a doorbell word of a ring written by a role. -/
def ringBell (s : State) (port role r : Nat) (v : W64) : State :=
  let new := BitVec.ofNat 32 v.toNat
  if 256 ≤ r ∨ (ringEnabled s r ∧ !pairOpen s r) then s
  else
    let fits := if r % 2 = 0 then decide ((new - getCons s r).toNat ≤ ringDepth s r)
      else decide ((getProd s r - new).toNat ≤ (getProd s r - getCons s r).toNat)
    if ringEnabled s r && ringRole s r == role && bits v 63 32 == 0 && fits then
      let s := heardBell s role
      if r % 2 = 0 then setProd s r new else ringDrained (setCons s r new) r
    else raise (regAddSat s (rRingStat r) 11 0 1) (srcEth port) 0x22 1 r

/-- R334: a packet of a connection whose port is up: dropped when its VLAN is not the port's. -/
def takePacket (s : State) (k : Packet) (act : Conn → State) : Host.Outcome State Fault Refusal :=
  match getConn s k.conn with
  | some c => if !ethLink s c.port then .next s else .next (if vlanOk s c.port k.vlan then act c else dropFrame s c.port)
  | none => .next s

/-- R344: every doorbell of a write to the doorbell page, in ascending order. -/
def writeBells (s : State) (c : Conn) (a : Nat) (data : List Byte) : State :=
  (rangeFrom 0 (data.length / 8)).foldl (fun s i =>
    let x := a - doorbellPage + 8 * i
    if x % 16 = 0 then ringBell s c.port (connRole s c) (x / 16) (BitVec.ofNat 64 (field data (8 * i) 8)) else s) s

/-- R337: one CNP per 50 µs for packets marked CE. -/
def answerCe (s : State) (k : Nat) (ce : Bool) : State :=
  match getConn s k with
  | some c =>
    if ce && (c.cnpAt == 0 || decide (c.cnpAt - 1 + 125 ≤ s.drum.beats)) then
      rdmaEmit (putConn s k { c with cnpAt := s.drum.beats + 1 }) k [129]
    else s
  | none => s

/-- DOORBELL (R337, R344): a doorbell that a connection's WRITE carries. -/
def execDoorbell (k : CePacket) (ring : Nat) (value : W64) (s : State) : Host.Outcome State Fault Refusal :=
  takePacket s k.toPacket fun c => ringBell (answerCe s k.conn k.ce) c.port (connRole s c) ring value

/-- R338: a WRITE may touch the range: doorbells, or module memory that the role may write. -/
def writeAllowed (s : State) (c : Conn) (a n : Nat) (bell : Bool) : Bool := bell || roleMay s (connRole s c) a n true

/-- RDMA_WRITE (R331, R334, R336, R338): a packet of a message: `pos` 0 only, 1 first, 2 middle, 3 last. The first carries the address
and the R_KEY; the others continue where the one before ended. -/
def execRdmaWrite (k : Packet) (psn pos addr key : Nat) (data : List Byte) (ce : Bool) (s : State) : Host.Outcome State Fault Refusal :=
  takePacket s k fun c =>
    if c.mtu < data.length then s
    else
      let s := answerCe s k.conn ce
      let c := (getConn s k.conn).getD c
      if psn ≠ c.expect then
        (if (c.expect + 2 ^ 24 - psn) % 2 ^ 24 ≤ 2 ^ 23 then rdmaEmit s k.conn [17, psn] else rdmaEmit s k.conn [96, c.expect])
      else
        let start := decide (pos ≤ 1)
        let a := if start then some addr else c.write
        let c := { c with expect := (c.expect + 1) % 2 ^ 24 }
        match a with
        | none => rdmaEmit (putConn s k.conn { c with write := none }) k.conn [97, psn]
        | some a =>
          let n := data.length
          let bell := decide (doorbellPage ≤ a) && decide (a + n ≤ statusPage) && a % 8 == 0 && n % 8 == 0
          if (!start || key == c.rkey) && writeAllowed s c a n bell then
            let s := putConn s k.conn { c with write := if pos = 1 ∨ pos = 2 then some (a + n) else none }
            let s := if bell then writeBells s c a data else storeBytes s a data false
            rdmaEmit s k.conn [17, psn]
          else refuseRdma (putConn s k.conn { c with write := none }) k.conn c psn a n

/-- Table 12.2, R333: the status words that a role may read: the rack manager those of its own pair. -/
def statusAllowed (role a n : Nat) : Bool :=
  role == 0 || (decide (statusPage + 32 ≤ a) && decide (a + n ≤ statusPage + 64))

/-- Table 12.2: what a read returns, none where it is refused. -/
def readWindow (s : State) (c : Conn) (a n : Nat) : Option (List Byte) :=
  if statusPage ≤ a ∧ a + n ≤ statusPage + 0x1000 ∧ statusAllowed (connRole s c) a n then
    some ((rangeFrom (a - statusPage) n).map fun o => lget 0 (statusWord s (o / 16)) (o % 16))
  else if roleMay s (connRole s c) a n false then some (memBytes s a n)
  else none

/-- Response packets of a read. -/
def readPackets (s : State) (k psn mtu : Nat) : Nat → List Byte → State
  | 0, _ => s
  | fuel + 1, bs =>
    let s := rdmaEmit s k [13, psn] (bs.take mtu)
    if bs.length ≤ mtu then s else readPackets s k ((psn + 1) % 2 ^ 24) mtu fuel (bs.drop mtu)

/-- R336: a connection accepts sixteen outstanding READs: those whose responses wait for a paused priority. -/
def readsFull (s : State) (c : Conn) : Bool := s.host.paused.contains c.port && decide (16 ≤ c.reads)

/-- A READ whose response waits. -/
def countRead (s : State) (k : Nat) (c : Conn) : State :=
  if s.host.paused.contains c.port then putConn s k { c with reads := c.reads + 1 } else s

/-- RDMA_READ (R331, R334, R336, R338): answered at once unless the port's priority is paused. One beyond the sixteen is answered by an
invalid request NAK (PRESUMED, log 139). -/
def execRdmaRead (k : Packet) (psn addr key len : Nat) (ce : Bool) (s : State) : Host.Outcome State Fault Refusal :=
  takePacket s k fun c =>
    let s := answerCe s k.conn ce
    let c := (getConn s k.conn).getD c
    let count := max 1 ((len + c.mtu - 1) / c.mtu)
    let fresh := decide (psn = c.expect)
    if !fresh ∧ 2 ^ 23 < (c.expect + 2 ^ 24 - psn) % 2 ^ 24 then rdmaEmit s k.conn [96, c.expect]
    else if readsFull s c then rdmaEmit s k.conn [97, psn]
    else
      let c := if fresh then { c with expect := (c.expect + count) % 2 ^ 24 } else c
      let s := countRead (putConn s k.conn c) k.conn c
      match (if key = c.rkey then readWindow s c addr len else none) with
      | some bs => readPackets s k.conn psn c.mtu count bs
      | none => refuseRdma s k.conn c psn addr len

/-! ### RDMA as requester (R337) -/

/-- RDMA_ACK (R334, R337): every packet up to `psn` is acknowledged. -/
def execRdmaAck (k : CePacket) (psn : Nat) (s : State) : Host.Outcome State Fault Refusal :=
  takePacket s k.toPacket fun c =>
    let s := answerCe s k.conn k.ce
    let c := (getConn s k.conn).getD c
    let done := fun (o : RdmaOut) => decide ((psn + 2 ^ 24 - o.psn) % 2 ^ 24 < 2 ^ 23)
    let s := putConn s k.conn { c with sent := c.sent.filter fun o => !done o, retries := 0 }
    let s := (c.sent.filter done).foldl (fun s o => match o.drain with | some d => drainAcked s d o.bytes | none => s) s
    drainPump s k.conn

/-- CNP (R334, R337): the send rate [Mbit/s] falls by one eighth, to 1 Gbit/s at least. -/
def execCnp (k : Packet) (s : State) : Host.Outcome State Fault Refusal :=
  takePacket s k fun c =>
    putConn (regAddSat s (rEthCnt c.port) 31 16 1) k.conn { c with rate := max 1000 (c.rate - c.rate / 8) }

/-- RDMA_RATE_RECOVERY: 55 µs without a CNP. -/
def execRdmaRateRecovery (conn : Nat) (s : State) : Host.Outcome State Fault Refusal :=
  match getConn s conn with
  | none => .next s
  | some c => .next (putConn s conn { c with rate := min 100000 (c.rate + 5000) })

/-- RDMA_ACK_TIMEOUT: 1 ms without acknowledgement: the packets are sent again, those that wait for a paused port once; after 7 retries the
connection closes. -/
def execRdmaAckTimeout (conn : Nat) (s : State) : Host.Outcome State Fault Refusal :=
  match getConn s conn with
  | none => .next s
  | some c =>
    if c.sent = [] then .next s
    else if 7 ≤ c.retries then .next (closeConn s conn 2)
    else
      let s := putConn s conn { c with retries := c.retries + 1 }
      .next ((c.sent.filter fun o => !c.held.contains o.out).foldl (fun s o => rdmaOut s conn o.out) s)

/-! ### Service between rings (R349, R504, Table 12.9) -/

/-- Who posted to a ring. -/
def ringOrigin (q : Nat) : Origin := if q < 256 then .ring q else .port (ringPort q)

/-- The service that a partner ring's entries wait for. -/
def ringServed (s : State) (cons q : Nat) : Bool :=
  if q < 256 then pairOpen s q else if cons < 8 then svcOpen s 2 else if cons = 8 then svcOpen s 3 else true

/-- Table 12.9, R306, R343: whether a consumer takes the entry at the head of a ring now. -/
def mayTake (s : State) (cons q : Nat) : Bool :=
  decide (0 < ringFill s q) && ringServed s cons q &&
  (if cons < 8 then jobRunning s && decide ((getTrain s cons).queue.length < 64) && !svcWaits s cons
   else if cons = 8 then stateTakes s (headEntry s q)
   else if cons = 9 then !svcWaits s 9
   else collTakes s (cons - 16))

/-- What taking the entry does. -/
def actOn (s : State) (cons q : Nat) : State :=
  let e := headEntry s q
  let i := getCons s q
  let s := takeEntry s q
  if cons < 8 then
    let u := getTrain s cons
    let src : LaunchSrc := if q < 256 then .ring q i.toNat else .partnerRing (ringPort q) (ringK q) i.toNat
    putTrain s cons { u with queue := u.queue ++ [{ raw := e, src := src }] }
  else if cons = 8 then takeState s (ringOrigin q) e
  else if cons = 9 then takeSnapCmd s (ringOrigin q) e
  else postColl s (cons - 16) e

/-- R349: the ring that a consumer serves next, with what is left of its quantum after this entry. -/
def nextRing (s : State) (cons : Nat) : Option (Nat × Nat) :=
  let rs := ringsOf s cons
  let cur := kget (0, 0) s.host.drr cons
  if 0 < cur.2 ∧ rs.contains cur.1 ∧ mayTake s cons cur.1 then some (cur.1, cur.2 - 1)
  else
    let order := (rs.filter fun q => decide (cur.1 < q)) ++ (rs.filter fun q => decide (q ≤ cur.1))
    (order.find? fun q => mayTake s cons q).map fun q => (q, ringWeight s q - 1)

/-- RING_ENTRY_TAKE (R349, R504): a consumer takes the next entry. -/
def execRingEntryTake (consumer : Nat) (s : State) : Host.Outcome State Fault Refusal :=
  if s.mainDom ≠ .up then .next s
  else match nextRing s consumer with
    | some (q, left) =>
      let s := putHost s { s.host with drr := kput s.host.drr consumer (q, left) }
      .next (actOn s consumer q)
    | none => .next s

/-! ### Silence (R367) -/

/-- The armed interval of a role [ms]. -/
def roleInterval (s : State) (role : Nat) : Nat := kget 0 s.host.interval role
def roleSilent (s : State) (role : Nat) : Bool := (if role = 0 then regBits s rSilence 46 46 else regBits s rSilence 15 15) == 1
def roleAction (s : State) (role : Nat) : Nat := if role = 0 then regBits s rSilence 47 47 else 0

/-- ROLE_SILENT: nothing from an armed role for three intervals. -/
def execRoleSilent (role : Nat) (s : State) : Host.Outcome State Fault Refusal :=
  if 2 ≤ role ∨ s.mainDom ≠ .up ∨ roleInterval s role = 0 ∨ roleSilent s role then .next s
  else
    let s := if role = 0 then regPut s rSilence 46 46 1 else regPut s rSilence 15 15 1
    let s := raise s (srcEth (rolePort s role)) 0x23 1 role
    let s := eventTo s (1 - role) 0x11 (leBytes 1 role ++ leBytes 1 (roleAction s role) ++ leBytes 2 0 ++ leBytes 4 (kget 0 s.host.interval role))
    .next (if role = 0 ∧ roleAction s role = 1 then endJob s 2 none false else s)

end Sys2Proof.Machine
end

