-- ==== Sys2Proof/Machine/RegAccess.lean ====
section
/-! DEFINITION. Register accesses: their checks (R7, R14, R395, R497, R499, R501), what a read returns, what a write does, and
the shadow-and-commit rule (R49 to R52). Addresses are hub addresses; offsets are from 0xFF00_0000_0000. -/

namespace Sys2Proof.Machine

/-! ### Checks -/

/-- Why an access returns an access error: width, alignment or offset (R7); a domain that is down or a value not yet loaded
(R14, R501); the world (R395). -/
inductive RegErr where
  | shape
  | domain
  | world
  deriving DecidableEq, Repr

def regSpace : Nat := 0xFF0000000000

/-- R38, Table 18.2: whether an access of a world may read or write a register. -/
def regWorldOk (s : State) (d : RegDesc) (port : Nat) (secure write : Bool) : Bool :=
  if secure then true
  else if d.blk = 7 then !s.consist.cfg.worlds.portSecure.getLsbD port
  else if [0, 2, 4, 11, 12].contains d.blk then !write && !d.sOnly
  else !s.consist.cfg.worlds.blockSecure.getLsbD d.blk

/-- R14, R501, R348: whether a register answers now. The ring registers are loaded before the UDP service opens; in recovery neither they
nor BIST_EXPECT, which the guard firmware ships, are (DEDUCED, log 149). -/
def regUp (s : State) (d : RegDesc) : Bool :=
  domUp s d.dom && !(d.blk == 6 && decide (d.off < 0x1000) && (!svcOpen s 0 || inRecovery s)) &&
  !(d.blk == 10 && d.off == 0x100 && inRecovery s)

/-- The register that an access reaches, or why it is refused. -/
def regCheck (s : State) (secure write : Bool) (addr width : Nat) : Except RegErr (RegDesc × Nat × Nat) :=
  if addr < regSpace then .error .shape
  else match regFind (addr - regSpace) with
  | none => .error .shape
  | some (d, i, p) =>
    if width ≠ (if d.w32 then 4 else 8) then .error .shape
    else if !regUp s d then .error .domain
    else if !regWorldOk s d p secure write then .error .world
    else .ok (d, i, p)

/-- What a refused access of an initiator raises, by the initiator's source (Table 16.2). -/
def refuseReg (s : State) (src : Nat) (e : RegErr) (addr : Nat) : State :=
  match e with
  | .shape => raise s src 0x01 1 addr
  | .domain => s
  | .world => raise s src 0x03 1 addr

/-- R7, R14, R395: an initiator of register space gets an access error back. -/
def accessError (s : State) (src : Nat) (e : RegErr) (addr : Nat) : State := emit (refuseReg s src e addr) .regError [src, addr]

/-- R498: the initiators of register space besides the Ethernet bridge, by their sources: a guard, whose world is its own, and the
standby controller, which is secure. -/
def regInitiator (s : State) (src : Nat) : Option Bool :=
  if 0x270 ≤ src ∧ src < 0x276 then
    if s.mainDom = .up then some (regBits s (rCfgGuard (src - 0x270)) 59 59 == 1) else none
  else if src = srcSctl then some true
  else none

/-! ### Staged copies -/

/-- The bits of the fields of an access code. -/
def accMask (fs : List FieldDesc) (acc : Acc) : W64 :=
  (fs.filter fun f => f.acc == acc).foldl (fun m f => setBits m f.hi f.lo (2 ^ (f.hi + 1 - f.lo) - 1)) 0

/-- The bits of the RWS fields of the register at an offset. -/
def stagedMask (a : Nat) : W64 := match regFind a with | some (d, _, _) => accMask d.fields .rws | none => 0

/-- The commit register and the group of an RWS register. -/
def commitOf (a : Nat) : Nat × Nat :=
  let off := a % 0x100000
  match a / 0x100000 with
  | 1 => (0x1FFF00, 0)
  | 2 => (0x2FFF00, (off - 0x20000) / 8 / 64)
  | 3 => (0x3FFF00, if off < 0x28 then 0 else if off < 0x100 then 1 else 2)
  | 5 => (0x5FFF00, if 0x500 ≤ off then 12 else off % 0x100 / 8)
  | 6 => (0x6FFF00, off / 16 / 16)
  | 7 =>
    let o := a % 0x10000
    (0x70FF00 + off / 0x10000 * 0x10000, if o < 0x1000 then 0 else (o - 0x1000) / 16 / 2 + 1)
  | _ => (0xDFFF00, if off < 0x40 then off % 16 / 8 else (off - 0x40) / 16)

/-- The registers with staged values in some groups of a commit register. -/
def stagedIn (s : State) (creg : Nat) (p : Nat → Bool) : List Nat :=
  (s.staged.filter fun e => (commitOf e.1).1 == creg && p (commitOf e.1).2).map fun e => e.1

/-- PENDING of a commit register. -/
def pendingGroups (s : State) (creg : Nat) : Nat :=
  lsum (((rangeFrom 0 16).filter fun g => stagedIn s creg (fun x => x == g) != []).map fun g => 2 ^ g)

/-- R50: staged values made live. -/
def takeStaged (s : State) (as : List Nat) : State :=
  unstage (as.foldl (fun s a =>
    let m := stagedMask a
    regSet s a ((regGet s a &&& ~~~m) ||| (kget (regGet s a &&& m) s.staged a &&& m))) s) as

/-! ### Reads: fields that other state gives -/

/-- The 8 bytes `8i` to `8i + 7` of a byte string. -/
def wordOf (bs : List Byte) (i : Nat) : W64 := BitVec.ofNat 64 (field bs (8 * i) 8)

/-- The KIND code of an image kind (Table 13.6). -/
def kindCode (k : Nat) : Nat := lget 0 [1, 2, 3, 0x10] k

/-- R385: remaining lock time [ms]. -/
def lockMs (s : State) : Nat :=
  match s.trust.session with
  | none => 0
  | some x => if x.state = 2 ∨ x.state = 4 then 300000 else 300000 - (s.drum.beats - x.mark) / 2500

def coachStateCode : CoachCond → Nat
  | .excluded => 0 | .idle => 1 | .loading => 2 | .running => 3 | .drained => 4 | .stopped => 5

/-- COACH_STATUS. -/
def coachStatus (s : State) (c : Nat) : W64 :=
  let k := getCoach s c
  let active := match kernelOn s c with
    | some (_, kr) => (rangeFrom 0 16).filter fun i =>
        (kernelSeatsOn kr c).contains (16 * c + i) && (match (getSeat s (16 * c + i)).st with | .idle => false | .halted => false | _ => true)
    | none =>
      match trainOfCoach s c with
      | some t => match (getTrain s t).service with
        | some l => if coachInService s c then rangeFrom 0 (min 16 (lbSeats l)) else []
        | none => []
      | none => []
  let cond := if k.cond = .idle ∧ (match trainOfCoach s c with | some t => (getTrain s t).service.isSome | none => false) = true then .running
    else k.cond
  let train := if s.consist.applied then (trainOfCoach s c).getD 0xF else 0xF
  BitVec.ofNat 64 (train * 2 ^ 60 + coachStateCode cond * 2 ^ 56 + entriesUsed k * 2 ^ 40 +
    lsum ((k.xowner.filter fun e => decide (e.1 < 8)).map fun e => 2 ^ (32 + e.1)) + lsum (active.map fun i => 2 ^ (16 + i)) +
    k.cause % 256 * 2 ^ 8 + k.seat % 16 * 2 ^ 4)

/-- COACH_TRAIN. -/
def coachTrain (s : State) (t : Nat) : W64 :=
  let u := getTrain s t
  let st := if !s.consist.applied || decide (s.consist.cfg.trains.length ≤ t) then 0
    else match u.kernel with
      | none => if u.service.isSome then 3 else 1
      | some k => match k.phase with | .loading => 2 | .waiting _ => 2 | .running => 3 | .stopping => 4
  BitVec.ofNat 64 (u.launches.toNat * 2 ^ 32 + u.queue.length * 2 ^ 24 + st * 2 ^ 20)

/-- COACH_EXCL: every coach reads as excluded until a Consist is applied. -/
def coachExcl (s : State) (i : Nat) : W64 :=
  if !s.consist.applied then BitVec.ofNat 64 (2 ^ 64 - 1)
  else BitVec.ofNat 64 (lsum (((rangeFrom 0 64).filter fun b =>
    s.consist.excl.getLsbD (64 * i + b) || s.consist.rakeOut.getLsbD ((64 * i + b) / 32)).map fun b => 2 ^ b))

/-- MEM_RGN_ADDR and MEM_RGN_ATTR, alternately. -/
def regionReg (s : State) (i : Nat) : W64 :=
  match (if memTop s = 0 then [] else effRegions s)[i / 2]? with
  | none => 0
  | some r =>
    if i % 2 = 0 then BitVec.ofNat 64 (r.size * 2 ^ 32 + r.base)
    else BitVec.ofNat 64 (2 ^ 63 + r.owner * 2 ^ 24 + r.access.toNat * 2 ^ 16 + r.rake * 2 ^ 12 + (if r.rakeLocal then 2 ^ 11 else 0) +
      (if r.snapArea then 2 ^ 10 else 0) + (if r.secure then 2 ^ 9 else 0))

/-- The half of the oldest message of a queue. -/
def msgHalf (q : List FaultMsg) (hi : Bool) : W64 :=
  match q with
  | [] => 0
  | m :: _ => wordOf (msgBytes m) (if hi then 1 else 0)

/-- FLT_ERRN. -/
def errn (s : State) : W64 := errnVal s (pealState s == 6) (tripStands s)

/-- Blocks 0, 11 and 12. CFG_CONSIST_STATE holds its reset value until R27 has finished (R53). -/
def readCfg (s : State) (d : RegDesc) (i : Nat) (v : W64) : W64 :=
  let bit := fun (b : Bool) (n : Nat) => if b then 2 ^ n else 0
  if d.blk = 0 then
    if d.off ≠ 0 then v
    else if !s.consist.booted then regReset 0
    else setBits (setBits v 19 19 (if s.consist.pendingImg then 1 else 0)) 18 18 (if s.host.job.isSome then 1 else 0)
  else if d.blk = 11 then
    if d.off = 0 then
      match s.trust.session with
      | some x => BitVec.ofNat 64 (x.state * 2 ^ 60 + kindCode x.kind * 2 ^ 52 + (x.role + 1) * 2 ^ 50 + lockMs s / 1000 * 2 ^ 32 + x.body.length)
      | none => 0
    else if d.off = 8 then
      let sel := fun (k : Nat) => selectorOf s k % 16
      BitVec.ofNat 64 (sel 0 * 2 ^ 12 + sel 1 * 2 ^ 8 + sel 2 * 2 ^ 4 + bit s.trust.staged.isSome 3)
    else if d.off = 0x100 then BitVec.ofNat 64 (floorOf s i)
    else BitVec.ofNat 64 (if i < 3 then imVersion (runImage s i) else match s.trust.staged with | some img => imVersion img | none => 0)
  else if d.off = 0x10 then (if s.trust.puf then wordOf Config.identityKey i else 0)
  else if d.off = 0x40 then wordOf (Config.sha512 Config.vendorKey) i
  else if d.off = 0x80 then
    BitVec.ofNat 64 (bit (ownerKey s).isSome 63 + bit s.trust.puf 62 + match ownerKey s with | some k => keyId k | none => 0)
  else if d.off = 0x90 then (match ownerKey s with | some k => wordOf ((Config.sha512 k).take 32) i | none => 0)
  else v

/-- Blocks 1 and 2. -/
def readFlt (s : State) (d : RegDesc) (i : Nat) (v : W64) : W64 :=
  if d.blk = 1 then
    if d.off = 0 then s.drum.count
    else if d.off = 0x40 ∧ s.consist.cfg.drum.g4cMode = false then setBits v 63 32 0
    else if d.off = 0x40008 then
      setBits (setBits v 63 56 (s.colls.list.filter fun c => windowOpen c).length) 55 48
        (lsum ((dedup (heldPorts s)).map fun n => 2 ^ n))
    else v
  else if d.off = 0 then setBits v 63 51 s.belfry.queue.length
  else if d.off = 0x10 then msgHalf s.belfry.queue (i == 1)
  else if d.off = 0x400 then msgHalf (kget [] s.belfry.gfifo (i / 2)) (i % 2 == 1)
  else if d.off = 0x28 then errn s
  else if d.off = 0x10000 then setBits v 39 39 (regBits s (rFatal (i / 64)) (i % 64) (i % 64))
  else v

/-- Blocks 8 and 9. -/
def readCoachMem (s : State) (d : RegDesc) (i : Nat) (v : W64) : W64 :=
  if d.blk = 8 then
    if d.off = 0x10000 then setBits v 39 36 (min 15 (badRecent s fun c => c == i))
    else if d.off = 0x20000 then regionReg s i
    else v
  else if d.off = 0x200 then coachExcl s i
  else if d.off = 0x10000 then coachStatus s i
  else if d.off = 0x20000 then coachTrain s i
  else if d.off = 0x20100 then
    let u := getTrain s i
    BitVec.ofNat 64 (u.txnBeats.toNat * 2 ^ 32 + u.drayBeats.toNat)
  else v

/-- Blocks 6, 7, 13 and 14. -/
def readPorts (s : State) (d : RegDesc) (i port : Nat) (v : W64) : W64 :=
  if d.blk = 6 then (if d.off = 0x1000 then setBits v 31 12 (ringFill s i) else v)
  else if d.blk = 7 then (if d.off = 0x1100 then setBits v 31 0 (ringFill s (partnerRing port i)) else v)
  else if d.blk = 13 then
    if d.off = 0 then
      let v := setBits (setBits v 62 61 (if s.consist.booted then portRole s i else 2)) 55 48 (s.host.conns.filter fun e => e.2.port == i).length
      if !s.host.ethUp.contains i then v else setBits v 31 0 (Config.ethUncorr i s.drum.beats).toNat
    else v
  else if d.off = 0 then setBits v 51 51 (if slotGood s (24 + i) then 1 else 0)
  else if d.off = 0x200 ∧ s.drum.beats ≠ 0 then setBits v 31 16 (Config.vstbyMv s.drum.beats).toNat
  else if d.off = 0x208 then setBits v 61 61 (bits (errn s) 0 0)
  else v

/-- What a read of the register at an offset returns (Table 0.3). -/
def readReg (s : State) (a : Nat) : W64 :=
  match regFind a with
  | none => 0
  | some (d, i, port) =>
    let v := regGet s a
    if d.off = 0xFFF00 ∨ (d.blk = 7 ∧ d.off = 0xFF00) then setBits v 31 16 (pendingGroups s a)
    else if [0, 11, 12].contains d.blk then readCfg s d i v
    else if d.blk = 1 ∨ d.blk = 2 then readFlt s d i v
    else if d.blk = 8 ∨ d.blk = 9 then readCoachMem s d i v
    else if d.blk = 10 then (if d.off = 0x100 then Config.bistExpect i else v)
    else if [6, 7, 13, 14].contains d.blk then readPorts s d i port v
    else v

/-- R455, R460: what a read does besides: the high half of a message removes it. -/
def readEffect (s : State) (a : Nat) : State :=
  match regFind a with
  | some (d, i, _) =>
    if d.blk = 2 ∧ d.off = 0x10 ∧ i = 1 then popQueue s
    else if d.blk = 2 ∧ d.off = 0x400 ∧ i % 2 = 1 then popGfifo s (i / 2)
    else s
  | none => s

/-! ### Agreement rules of the groups. Each takes the state `t` with the staged values live. -/

/-- REASON of a group: 2 when a Consist section's range fails, 1 when another rule does, 0 when none does. -/
def reasonOf (range rule : Bool) : Nat := if !range then 2 else if !rule then 1 else 0

/-- R39, FLT: no F reaction is 0x0. -/
def fltRule (t : State) (g : Nat) : Nat := reasonOf ((rangeFrom (64 * g) 64).all fun x => regBits t (rReact x) 11 8 != 0) true

/-- Chapter 15: PCAP. -/
def pcapRule (t : State) (g : Nat) : Nat :=
  let inR := fun (x lo hi : Nat) => decide (lo ≤ x) && decide (x ≤ hi)
  reasonOf true
    (if g = 0 then
      inR (capLoop t 63 56) 1 64 && inR (capLoop t 55 48) 1 64 && inR (capLoop t 47 40) 8 48 && inR (capLoop t 39 32) 1 255 &&
      inR (capLoop t 31 28) 0 5
    else if g = 1 then inR (regBits t rPcapSlope 63 56) 1 50 && regBits t rPcapChain 23 0 == 0
    else if g = 2 then (rangeFrom 0 8).all fun n =>
      inR (regBits t (rPart n) 63 48) 1 0xFFFF && decide (regBits t (rPart n) 47 32 ≤ regBits t (rPart n) 63 48) &&
      decide (regBits t (rPart n) 31 24 < regBits t (rPart n) 23 16)
    else true)

/-- Table 2.10: COOL. -/
def coolRule (t : State) (g : Nat) : Nat :=
  if g = 12 then reasonOf ((rangeFrom 0 8).all fun j => decide (50 ≤ leakMv t j) && decide (leakMv t j ≤ 3000)) true
  else if 12 < g then 0
  else
    let cfg := fun (hi lo : Nat) => regBits t (rCoolCfg g) hi lo
    let temp := fun (p : Nat) => regBits t (rCoolCurve g) (16 * p + 15) (16 * p + 8)
    let duty := fun (p : Nat) => regBits t (rCoolCurve g) (16 * p + 7) (16 * p)
    let lo := fun (b : Nat) => regBits t (rSkipLo g) (8 * b + 7) (8 * b)
    let hi := fun (b : Nat) => regBits t (rSkipHi g) (8 * b + 7) (8 * b)
    let unused := fun (b : Nat) => lo b == 0 && hi b == 0
    reasonOf
      (decide (cfg 31 24 ≤ 3) && decide (cfg 23 16 ≤ 9) && decide (cfg 15 8 ≤ 100) && decide (5 ≤ cfg 7 0) && decide (cfg 7 0 ≤ 100) &&
        (rangeFrom 0 4).all fun p => decide (duty p ≤ 100))
      (((rangeFrom 0 3).all fun p => decide (temp p < temp (p + 1)) && decide (duty p ≤ duty (p + 1))) &&
        (rangeFrom 0 4).all fun b => unused b || (decide (lo b < hi b) &&
          (rangeFrom 0 b).all fun a => unused a || decide (hi a ≤ lo b) || decide (hi b ≤ lo a)))

/-- R341: the bytes of two areas meet. -/
def areasMeet (a n b m : Nat) : Bool := decide (a < b + m) && decide (b < a + n)

/-- R341: a ring's area lies where the host may read and write. -/
def hostArea (t : State) (r : Nat) : Bool :=
  decide (ringBase t r + ringArea t r ≤ memTop t) &&
  mayAccessRange t .host (ethSecure t) (ringBase t r) (ringArea t r) false &&
  mayAccessRange t .host (ethSecure t) (ringBase t r) (ringArea t r) true

/-- Entries that are not yet taken or not yet consumed, or that wait to be posted. -/
def ringHolds (s : State) (q : Nat) : Bool := ringFill s q != 0 || kget [] s.host.waiting q != []

/-- R347: one pair of host rings. -/
def pairRule (s t : State) (p : Nat) : Bool :=
  let a := 2 * p
  let b := 2 * p + 1
  let shared := fun (r : Nat) => (regBits t (rRingCfg r) 63 41, regBits t (rRingCfg r) 36 36)
  let same := fun (r : Nat) => regGet s (rRingCfg r) == regGet t (rRingCfg r) && regGet s (rRingBase r) == regGet t (rRingBase r)
  let ty := ringType t a
  shared a == shared b &&
  (!(ringHolds s a || ringHolds s b) || (same a && same b)) &&
  ringRole t a == (if p = 1 then 1 else 0) && (decide (2 ≤ p) || ty == 0) &&
  (!ringEnabled t a ||
    ((decide (p < 2) || (decide (1 ≤ ty) && decide (ty ≤ 4))) &&
     (if ty = 1 ∨ ty = 4 then decide (ringTrain t a < t.consist.cfg.trains.length) else ringTrain t a == 0xF) &&
     (decide (p < 2) || (regBits t (rRingCfg a) 40 37 == 0 && regBits t (rRingCfg b) 40 37 == 0)) &&
     [a, b].all fun r =>
       decide (4 ≤ regBits t (rRingCfg r) 54 49) && decide (regBits t (rRingCfg r) 54 49 ≤ 16) && ringWeight t r != 0 &&
       decide (regBits t (rRingCfg r) 40 37 ≤ 12) && hostArea t r &&
       (rangeFrom 0 256).all fun x => x == r || !ringEnabled t x || !areasMeet (ringBase t r) (ringArea t r) (ringBase t x) (ringArea t x)))

def ringRule (s t : State) (g : Nat) : Nat := reasonOf true ((rangeFrom (8 * g) 8).all fun p => pairRule s t p)

/-- The trains that serve pair `j` of a partner's rings. -/
def servingTrains (t : State) (n j : Nat) : List Nat :=
  let of := fun (svc : Nat) => (rangeFrom 0 t.consist.cfg.trains.length).filter fun x =>
    (lget (⟨0, 0⟩ : Train) t.consist.cfg.trains x).service == svc
  if j = 0 then of 1 else if j = 1 then of 2 else [ringTrain t (partnerRing n (2 * j))]

/-- Chapter 10: CPL of port `n`. -/
def cplRule (s t : State) (n g : Nat) : Nat :=
  let dis := lsum ((rangeFrom 0 8).map fun i => regBits t (rLaneCtl n) i i)
  if g = 0 then reasonOf true (if n < 8 then decide (dis ≤ 4) else dis == 0)
  else if 8 < g then 0
  else
    let j := g - 1
    let q := partnerRing n (2 * j)
    let regs := [rCplRingBase n (2 * j), rCplRingCfg n (2 * j), rCplRingBase n (2 * j + 1), rCplRingCfg n (2 * j + 1)]
    if 8 ≤ n then reasonOf true (regs.all fun a => regGet t a == regReset a)
    else reasonOf true
      (ringEnabled t q == ringEnabled t (q + 1) &&
       (!(ringHolds s q || kget [] s.host.waiting (q + 1) != []) || regs.all fun a => regGet t a == regGet s a) &&
       (!ringEnabled t q ||
        ((if 2 ≤ j then decide (ringTrain t q < t.consist.cfg.trains.length) else ringTrain t q == 0xF) &&
         ringTrain t (q + 1) == ringTrain t q &&
         [q, q + 1].all (fun r => decide (16 ≤ ringDepth t r) && decide (ringDepth t r ≤ 65536)) &&
         ringBase t (q + 1) == 0 && decide (ringBase t q + 64 * ringDepth t q ≤ memTop t) &&
         mayAccessRange t (.partner n) (portSecure t n) (ringBase t q) (64 * ringDepth t q) true &&
         (servingTrains t n j).all fun x => mayAccessRange t (.train x) (trainSecure t x) (ringBase t q) (64 * ringDepth t q) false)))

/-- Chapter 12: ETH of port `p`. -/
def ethRule (t : State) (p : Nat) : Nat :=
  if 2 ≤ p then 0
  else
    let ctl := fun (hi lo : Nat) => regBits t (rEthCtl p) hi lo
    let addr := regBits t (rEthIp4 p) 63 32
    let gw := regBits t (rEthIp4 p) 31 0
    let len := ctl 62 57 + 1
    reasonOf true
      ((gw == 0 || addr / 2 ^ (32 - len) == gw / 2 ^ (32 - len)) && (ctl 63 63 == 0 || decide (len ≤ 32)) &&
       (ctl 56 56 == 0 || (regBits t (rEthIp6H p) 63 54 != 0x3FA)))

/-- R51: REASON of a commit of groups, 0 when every rule holds. -/
def commitReason (s t : State) (creg : Nat) (gs : List Nat) : Nat :=
  let rule := fun (g : Nat) =>
    match creg / 0x100000 with
    | 2 => fltRule t g
    | 3 => pcapRule t g
    | 5 => coolRule t g
    | 6 => ringRule s t g
    | 7 => cplRule s t (creg % 0x100000 / 0x10000) g
    | 13 => ethRule t g
    | _ => 0
  (gs.map rule).foldl max 0

/-! ### Commits -/

/-- Whether a register's committed values are kept in flash: rings, partner power, Ethernet settings. -/
def inFlash (a : Nat) : Bool :=
  let blk := a / 0x100000
  blk == 6 || blk == 13 || (blk == 3 && decide (0x100 ≤ a % 0x100000))

/-- R335, R348: committed values are stored in the authenticated region, where there is one (R392). Only G5 writes flash (R370): while it
does not run, nothing is (DESIGN CHOICE, log 114). -/
def storeFlash (s : State) (as : List Nat) : State :=
  if !guardRuns s 5 || !s.trust.puf then s
  else { s with flash := (as.filter inFlash).foldl (fun f a => kset (regReset a) f a (regGet s a)) s.flash }

/-- R346: status words that differ from those of `before` are copied. -/
def notifyWords (before s : State) : State :=
  ((rangeFrom 0 256).filter fun r => statusWord before r != statusWord s r).foldl notifyWord s

/-- R335: the addresses of a port: neither a prefix length nor an enable bit is part of an address (DEDUCED, log 115). -/
def ethAddress (s : State) (p : Nat) : List Nat :=
  [regBits s (rEthIp4 p) 63 32, (regGet s (rEthIp6H p)).toNat, (regGet s (rEthIp6L p)).toNat]

/-- What follows a commit that took effect, `s` being the state before it. -/
def committed (s t : State) (creg : Nat) (gs : List Nat) : State :=
  match creg / 0x100000 with
  | 3 => if gs.contains 1 then rebucket (stepW s) t else t
  | 5 => gs.foldl coolCommitted t
  | 6 => notifyWords s t
  | 7 => grantCredits t
  | 13 => (gs.filter fun p => decide (p < 2) && ethAddress s p != ethAddress t p).foldl (fun t p => closePort t p 3) t
  | _ => t

/-- R50, R51: groups of a commit register committed for the initiator with source `src`. -/
def commitGroups (s : State) (src creg : Nat) (gs : List Nat) : State :=
  let as := stagedIn s creg fun g => gs.contains g
  let t := takeStaged s as
  let r := commitReason s t creg gs
  if r = 0 then committed s (storeFlash t as) creg gs
  else raise (regPut (regPut s creg 38 38 1) creg 55 48 r) src 0x02 1 (regSpace + creg)

/-- A write of a commit register: the W1C bits, then the groups named. -/
def commitWrite (s : State) (src creg : Nat) (v : W64) : State :=
  let clear := fun (s : State) (b : Nat) => if bits v b b = 1 then regPut s creg b b 0 else s
  let gs := (rangeFrom 0 16).filter fun g => v.getLsbD g
  if gs = [] then clear (clear s 39) 38 else commitGroups (clear (clear s 39) 38) src creg gs

/-! ### Writes -/

/-- Ranges that a write is held to, as [hi:lo], least and greatest value. -/
def clamps (a : Nat) : List (Nat × Nat × Nat × Nat) :=
  if a = rCoachCtl then [(6, 0, 0, 96)]
  else if a = rCollCtl then [(63, 32, 2500, 0xFFFFFFFF), (31, 0, 2500, 0xFFFFFFFF)]
  else if a = rFltCtl then [(63, 48, 10, 6000)]
  else if a = rBistCtl then [(47, 32, 10, 1440), (31, 16, 120, 2000)]
  else if a = rScrub then [(63, 56, 1, 168)]
  else if a = rSideCtl then [(31, 16, 1, 1000)]
  else []

def clampVal (a : Nat) (v : W64) : W64 :=
  (clamps a).foldl (fun v (c : Nat × Nat × Nat × Nat) => setBits v c.1 c.2.1 (max c.2.2.1 (min c.2.2.2 (bits v c.1 c.2.1)))) v

/-- Table 0.3: the fields of a register written by their access codes. -/
def writeFields (s : State) (a : Nat) (d : RegDesc) (v : W64) : State :=
  let old := regGet s a
  let rw := accMask d.fields .rw
  let m := accMask d.fields .rws
  let v' := ((old &&& ~~~rw) ||| (clampVal a v &&& rw)) &&& ~~~(v &&& accMask d.fields .w1c) ||| (v &&& accMask d.fields .w1s)
  let s := regSet s a v'
  if m = 0 then s else { s with staged := kset (regGet s a &&& m) s.staged a (v &&& m) }

/-- SIDE_CTL: RST_DELAY_MS, then HOLD and PULSE of each partner. -/
def sideCtlWrite (s : State) (v : W64) : State :=
  let s := regPut s rSideCtl 31 16 (bits (clampVal rSideCtl v) 31 16)
  let s := (rangeFrom 0 8).foldl (fun s n =>
    if bits v (48 + n) (48 + n) = 0 then regPut s rSideCtl (48 + n) (48 + n) 0
    else if regBits s rSideCtl (48 + n) (48 + n) = 1 then s else sideHold s n) s
  (rangeFrom 0 8).foldl (fun s n => if bits v (40 + n) (40 + n) = 1 then sidePulse s n else s) s

/-- A write of the register at an offset that has passed its checks. -/
def writeReg (s : State) (src a : Nat) (d : RegDesc) (port : Nat) (v : W64) : State :=
  if d.off = 0xFFF00 ∨ (d.blk = 7 ∧ d.off = 0xFF00) then commitWrite s src a v
  else if a = 0x200020 then ackWrite s v
  else if a = rPseqLoad then pealLoadWrite s v
  else if a = rSideCtl then sideCtlWrite s v
  else if d.blk = 7 ∧ d.off = 8 then
    let s := writeFields s a d (setBits v 8 8 0)
    if bits v 8 8 = 1 then retest s port else s
  else writeFields s a d v

/-- A write of register space by an initiator. -/
def regWrite (s : State) (src addr width : Nat) (v : W64) : State :=
  match regInitiator s src with
  | none => s
  | some secure =>
    match regCheck s secure true addr width with
    | .error e => accessError s src e addr
    | .ok (d, _, port) => writeReg s src (addr - regSpace) d port v

/-- REGISTER_WRITE (R7, R498): a write by a guard (`src` 0x270 + g) or the standby controller (0x276). -/
def execRegisterWrite (src addr width : Nat) (value : W64) (s : State) : Host.Outcome State Fault Refusal :=
  .next (regWrite s src addr width value)

/-- XXX_COMMIT (R49 to R51): such a write of a commit register; `addr` is its hub address. -/
def execCommit (src addr : Nat) (value : W64) (s : State) : Host.Outcome State Fault Refusal :=
  .next (if addr % 0x100000 = 0xFFF00 ∨ addr % 0x10000 = 0xFF00 then regWrite s src addr 8 value else s)

end Sys2Proof.Machine
end

