-- ==== Sys2Proof/Machine/Consist.lean ====
section
/-! DEFINITION. Chapter 02: the Consist as the hub loads, checks and applies it (R25 to R28, R42 to R48, R52, R53, R348, R402). -/

namespace Sys2Proof.Machine

def putConsist (s : State) (c : ConsistSt) : State := { s with consist := c }

/-! ### Exclusion and checks -/

/-- R94: COACH_FAILED. -/
def coachFailed (s : State) : BitVec 512 :=
  BitVec.ofNat 512 (lsum ((rangeFrom 0 8).map fun i => (regGet s (rCoachFailed i)).toNat * 2 ^ (64 * i)))

/-- R329, R462: rakes that hold a device in MEM_FAILED or a yard with a fatal latch. -/
def failedRakes (s : State) : BitVec 16 :=
  BitVec.ofNat 16 (lsum (((rangeFrom 0 16).filter fun k => regBits s rMemFailed (3 * k + 2) (3 * k) != 0).map fun k => 2 ^ k)) |||
    failedYards s

/-- The content of a flash slot. -/
def slotImage (s : State) (b : Bool) : Image := if b then s.consist.slotB else s.consist.slotA

/-- R25: the slot that a load writes: the one that is not active, A when none is (R28). -/
def inactiveSlot (s : State) : Bool := s.consist.activeSlot == some false

/-- What an image is compared with, `seq` telling whether the active sequence counts. -/
def checkCtx (s : State) (seq : Bool) : CheckCtx :=
  let act := match s.consist.activeSlot with | some b => slotImage s b | none => []
  { ownerKey := (ownerKey s).map fun k => (keyId k, k), floor := s.consist.floor
    activeSeq := if seq && s.consist.activeSlot.isSome then some (imgSeq act) else none, activeHash := imgHash act
    coachFailed := coachFailed s, rakeFailed := failedRakes s }

/-- The merged image of bytes that have passed step 6. -/
def imageConsist (img : Image) : Consist :=
  match readSections img (field img 0x0E 2) 256 0 with
  | .ok l => mergeImage l
  | .error _ => presetConsist 6

/-- The effective exclusion of a merged image (R94, R329). -/
def exclOf (s : State) (c : Consist) : BitVec 512 := c.exclusion.coachMask ||| coachFailed s
def rakeOutOf (s : State) (c : Consist) : BitVec 16 := c.exclusion.rakeOut ||| failedRakes s

/-! ### Loading -/

def lastReason (s : State) (r : Nat) : State := regPut s rConsist 15 8 r

/-- The reply body of a refusal (Table 12.5). -/
def refusedBody (r : Refused) : List Byte := leBytes 1 r.reason ++ leBytes 2 r.type ++ leBytes 4 r.offset

/-- R43: the reply of a refusal. -/
def refuse (r : Refused) : Ans := ⟨5, refusedBody r, 0, r.reason⟩

/-- BUSY with the holder's role in DETAIL. -/
def busyWith (s : State) (detail : Nat) : State × Option Ans :=
  let (s, ms) := freeRetry s
  (s, some ⟨2, [], ms, detail⟩)

/-- R42: the role that DETAIL of BUSY names: the holder of a load or of an apply in progress. Until R27 has finished, its own apply is
the one in progress; no role requested it, and DETAIL is 0 (DESIGN CHOICE, log 116). -/
def consistBusy (s : State) : Option Nat :=
  if !s.consist.booted then some 0
  else match s.consist.load with
  | some l => some l.role
  | none => s.consist.apply.map fun a => a.role

/-- A piece of a buffer (R356): its OFFSET is the end of the buffer; over UDP it carries at most 1,024 bytes. -/
def appendPiece (s : State) (q : Req) (purpose : Nat) (body : List Byte) : Option (State × List Byte) :=
  let key := q.role * 4 + purpose
  let buf := kget [] s.host.buffers key
  let long := match q.via with | .udp _ _ _ => decide (1028 < body.length) | .ring => false
  if body.length < 4 ∨ long = true ∨ field body 0 4 ≠ buf.length then none
  else
    let buf := buf ++ body.drop 4
    some (putHost s { s.host with buffers := kset [] s.host.buffers key buf }, buf)

def clearBuffer (s : State) (role purpose : Nat) : State :=
  putHost s { s.host with buffers := kdel s.host.buffers (role * 4 + purpose) }

/-- CONSIST_DATA (R356). -/
def msgConsistData (q : Req) (body : List Byte) (s : State) : State :=
  request s q body 0x40 true true none true fun s =>
    match appendPiece s q 0 body with
    | some (s, _) => (s, some (ansOk []))
    | none => (s, some (ansStatus 6))

/-- CONSIST_DATA: the message arrives. -/
def execConsistData (q : Req) (body : List Byte) (s : State) : Host.Outcome State Fault Refusal :=
  .next (arrive s q 0x40 body (msgConsistData q body))

/-- CONSIST_LOAD (R42, R43): the image delivered is checked by Table 2.15, whose length delivered is the message's, and on a pass its
slot is written. -/
def msgConsistLoad (q : Req) (body : List Byte) (s : State) : State :=
  request s q body 0x41 true (body.length == 4) none true fun s =>
    match consistBusy s with
    | some r => busyWith s r
    | none =>
      let img := kget [] s.host.buffers (q.role * 4)
      let s := clearBuffer s q.role 0
      match checkImage (checkCtx s true) img (field body 0 4) with
        | .error r => (lastReason s r.reason, some (refuse r))
        | .ok _ =>
          let c := { s.consist with load := some { role := q.role + 1, image := img }, pendingImg := false }
          (putConsist s (if inactiveSlot s then { c with slotB := [] } else { c with slotA := [] }), none)

/-- CONSIST_LOAD: the message arrives. -/
def execConsistLoad (q : Req) (body : List Byte) (s : State) : Host.Outcome State Fault Refusal :=
  .next (arrive s q 0x41 body (msgConsistLoad q body))

/-- CONSIST_SLOT_WRITTEN (R42): the write is performed; the image is pending and the reply goes out. -/
def execConsistSlotWritten (s : State) : Host.Outcome State Fault Refusal :=
  match s.consist.load with
  | none => .next s
  | some l =>
    let b := inactiveSlot s
    let c := { s.consist with load := none, pendingImg := true, pendingAt := b }
    let s := putConsist s (if b then { c with slotB := l.image } else { c with slotA := l.image })
    .next (answerOwed s 0x41 (some (l.role - 1)) (ansOk [if b then 1 else 0]))

/-! ### What a between-jobs apply changes (R46) -/

/-- Granules of usable memory under an effective RAKE_OUT. -/
def usableGranules (out : BitVec 16) : Nat := rangeGranules * (rakesIn out).length

/-- R37: the regions of a configuration. -/
def regionsUnder (c : Consist) (out : BitVec 16) : List Region :=
  if c.regionsGiven then c.regions
  else [{ base := 0, size := usableGranules out, secure := false, owner := 0, access := 0xFF, snapArea := false, rakeLocal := false,
          rake := 0 }]

/-- What R46 compares of the region that a granule lies in: its number, WORLD, OWNER, INTERLEAVE and RAKE. -/
def granuleKey (rs : List Region) (g : Nat) : Option (Nat × Bool × Nat × Bool × Nat) :=
  match rs.findIdx? fun r => decide (r.base ≤ g) && decide (g < r.base + r.size) with
  | some i => (rs[i]?).map fun r => (i, r.secure, r.owner, r.rakeLocal, r.rake)
  | none => none

/-- R314 for the regions of a configuration over `n` rake ranges. -/
def globalStripe (rs : List Region) (n l : Nat) : Bool :=
  rs.any fun r => !r.rakeLocal && (rangeFrom 0 n).any fun j =>
    decide (r.base ≤ j * rangeGranules + l) && decide (j * rangeGranules + l < r.base + r.size)

/-- The intervals between the points of a list. -/
def intervals : List Nat → List (Nat × Nat)
  | a :: b :: l => (a, b) :: intervals (b :: l)
  | _ => []

/-- Where regions begin and end. -/
def edges (rs : List Region) : List Nat := rs.flatMap fun r => [r.base, r.base + r.size]

def zeroGranules (s : State) (lo hi : Nat) : State := memZero s (lo * 2 ^ 21) (hi * 2 ^ 21)

/-- R46 step 2: memory zeroed from one configuration to another. -/
def zeroChanged (s : State) (old new : List Region) (oldOut newOut : BitVec 16) : State :=
  if oldOut ≠ newOut then memZero s 0 (16 * rakeRange)
  else
    let n := (rakesIn newOut).length
    let top := usableGranules newOut
    let cuts := ((edges old ++ edges new).map fun g => min g top).foldl nadd [0, top]
    let s := ((intervals cuts).filter fun x => granuleKey old x.1 != granuleKey new x.1).foldl (fun s x => zeroGranules s x.1 x.2) s
    let local' := ((edges old ++ edges new).map fun g => g % rangeGranules).foldl nadd [0, rangeGranules]
    ((intervals local').filter fun x => globalStripe old n x.1 != globalStripe new n x.1).foldl (fun s x =>
      (rangeFrom 0 n).foldl (fun s j => zeroGranules s (j * rangeGranules + x.1) (j * rangeGranules + x.2)) s) s

/-- R85: coach memory and yards cleared. -/
def clearCoachMemory (s : State) : State :=
  memZero (memZero s 0xFE0000000000 (0xFE0000000000 + 512 * 0x80000)) 0xFE0010000000 (0xFE0010000000 + 16 * 0x800000)

/-- MEM_STATUS.IN_SERVICE and TOP, and the state of each channel (R313, MEM_CH_ERR). -/
def fixMap (s : State) : State :=
  let out := s.consist.rakeOut
  let s := regPut s rMemStatus 47 32 (2 ^ 16 - 1 - out.toNat)
  let s := regPut s rMemStatus 15 0 (168 * (rakesIn out).length)
  let s := (rangeFrom 0 384).foldl (fun s c =>
    let st := regBits s (rChErr c) 31 28
    if st = 0 ∨ st = 2 then s else regPut s (rChErr c) 31 28 (if out.getLsbD (c / 24) then 3 else 1)) s
  remapMem s

/-- Every coach excluded or idle; one that a self-test slice holds stays drained. -/
def setCoaches (s : State) : State :=
  (rangeFrom 0 512).foldl (fun s c =>
    let cond : CoachCond := if coachInService s c then .idle else .excluded
    match s.bist.run with
    | some sl =>
      if sliceCoach sl.slice = some c then { s with bist := { s.bist with run := some { sl with saved := some cond } } }
      else putCoach s c { getCoach s c with cond := cond }
    | none => putCoach s c { getCoach s c with cond := cond }) s

/-- R16, R46: each port as the new topology has it. -/
def setPorts (s : State) : State :=
  (rangeFrom 0 10).foldl (fun s n =>
    if portMayRun s n then (if portSt s n = 0 ∨ portSt s n = 7 then enterDetect s n else s)
    else disableNow s n) s

/-- R372, R395: a guard whose world changes restarts: a request that it has taken is answered ABORTED_RESUBMIT (R368), that of the apply
itself among them (log 39). -/
def setGuards (s : State) (worlds : BitVec 8) : State :=
  (rangeFrom 0 5).foldl (fun s g =>
    let w := if worlds.getLsbD g then 1 else 0
    if regBits s (rCfgGuard g) 59 59 = w then s
    else regPut (resubmitGuard s g) (rCfgGuard g) 59 59 w) s

/-- R348: ring pairs that lose a part of their area are closed. -/
def closeRings (s : State) : State :=
  ((rangeFrom 0 128).filter fun p => ringEnabled s (2 * p) && !(hostArea s (2 * p) && hostArea s (2 * p + 1))).foldl (fun s p =>
    let role := ringRole s (2 * p)
    let t := [2 * p, 2 * p + 1].foldl (fun s r => storeFlash (regPut s (rRingCfg r) 63 63 0) [rRingCfg r]) s
    eventTo (notifyWords s t) role 0x10 (leBytes 1 1 ++ leBytes 1 p ++ leBytes 1 5)) s

/-- Table 8.1: what fixes the snapshot store. -/
def storeShape (c : Consist) (out : BitVec 16) : List Region × Bool :=
  ((regionsUnder c out).filter fun r => r.snapArea, c.topology.pPresent.getLsbD 1 && decide (2 ≤ c.topology.hubCount))

/-- R330: a port whose role is unused has its link down, and its connections end. -/
def idleEthPorts (s : State) : State :=
  ((rangeFrom 0 2).filter fun p => decide (2 ≤ portRole s p)).foldl (fun s p => closePort (regPut s (rEthStatus p) 63 63 0) p 4) s

/-- R46 steps 2 and 3. A unit that has failed since the apply was accepted is not in its exclusion, and its refusal stands (R94, R329). -/
def applyStructure (s : State) (a : ConsistApply) : State :=
  let c := s.consist
  let old := c.cfg
  let storeChanged := storeShape old c.rakeOut != storeShape a.merged a.exclRake || c.rakeOut != a.exclRake
  let s := zeroChanged s (regionsUnder old c.rakeOut) (regionsUnder a.merged a.exclRake) c.rakeOut a.exclRake
  let same := exclOf s a.merged == a.exclCoach && rakeOutOf s a.merged == a.exclRake
  let cfg := { a.merged with limits := old.limits, cooling := old.cooling, reactions := old.reactions, peal := old.peal }
  let s := putConsist (clearCoachMemory s)
    { c with cfg := cfg, excl := a.exclCoach, rakeOut := a.exclRake, applied := true
             unitFailed := if same then none else c.unitFailed
             apply := some { a with structureDone := true } }
  let s := fixStore (fixMap (setCoaches s))
  let s := if storeChanged then emptyStore ((rangeFrom 0 3).foldl supersedeDrains s) else if a.boot then restoreSlots s else s
  let s := applyPtp (regPut (setPorts s) rG4c 63 32 cfg.drum.bucketMj)
  let s := if a.boot then setSource s else applySource s
  closeRings (setGuards (idleEthPorts s) cfg.worlds.guardSecure)

/-! ### The live sections (R47, R52) -/

/-- The COOL registers of a cooling section. -/
def coolRegs (c : Cooling) : List (Nat × W64) :=
  ((rangeFrom 0 12).flatMap fun k =>
    let o := lget ⟨0, 0, 0, 0, [], []⟩ c.outs k
    let skip := fun (f : Nat × Nat → Nat) => lsum ((rangeFrom 0 4).map fun b => f (lget (0, 0) o.skip b) * 2 ^ (8 * b))
    [(rCoolCfg k, BitVec.ofNat 64 (o.role * 2 ^ 24 + o.driver * 2 ^ 16 + o.minDuty * 2 ^ 8 + o.spinup)),
     (rCoolCurve k, BitVec.ofNat 64 (lsum ((rangeFrom 0 4).map fun p =>
        ((lget (0, 0) o.curve p).1 * 2 ^ 8 + (lget (0, 0) o.curve p).2) * 2 ^ (16 * p)))),
     (rSkipLo k, BitVec.ofNat 64 (skip fun x => x.1)), (rSkipHi k, BitVec.ofNat 64 (skip fun x => x.2))]) ++
  (rangeFrom 0 2).map fun i => (rLeakMv i, BitVec.ofNat 64 (lsum ((rangeFrom 0 4).map fun j => lget 0 c.leakMv (4 * i + j) * 2 ^ (16 * j))))

/-- R47, R52: registers set in both copies; the staged values of their groups are discarded. -/
def applyRegs (s : State) (l : List (Nat × W64)) : State :=
  let groups := l.map fun e => commitOf e.1
  let lost := s.staged.filter fun e => groups.contains (commitOf e.1)
  let s := lost.foldl (fun s e => regPut s (commitOf e.1).1 39 39 1) (unstage s (lost.map fun e => e.1))
  l.foldl (fun s e => regSet s e.1 e.2) s

/-- R360: the role caps at the defaults, with the clamp list of R47: ROLE, WHICH, before, after. -/
def applyCaps (s : State) : State × List (Nat × Nat × Nat × Nat) :=
  let h := s.host
  let l := s.consist.cfg.limits
  let was := [(1, 0, h.capHubHost, l.hubDefault), (1, 1, h.capTrayHost, l.trayDefault),
              (2, 0, h.capHubRack, l.hubDefault), (2, 1, h.capTrayRack, l.trayDefault)]
  (defaultCaps s, was.filter fun (x : Nat × Nat × Nat × Nat) => x.2.2.1 != x.2.2.2)

/-- R47: the live sections of a merged image, all at once. -/
def applyLive (s : State) (m : Consist) : State × List (Nat × Nat × Nat × Nat) :=
  let s := putConsist s { s.consist with cfg := { s.consist.cfg with
    limits := m.limits, cooling := m.cooling, reactions := m.reactions, peal := m.peal } }
  let s := applyRegs s (coolRegs m.cooling ++ (rangeFrom 0 1024).map fun x => (rReact x, BitVec.ofNat 64 (mergedReact m x)))
  let s := (rangeFrom 0 12).foldl coolCommitted (regPut s rFltCtl 63 48 m.reactions.quiet)
  let s := changeShares s m.limits.slopeShare
  let s := putPower s { s.power with budget := m.limits.slopeBudget }
  let (s, clampList) := applyCaps s
  (dropPolicy (syncLevels (syncCaps s)), clampList)

/-- R402: the sequence record of an apply. -/
def recordPeal (s : State) (m : Consist) : State :=
  putPeal s { s.peal with record := some { ref := m.peal, aPresent := m.topology.aPresent } }

/-! ### Applying -/

/-- CFG_CONSIST_STATE.STATE. -/
def setConsistState (s : State) (x : Nat) : State := regPut s rConsist 23 20 x

/-- R490: each partner that holds another address than the topology's is given that one. -/
def reassign (s : State) : State :=
  (rangeFrom 0 8).foldl (fun s n =>
    if watchOpen s n ∧ regBits s (rSidePart n) 59 53 ≠ lget 0 s.consist.cfg.topology.i3cAddr n then assignAddress s n else s) s

/-- R46 step 5, R47: the apply completes: the slot is active, the floor may rise, the reply goes out. -/
def finishApply (s : State) (a : ConsistApply) : State :=
  let c := s.consist
  let seq := imgSeq a.image
  let keep := a.boot && !a.fallback
  let s := putConsist s { c with apply := none, activeSlot := some a.slotB, booted := true
                                 pendingImg := if keep then c.pendingImg else false
                                 floor := if imgRaiseFloor a.image then max c.floor seq else c.floor }
  let s := regPut (regPut s rConsist 63 32 seq) rConsist 31 24 a.merged.preset
  let s := regPut (setConsistState s (if a.fallback then 3 else 1)) rConsist 16 16 (if a.slotB then 1 else 0)
  let s := if a.boot then regPut s rBoot 31 16 (bootMs s) else s
  let s := if !a.boot && a.was == 0 then { s with board := { s.board with applyMark := s.drum.beats + 1 } } else s
  let entries := a.clamps.flatMap fun (x : Nat × Nat × Nat × Nat) =>
    leBytes 1 x.1 ++ leBytes 1 x.2.1 ++ leBytes 2 0 ++ leBytes 4 x.2.2.1 ++ leBytes 4 x.2.2.2
  let s := if a.role = 0 then s
    else answerOwed s 0x42 (some (a.role - 1)) (ansOk (leBytes 8 a.applyBeat ++ leBytes 2 a.clamps.length ++ entries))
  if a.betweenJobs && portActive s 8 then sendMirSlots s else s

/-- R45: whether an apply of a merged image is a between-jobs apply. -/
def isBetween (s : State) (m : Consist) : Bool :=
  let act := match s.consist.activeSlot with | some b => imageConsist (slotImage s b) | none => presetConsist 6
  !s.consist.applied || s.consist.activeSlot.isNone || differBetweenJobs m act || s.consist.unitFailed.isSome ||
  exclOf s m != s.consist.excl || rakeOutOf s m != s.consist.rakeOut

/-- CONSIST_APPLY (R45): the rules across sections are checked again against the effective exclusion (R94). -/
def msgConsistApply (q : Req) (body : List Byte) (s : State) : State :=
  request s q body 0x42 true (body == []) none true fun s =>
    match consistBusy s with
    | some r => busyWith s r
    | none =>
      if !s.consist.pendingImg then (lastReason s 0x0D, some (refuse ⟨0x0D, 0, 0⟩))
      else
        let b := s.consist.pendingAt
        let img := slotImage s b
        let m := imageConsist img
        let between := isBetween s m
        if between && s.host.job.isSome then (lastReason s 0x0C, some (refuse ⟨0x0C, 0, 0⟩))
        else match checkBody (checkCtx s true) img with
          | .error r => (lastReason s r.reason, some (refuse r))
          | .ok _ =>
            let a : ConsistApply :=
              { role := q.role + 1, betweenJobs := between, boot := false, fallback := false, slotB := b, image := img, merged := m
                exclCoach := exclOf s m, exclRake := rakeOutOf s m, structureDone := false, beatDone := false
                applyBeat := 0, was := consistState s, clamps := [] }
            (setConsistState (putConsist s { s.consist with apply := some a }) 2, none)

/-- CONSIST_APPLY: the message arrives. -/
def execConsistApply (q : Req) (body : List Byte) (s : State) : Host.Outcome State Fault Refusal :=
  .next (arrive s q 0x42 body (msgConsistApply q body))

/-- Steps 2 and 3 of R46, once; they wait for the kernels of a job that has ended. -/
def structureNow (s : State) (a : ConsistApply) : State × ConsistApply :=
  if a.betweenJobs && !a.structureDone then (applyStructure s a, { a with structureDone := true }) else (s, a)

/-- APPLY_BEAT (R47): a between-jobs apply that has not completed its structure does so first. -/
def execApplyBeat (s : State) : Host.Outcome State Fault Refusal :=
  match s.consist.apply with
  | none => .next s
  | some a =>
    if a.beatDone ∨ (a.betweenJobs ∧ s.host.ending.isSome) then .next s
    else
      let early := a.betweenJobs && !a.structureDone
      let (s, a) := structureNow s a
      let (s, clampList) := applyLive (recordPeal s a.merged) a.merged
      let s := if a.betweenJobs then reassign s else s
      let a := { a with beatDone := true, applyBeat := s.drum.count.toNat, clamps := clampList }
      if a.betweenJobs && early then .next (putConsist s { s.consist with apply := some a })
      else .next (finishApply s a)

/-- APPLY_COMPLETE (R46): zeroing and reprogramming finish; the apply completes once its live sections are in effect. -/
def execApplyComplete (s : State) : Host.Outcome State Fault Refusal :=
  match s.consist.apply with
  | none => .next s
  | some a =>
    if !a.betweenJobs ∨ s.host.ending.isSome then .next s
    else
      let (s, a) := structureNow s a
      if a.beatDone then .next (finishApply s a) else .next (putConsist s { s.consist with apply := some a })

/-! ### The boot apply (R27, R28) -/

/-- R28, R53: the hub reports NO_CONSIST. Partners that have power lose it, and no run powers one. -/
def reportNone (s : State) : State :=
  let m := presetConsist 6
  let s := idleEthPorts (putConsist s { s.consist with booted := true, applied := false, activeSlot := none, cfg := m })
  let s := applyPtp (setConsistState (regPut s rConsist 31 24 6) 0)
  let s := (applyLive s m).1
  let s := putPeal s { s.peal with record := none }
  let s := unpowerPartners s
  if regBits s rMemStatus 63 60 = 3 then fixMap (putConsist s { s.consist with rakeOut := failedRakes s }) else s

/-- R27: the apply of a slot at a boot. -/
def startBoot (s : State) (b fallback : Bool) (m : Consist) : State :=
  if regBits s rMemStatus 63 60 ≠ 3 then s
  else
    let a : ConsistApply :=
      { role := 0, betweenJobs := true, boot := true, fallback := fallback, slotB := b, image := slotImage s b, merged := m
        exclCoach := exclOf s m, exclRake := rakeOutOf s m, structureDone := false, beatDone := false
        applyBeat := 0, was := consistState s, clamps := [] }
    putConsist s { s.consist with apply := some a }

/-- CONSIST_BOOT_APPLY (R27): the active slot, else the other one, which is not held against the active sequence (DEDUCED). An
apply waits for memory to be READY; NO_CONSIST does not. The failure of the active slot is logged in LAST_REASON alone: the spec names
no record for it (DESIGN CHOICE, log 116). -/
def execConsistBootApply (s : State) : Host.Outcome State Fault Refusal :=
  if s.mainDom ≠ .up ∨ s.consist.booted ∨ s.consist.apply.isSome ∨ !guardRuns s 5 then .next s
  else match s.consist.activeSlot with
    | none => .next (reportNone s)
    | some b =>
      if (ownerKey s).isNone then .next (reportNone s)
      else match checkImage (checkCtx s true) (slotImage s b) (slotImage s b).length with
        | .ok m => .next (startBoot s b false m)
        | .error r =>
          match checkImage (checkCtx s false) (slotImage s !b) (slotImage s !b).length with
          | .ok m => .next (startBoot (if regBits s rMemStatus 63 60 = 3 then lastReason s r.reason else s) (!b) true m)
          | .error _ => .next (reportNone (lastReason s r.reason))

end Sys2Proof.Machine
end

