-- ==== Sys2Proof/Machine/Carriage.lean ====
section
/-! DEFINITION. Chapter 12: the Carriage messages of the roles: status, registers, rings, connections, jobs, orders, caps, and what
reports faults, energy and the Peal log (R335, R339, R346, R347, R359 to R365, R367, R416, R445, R455, R459, R500). -/

namespace Sys2Proof.Machine

def bitOf (b : Bool) : Nat := if b then 1 else 0

/-! ### Status and registers -/

/-- The reply of STATUS_GET; the order of Table 12.5, where each part lies being the model's own (DESIGN CHOICE). -/
def statusBody (s : State) : List Byte :=
  let h := s.host
  let b := leBytes 8 (readReg s rConsist).toNat ++ leBytes 4 (regGet s rRingSvc).toNat ++ leBytes 8 (readReg s rDrumStatus).toNat ++
    leBytes 1 (bitOf !h.offHost) ++ leBytes 1 (bitOf !h.offRack) ++ leBytes 4 h.capHubHost ++ leBytes 4 h.capTrayHost ++
    leBytes 4 h.capHubRack ++ leBytes 4 h.capTrayRack ++ leBytes 4 (capMw s / 1000) ++ leBytes 4 (trayCap s) ++
    leBytes 1 (bitOf h.job.isSome) ++ leBytes 8 (match h.job with | some j => j.id | none => 0)
  b ++ List.replicate (64 - b.length) 0

/-- STATUS_GET. -/
def msgStatusGet (q : Req) (body : List Byte) (s : State) : State :=
  request s q body 0x01 true (body == []) none true fun s => (s, some (ansOk (statusBody s)))

/-- STATUS_GET: the message arrives. -/
def execStatusGet (q : Req) (body : List Byte) (s : State) : Host.Outcome State Fault Refusal :=
  .next (arrive s q 0x01 body (msgStatusGet q body))

/-- IDENTITY_GET: ID_PART, ID_IDKEY, ID_VENDOR and ID_OWNERH. -/
def msgIdentityGet (q : Req) (body : List Byte) (s : State) : State :=
  request s q body 0x02 true (body == []) none true fun s =>
    let four := fun (f : Nat → Nat) => (rangeFrom 0 4).flatMap fun i => leBytes 8 (readReg s (f i)).toNat
    (s, some (ansOk (leBytes 4 (readReg s 0xC00000).toNat ++ four rIdKey ++ four rVendor ++ four rOwnerH)))

/-- IDENTITY_GET: the message arrives. -/
def execIdentityGet (q : Req) (body : List Byte) (s : State) : Host.Outcome State Fault Refusal :=
  .next (arrive s q 0x02 body (msgIdentityGet q body))

/-- R500: the answer to an access that is refused; the port that carried the message is the initiator. -/
def refusedAccess (s : State) (q : Req) (e : RegErr) (addr : Nat) : State × Option Ans :=
  (refuseReg s (srcEth (reqPort s q)) e addr, some (match e with | .world => ansStatus 7 | _ => ansRefused 1))

/-- REG_READ (R500). -/
def msgRegRead (q : Req) (body : List Byte) (s : State) : State :=
  request s q body 0x03 true (body.length == 9 && (field body 8 1 == 4 || field body 8 1 == 8)) none false fun s =>
    let addr := field body 0 8
    match regCheck s (ethSecure s) false addr (field body 8 1) with
    | .error e => refusedAccess s q e addr
    | .ok _ => (readEffect s (addr - regSpace), some (ansOk (leBytes 8 (readReg s (addr - regSpace)).toNat)))

/-- REG_READ: the message arrives. -/
def execRegRead (q : Req) (body : List Byte) (s : State) : Host.Outcome State Fault Refusal :=
  .next (arrive s q 0x03 body (msgRegRead q body))

/-- REG_WRITE (R500): a value for a 32-bit register carries zeros in bytes 4 to 7. -/
def msgRegWrite (q : Req) (body : List Byte) (s : State) : State :=
  request s q body 0x04 true (body.length == 17 && (field body 8 1 == 4 || field body 8 1 == 8)) none false fun s =>
    let addr := field body 0 8
    let v := BitVec.ofNat 64 (field body 9 8)
    match regCheck s (ethSecure s) true addr (field body 8 1) with
    | .error e => refusedAccess s q e addr
    | .ok (d, _, port) =>
      if d.w32 && field body 13 4 != 0 then (s, some (ansStatus 6))
      else (writeReg s (srcEth (reqPort s q)) (addr - regSpace) d port v, some (ansOk []))

/-- REG_WRITE: the message arrives. -/
def execRegWrite (q : Req) (body : List Byte) (s : State) : Host.Outcome State Fault Refusal :=
  .next (arrive s q 0x04 body (msgRegWrite q body))

/-! ### Rings and connections -/

/-- R347: the four registers of a pair as RING_SETUP sets them. The completion ring's area follows the submission ring's at the next
4 KiB (DESIGN CHOICE: the message has one BASE). -/
def ringSetup (s : State) (role : Nat) (body : List Byte) : State :=
  let b := fun (i : Nat) => field body i 1
  let a := 2 * b 0
  let cfg := BitVec.ofNat 64 (b 1 * 2 ^ 63 + b 2 * 2 ^ 60 + role * 2 ^ 59 + b 3 * 2 ^ 55 + b 4 * 2 ^ 49 + b 5 * 2 ^ 41 + b 6 * 2 ^ 37 +
    b 7 * 2 ^ 36)
  let base := field body 8 8
  let s := regSet (regSet (regSet s (rRingCfg a) cfg) (rRingCfg (a + 1)) cfg) (rRingBase a) (BitVec.ofNat 64 base)
  regSet s (rRingBase (a + 1)) (BitVec.ofNat 64 ((base + ringArea s a + 4095) / 4096 * 4096))

/-- RING_SETUP (R347): DENIED where the role's world does not write the RING block (R357). -/
def msgRingSetup (q : Req) (body : List Byte) (s : State) : State :=
  let b := fun (i : Nat) => field body i 1
  let lenOk := body.length == 16 && decide (b 0 < 128) && decide (b 1 < 2) && decide (b 2 < 8) && decide (b 3 < 16) && decide (b 4 < 64) &&
    decide (b 6 < 16) && decide (b 7 < 2) && field body 8 8 % 4096 == 0 && decide (field body 8 8 < 2 ^ 48)
  request s q body 0x10 ((q.role == 1) == (b 0 == 1)) lenOk (some 1) false fun s =>
    let p := b 0
    if !ethSecure s && s.consist.cfg.worlds.blockSecure.getLsbD 6 then refusedAccess s q .world (regSpace + rRingBase (2 * p))
    else
      let regs := [rRingBase (2 * p), rRingCfg (2 * p), rRingBase (2 * p + 1), rRingCfg (2 * p + 1)]
      let t := ringSetup (unstage s regs) q.role body
      if pairRule s t p then (notifyWords s (storeFlash t regs), some (ansOk [])) else (s, some (ansRefused 1))

/-- RING_SETUP: the message arrives. -/
def execRingSetup (q : Req) (body : List Byte) (s : State) : Host.Outcome State Fault Refusal :=
  .next (arrive s q 0x10 body (msgRingSetup q body))

/-- A connection of a role. -/
def ownConn (s : State) (role k : Nat) : Bool := match getConn s k with | some c => c.role == role | none => false

/-- NOTIFY_SET (R346). -/
def msgNotifySet (q : Req) (body : List Byte) (s : State) : State :=
  request s q body 0x11 true (body.length == 16 && field body 1 3 == 0 && field body 8 8 % 4096 == 0) (some 1) false fun s =>
    if ownConn s q.role (field body 0 1) then
      let t : Target := { conn := field body 0 1, addr := field body 8 8, key := field body 4 4 }
      (putHost s { s.host with target := kput s.host.target q.role t }, some (ansOk []))
    else (s, some (ansStatus 6))

/-- NOTIFY_SET: the message arrives. -/
def execNotifySet (q : Req) (body : List Byte) (s : State) : Host.Outcome State Fault Refusal :=
  .next (arrive s q 0x11 body (msgNotifySet q body))

/-- CONN_OPEN (R339): the lowest free number; the hub's queue pair, starting PSN and R_KEY are free values. -/
def msgConnOpen (q : Req) (body : List Byte) (s : State) : State :=
  let lenOk := body.length == 28 && decide (field body 0 4 < 2 ^ 24) && decide (field body 4 4 < 2 ^ 24) && decide (field body 8 1 < 3) &&
    field body 9 3 == 0
  request s q body 0x12 true lenOk (some 1) false fun s =>
    match (rangeFrom 0 64).find? fun k => (getConn s k).isNone with
    | none => busyWith s (q.role + 1)
    | some k =>
      if q.role = 1 ∧ 4 ≤ (s.host.conns.filter fun e => e.2.role == 1).length then busyWith s 2
      else
        let (s, a) := takeFree s
        let (s, b) := takeFree s
        let (s, r) := takeFree s
        let hubQpn := a.toNat % 2 ^ 24
        let psn := b.toNat % 2 ^ 24
        let key := r.toNat % 2 ^ 32
        let c : Conn :=
          { role := q.role, port := reqPort s q, qpn := field body 0 4, gid := body.drop 12, mtu := 1024 * 2 ^ field body 8 1
            expect := field body 4 4, psn := psn, sent := [], hubQpn := hubQpn, rkey := key, rate := 100000, retries := 0, write := none
            cnpAt := 0, held := [], reads := 0 }
        (putConn s k c, some (ansOk (leBytes 4 k ++ leBytes 4 hubQpn ++ leBytes 4 psn ++ leBytes 4 key)))

/-- CONN_OPEN: the message arrives. -/
def execConnOpen (q : Req) (body : List Byte) (s : State) : Host.Outcome State Fault Refusal :=
  .next (arrive s q 0x12 body (msgConnOpen q body))

/-- CONN_CLOSE (R339). -/
def msgConnClose (q : Req) (body : List Byte) (s : State) : State :=
  request s q body 0x13 true (body.length == 1) none false fun s =>
    if ownConn s q.role (field body 0 1) then (closeConn s (field body 0 1) 1, some (ansOk [])) else (s, some (ansStatus 6))

/-- CONN_CLOSE: the message arrives. -/
def execConnClose (q : Req) (body : List Byte) (s : State) : Host.Outcome State Fault Refusal :=
  .next (arrive s q 0x13 body (msgConnClose q body))

/-- ADDR_SET (R335): the Ethernet settings of the role's own port, in one commit. -/
def msgAddrSet (q : Req) (body : List Byte) (s : State) : State :=
  request s q body 0x14 true (body.length == 32) none false fun s =>
    let p := rolePort s q.role
    let regs := [rEthIp4 p, rEthIp6H p, rEthIp6L p, rEthCtl p]
    let t := (rangeFrom 0 4).foldl (fun s i =>
      let a := lget 0 regs i
      regSet s a (wordOf body i &&& stagedMask a)) (unstage s regs)
    if ethRule t p = 0 then (committed s (storeFlash t regs) 0xDFFF00 [p], some (ansOk [])) else (s, some (ansRefused 1))

/-- ADDR_SET: the message arrives. -/
def execAddrSet (q : Req) (body : List Byte) (s : State) : Host.Outcome State Fault Refusal :=
  .next (arrive s q 0x14 body (msgAddrSet q body))

/-- HEARTBEAT (R367). -/
def msgHeartbeat (q : Req) (body : List Byte) (s : State) : State :=
  let ms := field body 0 4
  let act := field body 4 1
  let lenOk := body.length == 5 && (ms == 0 || (decide (100 ≤ ms) && decide (ms ≤ 60000))) && decide (act ≤ (if q.role = 0 then 1 else 0))
  request s q body 0x15 true lenOk none false fun s =>
    let s := putHost s { s.host with interval := kset 0 s.host.interval q.role ms }
    (if q.role = 0 then regPut (regPut s rSilence 63 48 (ms / 100)) rSilence 47 47 act else regPut s rSilence 31 16 (ms / 100),
      some (ansOk []))

/-- HEARTBEAT: the message arrives. -/
def execHeartbeat (q : Req) (body : List Byte) (s : State) : Host.Outcome State Fault Refusal :=
  .next (arrive s q 0x15 body (msgHeartbeat q body))

/-! ### Jobs -/

/-- Every counter that is cleared at job start. -/
def clearJobCounters (s : State) : State :=
  let s := regPut (regSet s rSstat 0) rCollStat 47 0 0
  let s := regSet (regPut (regPut s rSnapMirror 31 0 0) rG4c 31 0 0) rDrumLate 0
  let s := (rangeFrom 0 8).foldl (fun s n =>
    putTrain (regSet s (rCollFull n) 0) n { getTrain s n with txnBeats := 0, drayBeats := 0 }) s
  let s := (rangeFrom 0 256).foldl (fun s r => regPut s (rRingStat r) 63 32 0) s
  (rangeFrom 0 128).foldl (fun s i => regPut s (rCplRingStat (i / 16) (i % 16)) 63 32 0) s

/-- R363: what forbids a job start besides a running job and a unit failure. -/
def jobForbidden (s : State) : Bool :=
  s.consist.apply.isSome || s.snap.restore.isSome || s.snap.importing.isSome || s.host.ending.isSome || !orderOn s || s.board.bad54 ||
  s.board.bad12 || !(consistState s == 1 || consistState s == 3)

/-- R261. -/
def drumForbids (s : State) : Bool :=
  let t := s.consist.cfg.topology
  decide (2 ≤ t.hubCount) && !(drumState s == 2 || (drumState s == 0 && t.hubIndex == 0))

/-- R83: the launch block of its persistent service kernel queued on every train whose SERVICE is collective, state service or
snapshot. -/
def queueServices (s : State) : State :=
  (rangeFrom 0 s.consist.cfg.trains.length).foldl (fun s t =>
    let v := (lget { rakes := 0, service := 0 } s.consist.cfg.trains t).service
    if v = 1 ∨ v = 2 ∨ v = 3 then
      let u := getTrain s t
      putTrain s t { u with queue := u.queue ++ [{ raw := Config.serviceBlock t, src := .firmware }] }
    else s) s

/-- R363: a job is accepted. -/
def startJob (s : State) (id : Nat) (seed : W64) (startBeat : Nat) : State × Option Ans :=
  let s := queueServices (emptyDirectories (clearCoachMemory (clearJobCounters s)))
  let s := if s.consist.cfg.drum.g4cMode then regPut s rG4c 63 32 s.consist.cfg.drum.bucketMj else s
  let s := regSet s rSeed seed
  let ports := (populated s).filter fun n => portActive s n
  let first := max startBeat (s.drum.count.toNat + 2500)
  let mask := lsum (ports.map fun n => 2 ^ n)
  let j : Job := { id := id, seed := seed, firstBeat := BitVec.ofNat 64 first, ports := BitVec.ofNat 8 mask }
  let s := { s with host := { s.host with job := some j }, colls := { s.colls with pools := [], opens := 0, turn := 0 } }
  (ports.foldl (fun s n => sendCtl s n 3 [(8, first)]) s, some (ansOk (leBytes 8 first ++ leBytes 1 mask)))

/-- JOB_START (R363, R45). -/
def msgJobStart (q : Req) (body : List Byte) (s : State) : State :=
  request s q body 0x20 (q.role == 0) (body.length == 24) (some 5) false fun s =>
    if s.host.job.isSome then (s, some (ansStatus 9))
    else match s.consist.unitFailed with
      | some d => (s, some ⟨8, [], 0, d⟩)
      | none =>
        if jobForbidden s then
          let (s, ms) := freeRetry s
          (s, some (ansRetry ms))
        else if drumForbids s then (s, some (ansRetry 100))
        else startJob s (field body 0 8) (wordOf body 1) (field body 16 8)

/-- JOB_START: the message arrives. -/
def execJobStart (q : Req) (body : List Byte) (s : State) : Host.Outcome State Fault Refusal :=
  .next (arrive s q 0x20 body (msgJobStart q body))

/-- JOB_END (R365, R239): the reply follows once every kernel has stopped, or the take that holds it. -/
def msgJobEnd (q : Req) (body : List Byte) (s : State) : State :=
  request s q body 0x21 (q.role == 0) (body.length == 8) none false fun s =>
    match s.host.job with
    | none => (s, some (ansStatus 0xA))
    | some j =>
      if j.id ≠ field body 0 8 then (s, some (ansRefused 1))
      else if s.snap.take.isSome then (putHost s { s.host with heldEnd := some q }, none)
      else (endJob s 2 none true, none)

/-- JOB_END: the message arrives. -/
def execJobEnd (q : Req) (body : List Byte) (s : State) : Host.Outcome State Fault Refusal :=
  .next (arrive s q 0x21 body (msgJobEnd q body))

/-! ### Power orders and caps (R359 to R362) -/

/-- A role's order. PERSIST stores it, by G5 alone (R370, log 114). -/
def setOrder (s : State) (role : Nat) (off persist : Bool) : State :=
  let h := s.host
  let h := if role = 0 then { h with offHost := off } else { h with offRack := off }
  let h := if persist && guardRuns s 5 then (if role = 0 then { h with storedOffHost := off } else { h with storedOffRack := off }) else h
  let t := putHost s h
  if orderOn t = orderOn s then t
  else
    let t := orderMoved s t
    emitEvent t 2 (capData t)

/-- POWER_SET (R359). -/
def msgPowerSet (q : Req) (body : List Byte) (s : State) : State :=
  let on := field body 0 1 == 1
  request s q body 0x30 true (body.length == 2 && decide (field body 0 1 < 2) && decide (field body 1 1 < 2)) (some 6) false fun s =>
    let other := if q.role = 0 then s.host.offRack else s.host.offHost
    let s := setOrder s q.role (!on) (field body 1 1 == 1)
    (s, some (if on && other then ⟨3, [], 0, 2 - q.role⟩ else ansOk []))

/-- POWER_SET with the ORDER of a row arrives; a body that carries the other ORDER is the other row's. -/
def powerSet (q : Req) (body : List Byte) (on : Bool) (s : State) : State :=
  if body.length = 2 ∧ field body 0 1 = (if on then 0 else 1) then s else arrive s q 0x30 body (msgPowerSet q body)

/-- POWER_SET_ON. -/
def execPowerSetOn (q : Req) (body : List Byte) (s : State) : Host.Outcome State Fault Refusal := .next (powerSet q body true s)

/-- POWER_SET_OFF. -/
def execPowerSetOff (q : Req) (body : List Byte) (s : State) : Host.Outcome State Fault Refusal := .next (powerSet q body false s)

/-- R361: the answer to a request that set `own`, with the other role's value and the Consist maximum. -/
def capAnswer (role own other top : Nat) : Ans :=
  let eff := min (min own other) top
  if own ≤ eff then ansOk []
  else ⟨3, [], 0, if top = eff then 3 else if role = 0 then 2 else 1⟩

/-- CAP_SET (R360, R361). -/
def msgCapSet (q : Req) (body : List Byte) (s : State) : State :=
  request s q body 0x31 true (body.length == 8 && decide (field body 0 1 < 2) && field body 1 3 == 0) (some 6) false fun s =>
    let hub := field body 0 1 == 0
    let w := field body 4 4
    let l := s.consist.cfg.limits
    let top := if hub then l.hubMax else l.trayMax
    let h := s.host
    if w = 0 ∨ (hub = true ∧ w < l.hubMin) then (s, some (ansStatus 0xC))
    else
      let v := if w = 0xFFFFFFFF then top else w
      let other := if hub then (if q.role = 0 then h.capHubRack else h.capHubHost) else if q.role = 0 then h.capTrayRack else h.capTrayHost
      let h := if hub then (if q.role = 0 then { h with capHubHost := v } else { h with capHubRack := v })
        else if q.role = 0 then { h with capTrayHost := v } else { h with capTrayRack := v }
      (dropPolicy (syncCaps (putHost s h)), some (capAnswer q.role v other top))

/-- CAP_SET: the message arrives. -/
def execCapSet (q : Req) (body : List Byte) (s : State) : Host.Outcome State Fault Refusal :=
  .next (arrive s q 0x31 body (msgCapSet q body))

/-! ### Reports -/

/-- ENERGY_GET: the accumulators of job tags 0 to 15. -/
def msgEnergyGet (q : Req) (body : List Byte) (s : State) : State :=
  request s q body 0x32 true (body == []) none false fun s =>
    (s, some (ansOk ((rangeFrom 0 16).flatMap fun t => leBytes 8 (readReg s (rEnergy t)).toNat)))

/-- ENERGY_GET: the message arrives. -/
def execEnergyGet (q : Req) (body : List Byte) (s : State) : Host.Outcome State Fault Refusal :=
  .next (arrive s q 0x32 body (msgEnergyGet q body))

/-- Table 15.8. -/
def telemetryPage (page : Nat) : Option (List Nat) :=
  match page with
  | 0 => some [rPcapStatus, rPcapPower, rPcapEmerg, rDroop, rTrim, rTemp 0, rTemp 1]
  | 1 => some ((rangeFrom 0 8).map rThr)
  | 2 => some ((rangeFrom 0 8).map rPenergy)
  | 3 => some ((rangeFrom 0 12).map rCoolStatus)
  | 4 => some [rLeakRead 0, rLeakRead 1, rTrip]
  | _ => none

/-- TELEMETRY_GET (R445). -/
def msgTelemetryGet (q : Req) (body : List Byte) (s : State) : State :=
  request s q body 0x33 true (body.length == 2) none false fun s =>
    match telemetryPage (field body 0 2) with
    | some l => (s, some (ansOk (l.flatMap fun a => leBytes 8 (readReg s a).toNat)))
    | none => (s, some (ansStatus 6))

/-- TELEMETRY_GET: the message arrives. -/
def execTelemetryGet (q : Req) (body : List Byte) (s : State) : Host.Outcome State Fault Refusal :=
  .next (arrive s q 0x33 body (msgTelemetryGet q body))

/-- FAULT_READ (R455): up to COUNT messages, oldest first; an empty queue reads as one message of zeros (DEDUCED). -/
def msgFaultRead (q : Req) (body : List Byte) (s : State) : State :=
  let n := field body 0 2
  request s q body 0x70 true (body.length == 2 && decide (1 ≤ n) && decide (n ≤ 64)) none false fun s =>
    let b := s.belfry
    if b.queue = [] then (s, some (ansOk (List.replicate 16 0)))
    else ({ s with belfry := { b with queue := b.queue.drop n } }, some (ansOk ((b.queue.take n).flatMap msgBytes)))

/-- FAULT_READ: the message arrives. -/
def execFaultRead (q : Req) (body : List Byte) (s : State) : Host.Outcome State Fault Refusal :=
  .next (arrive s q 0x70 body (msgFaultRead q body))

/-- FAULT_ACK (R459). -/
def msgFaultAck (q : Req) (body : List Byte) (s : State) : State :=
  let src := field body 0 2
  let cls := field body 2 1
  request s q body 0x71 true (body.length == 3 && decide (src < 1024) && decide (1 ≤ cls) && decide (cls ≤ 3)) none false fun s =>
    (ackMsg s src cls, some (ansOk []))

/-- FAULT_ACK: the message arrives. -/
def execFaultAck (q : Req) (body : List Byte) (s : State) : Host.Outcome State Fault Refusal :=
  .next (arrive s q 0x71 body (msgFaultAck q body))

/-- R416: a record whose CODE checks. -/
def recordChecks (r : List Byte) : Bool := field r 56 8 == crc64 (r.take 56)

/-- LOG_READ (R416): from the record of an index, 0 the newest, toward older ones. -/
def msgLogRead (q : Req) (body : List Byte) (s : State) : State :=
  request s q body 0x72 true (body.length == 2) none false fun s =>
    (s, some (ansOk (((s.peal.log.reverse.drop (field body 0 2)).filter recordChecks).take 16).flatten))

/-- LOG_READ: the message arrives. -/
def execLogRead (q : Req) (body : List Byte) (s : State) : Host.Outcome State Fault Refusal :=
  .next (arrive s q 0x72 body (msgLogRead q body))

end Sys2Proof.Machine
end

