-- ==== Sys2Proof/Machine/Updates.lean ====
section
/-! DEFINITION. Chapter 13: enrolment, update sessions, activation and trials (R383 to R391, R394). -/

namespace Sys2Proof.Machine

/-! ### Image headers (Tables 13.5 to 13.7) -/

/-- "GLNKIMG1". -/
def imageMagic : List Byte := [0x47, 0x4C, 0x4E, 0x4B, 0x49, 0x4D, 0x47, 0x31]

/-- The image kind that a KIND code names. -/
def kindOf (h : List Byte) : Option Nat := (rangeFrom 0 4).find? fun k => kindCode k == field h 0xD 1

/-- Table 13.6: the body limit. -/
def kindLimit (k : Nat) : Nat := lget 0 [196608, 3 * 2 ^ 20 - 512, 60 * 2 ^ 20 - 512, 64 * 2 ^ 20 - 512] k

def imBodySize (h : List Byte) : Nat := field h 0x10 4
def imSigner (h : List Byte) : List Byte := (h.drop 0x60).take 32
def imPartners (h : List Byte) : Nat := field h 0x20 1

/-- A key is the vendor root key when its hash is the one that mask ROM holds. -/
def isVendor (key : List Byte) : Bool := (Config.sha512 key).take 32 == (Config.sha512 Config.vendorKey).take 32

/-- DEVICE of this hub. -/
def deviceHash : List Byte := (Config.sha512 Config.identityKey).take 32

/-- R383: the first step of Table 13.7 that a header fails. Reserved bytes count under FORMAT (DEDUCED). Recovery accepts one KIND
only (R378). -/
def headerReason (s : State) (h : List Byte) : Option Nat :=
  let zero := fun (o n : Nat) => field h o n == 0
  let bound := nbit (field h 0xE 1) 1
  if h.take 8 ≠ imageMagic then some 0x01
  else if !(field h 8 2 == 1 && decide (field h 0xE 1 < 4) && zero 0xF 1 && zero 0x21 31 && zero 0xC0 256 && (bound || zero 0x40 32)) then some 0x03
  else if field h 0xA 2 ≠ 0x4708 ∨ field h 0xC 1 ≠ 1 then some 0x02
  else match kindOf h with
    | none => some 0x10
    | some k =>
      if (k == 3) == (imPartners h == 0) || (s.trust.accepts != 0 && kindCode k != s.trust.accepts) then some 0x10
      else if k = 3 ∧ (ownerKey s).isNone then some 0x0E
      else if imBodySize h = 0 ∨ kindLimit k < imBodySize h then some 0x11
      else if imVersion h < floorOf s k then some 0x12
      else if field h 0x14 4 ≠ keyId (imSigner h) ∨ !(if k = 3 then ownerKey s == some (imSigner h) else isVendor (imSigner h)) then some 0x04
      else if !Config.edVerify (imSigner h) (h.take 0x1C0) ((h.drop 0x1C0).take 64) then some 0x05
      else if bound && (!s.trust.puf || (h.drop 0x40).take 32 != deviceHash) then some 0x07
      else none

/-! ### Sessions (R384, R385) -/

def putSession (s : State) (x : Session) : State := putTrust s { s.trust with session := some x }

/-- Whether a request comes from the session's holder. -/
def isHolder (s : State) (q : Req) (x : Session) : Bool := x.role == q.role && x.holder == viaAddr s q.role q.via

/-- BUSY for everyone but the holder: the holder's role, the remaining lock time and the holder's address, first byte first. -/
def lockedBy (s : State) (x : Session) : State × Option Ans :=
  let body := leBytes 4 (lockMs s) ++ (leBytes 16 x.holder).reverse
  let (s, ms) := freeRetry s
  (s, some ⟨2, body, ms, x.role + 1⟩)

/-- Table 13.8: a message of the holder in a state that allows it; `no` is the reason of every other one. -/
def inSession (s : State) (q : Req) (no : Nat) (allowed : Session → Bool) (act : Session → State × Option Ans) : State × Option Ans :=
  match s.trust.session with
  | none => (s, some (ansRefused no))
  | some x => if !isHolder s q x then lockedBy s x else if allowed x then act x else (s, some (ansRefused no))

/-- The reply body of the update messages: the session's state (DESIGN CHOICE: Table 12.5 says no more). -/
def sessionBody (s : State) : List Byte := [BitVec.ofNat 8 (match s.trust.session with | some x => x.state | none => 0)]

/-- The code of a target: slot A, slot B, the staging area. -/
def targetCode (s : State) (k : Nat) : Nat := if k = 3 then 2 else updTarget s k % 2

/-- UPD_BEGIN: the header; on a pass the target is marked empty. The reply gives the session identifier, a free value, and the
target. -/
def msgUpdBegin (q : Req) (body : List Byte) (s : State) : State :=
  request s q body 0x51 true (body.length == 512) none true fun s =>
    match s.trust.session with
    | some x => if isHolder s q x then (s, some (ansRefused 0x14)) else lockedBy s x
    | none =>
      match headerReason s body with
      | some r => (s, some (ansRefused r))
      | none =>
        let k := (kindOf body).getD 0
        let s := putImage s (updTarget s k) []
        let s := if k = 3 then putTrust s { s.trust with staged := none } else s
        let x : Session := { state := 1, kind := k, role := q.role, holder := viaAddr s q.role q.via, header := body, body := []
                             mark := s.drum.beats, piece := none, mode := 0 }
        let (s, v) := takeFree (putSession s x)
        (s, some (ansOk (leBytes 4 v.toNat ++ leBytes 1 (targetCode s k))))

/-- UPD_BEGIN: the message arrives. -/
def execUpdBegin (q : Req) (body : List Byte) (s : State) : Host.Outcome State Fault Refusal :=
  .next (arrive s q 0x51 body (msgUpdBegin q body))

/-- UPD_DATA: a piece to program (R356). -/
def msgUpdData (q : Req) (body : List Byte) (s : State) : State :=
  request s q body 0x52 true true none true fun s =>
    inSession s q 0x14 (fun x => x.state == 1) fun x =>
      let long := match q.via with | .udp _ _ _ => decide (1028 < body.length) | .ring => false
      if body.length < 4 ∨ long = true ∨ field body 0 4 ≠ x.body.length ∨ imBodySize x.header < x.body.length + (body.length - 4) then
        (s, some (ansStatus 6))
      else (putSession s { x with piece := some (body.drop 4) }, none)

/-- UPD_DATA: the message arrives. -/
def execUpdData (q : Req) (body : List Byte) (s : State) : Host.Outcome State Fault Refusal :=
  .next (arrive s q 0x52 body (msgUpdData q body))

/-- Table 13.4: where a partition begins in flash: those of the hub image kinds in slots A and B, and the staging area. -/
def partBase (key : Nat) : Nat := if key = 6 then 0x08000000 else key % 2 * 0x04000000 + lget 0 [0, 0x100000, 0x400000] (key / 2)

/-- Table 13.4: a partition's size. -/
def partSize (key : Nat) : Nat := if key = 6 then 64 * 2 ^ 20 else lget 0 [2 ^ 20, 3 * 2 ^ 20, 60 * 2 ^ 20] (key / 2)

/-- Table 13.4: the areas above the partitions, with their sizes: the authenticated region, the Peal area, the manufacturing area, and
what the hub never writes. -/
def flashAreas : List (Nat × Nat) :=
  [(0x0C000000, 16 * 2 ^ 20), (0x0D000000, 2 ^ 20), (0x0D100000, 2 ^ 20), (0x0D200000, 46 * 2 ^ 20)]

/-- Where a flash address falls in the piece that is being programmed: nowhere outside it can fail. -/
def pieceAddr (s : State) (x : Session) (n addr : Nat) : Nat :=
  let lo := partBase (updTarget s x.kind) + 512 + x.body.length
  max lo (min addr (lo + (n - 1)))

/-- UPD_DATA_PROGRAMMED (R385): the piece is programmed, or programming failed at a flash address and the session stays where it was. -/
def execUpdDataProgrammed (ok : Bool) (addr : Nat) (s : State) : Host.Outcome State Fault Refusal :=
  match s.trust.session with
  | some x =>
    match x.piece with
    | some d =>
      if ok then
        let s := putSession s { x with piece := none, body := x.body ++ d }
        .next (answerOwed s 0x52 none (ansOk (sessionBody s)))
      else .next (answerOwed (raise (putSession s { x with piece := none }) srcUpd 0x29 1 (pieceAddr s x d.length addr)) 0x52 none (ansRefused 0x16))
    | none => .next s
  | none => .next s

/-- UPD_END: the hub reads the body back. -/
def msgUpdEnd (q : Req) (body : List Byte) (s : State) : State :=
  request s q body 0x53 true (body == []) none true fun s =>
    inSession s q 0x14 (fun x => x.state == 1) fun x =>
      if x.body.length < imBodySize x.header then (s, some (ansStatus 6)) else (putSession s { x with state := 2 }, none)

/-- UPD_END: the message arrives. -/
def execUpdEnd (q : Req) (body : List Byte) (s : State) : Host.Outcome State Fault Refusal :=
  .next (arrive s q 0x53 body (msgUpdEnd q body))

/-- UPD_VERIFY_COMPLETE: `intact` says that the flash reads back what was programmed. The idle timer starts again. -/
def execUpdVerifyComplete (intact : Bool) (s : State) : Host.Outcome State Fault Refusal :=
  match s.trust.session with
  | some x =>
    if x.state ≠ 2 then .next s
    else if intact && Config.sha512 x.body == (x.header.drop 0x80).take 64 then
      let s := putSession (putImage s (updTarget s x.kind) (x.header ++ x.body)) { x with state := 3, mark := s.drum.beats }
      .next (answerOwed s 0x53 none (ansOk (sessionBody s)))
    else .next (answerOwed (dropSession s false) 0x53 none (ansRefused 0x06))
  | none => .next s

/-- UPD_ABORT. -/
def msgUpdAbort (q : Req) (body : List Byte) (s : State) : State :=
  request s q body 0x55 true (body == []) none true fun s =>
    inSession s q 0x14 (fun _ => true) fun _ => (dropSession s false, some (ansOk (sessionBody (dropSession s false))))

/-- UPD_ABORT: the message arrives. -/
def execUpdAbort (q : Req) (body : List Byte) (s : State) : Host.Outcome State Fault Refusal :=
  .next (arrive s q 0x55 body (msgUpdAbort q body))

/-- UPD_SESSION_TIMEOUT: 300 s with no message from the holder in RECEIVING or VERIFIED. -/
def execUpdSessionTimeout (s : State) : Host.Outcome State Fault Refusal :=
  match s.trust.session with
  | some x => .next (if (x.state = 1 ∨ x.state = 3) ∧ x.piece = none then dropSession s false else s)
  | none => .next s

/-! ### Activation (R386, R387, R391) -/

/-- R388, R391: the floor of a kind rises to the image's VERSION when it asks for that. -/
def raiseFloor (s : State) (k : Nat) (img : List Byte) : State :=
  if imRaises img && s.trust.puf then putTrust s { s.trust with floor := kset 0 s.trust.floor k (max (kget 0 s.trust.floor k) (imVersion img)) } else s

/-- R386, R391: the session's image is activated; `now` asks for the restart at once. The EVENT goes out at every activation (DEDUCED:
Table 12.8 names the staging area, which is never deferred). -/
def activate (s : State) (x : Session) (now : Bool) : State :=
  let k := x.kind
  let img := x.header ++ x.body
  let code := targetCode s k
  let s :=
    if k = 3 then raiseFloor (putTrust s { s.trust with staged := some img, session := none }) 3 img
    else
      let s := putSelector s k (1 - selectorOf s k % 2 + 4 + 8)
      putTrust s { s.trust with session := none, trialFails := if k = 0 then s.trust.trialFails else 0
                                restart := if now then some k else s.trust.restart }
  emitEvent s 0x20 (leBytes 1 (kindCode k) ++ leBytes 1 code ++ List.replicate 6 0 ++ leBytes 8 (imVersion img))

/-- R387: 10 s have passed with no condition in force. -/
def quietEnough (s : State) : Bool :=
  !deferring s && (s.trust.unquiet == 0 || decide (s.trust.unquiet + 25000000 ≤ s.drum.beats + 1))

/-- R386: the restart that a MODE 1 activation makes once its reply has gone. -/
def restartNow (s : State) : State :=
  match s.trust.restart with
  | none => s
  | some k =>
    let s := putTrust s { s.trust with restart := none }
    if k = 0 then sctlRestart s false else mainReset s

/-- UPD_ACTIVATE: MODE 0 at the next reset or restart, 1 now. -/
def msgUpdActivate (q : Req) (body : List Byte) (s : State) : State :=
  restartNow (request s q body 0x54 true (body.length == 1 && decide (field body 0 1 < 2)) none true fun s =>
    inSession s q 0x15 (fun x => x.state == 3) fun x =>
      let now := field body 0 1 == 1
      if now && (x.kind == 1 || x.kind == 2) && s.host.job.isSome then (s, some (ansStatus 9))
      else if x.kind ≠ 3 ∧ quietEnough s = false then (putSession s { x with state := 4, mode := field body 0 1 }, some (ansStatus 4))
      else (activate s x now, some (ansOk (sessionBody (activate s x now)))))

/-- UPD_ACTIVATE: the message arrives. -/
def execUpdActivate (q : Req) (body : List Byte) (s : State) : Host.Outcome State Fault Refusal :=
  .next (arrive s q 0x54 body (msgUpdActivate q body))

/-- UPD_DEFERRAL_END (R387): with a job running at that moment, MODE 1 activates as MODE 0 does (R386). -/
def execUpdDeferralEnd (s : State) : Host.Outcome State Fault Refusal :=
  match s.trust.session with
  | some x =>
    if x.state = 4 ∧ quietEnough s = true then
      .next (restartNow (activate s x (x.mode == 1 && s.host.job.isNone)))
    else .next s
  | none => .next s

/-! ### Trials (R388) -/

/-- Whether the image of a kind runs on trial. -/
def onTrial (s : State) (k : Nat) : Bool := nbit (selectorOf s k) 2 && !nbit (selectorOf s k) 3

/-- A trial is confirmed. -/
def confirmTrial (s : State) (k : Nat) : State :=
  if onTrial s k then raiseFloor (putSelector s k (selectorOf s k - 4)) k (runImage s k) else s

/-- The hub is ready: trials of the boot stage and the guard firmware are confirmed. -/
def confirmBoot (s : State) : State :=
  if s.trust.trialFails = 2 then s
  else
    let s := confirmTrial (confirmTrial s 1) 2
    putTrust s { s.trust with trialFails := 0 }

/-- A trial is abandoned: the previous slot, under FALLBACK. -/
def abandonTrial (s : State) (k : Nat) : State := if onTrial s k then putSelector s k (1 - selectorOf s k % 2 + 2) else s

/-- TRIAL_TIMEOUT: the hub has not reached ready within 2 s of the release. -/
def execTrialTimeout (s : State) : Host.Outcome State Fault Refusal :=
  if s.mainDom ≠ .up ∨ svcOpen s 5 ∨ !(onTrial s 1 || onTrial s 2) ∨ s.trust.trialFails = 2 then .next s
  else if s.trust.trialFails = 3 then
    let s := abandonTrial (abandonTrial s 1) 2
    .next (mainReset (putTrust s { s.trust with trialFails := 0 }))
  else .next (mainReset (putTrust s { s.trust with trialFails := 1 }))

/-- STANDBY_TRIAL_CONFIRM: a standby image on trial has served its watchdog for 10 s. Its selector and floor are G5's to write (R370):
while it does not run, the trial stands (DESIGN CHOICE, log 114). -/
def execStandbyTrialConfirm (s : State) : Host.Outcome State Fault Refusal :=
  .next (if s.board.stbyBoot ∧ guardRuns s 5 then confirmTrial s 0 else s)

/-! ### Enrolment (R394) -/

/-- "GLNKENRL". -/
def enrolMagic : List Byte := [0x47, 0x4C, 0x4E, 0x4B, 0x45, 0x4E, 0x52, 0x4C]

/-- The reason for which a token is refused. Without the PUF's seed no DEVICE matches. -/
def tokenReason (s : State) (t : List Byte) : Option Nat :=
  let key := (t.drop 0x30).take 32
  let signer := (t.drop 0x50).take 32
  if (ownerKey s).isSome then some 0x17
  else if t.take 8 ≠ enrolMagic then some 0x01
  else if field t 8 2 ≠ 1 ∨ field t 0x70 80 ≠ 0 then some 0x03
  else if field t 0xA 2 ≠ 0x4708 then some 0x02
  else if field t 0xC 4 ≠ keyId key ∨ !isVendor signer then some 0x04
  else if !Config.edVerify signer (t.take 0xC0) ((t.drop 0xC0).take 64) then some 0x05
  else if !s.trust.puf ∨ (t.drop 0x10).take 32 ≠ deviceHash then some 0x07
  else none

/-- ENROL: the hub acts when the buffer holds 256 bytes; a piece that goes beyond is BAD_MSG. -/
def msgEnrol (q : Req) (body : List Byte) (s : State) : State :=
  request s q body 0x50 true true none true fun s =>
    match appendPiece s q 2 body with
    | none => (s, some (ansStatus 6))
    | some (s', t) =>
      if t.length < 256 then (s', some (ansOk []))
      else if 256 < t.length then (s, some (ansStatus 6))
      else
        let s := clearBuffer s' q.role 2
        match tokenReason s t with
        | some r => (s, some (ansRefused r))
        | none =>
          let key := (t.drop 0x30).take 32
          let s := putTrust s { s.trust with owner := some key }
          (emitEvent s 0x21 (leBytes 4 (keyId key) ++ (Config.sha512 key).take 32), some (ansOk []))

/-- ENROL: the message arrives. -/
def execEnrol (q : Req) (body : List Byte) (s : State) : Host.Outcome State Fault Refusal :=
  .next (arrive s q 0x50 body (msgEnrol q body))

end Sys2Proof.Machine
end

