-- ==== Sys2Proof/Machine/Attest.lean ====
section
/-! DEFINITION. Chapter 13: attestation. The hub as an SPDM 1.2 responder (R396, R397). The spec names the messages; their bytes are those
of DMTF DSP0274 1.2 (PRESUMED, log 70). -/

namespace Sys2Proof.Machine

/-! ### Measurements (Table 13.11) -/

def zeros (n : Nat) : List Byte := List.replicate n 0

/-- The applied Consist image, from the moment of its apply beat. -/
def measuredConsist (s : State) : Option Image :=
  let act := if s.consist.applied then s.consist.activeSlot.map fun b => slotImage s b else none
  match s.consist.apply with
  | some a => if a.beatDone then some a.image else if s.consist.booted then act else none
  | none => act

/-- The digest of a measurement index; the built-in Peal program is not signed and measures as zeros (DEDUCED). -/
def measurement (s : State) (i : Nat) : List Byte :=
  if i = 1 then Config.romDigest
  else if i ≤ 4 then Config.sha512 (runImage s (i - 2))
  else if i = 5 then (match measuredConsist s with | some img => Config.sha512 img | none => zeros 64)
  else if i = 6 then (match s.peal.prog with | some img => Config.sha512 img | none => zeros 64)
  else match s.trust.staged with | some img => Config.sha512 (img.take 512) | none => zeros 64

/-- The DMTF value type of an index: 0 immutable ROM, 1 mutable firmware, 3 firmware configuration. -/
def measureType (i : Nat) : Nat := if i = 1 then 0 else if i ≤ 4 then 1 else 3

/-- A DMTF measurement block. -/
def measureBlock (s : State) (i : Nat) : List Byte :=
  let m := measurement s i
  leBytes 1 i ++ leBytes 1 1 ++ leBytes 2 (3 + m.length) ++ leBytes 1 (measureType i) ++ leBytes 2 m.length ++ m

/-! ### Exchanges -/

/-- A role's SPDM state (R396): 0 start, 1 after VERSION, 2 after CAPABILITIES, 3 after ALGORITHMS. -/
def spdmState (s : State) (role : Nat) : Nat := kget 0 s.trust.spdm role

/-- What a role's exchange has carried since GET_VERSION. -/
def spdmLog (s : State) (role : Nat) : List Byte := kget [] s.trust.spdmLog role

def spdmError (code data : Nat) : List Byte := [0x12, 0x7F, BitVec.ofNat 8 code, BitVec.ofNat 8 data]

/-- A response: it enters the exchange, the role's state becomes `st`. -/
def spdmAnswer (s : State) (role st : Nat) (body resp : List Byte) : State × Option Ans :=
  (putTrust s { s.trust with spdm := kset 0 s.trust.spdm role st
                             spdmLog := kset [] s.trust.spdmLog role (spdmLog s role ++ body ++ resp) }, some (ansOk resp))

/-- The next nonce. -/
def takeNonce (s : State) : State × List Byte := (putTrust s { s.trust with draws := s.trust.draws + 1 }, Config.nonce s.trust.draws)

/-- A request in 1.2 (GET_VERSION in 1.0), once the role has reached state `need`. -/
def spdmIn (q : Req) (body : List Byte) (need : Nat) (act : State → State × Option Ans) (s : State) : State × Option Ans :=
  if field body 0 1 ≠ (if field body 1 1 = 0x84 then 0x10 else 0x12) then (s, some (ansOk (spdmError 0x41 0)))
  else if spdmState s q.role < need then (s, some (ansOk (spdmError 0x04 0)))
  else act s

/-- R392: without an identity every signing request is answered REFUSED. -/
def signed (s : State) (act : State × Option Ans) : State × Option Ans := if s.trust.puf then act else (s, some (ansRefused 0))

/-- GET_VERSION: 1.2 only; the role's state starts anew. -/
def getVersion (q : Req) (body : List Byte) : State → State × Option Ans :=
  spdmIn q body 0 (fun s =>
    let s := putTrust s { s.trust with spdmLog := kdel s.trust.spdmLog q.role }
    spdmAnswer s q.role 1 body [0x10, 0x04, 0, 0, 0, 1, 0x00, 0x12])

/-- GET_CAPABILITIES: CERT_CAP, CHAL_CAP, MEAS_CAP with signature; CTExponent 20; 1,408 bytes. -/
def getCapabilities (q : Req) (body : List Byte) : State → State × Option Ans :=
  spdmIn q body 1 (fun s =>
    spdmAnswer s q.role 2 body ([0x12, 0x61, 0, 0, 0, 20, 0, 0] ++ leBytes 4 0x16 ++ leBytes 4 1408 ++ leBytes 4 1408))

/-- NEGOTIATE_ALGORITHMS: Ed25519, SHA-512, DMTF measurements, where the request offers them. -/
def negotiateAlgorithms (q : Req) (body : List Byte) : State → State × Option Ans :=
  spdmIn q body 2 (fun s =>
    let asym := if nbit (field body 8 4) 10 then 0x400 else 0
    let hash := if nbit (field body 12 4) 2 then 4 else 0
    spdmAnswer s q.role 3 body ([0x12, 0x63, 0, 0] ++ leBytes 2 36 ++ [BitVec.ofNat 8 (field body 6 1 % 2), 0] ++ leBytes 4 8 ++ leBytes 4 asym ++
      leBytes 4 hash ++ zeros 16))

/-- GET_DIGESTS: slot 0 only. -/
def getDigests (q : Req) (body : List Byte) : State → State × Option Ans :=
  spdmIn q body 3 (fun s => spdmAnswer s q.role 3 body ([0x12, 0x01, 0, 1] ++ Config.sha512 Config.certChain))

/-- GET_CERTIFICATE: a portion of slot 0's chain, at most 1,400 bytes. -/
def getCertificate (q : Req) (body : List Byte) : State → State × Option Ans :=
  spdmIn q body 3 (fun s =>
    let off := field body 4 2
    let chain := Config.certChain
    if field body 2 1 ≠ 0 ∨ chain.length ≤ off then (s, some (ansOk (spdmError 0x01 0)))
    else
      let part := (chain.drop off).take (min (field body 6 2) 1400)
      spdmAnswer s q.role 3 body ([0x12, 0x02, 0, 0] ++ leBytes 2 part.length ++ leBytes 2 (chain.length - off - part.length) ++ part))

/-- Every measurement block. -/
def allBlocks (s : State) : List Byte := (rangeFrom 1 7).flatMap fun i => measureBlock s i

/-- CHALLENGE. -/
def challenge (q : Req) (body : List Byte) : State → State × Option Ans :=
  spdmIn q body 3 (fun s => signed s (
    let sum := field body 3 1
    if field body 2 1 ≠ 0 ∨ body.length ≠ 36 ∨ (sum ≠ 0 ∧ sum ≠ 1 ∧ sum ≠ 0xFF) then (s, some (ansOk (spdmError 0x01 0)))
    else
      let (s, nonce) := takeNonce s
      let digest := if sum = 0 then [] else Config.sha512 (if sum = 1 then measureBlock s 1 else allBlocks s)
      let resp := [0x12, 0x03, 0, 1] ++ Config.sha512 Config.certChain ++ nonce ++ digest ++ [0, 0]
      spdmAnswer s q.role 3 body (resp ++ Config.edSign (Config.sha512 (spdmLog s q.role ++ body ++ resp)))))

/-- GET_MEASUREMENTS: index 0 asks for the number of blocks, 0xFF for every block. -/
def getMeasurements (q : Req) (body : List Byte) : State → State × Option Ans :=
  spdmIn q body 3 (fun s =>
    let sign := nbit (field body 2 1) 0
    let i := field body 3 1
    if (7 < i ∧ i ≠ 0xFF) ∨ (sign = true ∧ (body.length ≠ 37 ∨ field body 36 1 ≠ 0)) then (s, some (ansOk (spdmError 0x01 0)))
    else
      let act : State × Option Ans :=
        let (s, nonce) := takeNonce s
        let rec' := if i = 0 then [] else if i = 0xFF then allBlocks s else measureBlock s i
        let resp := [0x12, 0x60, if i = 0 then 7 else 0, 0, if i = 0 then 0 else if i = 0xFF then 7 else 1] ++ leBytes 3 rec'.length ++
          rec' ++ nonce ++ [0, 0]
        spdmAnswer s q.role 3 body
          (if sign then resp ++ Config.edSign (Config.sha512 (spdmLog s q.role ++ body ++ resp)) else resp)
      if sign then signed s act else act)

/-- A request that the identity signs the answer to. -/
def signing (body : List Byte) : Bool := field body 1 1 == 0x83 || (field body 1 1 == 0xE0 && nbit (field body 2 1) 0)

/-- R376: the first request of a role whose exchange a G5 restart has cut: GET_VERSION starts anew, any other is answered
ABORTED_RESUBMIT (log 117). -/
def spdmRestarted (s : State) (role code : Nat) (start : State → State × Option Ans) : State × Option Ans :=
  let s := putTrust s { s.trust with spdmLost := ndel s.trust.spdmLost role }
  if code = 0x84 then start s else (s, some (ansStatus 0xB))

/-- An SPDM Carriage message (code 0x60), by its request code; one that Table 13.10 does not have is answered by an SPDM ERROR of code
UnsupportedRequest (R396). Without an identity a signing request is answered REFUSED, in state NO_CONSIST too (R392). -/
def msgSpdm (q : Req) (body : List Byte) (s : State) : State :=
  let code := field body 1 1
  let refused := signing body && !s.trust.puf
  request s q body 0x60 true (decide (4 ≤ body.length)) none refused fun s =>
    if refused then (s, some (ansRefused 0))
    else if s.trust.spdmLost.contains q.role then spdmRestarted s q.role code (getVersion q body)
    else if code = 0x84 then getVersion q body s
    else if code = 0xE1 then getCapabilities q body s
    else if code = 0xE3 then negotiateAlgorithms q body s
    else if code = 0x81 then getDigests q body s
    else if code = 0x82 then getCertificate q body s
    else if code = 0x83 then challenge q body s
    else if code = 0xE0 then getMeasurements q body s
    else (s, some (ansOk (spdmError 0x07 code)))

/-- The message arrives on the row of a request code; on the row of another one it has no effect. -/
def spdm (q : Req) (body : List Byte) (code : Nat) (s : State) : State :=
  if field body 1 1 = code then arrive s q 0x60 body (msgSpdm q body) else s

/-- GET_VERSION: the message arrives. -/
def execGetVersion (q : Req) (body : List Byte) (s : State) : Host.Outcome State Fault Refusal := .next (spdm q body 0x84 s)

/-- GET_CAPABILITIES: the message arrives. -/
def execGetCapabilities (q : Req) (body : List Byte) (s : State) : Host.Outcome State Fault Refusal := .next (spdm q body 0xE1 s)

/-- NEGOTIATE_ALGORITHMS: the message arrives. -/
def execNegotiateAlgorithms (q : Req) (body : List Byte) (s : State) : Host.Outcome State Fault Refusal := .next (spdm q body 0xE3 s)

/-- GET_DIGESTS: the message arrives. -/
def execGetDigests (q : Req) (body : List Byte) (s : State) : Host.Outcome State Fault Refusal := .next (spdm q body 0x81 s)

/-- GET_CERTIFICATE: the message arrives. -/
def execGetCertificate (q : Req) (body : List Byte) (s : State) : Host.Outcome State Fault Refusal := .next (spdm q body 0x82 s)

/-- CHALLENGE: the message arrives. -/
def execChallenge (q : Req) (body : List Byte) (s : State) : Host.Outcome State Fault Refusal := .next (spdm q body 0x83 s)

/-- GET_MEASUREMENTS: the message arrives. -/
def execGetMeasurements (q : Req) (body : List Byte) (s : State) : Host.Outcome State Fault Refusal := .next (spdm q body 0xE0 s)

/-- The request codes of Table 13.10. -/
def spdmCodes : List Nat := [0x81, 0x82, 0x83, 0x84, 0xE0, 0xE1, 0xE3]

/-- UNSUPPORTED_REQUEST (R396): a message of any other request code arrives. -/
def execUnsupportedRequest (q : Req) (body : List Byte) (s : State) : Host.Outcome State Fault Refusal :=
  .next (if spdmCodes.contains (field body 1 1) then s else arrive s q 0x60 body (msgSpdm q body))

end Sys2Proof.Machine
end

