-- ==== Sys2Proof/Machine/CoachScalar.lean ====
section
/-! DEFINITION. Table 4.5 and Table 4.6: the scalar and branch groups of the coach instruction set (R106 to R108). -/

namespace Sys2Proof.Machine

/-- R106: three scalar registers, no other field used. -/
def formSSS (op : Nat) : Form := { op := op, d := .s, a := .s, b := .s }

/-- R106: Sd, Sa and a signed immediate. -/
def formSSI (op : Nat) : Form := { op := op, d := .s, a := .s, imm := 0xFFFFFF }

/-- R106: Sd, Sa and a shift amount of six bits. -/
def formShift (op : Nat) : Form := { op := op, d := .s, a := .s, imm := 0x3F }

/-- R105, R106: Sd = f Sa Sb; the result is poisoned when either source is. -/
def scalar2 (op : Nat) (s : State) (seat : Nat) (w : Fields) (f : W64 → W64 → W64) : Host.Outcome State Fault Refusal :=
  issueNext s seat w (formSSS op) true [] fun t =>
    let x := sget t w.a.toNat
    let y := sget t w.b.toNat
    doneSeat s seat (sset t w.d.toNat (f x.1 y.1) (x.2 || y.2))

/-- R105, R106: Sd = f Sa, with the form of the immediate. -/
def scalar1 (s : State) (seat : Nat) (w : Fields) (form : Form) (f : W64 → W64) : Host.Outcome State Fault Refusal :=
  issueNext s seat w form true [] fun t =>
    let x := sget t w.a.toNat
    doneSeat s seat (sset t w.d.toNat (f x.1) x.2)

/-- The shift amount of an immediate shift. -/
def shImm (w : Fields) : Nat := w.imm.toNat % 64

/-- R107: signed quotient; every bit set for a zero divisor, −2^63 for −2^63 ÷ −1. -/
def divS (x y : W64) : W64 := if y = 0 then BitVec.allOnes 64 else x.sdiv y

/-- R107: unsigned quotient. -/
def divU (x y : W64) : W64 := if y = 0 then BitVec.allOnes 64 else x / y

/-- R107: signed remainder with the sign of the dividend; the dividend for a zero divisor. -/
def remS (x y : W64) : W64 := if y = 0 then x else x.srem y

/-- R107: unsigned remainder. -/
def remU (x y : W64) : W64 := if y = 0 then x else x % y

/-- ADD (R106). -/
def execAdd (seat : Nat) (w : Fields) (s : State) : Host.Outcome State Fault Refusal :=
  scalar2 0x01 s seat w fun x y => x + y

/-- SUB (R106). -/
def execSub (seat : Nat) (w : Fields) (s : State) : Host.Outcome State Fault Refusal :=
  scalar2 0x02 s seat w fun x y => x - y

/-- AND (R106). -/
def execAnd (seat : Nat) (w : Fields) (s : State) : Host.Outcome State Fault Refusal :=
  scalar2 0x03 s seat w fun x y => x &&& y

/-- OR (R106). -/
def execOr (seat : Nat) (w : Fields) (s : State) : Host.Outcome State Fault Refusal :=
  scalar2 0x04 s seat w fun x y => x ||| y

/-- XOR (R106). -/
def execXor (seat : Nat) (w : Fields) (s : State) : Host.Outcome State Fault Refusal :=
  scalar2 0x05 s seat w fun x y => x ^^^ y

/-- SHL (R106). -/
def execShl (seat : Nat) (w : Fields) (s : State) : Host.Outcome State Fault Refusal :=
  scalar2 0x06 s seat w fun x y => x <<< (y.toNat % 64)

/-- SHR (R106). -/
def execShr (seat : Nat) (w : Fields) (s : State) : Host.Outcome State Fault Refusal :=
  scalar2 0x07 s seat w fun x y => x >>> (y.toNat % 64)

/-- SRA (R106). -/
def execSra (seat : Nat) (w : Fields) (s : State) : Host.Outcome State Fault Refusal :=
  scalar2 0x08 s seat w fun x y => x.sshiftRight (y.toNat % 64)

/-- ADDI (R106). -/
def execAddi (seat : Nat) (w : Fields) (s : State) : Host.Outcome State Fault Refusal :=
  scalar1 s seat w (formSSI 0x09) fun x => x + wImm w

/-- ANDI (R106). -/
def execAndi (seat : Nat) (w : Fields) (s : State) : Host.Outcome State Fault Refusal :=
  scalar1 s seat w (formSSI 0x0A) fun x => x &&& wImm w

/-- ORI (R106). -/
def execOri (seat : Nat) (w : Fields) (s : State) : Host.Outcome State Fault Refusal :=
  scalar1 s seat w (formSSI 0x0B) fun x => x ||| wImm w

/-- XORI (R106). -/
def execXori (seat : Nat) (w : Fields) (s : State) : Host.Outcome State Fault Refusal :=
  scalar1 s seat w (formSSI 0x0C) fun x => x ^^^ wImm w

/-- SHLI (R106). -/
def execShli (seat : Nat) (w : Fields) (s : State) : Host.Outcome State Fault Refusal :=
  scalar1 s seat w (formShift 0x0D) fun x => x <<< shImm w

/-- SHRI (R106). -/
def execShri (seat : Nat) (w : Fields) (s : State) : Host.Outcome State Fault Refusal :=
  scalar1 s seat w (formShift 0x0E) fun x => x >>> shImm w

/-- SRAI (R106). -/
def execSrai (seat : Nat) (w : Fields) (s : State) : Host.Outcome State Fault Refusal :=
  scalar1 s seat w (formShift 0x0F) fun x => x.sshiftRight (shImm w)

/-- MOVI (R106): the result has no source and no poison. -/
def execMovi (seat : Nat) (w : Fields) (s : State) : Host.Outcome State Fault Refusal :=
  issueNext s seat w { op := 0x10, d := .s, imm := 0xFFFFFF } true [] fun t => doneSeat s seat (sset t w.d.toNat (wImm w) false)

/-- MOVK (R106): 16 bits of Sd at 16k replaced, k = IMM[23:22]; Sd is also a source. -/
def execMovk (seat : Nat) (w : Fields) (s : State) : Host.Outcome State Fault Refusal :=
  issueNext s seat w { op := 0x11, d := .s, imm := 0xC0FFFF } true [] fun t =>
    let x := sget t w.d.toNat
    let k := w.imm.toNat / 2 ^ 22
    doneSeat s seat (sset t w.d.toNat (setBits x.1 (16 * k + 15) (16 * k) (w.imm.toNat % 2 ^ 16)) x.2)

/-- SLT (R106). -/
def execSlt (seat : Nat) (w : Fields) (s : State) : Host.Outcome State Fault Refusal :=
  scalar2 0x12 s seat w fun x y => if x.slt y then 1 else 0

/-- SLTU (R106). -/
def execSltu (seat : Nat) (w : Fields) (s : State) : Host.Outcome State Fault Refusal :=
  scalar2 0x13 s seat w fun x y => if x.ult y then 1 else 0

/-- SEL (R106): Sa when Sc is not zero, else Sb; poisoned by Sc and by the register selected (R105). -/
def execSel (seat : Nat) (w : Fields) (s : State) : Host.Outcome State Fault Refusal :=
  issueNext s seat w { op := 0x14, d := .s, a := .s, b := .s, c := .s } true [] fun t =>
    let z := sget t w.c.toNat
    let x := if z.1 ≠ 0 then sget t w.a.toNat else sget t w.b.toNat
    doneSeat s seat (sset t w.d.toNat x.1 (x.2 || z.2))

/-- MIN (R106). -/
def execMin (seat : Nat) (w : Fields) (s : State) : Host.Outcome State Fault Refusal :=
  scalar2 0x15 s seat w fun x y => if x.slt y then x else y

/-- MAX (R106). -/
def execMax (seat : Nat) (w : Fields) (s : State) : Host.Outcome State Fault Refusal :=
  scalar2 0x16 s seat w fun x y => if x.slt y then y else x

/-- MINU (R106). -/
def execMinu (seat : Nat) (w : Fields) (s : State) : Host.Outcome State Fault Refusal :=
  scalar2 0x17 s seat w fun x y => if x.ult y then x else y

/-- MAXU (R106). -/
def execMaxu (seat : Nat) (w : Fields) (s : State) : Host.Outcome State Fault Refusal :=
  scalar2 0x18 s seat w fun x y => if x.ult y then y else x

/-- MUL (R106). -/
def execMul (seat : Nat) (w : Fields) (s : State) : Host.Outcome State Fault Refusal :=
  scalar2 0x19 s seat w fun x y => x * y

/-- MULH (R106). -/
def execMulh (seat : Nat) (w : Fields) (s : State) : Host.Outcome State Fault Refusal :=
  scalar2 0x1A s seat w fun x y => BitVec.ofInt 64 (x.toInt * y.toInt / 2 ^ 64)

/-- MULHU (R106). -/
def execMulhu (seat : Nat) (w : Fields) (s : State) : Host.Outcome State Fault Refusal :=
  scalar2 0x1B s seat w fun x y => BitVec.ofNat 64 (x.toNat * y.toNat / 2 ^ 64)

/-- DIV (R106, R107). -/
def execDiv (seat : Nat) (w : Fields) (s : State) : Host.Outcome State Fault Refusal :=
  scalar2 0x1C s seat w fun x y => divS x y

/-- DIVU (R106, R107). -/
def execDivu (seat : Nat) (w : Fields) (s : State) : Host.Outcome State Fault Refusal :=
  scalar2 0x1D s seat w fun x y => divU x y

/-- REM (R106, R107). -/
def execRem (seat : Nat) (w : Fields) (s : State) : Host.Outcome State Fault Refusal :=
  scalar2 0x1E s seat w fun x y => remS x y

/-- REMU (R106, R107). -/
def execRemu (seat : Nat) (w : Fields) (s : State) : Host.Outcome State Fault Refusal :=
  scalar2 0x1F s seat w fun x y => remU x y

/-- R108: the target of a branch: the signed IMM times 8 added to the PC of the branch. -/
def branchTarget (t : Seat) (w : Fields) : Nat := (BitVec.ofNat 64 t.pc + wImm w * 8).toNat

/-- R105, R108: a branch on two scalar registers; a poisoned condition is consumed (exception POISON). -/
def branch2 (op : Nat) (s : State) (seat : Nat) (w : Fields) (f : W64 → W64 → Bool) : Host.Outcome State Fault Refusal :=
  issueNext s seat w { op := op, a := .s, b := .s, imm := 0xFFFFFF } true [] fun t =>
    let x := sget t w.a.toNat
    let y := sget t w.b.toNat
    if x.2 || y.2 then .exc 5
    else if f x.1 y.1 then .jump s (branchTarget t w) else .done s

/-- BEQ (R108). -/
def execBeq (seat : Nat) (w : Fields) (s : State) : Host.Outcome State Fault Refusal :=
  branch2 0x20 s seat w fun x y => x == y

/-- BNE (R108). -/
def execBne (seat : Nat) (w : Fields) (s : State) : Host.Outcome State Fault Refusal :=
  branch2 0x21 s seat w fun x y => x != y

/-- BLT (R108). -/
def execBlt (seat : Nat) (w : Fields) (s : State) : Host.Outcome State Fault Refusal :=
  branch2 0x22 s seat w fun x y => x.slt y

/-- BGE (R108). -/
def execBge (seat : Nat) (w : Fields) (s : State) : Host.Outcome State Fault Refusal :=
  branch2 0x23 s seat w fun x y => !x.slt y

/-- BLTU (R108). -/
def execBltu (seat : Nat) (w : Fields) (s : State) : Host.Outcome State Fault Refusal :=
  branch2 0x24 s seat w fun x y => x.ult y

/-- BGEU (R108). -/
def execBgeu (seat : Nat) (w : Fields) (s : State) : Host.Outcome State Fault Refusal :=
  branch2 0x25 s seat w fun x y => !x.ult y

/-- R108: a branch on a mask register. -/
def branchM (op : Nat) (s : State) (seat : Nat) (w : Fields) (f : W64 → Bool) : Host.Outcome State Fault Refusal :=
  issueNext s seat w { op := op, a := .m, imm := 0xFFFFFF } true [] fun t =>
    if f (mget t w.a.toNat) then .jump s (branchTarget t w) else .done s

/-- BMANY (R108). -/
def execBmany (seat : Nat) (w : Fields) (s : State) : Host.Outcome State Fault Refusal :=
  branchM 0x26 s seat w fun m => m != 0

/-- BMNONE (R108). -/
def execBmnone (seat : Nat) (w : Fields) (s : State) : Host.Outcome State Fault Refusal :=
  branchM 0x27 s seat w fun m => m == 0

/-- JAL (R108): Sd = PC + 8, then branch. -/
def execJal (seat : Nat) (w : Fields) (s : State) : Host.Outcome State Fault Refusal :=
  issueNext s seat w { op := 0x28, d := .s, imm := 0xFFFFFF } true [] fun t =>
    .jump (putSeat s seat (sset t w.d.toNat (BitVec.ofNat 64 (t.pc + 8)) false)) (branchTarget t w)

/-- JALR (R99, R108): Sd = PC + 8, then PC = old Sa + signed IMM × 8. A target that is not a multiple of 8 takes FETCH, a
poisoned target POISON. -/
def execJalr (seat : Nat) (w : Fields) (s : State) : Host.Outcome State Fault Refusal :=
  issueNext s seat w { op := 0x29, d := .s, a := .s, imm := 0xFFFFFF } true [] fun t =>
    let x := sget t w.a.toNat
    let target := (x.1 + wImm w * 8).toNat
    match firstExc [(target % 8 != 0, 2), (x.2, 5)] with
    | some e => .exc e
    | none => .jump (putSeat s seat (sset t w.d.toNat (BitVec.ofNat 64 (t.pc + 8)) false)) target

/-- LOOP (R108): Sd − 1, branch when the new Sd is not zero. -/
def execLoop (seat : Nat) (w : Fields) (s : State) : Host.Outcome State Fault Refusal :=
  issueNext s seat w { op := 0x2A, d := .s, imm := 0xFFFFFF } true [] fun t =>
    let x := sget t w.d.toNat
    if x.2 then .exc 5
    else
      let s' := putSeat s seat (sset t w.d.toNat (x.1 - 1) false)
      if x.1 - 1 ≠ 0 then .jump s' (branchTarget t w) else .done s'

end Sys2Proof.Machine
end

