-- ==== Sys2Proof/Machine/Startup.lean ====
section
/-! DEFINITION. Power-on reset, the start of both domains up to ready, supplies, wake, memory training and temperature, and restarts of
the cores (R322, R325, R326, R328, R371 to R374, R476 to R478, R493, R494). -/

namespace Sys2Proof.Machine

/-! ### The standby domain (R12, R15, R392, R478) -/

/-- What flash keeps over a loss of standby power. A session ends as at a main-domain reset (Table 13.8). -/
def standbyDown (s : State) : State :=
  let keep := match s.trust.session with | some x => x.state == 4 && (x.kind == 1 || x.kind == 2) | none => false
  let s := dropSession s keep
  { State.reset with
    flash := s.flash, outbox := s.outbox, free := s.free, pending := s.pending
    consist := { ConsistSt.init with slotA := s.consist.slotA, slotB := s.consist.slotB, activeSlot := s.consist.activeSlot
                                     pendingImg := s.consist.pendingImg, pendingAt := s.consist.pendingAt, floor := s.consist.floor }
    memctl := { MemCtl.init with savedVals := s.memctl.savedVals }
    host := { HostSt.init with storedOffHost := s.host.storedOffHost, storedOffRack := s.host.storedOffRack }
    trust := { Trust.init with owner := s.trust.owner, images := s.trust.images, selector := s.trust.selector, floor := s.trust.floor
                               staged := s.trust.staged, trialFails := s.trust.trialFails, draws := s.trust.draws }
    peal := { Peal.init with copyA := s.peal.copyA, copyB := s.peal.copyB, record := s.peal.record, log := s.peal.log
                             logNext := s.peal.logNext }
    power := { Power.init with trimSteps := s.power.trimSteps } }

/-- STANDBY_POWER_ON_RESET (R478): every output falls to its rest state (R15). -/
def execStandbyPowerOnReset (s : State) : Host.Outcome State Fault Refusal := .next (standbyDown s)

/-- R381: a record of the authenticated region with no copy that checks is absent: 16 the owner key, 17 the floors, 18 the Consist floor,
19 and 20 the Consist slots, 21 the selectors, 22 the training values, 23 the Ethernet settings, 24 the ring settings, 25 the stored
orders, 26 the partners' power settings, 27 the sequence record, 28 the voltage offset (log 140). -/
def dropRecord (s : State) (k : Nat) : State :=
  let t := s.trust
  let c := s.consist
  let without := fun (blk : Nat) => { s with flash := s.flash.filter fun e => e.1 / 0x100000 != blk }
  match k with
  | 16 => putTrust s { t with owner := none }
  | 17 => putTrust s { t with floor := [] }
  | 18 => { s with consist := { c with floor := 0 } }
  | 19 => { s with consist := { c with slotA := [] } }
  | 20 => { s with consist := { c with slotB := [] } }
  | 21 => putTrust s { t with selector := [] }
  | 22 => { s with memctl := { s.memctl with savedVals := [] } }
  | 23 => without 13
  | 24 => without 6
  | 25 => putHost s { s.host with storedOffHost := false, storedOffRack := false }
  | 26 => without 3
  | 27 => putPeal s { s.peal with record := none }
  | 28 => putPower s { s.power with trimSteps := 0 }
  | _ => s

/-- STANDBY_RESET_EXIT (R478, R392, R359, R377, R381): whether the PUF's seed was reconstructed, FLOW_OK is high and the inputs are in
range; `lead` is the time since the timeline's reference in beats; `bad` names the image partitions, 0 to 5, and the records, 16 to 28,
that fail their check. With both standby slots bad the ROM logs why; the fans stay at their rest duty, 100 %. -/
def execStandbyResetExit (puf flow vin54 vin12 : Bool) (lead : Nat) (bad : List Nat) (s : State) : Host.Outcome State Fault Refusal :=
  if s.stbyDom = .up then .next s
  else
    let s := bad.foldl dropRecord { s with trust := { s.trust with puf := puf, damaged := bad } }
    let s := { s with stbyDom := .up
                      host := { s.host with offHost := puf && s.host.storedOffHost, offRack := puf && s.host.storedOffRack }
                      board := { s.board with bad54 := !vin54, bad12 := !vin12, lead := lead, cold := true, refMark := s.drum.beats } }
    let s := if puf then s else raise s srcId 0x2A 3 0
    let s := regPut (regPut (regPut s rPins 63 63 (bitOf flow)) rSupply 0 0 (bitOf vin54)) rSupply 1 1 (bitOf vin12)
    let s := if s.peal.log = [] then s else regPut s rPseqLog 31 0 (s.peal.logNext - 1).toNat
    let (s, ok) := bootKind s bad 0
    if ok then .next { s with board := { s.board with stbyBoot := true } }
    else .next { s with belfry := { s.belfry with errBoot := true }
                        board := { s.board with bootLog := [0, 1].filterMap fun key => partReason s bad key } }

/-! ### Supplies and wake (R476, R477) -/

def supplyOk (s : State) : Bool := !s.board.bad54 && !s.board.bad12

/-- An input (0 VIN_54V, 1 VIN_12V) with its reading. -/
def setSupply (s : State) (input mv : Nat) (bad : Bool) : State :=
  let s := { s with board := if input = 0 then { s.board with bad54 := bad } else { s.board with bad12 := bad } }
  let s := regPut s rSupply input input (bitOf !bad)
  if input = 0 then regPut s rSupply 63 48 (min 0xFFFF mv) else regPut s rSupply 47 32 (min 0xFFFF mv)

/-- SUPPLY_OUT_OF_RANGE: the sequencer takes the effective order as off. -/
def execSupplyOutOfRange (input mv : Nat) (s : State) : Host.Outcome State Fault Refusal :=
  if 2 ≤ input ∨ s.stbyDom ≠ .up then .next s
  else
    let was := supplyOk s && orderOn s
    let s := setSupply s input mv true
    .next (if was then seqWentOff s else s)

/-- SUPPLY_IN_RANGE. -/
def execSupplyInRange (input mv : Nat) (s : State) : Host.Outcome State Fault Refusal :=
  if 2 ≤ input ∨ s.stbyDom ≠ .up then .next s
  else
    let was := supplyOk s
    let s := setSupply s input mv false
    .next (if !was && supplyOk s && orderOn s then seqWentOn s else s)

/-- WAKE_ASSERT: WAKE_N has been low for 100 ms, or, with `low` false, is released. -/
def execWakeAssert (low : Bool) (s : State) : Host.Outcome State Fault Refusal :=
  if s.stbyDom ≠ .up then .next s
  else if !low then .next (regPut s rPins 62 62 0)
  else
    let s := regAddSat (regPut s rPins 62 62 1) rPins 15 0 1
    .next (setOrder (setOrder s 0 false false) 1 false false)

/-! ### Memory (R322, R325, R326, R328) -/

/-- Memory is READY; in state NO_CONSIST the map is then fixed (MEM_STATUS.IN_SERVICE). -/
def memReady (s : State) : State :=
  let s := regPut (regPut s rMemStatus 63 60 3) rBoot 47 32 (bootMs s)
  if s.consist.booted && !s.consist.applied then fixMap (putConsist s { s.consist with rakeOut := failedRakes s }) else s

/-- R325: the stored training values, which the authenticated region holds (R392), are valid for devices with these identity
registers and MR4 temperatures [°C]. -/
def storedValid (s : State) (devs : List (Nat × Int)) : Bool :=
  s.trust.puf && s.memctl.savedVals != [] &&
  (rangeFrom 0 48).all fun d =>
    let was := lget (0, 0) s.memctl.savedVals d
    let now := lget (0, 0) devs d
    was.1 == now.1 && decide ((was.2 - now.2).natAbs ≤ 20)

/-- MEMORY_TRAINING_COMPLETE (R325): the channels that failed, what every device's identity registers and MR4 read, and the duration. A
full training stores its values, which G5 writes (R370): while it does not run they are not stored (log 114). -/
def execMemoryTrainingComplete (failed : List Nat) (devs : List (Nat × Int)) (ms : Nat) (s : State) : Host.Outcome State Fault Refusal :=
  if s.mainDom ≠ .up ∨ regBits s rMemStatus 63 60 ≠ 1 then .next s
  else
    let failed := failed.filter fun c => decide (c < 384)
    let full := !storedValid s devs
    let s := regPut (regPut s rMemStatus 59 59 (bitOf full)) rMemStatus 31 16 (min 0xFFFF ms)
    let s := failed.foldl latchDevice (trainedChannels s failed)
    let s := if full && s.trust.puf && guardRuns s 5 then
        { s with memctl := { s.memctl with savedVals := (rangeFrom 0 48).map fun d => lget (0, 0) devs d } }
      else s
    .next (if s.memctl.filled then memReady s else regPut s rMemStatus 63 60 2)

/-- MEMORY_FILL_COMPLETE: all of memory holds zeros under valid ECC. -/
def execMemoryFillComplete (s : State) : Host.Outcome State Fault Refusal :=
  if s.mainDom ≠ .up ∨ regBits s rMemStatus 63 60 ≠ 2 then .next s
  else
    let s := memZero s 0 (16 * rakeRange)
    .next (memReady { s with memctl := { s.memctl with filled := true } })

/-- MR4_POLL: the devices above their limit. One newly above it raises MEM_HOT; the emergency's cap is fixed on entry (Table 15.4). -/
def execMr4Poll (hot : List Nat) (s : State) : Host.Outcome State Fault Refusal :=
  if s.mainDom ≠ .up then .next s
  else
    let hot := (hot.filter fun d => decide (d < 48)).foldl nadd []
    let new := hot.filter fun d => !s.memctl.mr4Hot.contains d
    let s := new.foldl (fun s d => raise s (srcDev d) 0x20 1 (8 * d)) { s with memctl := { s.memctl with mr4Hot := hot } }
    .next (if new = [] ∨ s.power.emerg.contains 1 then s
      else enterEmerg (putPower s { s.power with capMem := capMw s - 100000 }) 1)

/-! ### Services (R358, R378, R493, R494) -/

/-- Every guard runs, with its compartments. -/
def startGuards (s : State) : State :=
  (rangeFrom 0 6).foldl (fun s g =>
    if regBits s (rCfgGuard g) 63 60 = 1 then regPut (regPut s (rCfgGuard g) 63 60 2) (rCfgGuard g) 55 48 (Config.compartments g) else s) s

/-- Whether a service may open now: each after the ones before it on the timeline, those of bits 2 to 6 only with a Consist in effect,
bit 5 only after the trim of G4, where it runs (R434). -/
def mayOpen (s : State) (i : Nat) : Bool :=
  s.mainDom == .up && !svcOpen s i &&
  (if i = 0 then true
   else svcOpen s 0 && regBits s (rCfgGuard 5) 63 60 != 5 && s.consist.booted &&
    (if i = 1 then true
     else s.consist.applied && svcOpen s 1 &&
      (if i = 6 then true
       else svcOpen s 6 && (if i = 5 then svcOpen s 2 && svcOpen s 3 && svcOpen s 4 && (s.power.trimmed || !guardRuns s 4)
                            else decide (i < 5)))))

/-- SERVICE_OPEN. Before bit 0 the ring configuration is loaded (R348, R501); bit 5 makes the hub ready. -/
def execServiceOpen (svc : Nat) (s : State) : Host.Outcome State Fault Refusal :=
  if !mayOpen s svc then .next s
  else
    let s := if svc = 0 ∧ regBits s (rCfgGuard 5) 63 60 ≠ 5 then loadFlash (startGuards s) fun a => a / 0x100000 == 6 else s
    let t := grantCredits (notifyWords s (regPut s rRingSvc svc svc 1))
    if svc = 5 then .next (postRecord (confirmBoot (regPut t rBoot 15 0 (bootMs t)))) else .next t

/-! ### Restarts of the cores (R371 to R374) -/

/-- R371, R372: a compartment of a guard, or, `core` 6, of the standby controller, which owns no commands. The reach that a manifest
declares is enforced inside the core: what shows of it is the fault (log 123). -/
def coreRestart (s : State) (core index owns : Nat) : State :=
  if core = 6 then (if s.board.stbyBoot then raise s srcSctl 0x24 1 index else s) else compartmentRestart s core index owns

/-- COMPARTMENT_FAULT. -/
def execCompartmentFault (guard index owns : Nat) (s : State) : Host.Outcome State Fault Refusal :=
  .next (coreRestart s guard index owns)

/-- COMPARTMENT_WATCHDOG_EXPIRY. -/
def execCompartmentWatchdogExpiry (guard index owns : Nat) (s : State) : Host.Outcome State Fault Refusal :=
  .next (coreRestart s guard index owns)

/-- GUARD_WATCHDOG_EXPIRY. -/
def execGuardWatchdogExpiry (guard : Nat) (s : State) : Host.Outcome State Fault Refusal := .next (guardRestart s guard)

/-- GUARD_KERNEL_FAULT. -/
def execGuardKernelFault (guard : Nat) (s : State) : Host.Outcome State Fault Refusal := .next (guardRestart s guard)

/-- SCTL_WATCHDOG_EXPIRY (R374). -/
def execSctlWatchdogExpiry (s : State) : Host.Outcome State Fault Refusal :=
  .next (if s.board.stbyBoot then sctlRestart s true else s)

end Sys2Proof.Machine
end

