-- ==== Sys2Proof/Machine/Tick.lean ====
section
/-! DEFINITION. DRUM_BEAT (R249): everything that one beat edge does, in the order in which it does it, the datagrams that wait for their
turn among it (R355). -/

namespace Sys2Proof.Machine

/-- R355, Table 12.5: a message that has waited is served as its code says. -/
def serveMsg (q : Req) (code : Nat) (body : List Byte) (s : State) : State :=
  match code with
  | 0x01 => msgStatusGet q body s
  | 0x02 => msgIdentityGet q body s
  | 0x03 => msgRegRead q body s
  | 0x04 => msgRegWrite q body s
  | 0x10 => msgRingSetup q body s
  | 0x11 => msgNotifySet q body s
  | 0x12 => msgConnOpen q body s
  | 0x13 => msgConnClose q body s
  | 0x14 => msgAddrSet q body s
  | 0x15 => msgHeartbeat q body s
  | 0x20 => msgJobStart q body s
  | 0x21 => msgJobEnd q body s
  | 0x30 => msgPowerSet q body s
  | 0x31 => msgCapSet q body s
  | 0x32 => msgEnergyGet q body s
  | 0x33 => msgTelemetryGet q body s
  | 0x40 => msgConsistData q body s
  | 0x41 => msgConsistLoad q body s
  | 0x42 => msgConsistApply q body s
  | 0x50 => msgEnrol q body s
  | 0x51 => msgUpdBegin q body s
  | 0x52 => msgUpdData q body s
  | 0x53 => msgUpdEnd q body s
  | 0x54 => msgUpdActivate q body s
  | 0x55 => msgUpdAbort q body s
  | 0x60 => msgSpdm q body s
  | 0x70 => msgFaultRead q body s
  | 0x71 => msgFaultAck q body s
  | 0x72 => msgLogRead q body s
  | _ => msgUnknown q code body s

/-- R355: the oldest datagram of a role that waits is served once no reply is owed to the role and the entries that came before it
have been read: at a beat (DESIGN CHOICE, log 41). -/
def serveHeld (s : State) (role : Nat) : State :=
  if s.mainDom ≠ .up ∨ replyOwed s role = true then s
  else match s.host.held.find? fun h => h.req.role == role with
  | some h => if unread s role h.prodAt then s else serveMsg h.req h.code h.body (putHost s { s.host with held := s.host.held.erase h })
  | none => s

/-- R362: the roles whose datagrams wait, in the order in which the oldest of each came. -/
def heldRoles (s : State) : List Nat := dedup (s.host.held.map fun h => h.req.role)

/-- DRUM_BEAT (R249, R251): the first edge after the standby domain left reset begins beat 0. -/
def execDrumBeat (s : State) : Host.Outcome State Fault Refusal :=
  if s.stbyDom ≠ .up then .next s
  else
    let s := sendPulse (if s.drum.running then drumEdge s else firstEdge s)
    let s := mainBeat (refillBuckets s)
    .next ((heldRoles s).foldl serveHeld s)

end Sys2Proof.Machine
end

