-- ==== Sys2Proof/Machine/Dispatch.lean ====
section
/-! DEFINITION. One arm per command: its meaning. -/

namespace Sys2Proof.Machine

/-- The effect of a command on everything but the queue. -/
def exec (i : Instr) (s : State) : Host.Outcome State Fault Refusal :=
  match i with
  | .registerWrite src addr width value => Sys2Proof.Machine.execRegisterWrite src addr width value s
  | .commit src addr value => Sys2Proof.Machine.execCommit src addr value s
  | .standbyPowerOnReset => Sys2Proof.Machine.execStandbyPowerOnReset s
  | .standbyResetExit puf flow vin54 vin12 lead bad => Sys2Proof.Machine.execStandbyResetExit puf flow vin54 vin12 lead bad s
  | .mainDomainReset => Sys2Proof.Machine.execMainDomainReset s
  | .mainResetRelease bad => Sys2Proof.Machine.execMainResetRelease bad s
  | .supplyOutOfRange input mv => Sys2Proof.Machine.execSupplyOutOfRange input mv s
  | .supplyInRange input mv => Sys2Proof.Machine.execSupplyInRange input mv s
  | .wakeAssert low => Sys2Proof.Machine.execWakeAssert low s
  | .consistBootApply => Sys2Proof.Machine.execConsistBootApply s
  | .consistData q body => Sys2Proof.Machine.execConsistData q body s
  | .consistLoad q body => Sys2Proof.Machine.execConsistLoad q body s
  | .consistSlotWritten => Sys2Proof.Machine.execConsistSlotWritten s
  | .consistApply q body => Sys2Proof.Machine.execConsistApply q body s
  | .applyComplete => Sys2Proof.Machine.execApplyComplete s
  | .applyBeat => Sys2Proof.Machine.execApplyBeat s
  | .add seat w => Sys2Proof.Machine.execAdd seat w s
  | .sub seat w => Sys2Proof.Machine.execSub seat w s
  | .and seat w => Sys2Proof.Machine.execAnd seat w s
  | .or seat w => Sys2Proof.Machine.execOr seat w s
  | .xor seat w => Sys2Proof.Machine.execXor seat w s
  | .shl seat w => Sys2Proof.Machine.execShl seat w s
  | .shr seat w => Sys2Proof.Machine.execShr seat w s
  | .sra seat w => Sys2Proof.Machine.execSra seat w s
  | .addi seat w => Sys2Proof.Machine.execAddi seat w s
  | .andi seat w => Sys2Proof.Machine.execAndi seat w s
  | .ori seat w => Sys2Proof.Machine.execOri seat w s
  | .xori seat w => Sys2Proof.Machine.execXori seat w s
  | .shli seat w => Sys2Proof.Machine.execShli seat w s
  | .shri seat w => Sys2Proof.Machine.execShri seat w s
  | .srai seat w => Sys2Proof.Machine.execSrai seat w s
  | .movi seat w => Sys2Proof.Machine.execMovi seat w s
  | .movk seat w => Sys2Proof.Machine.execMovk seat w s
  | .slt seat w => Sys2Proof.Machine.execSlt seat w s
  | .sltu seat w => Sys2Proof.Machine.execSltu seat w s
  | .sel seat w => Sys2Proof.Machine.execSel seat w s
  | .min seat w => Sys2Proof.Machine.execMin seat w s
  | .max seat w => Sys2Proof.Machine.execMax seat w s
  | .minu seat w => Sys2Proof.Machine.execMinu seat w s
  | .maxu seat w => Sys2Proof.Machine.execMaxu seat w s
  | .mul seat w => Sys2Proof.Machine.execMul seat w s
  | .mulh seat w => Sys2Proof.Machine.execMulh seat w s
  | .mulhu seat w => Sys2Proof.Machine.execMulhu seat w s
  | .div seat w => Sys2Proof.Machine.execDiv seat w s
  | .divu seat w => Sys2Proof.Machine.execDivu seat w s
  | .rem seat w => Sys2Proof.Machine.execRem seat w s
  | .remu seat w => Sys2Proof.Machine.execRemu seat w s
  | .beq seat w => Sys2Proof.Machine.execBeq seat w s
  | .bne seat w => Sys2Proof.Machine.execBne seat w s
  | .blt seat w => Sys2Proof.Machine.execBlt seat w s
  | .bge seat w => Sys2Proof.Machine.execBge seat w s
  | .bltu seat w => Sys2Proof.Machine.execBltu seat w s
  | .bgeu seat w => Sys2Proof.Machine.execBgeu seat w s
  | .bmany seat w => Sys2Proof.Machine.execBmany seat w s
  | .bmnone seat w => Sys2Proof.Machine.execBmnone seat w s
  | .jal seat w => Sys2Proof.Machine.execJal seat w s
  | .jalr seat w => Sys2Proof.Machine.execJalr seat w s
  | .loop seat w => Sys2Proof.Machine.execLoop seat w s
  | .vadd seat w => Sys2Proof.Machine.execVadd seat w s
  | .vsub seat w => Sys2Proof.Machine.execVsub seat w s
  | .vmul seat w => Sys2Proof.Machine.execVmul seat w s
  | .vfma seat w => Sys2Proof.Machine.execVfma seat w s
  | .vfnma seat w => Sys2Proof.Machine.execVfnma seat w s
  | .vdot seat w => Sys2Proof.Machine.execVdot seat w s
  | .vmin seat w => Sys2Proof.Machine.execVmin seat w s
  | .vmax seat w => Sys2Proof.Machine.execVmax seat w s
  | .vabs seat w => Sys2Proof.Machine.execVabs seat w s
  | .vneg seat w => Sys2Proof.Machine.execVneg seat w s
  | .vdiv seat w => Sys2Proof.Machine.execVdiv seat w s
  | .vsqrt seat w => Sys2Proof.Machine.execVsqrt seat w s
  | .vcmp seat w => Sys2Proof.Machine.execVcmp seat w s
  | .viadd seat w => Sys2Proof.Machine.execViadd seat w s
  | .visub seat w => Sys2Proof.Machine.execVisub seat w s
  | .vimul seat w => Sys2Proof.Machine.execVimul seat w s
  | .vidot seat w => Sys2Proof.Machine.execVidot seat w s
  | .vand seat w => Sys2Proof.Machine.execVand seat w s
  | .vor seat w => Sys2Proof.Machine.execVor seat w s
  | .vxor seat w => Sys2Proof.Machine.execVxor seat w s
  | .vshl seat w => Sys2Proof.Machine.execVshl seat w s
  | .vshr seat w => Sys2Proof.Machine.execVshr seat w s
  | .vsra seat w => Sys2Proof.Machine.execVsra seat w s
  | .vicmp seat w => Sys2Proof.Machine.execVicmp seat w s
  | .vsel seat w => Sys2Proof.Machine.execVsel seat w s
  | .vmovs seat w => Sys2Proof.Machine.execVmovs seat w s
  | .smovv seat w => Sys2Proof.Machine.execSmovv seat w s
  | .viota seat w => Sys2Proof.Machine.execViota seat w s
  | .vperm seat w => Sys2Proof.Machine.execVperm seat w s
  | .mand seat w => Sys2Proof.Machine.execMand seat w s
  | .mor seat w => Sys2Proof.Machine.execMor seat w s
  | .mxor seat w => Sys2Proof.Machine.execMxor seat w s
  | .mnot seat w => Sys2Proof.Machine.execMnot seat w s
  | .mset seat w => Sys2Proof.Machine.execMset seat w s
  | .mget seat w => Sys2Proof.Machine.execMget seat w s
  | .mcnt seat w => Sys2Proof.Machine.execMcnt seat w s
  | .mfirst seat w => Sys2Proof.Machine.execMfirst seat w s
  | .cvt seat w => Sys2Proof.Machine.execCvt seat w s
  | .xalloc seat w => Sys2Proof.Machine.execXalloc seat w s
  | .xallocGrant coach => Sys2Proof.Machine.execXallocGrant coach s
  | .xfree seat w => Sys2Proof.Machine.execXfree seat w s
  | .xacc seat w => Sys2Proof.Machine.execXacc seat w s
  | .xzero seat w => Sys2Proof.Machine.execXzero seat w s
  | .xrd seat w => Sys2Proof.Machine.execXrd seat w s
  | .xadd seat w => Sys2Proof.Machine.execXadd seat w s
  | .xlda seat w => Sys2Proof.Machine.execXlda seat w s
  | .xst seat w => Sys2Proof.Machine.execXst seat w s
  | .ld seat w => Sys2Proof.Machine.execLd seat w s
  | .st seat w => Sys2Proof.Machine.execSt seat w s
  | .vld seat w => Sys2Proof.Machine.execVld seat w s
  | .vst seat w => Sys2Proof.Machine.execVst seat w s
  | .aadd seat w => Sys2Proof.Machine.execAadd seat w s
  | .amin seat w => Sys2Proof.Machine.execAmin seat w s
  | .amax seat w => Sys2Proof.Machine.execAmax seat w s
  | .aswap seat w => Sys2Proof.Machine.execAswap seat w s
  | .acas seat w => Sys2Proof.Machine.execAcas seat w s
  | .ald seat w => Sys2Proof.Machine.execAld seat w s
  | .loadReturn coach id => Sys2Proof.Machine.execLoadReturn coach id s
  | .transactionPerformed coach id block => Sys2Proof.Machine.execTransactionPerformed coach id block s
  | .dsub seat w => Sys2Proof.Machine.execDsub seat w s
  | .dwait seat w => Sys2Proof.Machine.execDwait seat w s
  | .dcnt seat w => Sys2Proof.Machine.execDcnt seat w s
  | .drayTransaction coach engine => Sys2Proof.Machine.execDrayTransaction coach engine s
  | .drayDescriptorComplete coach engine => Sys2Proof.Machine.execDrayDescriptorComplete coach engine s
  | .vgather seat w => Sys2Proof.Machine.execVgather seat w s
  | .vscatter seat w => Sys2Proof.Machine.execVscatter seat w s
  | .xscadd seat w => Sys2Proof.Machine.execXscadd seat w s
  | .fence seat w => Sys2Proof.Machine.execFence seat w s
  | .fenceComplete seat => Sys2Proof.Machine.execFenceComplete seat s
  | .bar seat w => Sys2Proof.Machine.execBar seat w s
  | .barrierRelease coach scope => Sys2Proof.Machine.execBarrierRelease coach scope s
  | .launch seat w => Sys2Proof.Machine.execLaunch seat w s
  | .bwait seat w => Sys2Proof.Machine.execBwait seat w s
  | .bread seat w => Sys2Proof.Machine.execBread seat w s
  | .rpop seat w => Sys2Proof.Machine.execRpop seat w s
  | .rpush seat w => Sys2Proof.Machine.execRpush seat w s
  | .rctx seat w => Sys2Proof.Machine.execRctx seat w s
  | .rand seat w => Sys2Proof.Machine.execRand seat w s
  | .nop seat w => Sys2Proof.Machine.execNop seat w s
  | .halt seat w => Sys2Proof.Machine.execHalt seat w s
  | .trap seat w => Sys2Proof.Machine.execTrap seat w s
  | .launchBlockStart train => Sys2Proof.Machine.execLaunchBlockStart train s
  | .kernelCodeLoaded train => Sys2Proof.Machine.execKernelCodeLoaded train s
  | .kernelComplete train => Sys2Proof.Machine.execKernelComplete train s
  | .kernelTimeout train => Sys2Proof.Machine.execKernelTimeout train s
  | .kernelsStopped => Sys2Proof.Machine.execKernelsStopped s
  | .reduce src raw => Sys2Proof.Machine.execReduce src raw s
  | .allReduce src raw => Sys2Proof.Machine.execAllReduce src raw s
  | .reduceScatter src raw => Sys2Proof.Machine.execReduceScatter src raw s
  | .allGather src raw => Sys2Proof.Machine.execAllGather src raw s
  | .broadcast src raw => Sys2Proof.Machine.execBroadcast src raw s
  | .allToAll src raw => Sys2Proof.Machine.execAllToAll src raw s
  | .collUnmatched id => Sys2Proof.Machine.execCollUnmatched id s
  | .collWindowOpen slot => Sys2Proof.Machine.execCollWindowOpen slot s
  | .collChunkReduce slot => Sys2Proof.Machine.execCollChunkReduce slot s
  | .collComplete slot => Sys2Proof.Machine.execCollComplete slot s
  | .collStall slot => Sys2Proof.Machine.execCollStall slot s
  | .collData f => Sys2Proof.Machine.execCollData f s
  | .dispatch f => Sys2Proof.Machine.execDispatch f s
  | .dispatchEnd f => Sys2Proof.Machine.execDispatchEnd f s
  | .dispatchCredit src dst => Sys2Proof.Machine.execDispatchCredit src dst s
  | .xhPost c => Sys2Proof.Machine.execXhPost c s
  | .xhStep c => Sys2Proof.Machine.execXhStep c s
  | .collCredit c => Sys2Proof.Machine.execCollCredit c s
  | .tableDefine src raw => Sys2Proof.Machine.execTableDefine src raw s
  | .tableRelease src raw => Sys2Proof.Machine.execTableRelease src raw s
  | .stepLinked src raw => Sys2Proof.Machine.execStepLinked src raw s
  | .stepBuffered src raw => Sys2Proof.Machine.execStepBuffered src raw s
  | .stepEmitOnly src raw => Sys2Proof.Machine.execStepEmitOnly src raw s
  | .embGather src raw => Sys2Proof.Machine.execEmbGather src raw s
  | .embScatterAdd src raw => Sys2Proof.Machine.execEmbScatterAdd src raw s
  | .embApply src raw => Sys2Proof.Machine.execEmbApply src raw s
  | .embApplyBegin table => Sys2Proof.Machine.execEmbApplyBegin table s
  | .stateCommandHead table => Sys2Proof.Machine.execStateCommandHead table s
  | .stepEnd table => Sys2Proof.Machine.execStepEnd table s
  | .stateCommandComplete table => Sys2Proof.Machine.execStateCommandComplete table s
  | .take src raw => Sys2Proof.Machine.execTake src raw s
  | .restore src raw => Sys2Proof.Machine.execRestore src raw s
  | .drain src raw => Sys2Proof.Machine.execDrain src raw s
  | .importOpen src raw => Sys2Proof.Machine.execImportOpen src raw s
  | .importCheck src raw => Sys2Proof.Machine.execImportCheck src raw s
  | .snapManifest c => Sys2Proof.Machine.execSnapManifest c s
  | .snapManifestDeadline => Sys2Proof.Machine.execSnapManifestDeadline s
  | .snapCut => Sys2Proof.Machine.execSnapCut s
  | .snapData f => Sys2Proof.Machine.execSnapData f s
  | .snapSent c => Sys2Proof.Machine.execSnapSent c s
  | .snapCommit => Sys2Proof.Machine.execSnapCommit s
  | .snapResume => Sys2Proof.Machine.execSnapResume s
  | .snapPcredit c => Sys2Proof.Machine.execSnapPcredit c s
  | .snapLoadedAck c => Sys2Proof.Machine.execSnapLoadedAck c s
  | .mirBegin c => Sys2Proof.Machine.execMirBegin c s
  | .mirEnd c => Sys2Proof.Machine.execMirEnd c s
  | .mirAck c => Sys2Proof.Machine.execMirAck c s
  | .mirNak c => Sys2Proof.Machine.execMirNak c s
  | .mirCredit c => Sys2Proof.Machine.execMirCredit c s
  | .mirSlots c => Sys2Proof.Machine.execMirSlots c s
  | .drumBeat => Sys2Proof.Machine.execDrumBeat s
  | .beatSync port header seq echoSeq txCount txPhase rxCount rxPhase info rest crc phase => Sys2Proof.Machine.execBeatSync port header seq echoSeq txCount txPhase rxCount rxPhase info rest crc phase s
  | .ptpSync p master twoStep t1 phase => Sys2Proof.Machine.execPtpSync p master twoStep t1 phase s
  | .ptpFollowUp p master t1 => Sys2Proof.Machine.execPtpFollowUp p master t1 s
  | .ptpDelayResp p master own t4 => Sys2Proof.Machine.execPtpDelayResp p master own t4 s
  | .ptpAnnounce p master rank => Sys2Proof.Machine.execPtpAnnounce p master rank s
  | .drumSourceLost => Sys2Proof.Machine.execDrumSourceLost s
  | .drumReport c => Sys2Proof.Machine.execDrumReport c s
  | .portEnable port => Sys2Proof.Machine.execPortEnable port s
  | .trainingFrame port lane word ready reqOp reqTap => Sys2Proof.Machine.execTrainingFrame port lane word ready reqOp reqTap s
  | .trainingTimeout port => Sys2Proof.Machine.execTrainingTimeout port s
  | .laneTestEnd port errors snr closing => Sys2Proof.Machine.execLaneTestEnd port errors snr closing s
  | .align f lock => Sys2Proof.Machine.execAlign f lock s
  | .config port header rest => Sys2Proof.Machine.execConfig port header rest s
  | .portFailedRetry port => Sys2Proof.Machine.execPortFailedRetry port s
  | .cplLaneLost port lane => Sys2Proof.Machine.execCplLaneLost port lane s
  | .linkWord port word later => Sys2Proof.Machine.execLinkWord port word later s
  | .cplLinkDown port => Sys2Proof.Machine.execCplLinkDown port s
  | .compensationFrame port => Sys2Proof.Machine.execCompensationFrame port s
  | .write f => Sys2Proof.Machine.execWrite f s
  | .readReq f => Sys2Proof.Machine.execReadReq f s
  | .ringSub f => Sys2Proof.Machine.execRingSub f s
  | .ringFree c => Sys2Proof.Machine.execRingFree c s
  | .jobAbort c => Sys2Proof.Machine.execJobAbort c s
  | .jobAbortAck c => Sys2Proof.Machine.execJobAbortAck c s
  | .linkStatePoll n read => Sys2Proof.Machine.execLinkStatePoll n read s
  | .inBandInterrupt n irq => Sys2Proof.Machine.execInBandInterrupt n irq s
  | .cplRetest port => Sys2Proof.Machine.execCplRetest port s
  | .memoryRead addr found checked => Sys2Proof.Machine.execMemoryRead addr found checked s
  | .memoryWrite addr off data poisoned found => Sys2Proof.Machine.execMemoryWrite addr off data poisoned found s
  | .mr4Poll hot => Sys2Proof.Machine.execMr4Poll hot s
  | .scrubRead addr found => Sys2Proof.Machine.execScrubRead addr found s
  | .memoryTrainingComplete failed devs ms => Sys2Proof.Machine.execMemoryTrainingComplete failed devs ms s
  | .memoryFillComplete => Sys2Proof.Machine.execMemoryFillComplete s
  | .memErrorRateSecond channel => Sys2Proof.Machine.execMemErrorRateSecond channel s
  | .ethLinkChange port up => Sys2Proof.Machine.execEthLinkChange port up s
  | .arpRequest port vlan target senderIp senderMac => Sys2Proof.Machine.execArpRequest port vlan target senderIp senderMac s
  | .icmpEchoRequest port vlan v6 dst src data => Sys2Proof.Machine.execIcmpEchoRequest port vlan v6 dst src data s
  | .neighborSolicitation port vlan target src => Sys2Proof.Machine.execNeighborSolicitation port vlan target src s
  | .routerAdvertisement port vlan router lifetime => Sys2Proof.Machine.execRouterAdvertisement port vlan router lifetime s
  | .pfcPause port priority quanta => Sys2Proof.Machine.execPfcPause port priority quanta s
  | .rdmaWrite k psn pos addr key data ce => Sys2Proof.Machine.execRdmaWrite k psn pos addr key data ce s
  | .rdmaRead k psn addr key len ce => Sys2Proof.Machine.execRdmaRead k psn addr key len ce s
  | .rdmaAck k psn => Sys2Proof.Machine.execRdmaAck k psn s
  | .cnp k => Sys2Proof.Machine.execCnp k s
  | .rdmaAckTimeout conn => Sys2Proof.Machine.execRdmaAckTimeout conn s
  | .rdmaRateRecovery conn => Sys2Proof.Machine.execRdmaRateRecovery conn s
  | .doorbell k ring value => Sys2Proof.Machine.execDoorbell k ring value s
  | .ringEntryTake consumer => Sys2Proof.Machine.execRingEntryTake consumer s
  | .statusGet q body => Sys2Proof.Machine.execStatusGet q body s
  | .identityGet q body => Sys2Proof.Machine.execIdentityGet q body s
  | .regRead q body => Sys2Proof.Machine.execRegRead q body s
  | .regWrite q body => Sys2Proof.Machine.execRegWrite q body s
  | .ringSetup q body => Sys2Proof.Machine.execRingSetup q body s
  | .notifySet q body => Sys2Proof.Machine.execNotifySet q body s
  | .connOpen q body => Sys2Proof.Machine.execConnOpen q body s
  | .connClose q body => Sys2Proof.Machine.execConnClose q body s
  | .addrSet q body => Sys2Proof.Machine.execAddrSet q body s
  | .heartbeat q body => Sys2Proof.Machine.execHeartbeat q body s
  | .roleSilent role => Sys2Proof.Machine.execRoleSilent role s
  | .jobStart q body => Sys2Proof.Machine.execJobStart q body s
  | .jobEnd q body => Sys2Proof.Machine.execJobEnd q body s
  | .powerSetOn q body => Sys2Proof.Machine.execPowerSetOn q body s
  | .powerSetOff q body => Sys2Proof.Machine.execPowerSetOff q body s
  | .capSet q body => Sys2Proof.Machine.execCapSet q body s
  | .energyGet q body => Sys2Proof.Machine.execEnergyGet q body s
  | .telemetryGet q body => Sys2Proof.Machine.execTelemetryGet q body s
  | .enrol q body => Sys2Proof.Machine.execEnrol q body s
  | .updBegin q body => Sys2Proof.Machine.execUpdBegin q body s
  | .updData q body => Sys2Proof.Machine.execUpdData q body s
  | .updDataProgrammed ok addr => Sys2Proof.Machine.execUpdDataProgrammed ok addr s
  | .updEnd q body => Sys2Proof.Machine.execUpdEnd q body s
  | .updVerifyComplete intact => Sys2Proof.Machine.execUpdVerifyComplete intact s
  | .updActivate q body => Sys2Proof.Machine.execUpdActivate q body s
  | .updAbort q body => Sys2Proof.Machine.execUpdAbort q body s
  | .updSessionTimeout => Sys2Proof.Machine.execUpdSessionTimeout s
  | .updDeferralEnd => Sys2Proof.Machine.execUpdDeferralEnd s
  | .trialTimeout => Sys2Proof.Machine.execTrialTimeout s
  | .standbyTrialConfirm => Sys2Proof.Machine.execStandbyTrialConfirm s
  | .getVersion q body => Sys2Proof.Machine.execGetVersion q body s
  | .getCapabilities q body => Sys2Proof.Machine.execGetCapabilities q body s
  | .negotiateAlgorithms q body => Sys2Proof.Machine.execNegotiateAlgorithms q body s
  | .getDigests q body => Sys2Proof.Machine.execGetDigests q body s
  | .getCertificate q body => Sys2Proof.Machine.execGetCertificate q body s
  | .challenge q body => Sys2Proof.Machine.execChallenge q body s
  | .getMeasurements q body => Sys2Proof.Machine.execGetMeasurements q body s
  | .faultRead q body => Sys2Proof.Machine.execFaultRead q body s
  | .faultAck q body => Sys2Proof.Machine.execFaultAck q body s
  | .logRead q body => Sys2Proof.Machine.execLogRead q body s
  | .serviceOpen svc => Sys2Proof.Machine.execServiceOpen svc s
  | .compartmentFault guard index owns => Sys2Proof.Machine.execCompartmentFault guard index owns s
  | .compartmentWatchdogExpiry guard index owns => Sys2Proof.Machine.execCompartmentWatchdogExpiry guard index owns s
  | .guardWatchdogExpiry guard => Sys2Proof.Machine.execGuardWatchdogExpiry guard s
  | .guardKernelFault guard => Sys2Proof.Machine.execGuardKernelFault guard s
  | .sctlWatchdogExpiry => Sys2Proof.Machine.execSctlWatchdogExpiry s
  | .pseqLoadGo value => Sys2Proof.Machine.execPseqLoadGo value s
  | .pealLoadComplete => Sys2Proof.Machine.execPealLoadComplete s
  | .pealUpperRunStart => Sys2Proof.Machine.execPealUpperRunStart s
  | .pealEnd => Sys2Proof.Machine.execPealEnd s
  | .pealEn => Sys2Proof.Machine.execPealEn s
  | .pealDis => Sys2Proof.Machine.execPealDis s
  | .pealWait => Sys2Proof.Machine.execPealWait s
  | .pealChk => Sys2Proof.Machine.execPealChk s
  | .pealJmp => Sys2Proof.Machine.execPealJmp s
  | .pealJfail => Sys2Proof.Machine.execPealJfail s
  | .pealStagger => Sys2Proof.Machine.execPealStagger s
  | .pealStepTimeout chatter => Sys2Proof.Machine.execPealStepTimeout chatter s
  | .pealWaitExpiry => Sys2Proof.Machine.execPealWaitExpiry s
  | .powerGoodQualified slot chatter bad => Sys2Proof.Machine.execPowerGoodQualified slot chatter bad s
  | .pealRailFault slot => Sys2Proof.Machine.execPealRailFault slot s
  | .dischargeDone slot mv => Sys2Proof.Machine.execDischargeDone slot mv s
  | .dischargeTimeout => Sys2Proof.Machine.execDischargeTimeout s
  | .retryWaitExpiry => Sys2Proof.Machine.execRetryWaitExpiry s
  | .attemptCountReset => Sys2Proof.Machine.execAttemptCountReset s
  | .hubCapPeriod core share cycles => Sys2Proof.Machine.execHubCapPeriod core share cycles s
  | .trayScan pin core slots => Sys2Proof.Machine.execTrayScan pin core slots s
  | .opEvaluation => Sys2Proof.Machine.execOpEvaluation s
  | .opStepComplete => Sys2Proof.Machine.execOpStepComplete s
  | .droopDetect detectors stretched => Sys2Proof.Machine.execDroopDetect detectors stretched s
  | .slopeRequest n phase => Sys2Proof.Machine.execSlopeRequest n phase s
  | .tempSweep rakes => Sys2Proof.Machine.execTempSweep rakes s
  | .railStatusPoll slot status mv => Sys2Proof.Machine.execRailStatusPoll slot status mv s
  | .leakSample input mv => Sys2Proof.Machine.execLeakSample input mv s
  | .emergencyClear code => Sys2Proof.Machine.execEmergencyClear code s
  | .ageingTrim slack below => Sys2Proof.Machine.execAgeingTrim slack below s
  | .coolingUpdate => Sys2Proof.Machine.execCoolingUpdate s
  | .fanPulseSeen k period steady => Sys2Proof.Machine.execFanPulseSeen k period steady s
  | .fanSpinupTimeout k => Sys2Proof.Machine.execFanSpinupTimeout k s
  | .fanStallDetect k => Sys2Proof.Machine.execFanStallDetect k s
  | .fanKickStart k => Sys2Proof.Machine.execFanKickStart k s
  | .fanKickEnd k => Sys2Proof.Machine.execFanKickEnd k s
  | .flowOkLow => Sys2Proof.Machine.execFlowOkLow s
  | .tripClear which => Sys2Proof.Machine.execTripClear which s
  | .faultMessage source kind cls addr => Sys2Proof.Machine.execFaultMessage source kind cls addr s
  | .blockReset source => Sys2Proof.Machine.execBlockReset source s
  | .domainQuietExpiry domain => Sys2Proof.Machine.execDomainQuietExpiry domain s
  | .fltAck value => Sys2Proof.Machine.execFltAck value s
  | .fltQpopHi => Sys2Proof.Machine.execFltQpopHi s
  | .fltGfifoHi guard => Sys2Proof.Machine.execFltGfifoHi guard s
  | .bistSliceStart => Sys2Proof.Machine.execBistSliceStart s
  | .bistBudgetExpiry => Sys2Proof.Machine.execBistBudgetExpiry s
  | .bistSliceEnd responses reading verifying => Sys2Proof.Machine.execBistSliceEnd responses reading verifying s
  | .bistReqGo slice => Sys2Proof.Machine.execBistReqGo slice s
  | .partnerResetRelease n => Sys2Proof.Machine.execPartnerResetRelease n s
  | .sideCtlHold n => Sys2Proof.Machine.execSideCtlHold n s
  | .sideCtlPulse n => Sys2Proof.Machine.execSideCtlPulse n s
  | .accFaultAssert n low => Sys2Proof.Machine.execAccFaultAssert n low s
  | .i3cAddressAssign n taken => Sys2Proof.Machine.execI3cAddressAssign n taken s
  | .hotJoin n => Sys2Proof.Machine.execHotJoin n s
  | .partnerWatchPoll n temp fw => Sys2Proof.Machine.execPartnerWatchPoll n temp fw s
  | .sideNoresp n => Sys2Proof.Machine.execSideNoresp n s
  | .failedFlit port fault kinds => Sys2Proof.Machine.execFailedFlit port fault kinds s
  | .fecRateSecond port symbols => Sys2Proof.Machine.execFecRateSecond port symbols s
  | .railLostDown slot => Sys2Proof.Machine.execRailLostDown slot s
  | .embApplyComplete table => Sys2Proof.Machine.execEmbApplyComplete table s
  | .restoreComplete => Sys2Proof.Machine.execRestoreComplete s
  | .unknownCode q code body => Sys2Proof.Machine.execUnknownCode q code body s
  | .unsupportedRequest q body => Sys2Proof.Machine.execUnsupportedRequest q body s

end Sys2Proof.Machine
end

