-- ==== Sys2Proof/Claims.lean ====
section
/-! DEFINITION. The terms that the statements share: when a coach instruction issues, and what it leaves unchanged. -/

namespace Sys2Proof.Machine

/-- R55, R57, R95, R97, R99: seat `n` issues the word `w` of an instruction of this form: the seat may issue, its PC is inside
the code area, the word there is this one, the word has its form, and no register it names awaits a load or atomic. -/
def issuesWord (s : State) (n : Nat) (w : Fields) (form : Form) : Bool :=
  mayIssue s n && decide ((getSeat s n).pc < codeLimit s n) && decide (fetchWord s n = wordBits form.op w) && wordOk form w &&
    (wordRegs form w).all fun r => !(getSeat s n).pend.contains r

/-- Everything but seat `n` and the count of issued instructions is the same: every other seat, all memory, every register
of the hub, the queue, what has been sent. -/
def onlySeat (s t : State) (n : Nat) : Prop :=
  (∀ m, m ≠ n → getSeat t m = getSeat s m) ∧
    { t with coaches := { t.coaches with seat := s.coaches.seat, issues := s.coaches.issues } } = s

/-- What no result of an instruction touches in its seat: state, pending registers, X grant, generator tag and base,
barrier counts. -/
def sameRest (a b : Seat) : Prop :=
  b.st = a.st ∧ b.pend = a.pend ∧ b.grant = a.grant ∧ b.tag = a.tag ∧ b.base = a.base ∧ b.bar0 = a.bar0 ∧ b.bar1 = a.bar1

/-- The scalar registers are unchanged. -/
def sameS (a b : Seat) : Prop := ∀ r, sget b r = sget a r

/-- The vector registers are unchanged. -/
def sameV (a b : Seat) : Prop := ∀ v i, vget b v i = vget a v i

/-- The mask registers are unchanged. -/
def sameM (a b : Seat) : Prop := ∀ m, mget b m = mget a m

/-- R99: the address of the next instruction. -/
def nextPc (a : Seat) : Nat := (a.pc + 8) % 2 ^ 64

/-- Only scalar register `d` of seat `n` has a new value with its poison bit, and its PC is `pc`. -/
def wroteS (s t : State) (n pc d : Nat) (x : W64 × Bool) : Prop :=
  onlySeat s t n ∧ (getSeat t n).pc = pc ∧ sget (getSeat t n) d = x ∧
    (∀ r, r ≠ d → sget (getSeat t n) r = sget (getSeat s n) r) ∧
    sameV (getSeat s n) (getSeat t n) ∧ sameM (getSeat s n) (getSeat t n) ∧ sameRest (getSeat s n) (getSeat t n)

/-- Only the selected lanes of vector register `d` of seat `n` have new values with their poison bits; its PC moved on. -/
def wroteV (s t : State) (n d : Nat) (sel : W64) (f : Nat → W32 × Bool) : Prop :=
  onlySeat s t n ∧ (getSeat t n).pc = nextPc (getSeat s n) ∧
    (∀ i, i < 64 → vget (getSeat t n) d i = if sel.getLsbD i then f i else vget (getSeat s n) d i) ∧
    (∀ v i, v ≠ d → i < 64 → vget (getSeat t n) v i = vget (getSeat s n) v i) ∧
    sameS (getSeat s n) (getSeat t n) ∧ sameM (getSeat s n) (getSeat t n) ∧ sameRest (getSeat s n) (getSeat t n)

/-- Only mask register `d` of seat `n` has a new value; its PC moved on. -/
def wroteM (s t : State) (n d : Nat) (x : W64) : Prop :=
  onlySeat s t n ∧ (getSeat t n).pc = nextPc (getSeat s n) ∧ mget (getSeat t n) d = x ∧
    (∀ m, m ≠ d → mget (getSeat t n) m = mget (getSeat s n) m) ∧
    sameS (getSeat s n) (getSeat t n) ∧ sameV (getSeat s n) (getSeat t n) ∧ sameRest (getSeat s n) (getSeat t n)

/-- Nothing but the PC of seat `n` is new. -/
def wentTo (s t : State) (n pc : Nat) : Prop :=
  onlySeat s t n ∧ (getSeat t n).pc = pc ∧ sameS (getSeat s n) (getSeat t n) ∧ sameV (getSeat s n) (getSeat t n) ∧
    sameM (getSeat s n) (getSeat t n) ∧ sameRest (getSeat s n) (getSeat t n)

/-- An instruction of two scalar sources: Sd = f Sa Sb, poisoned when a source is (R105). -/
def givesSSS (op : Nat) (i : Nat → Fields → Instr) (f : W64 → W64 → W64) : Prop :=
  ∀ (s : State) (n : Nat) (w : Fields), issuesWord s n w (formSSS op) = true →
    ∃ t, exec (i n w) s = .next t ∧
      wroteS s t n (nextPc (getSeat s n)) w.d.toNat
        (f (sget (getSeat s n) w.a.toNat).1 (sget (getSeat s n) w.b.toNat).1,
          (sget (getSeat s n) w.a.toNat).2 || (sget (getSeat s n) w.b.toNat).2)

/-- An instruction of one scalar source and an immediate: Sd = f Sa IMM, poisoned when the source is (R105). -/
def givesSSI (i : Nat → Fields → Instr) (form : Form) (f : W64 → Fields → W64) : Prop :=
  ∀ (s : State) (n : Nat) (w : Fields), issuesWord s n w form = true →
    ∃ t, exec (i n w) s = .next t ∧
      wroteS s t n (nextPc (getSeat s n)) w.d.toNat
        (f (sget (getSeat s n) w.a.toNat).1 w, (sget (getSeat s n) w.a.toNat).2)

/-- A branch on two scalar registers that are not poisoned: to the target when the condition holds, else on. -/
def branchesSS (op : Nat) (i : Nat → Fields → Instr) (c : W64 → W64 → Bool) : Prop :=
  ∀ (s : State) (n : Nat) (w : Fields), issuesWord s n w { op := op, a := .s, b := .s, imm := 0xFFFFFF } = true →
    (sget (getSeat s n) w.a.toNat).2 = false → (sget (getSeat s n) w.b.toNat).2 = false →
    ∃ t, exec (i n w) s = .next t ∧
      wentTo s t n (if c (sget (getSeat s n) w.a.toNat).1 (sget (getSeat s n) w.b.toNat).1
        then branchTarget (getSeat s n) w else nextPc (getSeat s n))

/-- A branch on a mask register. -/
def branchesM (op : Nat) (i : Nat → Fields → Instr) (c : W64 → Bool) : Prop :=
  ∀ (s : State) (n : Nat) (w : Fields), issuesWord s n w { op := op, a := .m, imm := 0xFFFFFF } = true →
    ∃ t, exec (i n w) s = .next t ∧
      wentTo s t n (if c (mget (getSeat s n) w.a.toNat) then branchTarget (getSeat s n) w else nextPc (getSeat s n))

/-- A mask instruction of two mask sources: Md = f Ma Mb. -/
def givesMMM (op : Nat) (i : Nat → Fields → Instr) (f : W64 → W64 → W64) : Prop :=
  ∀ (s : State) (n : Nat) (w : Fields), issuesWord s n w { op := op, d := .m, a := .m, b := .m } = true →
    ∃ t, exec (i n w) s = .next t ∧
      wroteM s t n w.d.toNat (f (mget (getSeat s n) w.a.toNat) (mget (getSeat s n) w.b.toNat))

/-- R112: the form of the masked integer instructions. -/
def formVint (op : Nat) (fmts : List Nat) : Form := { op := op, d := .v, a := .sv, b := .sv, c := .mask, fmts := fmts }

/-- A masked elementwise instruction: each selected lane of Vd is built from the results `f` of its elements (the encodings of
a, of b and of the old destination, and the element's number), and poisoned by what it was computed from. -/
def givesV (i : Nat → Fields → Instr) (form : Form) (useB useD : Bool)
    (f : State → Seat → Fields → Nat → Nat → Nat → Nat → Nat) : Prop :=
  ∀ (s : State) (n : Nat) (w : Fields), issuesWord s n w form = true →
    ∃ t, exec (i n w) s = .next t ∧ wroteV s t n (w.d.toNat - 32) (selMask (getSeat s n) w.c) fun l =>
      let wd := fmtWidth (wFmt w)
      let x := srcLane (getSeat s n) w.a wd l
      let y := srcLane (getSeat s n) w.b wd l
      let z := vget (getSeat s n) (w.d.toNat - 32) l
      (BitVec.ofNat 32 (joinElems wd ((rangeFrom 0 (32 / wd)).map fun e =>
          f s (getSeat s n) w (elemOf x.1 wd e) (elemOf y.1 wd e) (elemOf z.1 wd e) (l * (32 / wd) + e))),
        x.2 || (useB && y.2) || (useD && z.2))

/-- R109, R111: seat `n` issues the VDOT word `w`: its scale registers fit its format and await nothing. -/
def issuesDot (s : State) (n : Nat) (w : Fields) : Bool :=
  let mx := fmtIsMx (wFmt w)
  let ra := w.imm.toNat / 32 % 32
  let rb := w.imm.toNat % 32
  issuesWord s n w { op := 0x35, d := .v, a := if mx then .v else .sv, b := if mx then .v else .sv, c := .mask,
                     fmts := [0, 1, 2, 3, 4, 5, 6, 7, 8, 9], rounds := true, imm := 0x3FF } &&
    scaleOk (wFmt w) ra && scaleOk (wFmt w) rb &&
    (scaleRegs (wFmt w) ra ++ scaleRegs (wFmt w) rb).all fun r => !(getSeat s n).pend.contains r

/-- R105, R112: seat `n` issues the compare `w`, no selected lane of which is poisoned. -/
def comparesWord (op : Nat) (s : State) (n : Nat) (w : Fields) (fmts : List Nat) : Bool :=
  issuesWord s n w { op := op, d := .m, a := .sv, b := .sv, c := .mask, fmts := fmts, imm := 7 } && decide (w.imm.toNat % 8 ≠ 7) &&
    (List.range 64).all fun i => !(selMask (getSeat s n) w.c).getLsbD i ||
      (!(srcLane (getSeat s n) w.a 32 i).2 && !(srcLane (getSeat s n) w.b 32 i).2)

/-- Table 4.8: conditions 0 to 5 signed, 6 unsigned less-than. -/
def intCond (c : Nat) (x y : W32) : Bool :=
  if c = 0 then decide (x = y) else if c = 1 then decide (x ≠ y) else if c = 2 then decide (x.toInt < y.toInt)
  else if c = 3 then decide (x.toInt ≤ y.toInt) else if c = 4 then decide (y.toInt < x.toInt)
  else if c = 5 then decide (y.toInt ≤ x.toInt) else decide (x.toNat < y.toNat)

/-- R113, R153: seat `n` issues the CVT word `w`: formats, part and scale registers fit. -/
def issuesCvt (s : State) (n : Nat) (w : Fields) : Bool :=
  issuesWord s n w { op := 0x50, d := .v, a := .v, c := .mask, fmts := [0, 1, 2, 3, 4, 5, 6, 7, 8, 9, 10, 11], rounds := true, imm := 0x3FF7F } &&
    decide (w.imm.toNat % 16 < 12) && decide (cvtPart w < cvtParts (cvtSrc w) (wFmt w)) && scaleOk (cvtSrc w) (cvtSs w) &&
    scaleOk (wFmt w) (cvtDs w) && !(fmtIsMx (wFmt w) && w.c.getLsbD 5) &&
    (scaleRegs (cvtSrc w) (cvtSs w) ++ scaleRegs (wFmt w) (cvtDs w)).all fun r => !(getSeat s n).pend.contains r

/-- No register among `regs` of seat `n` awaits a load. -/
def noneAwaits (s : State) (n : Nat) (regs : List Nat) : Bool := regs.all fun r => !(getSeat s n).pend.contains r

/-- Everything but seat `n`, the count of issued instructions and the coach of the seat is the same. -/
def onlyCoach (s t : State) (n : Nat) : Prop :=
  (∀ m, m ≠ n → getSeat t m = getSeat s m) ∧ (∀ c, c ≠ n / 16 → getCoach t c = getCoach s c) ∧
    { t with coaches := { t.coaches with seat := s.coaches.seat, issues := s.coaches.issues, coach := s.coaches.coach } } = s

/-- The seat kept its registers and went on to its next instruction. -/
def wentOn (a b : Seat) : Prop :=
  b.pc = nextPc a ∧ sameS a b ∧ sameV a b ∧ sameM a b ∧ sameRest a b

/-- Only the bytes of memory from `h` are new, and the poison of their blocks; of the rest, only seat `n` and the count of
issued instructions may differ. -/
def storedAt (s t : State) (n h : Nat) (bytes : List Byte) : Prop :=
  (∀ a, memByte t a = if h ≤ a ∧ a < h + bytes.length then lget 0 bytes (a - h) else memByte s a) ∧
    (∀ m, m ≠ n → getSeat t m = getSeat s m) ∧
    { t with mem := s.mem, poison := s.poison,
             coaches := { t.coaches with seat := s.coaches.seat, issues := s.coaches.issues } } = s

/-- The window that a memory instruction reaches, when its address is aligned and its base register is not poisoned. -/
def reachesWin (s : State) (n : Nat) (w : Fields) (base : BitVec 6) (len align : Nat) (win : Win) : Bool :=
  decide (seatWin s (n / 16) (codeLimit s n) (effAddr (getSeat s n) w base) len = some win) &&
    decide (effAddr (getSeat s n) w base % align = 0) && !(sget (getSeat s n) base.toNat).2

/-- R71, R103, R118: the window that the selected lanes of a 256-byte vector access reach, its address being aligned and its base
register not poisoned. -/
def reachesVec (s : State) (n : Nat) (w : Fields) (base : BitVec 6) (sel : W64) (win : Win) : Bool :=
  decide (vecWin s n sel (effAddr (getSeat s n) w base) = some win) && decide (effAddr (getSeat s n) w base % 64 = 0) &&
    !(sget (getSeat s n) base.toNat).2

/-- Of all but memory and poison, only seat `n` and the count of issued instructions may differ. -/
def onlyStored (s t : State) (n : Nat) : Prop :=
  (∀ m, m ≠ n → getSeat t m = getSeat s m) ∧
    { t with mem := s.mem, poison := s.poison,
             coaches := { t.coaches with seat := s.coaches.seat, issues := s.coaches.issues } } = s

/-- R64, R65: the coach of seat `n` holds one more access, of this kind, with these blocks to perform and data; nothing in
memory has changed and no other coach, seat or register of the hub. -/
def tookAccess (s t : State) (n : Nat) (kind : AccKind) (blocks : List Nat) (got : KMap (List Byte × Bool)) : Prop :=
  getCoach t (n / 16) = { getCoach s (n / 16) with acc := (getCoach s (n / 16)).acc ++
      [{ id := s.coaches.nextAcc, seat := n, pc := (getSeat s n).pc, kind := kind, blocks := blocks, got := got }] } ∧
    t.coaches.nextAcc = s.coaches.nextAcc + 1 ∧
    (∀ m, m ≠ n → getSeat t m = getSeat s m) ∧ (∀ c, c ≠ n / 16 → getCoach t c = getCoach s c) ∧
    { t with coaches := s.coaches } = s

/-- R57: register `r` awaits the access as well, and the seat went on with every register as it was. -/
def awaits (a b : Seat) (r : Nat) : Prop :=
  b.pc = nextPc a ∧ sameS a b ∧ sameV a b ∧ sameM a b ∧ (∀ q, q ∈ b.pend ↔ q = r ∨ q ∈ a.pend) ∧ b.st = a.st ∧ b.grant = a.grant

/-- R118, R120: an atomic to the yard or module memory takes one access and its destination awaits it. -/
def queuesAtomic (i : Nat → Fields → Instr) (form : Form) (op : Fields → AtomicOp) (useB useC : Bool) : Prop :=
  ∀ (s : State) (n : Nat) (w : Fields) (win : Win), issuesWord s n w form = true →
    reachesWin s n w w.a (2 ^ (w.fmt.toNat % 4)) (2 ^ (w.fmt.toNat % 4)) win = true → win.isOwn = false →
    1 ≤ entriesFree (getCoach s (n / 16)) →
    ∃ t, exec (i n w) s = .next t ∧ awaits (getSeat s n) (getSeat t n) w.d.toNat ∧
      tookAccess s t n (.atomic (op w) w.d.toNat (2 ^ (w.fmt.toNat % 4)) win.addr
        (if useB then (sget (getSeat s n) w.b.toNat).1 else 0) (if useC then (sget (getSeat s n) w.c.toNat).1 else 0)
        ((useB && (sget (getSeat s n) w.b.toNat).2) || (useC && (sget (getSeat s n) w.c.toNat).2)))
        (blocksOf win.addr (2 ^ (w.fmt.toNat % 4))) []

/-- R64, R78, R467: coach `c` may perform block `b` of its access `a`, which has this number; its bank is not under test. -/
def performs (s : State) (c id b : Nat) (a : Access) : Bool :=
  decide (findAcc (getCoach s c) id = some a) && a.blocks.contains b && inOrder (getCoach s c) a b &&
    (!accReaches a.kind b || coachMay s c (64 * b) (accWrites a.kind)) && !bankWaits s c a b

/-- R122: every selected lane's address reaches its window, aligned and unpoisoned. -/
def lanesReach (s : State) (n : Nat) (sel : W64) (base idx : BitVec 6) (k len align : Nat) (win : Nat → Win) : Prop :=
  (sget (getSeat s n) base.toNat).2 = false ∧ ∀ i ∈ selLanes sel,
    seatWin s (n / 16) (codeLimit s n) (laneAddr (getSeat s n) base idx k i).1 len = some (win i) ∧
    (laneAddr (getSeat s n) base idx k i).1 % align = 0 ∧ (laneAddr (getSeat s n) base idx k i).2 = false

/-- R65, R67, R69, R93: engine `e` of coach `c` may start the next transaction of `d`, its current descriptor. -/
def drayRuns (s : State) (c e : Nat) (d : DrayDesc) : Bool :=
  let co := getCoach s c
  decide ((drayQ co e).find? (fun x => decide (x.issued < drayBlocks x)) = some d) &&
    decide (co.cond ≠ .drained) && decide (co.cond ≠ .excluded) &&
    drayMayStart co d (match drayQ co e with | h :: _ => h.id == d.id | [] => false) &&
    decide (entriesFree co ≠ 0) && decide (drayHeld co < 128 - regBits s rCoachCtl 6 0)

/-- R89, R134, R135: seat `n` took the exception `code` at issue: its coach stopped with the code, the kernel keeps its first
exception with the PC of the instruction, and no register of any seat and no byte of memory changed. Of the kernel's seats that took an exception, this is one. -/
def tookExc (s t : State) (n code : Nat) : Prop :=
  (getCoach t (n / 16)).cond = .stopped ∧ (getCoach t (n / 16)).cause = code ∧ (getCoach t (n / 16)).seat = n % 16 ∧
    t.mem = s.mem ∧ (∀ m, (getSeat t m).sreg = (getSeat s m).sreg ∧ (getSeat t m).vlane = (getSeat s m).vlane ∧
      (getSeat t m).mreg = (getSeat s m).mreg ∧ (getSeat t m).pc = (getSeat s m).pc) ∧
    ∀ tr k, kernelOn s (n / 16) = some (tr, k) → ∃ k', (getTrain t tr).kernel = some k' ∧ k'.phase = .stopping ∧
      k'.faulted = nadd k.faulted n ∧
      (k.status = 0 → k'.status = 1 ∧ k'.cause = code ∧ k'.seat = n ∧ k'.pc = (getSeat s n).pc)

/-- R83, R127: a seat of train `me` may copy the launch block at Sa into the queue of train Sb. -/
def launchReady (s : State) (n : Nat) (w : Fields) (me : Nat) : Bool :=
  let a := (sget (getSeat s n) w.a.toNat).1.toNat
  let tr := (sget (getSeat s n) w.b.toNat).1.toNat
  decide (trainOfCoach s (n / 16) = some me) && !(sget (getSeat s n) w.a.toNat).2 && !(sget (getSeat s n) w.b.toNat).2 &&
    decide (tr < s.consist.cfg.trains.length) && (trainSecure s tr == trainSecure s me) && decide (a + 64 ≤ memTop s) &&
    mayAccessRange s (.train me) (trainSecure s me) a 64 false &&
    storesDone (getCoach s (n / 16)) n s.coaches.nextAcc && descsDone (getCoach s (n / 16)) n s.coaches.nextDesc

/-- R129: a seat of train `me` names ring `q`, which is routed to it, and 64 bytes of its coach memory at `h`, for RPOP an aligned
block. -/
def ringReady (s : State) (n : Nat) (w : Fields) (me h q : Nat) (compl : Bool) : Bool :=
  decide (trainOfCoach s (n / 16) = some me) && decide (q = (sget (getSeat s n) w.a.toNat).1.toNat % 2 ^ 16) &&
    decide (seatWin s (n / 16) (codeLimit s n) (sget (getSeat s n) w.b.toNat).1.toNat 64 = some (.own h)) &&
    (compl || decide ((sget (getSeat s n) w.b.toNat).1.toNat % 64 = 0)) && !(sget (getSeat s n) w.a.toNat).2 &&
    !(sget (getSeat s n) w.b.toNat).2 && ringOfSeat s me q compl

/-- R403: a run that goes on after its word: no order has stopped it and it is far from the limit of words. -/
def mayGoOn (r : PealRun) : Bool := !r.stop && decide (r.steps + 1 < 65536)

/-- R403: the run `r` goes on at the word `pc`; no byte of memory changed. -/
def goesOn (s t : State) (r : PealRun) (pc : Nat) : Prop :=
  pealPc t = pc % 512 ∧ t.peal.run = some { r with wait := none, steps := r.steps + 1 } ∧ t.mem = s.mem

/-- R402, R409: an upper run begins with the program chosen; memory and what has been sent are unchanged. -/
def upperBegins (s t : State) : Prop :=
  pealState t = 1 ∧ t.peal.prog = (chooseProg s).1 ∧ regBits t rPseq 59 58 = (chooseProg s).2 ∧
    pealPc t = progEntry t true % 512 ∧ (∃ r, t.peal.run = some r ∧ r.mode = 0 ∧ r.wait = none ∧ r.steps = 0) ∧
    t.mem = s.mem ∧ t.outbox = s.outbox

/-- R305, R306: of the flits of the link `l` only those of a partner's rings are left, and wait. -/
def linkQuiet (t : State) (n : Nat) (l : Link) : Prop := getLink t n = { Link.init with wait := keptFlits l }

/-- Table 10.3: port `n`, whose link was `l`, has entered DETECT: it carries no flits, has seen no lane, and one more training is
counted. -/
def detects (s t : State) (n : Nat) (l : Link) : Prop :=
  portSt t n = 1 ∧ linkQuiet t n l ∧ (getTraining t n).seen = 0 ∧
    regBits t (rCplStatus n) 31 16 = min (2 ^ 16 - 1) (regBits s (rCplStatus n) 31 16 + 1)

/-- Table 10.14: port `n` has failed with this code. -/
def failsWith (s t : State) (n code : Nat) : Prop :=
  portSt t n = 8 ∧ regBits t (rCplStatus n) 15 8 = code ∧ linkQuiet t n (getLink s n)

/-- R34, R278: port `n` has its width fixed by the lanes `used`, those that both GOOD masks hold. -/
def widthFixed (s t : State) (n used : Nat) : Prop :=
  regBits t (rCplStatus n) 39 32 = used ∧
    if laneCount used < 4 ∨ (8 ≤ n ∧ used ≠ 0xF) then failsWith s t n 3
    else if n < 8 ∧ laneCount used < lget 4 s.consist.cfg.topology.minWidth n then portSt t n = 7
    else portSt t n = 4 ∧ regBits t (rCplStatus n) 59 56 = laneCount used ∧ regBits t (rCplStatus n) 55 48 = used

/-- The outbox has grown, an output of this kind first. -/
def sends (s t : State) (kind : OutKind) (args : List Nat) : Prop :=
  ∃ data rest, t.outbox = s.outbox ++ { kind := kind, args := args, data := data } :: rest

/-- R354 to R358: the hub takes the request `q` with CODE `code`: it comes over an open service on the port and VLAN of its role
or heads the role's ring, no kept reply answers it, no request of the role that came before it waits or is owed a reply, the guards that
serve it run, and its header is well formed. -/
def accepts (s : State) (q : Req) (code : Nat) (body : List Byte) : Bool :=
  (match q.via with
    | .udp port vlan _ => svcOpen s 0 && portRole s port == q.role && vlanOk s port vlan && decide (body.length ≤ 1408) && !roleBusy s q.role
    | .ring => headIs s q code body && !entryHeld s q.role && !postWaits s (2 * q.role + 1)) &&
    s.mainDom == .up && decide (q.role < 2) && (keptReply s q).isNone &&
    !guardHeld s q.role && !guardHeld s 5 && guardRuns s q.role && q.wellFormed

/-- A reply is still owed to `q`. -/
def owes (t : State) (q : Req) (code : Nat) : Prop := (⟨q, code⟩ : Owed) ∈ t.host.owed

/-- R360: a role's own cap, of the hub or of the tray. -/
def capOf (s : State) (hub : Bool) (role : Nat) : Nat :=
  if hub then (if role = 0 then s.host.capHubHost else s.host.capHubRack)
  else if role = 0 then s.host.capTrayHost else s.host.capTrayRack

/-- R376, R396: the SPDM request has this code in version 1.2 (or 1.0 for GET_VERSION), its role has come far enough, and no restart
has cut its exchange. -/
def spdmReady (s : State) (q : Req) (body : List Byte) (code need : Nat) : Bool :=
  accepts s q 0x60 body && decide (consistState s ≠ 0) && decide (4 ≤ body.length) && decide (field body 1 1 = code) &&
    decide (field body 0 1 = (if code = 0x84 then 0x10 else 0x12)) && decide (need ≤ spdmState s q.role) && !s.trust.spdmLost.contains q.role

/-- The SPDM response `resp` goes out and the role's state is `st`; the exchange grew by the request and the response. -/
def spdmReplies (s : State) (q : Req) (body : List Byte) (i : Instr) (st : Nat) (fresh : Bool) (resp : List Byte) : Prop :=
  ∃ u, exec i s = .next (reply u q 0x60 (ansOk resp)) ∧ spdmState u q.role = st ∧
    spdmLog u q.role = (if fresh then [] else spdmLog s q.role) ++ body ++ resp

/-- R46, R47: the apply `a` has completed: its slot is the active one and CFG_CONSIST_STATE shows its SEQUENCE and state. -/
def appliedBy (t : State) (a : ConsistApply) : Prop :=
  t.consist.apply = none ∧ t.consist.activeSlot = some a.slotB ∧ t.consist.booted = true ∧
    consistState t = (if a.fallback then 3 else 1) ∧ regBits t rConsist 63 32 = imgSeq a.image % 2 ^ 32 ∧
    regBits t rConsist 16 16 = (if a.slotB then 1 else 0)

/-- R371: one more compartment restart of guard `g` is counted and its time kept. -/
def restartCounted (s t : State) (g : Nat) : Prop :=
  regBits t (rCfgGuard g) 31 16 = min (2 ^ 16 - 1) (regBits s (rCfgGuard g) 31 16 + 1) ∧
    kget [] t.trust.cRestarts g = restartsIn s (kget [] s.trust.cRestarts g) 150000000

/-- Table 13.2: guard `g` has restarted and its restart is counted, or it is held from its 8th within an hour on. -/
def guardRestarted (s t : State) (g : Nat) : Prop :=
  if 8 ≤ (restartsIn s (kget [] s.trust.gRestarts g) 9000000000).length then guardHeld t g = true
  else regBits t (rCfgGuard g) 47 32 = min (2 ^ 16 - 1) (regBits s (rCfgGuard g) 47 32 + 1)

/-- R199, R201, R504: a command is posted where the state service takes it: 64 bytes, from a port or a submission ring. -/
def postsState (s : State) (src : Origin) (raw : List Byte) : Bool :=
  decide (raw.length = 64) && (match src with | .port n => decide (n < 8) | .ring r => decide (r < 256) && r % 2 == 0) && stateTakes s raw

/-- R232, R242, R343: a snapshot command of host ring `r` that G3 accepts: a store there is, its fields are in range, nothing runs and no
completion entry of the service waits. -/
def postsSnap (s : State) (r : Nat) (raw : List Byte) : Bool :=
  decide (raw.length = 64) && decide (r < 256) && r % 2 == 0 && guardRuns s 3 && decide (snapMode s ≠ 0) &&
    decide ((snapChecks s raw).find? (fun k => !k.2) = none) && s.snap.take.isNone && s.snap.restore.isNone && !svcWaits s 9

/-- R244: a RESTORE from host ring `n` that has not begun. -/
def newRestore (n : Nat) (raw : List Byte) : Restore :=
  { origin := .ring n, raw := raw, cands := [], begun := false, chunk := 0, grants := [], loaded := [], told := [], acked := [],
    fetched := [], badFlits := [], want := 0 }

/-- R11, R50: the staged copy of a register's RWS fields: the live one while nothing is staged. -/
def stagedCopy (s : State) (a : Nat) : W64 := kget (regGet s a &&& stagedMask a) s.staged a

/-- Table 14.3: no slot of the module's own rails belongs to a partner. -/
def modPlain (s : State) : Bool := (rangeFrom 0 24).all fun k => !partnerOwned s k

/-- R49: a commit register. -/
def isCommit (d : RegDesc) : Prop := d.off = 0xFFF00 ∨ (d.blk = 7 ∧ d.off = 0xFF00)

/-- R9: the W1C bits of a commit register that a write names are clear. -/
def commitCleared (s : State) (creg : Nat) (v : W64) : State :=
  let s := if bits v 39 39 = 1 then regPut s creg 39 39 0 else s
  if bits v 38 38 = 1 then regPut s creg 38 38 0 else s

/-- R49: the groups that a write of a commit register names. -/
def groupsOf (v : W64) : List Nat := (rangeFrom 0 16).filter fun g => v.getLsbD g

/-- Table 0.3: bit `k` of a field of access code `acc` after a write of `v`: `old` before, `c` the value held to its range. -/
def bitAfter (acc : Acc) (old c v : Bool) : Bool :=
  match acc with
  | .rw => c
  | .w1c => old && !v
  | .w1s => old || v
  | .ro => old
  | .wo => old
  | .rws => old

end Sys2Proof.Machine
end

