-- ==== Sys2Proof/Safety.lean ====
section
/-! DEFINITION. What claims call a sound state: the canonical forms that every run keeps. -/

namespace Sys2Proof.Machine

/-- Memory lists its non-zero bytes, addresses strictly rising. -/
def State.memSound (s : State) : Prop := Memory.wf s.mem = true

end Sys2Proof.Machine
end

