-- ==== Sys2Proof/Certificates/Slice0/Obligations.lean ====
section
/-! DEFINITION. The statements for the provers. -/

open Sys2Proof Sys2Proof.Machine

/-- Two-source scalar instructions complete with their results. R106, R105, R99, Table 4.5. For ADD, SUB, AND, OR, XOR,
SHL, SHR, SRA, SLT, SLTU, MIN, MAX, MINU, MAXU, MUL, MULH and MULHU: whenever a seat issues the word, exec answers the
next state in which Sd holds the result of Sa and Sb with the poison of either source, the PC has advanced by 8, and
nothing else of the seat, no other seat, no memory and no register of the hub has changed. -/
def Obligations.ScalarRegisterResults : Prop :=
  givesSSS 0x01 .add (fun x y => x + y) ∧ givesSSS 0x02 .sub (fun x y => x - y) ∧
  givesSSS 0x03 .and (fun x y => x &&& y) ∧ givesSSS 0x04 .or (fun x y => x ||| y) ∧ givesSSS 0x05 .xor (fun x y => x ^^^ y) ∧
  givesSSS 0x06 .shl (fun x y => BitVec.ofNat 64 (x.toNat * 2 ^ (y.toNat % 64))) ∧
  givesSSS 0x07 .shr (fun x y => BitVec.ofNat 64 (x.toNat / 2 ^ (y.toNat % 64))) ∧
  givesSSS 0x08 .sra (fun x y => BitVec.ofInt 64 (x.toInt / 2 ^ (y.toNat % 64))) ∧
  givesSSS 0x12 .slt (fun x y => if x.toInt < y.toInt then 1 else 0) ∧ givesSSS 0x13 .sltu (fun x y => if x.toNat < y.toNat then 1 else 0) ∧
  givesSSS 0x15 .min (fun x y => BitVec.ofInt 64 (min x.toInt y.toInt)) ∧ givesSSS 0x16 .max (fun x y => BitVec.ofInt 64 (max x.toInt y.toInt)) ∧
  givesSSS 0x17 .minu (fun x y => BitVec.ofNat 64 (min x.toNat y.toNat)) ∧ givesSSS 0x18 .maxu (fun x y => BitVec.ofNat 64 (max x.toNat y.toNat)) ∧
  givesSSS 0x19 .mul (fun x y => BitVec.ofNat 64 (x.toNat * y.toNat)) ∧
  givesSSS 0x1A .mulh (fun x y => BitVec.ofInt 64 (x.toInt * y.toInt / 2 ^ 64)) ∧
  givesSSS 0x1B .mulhu (fun x y => BitVec.ofNat 64 (x.toNat * y.toNat / 2 ^ 64))

/-- Division and remainder, with zero divisors and the overflow corner. R107. "Division by zero gives a quotient with
every bit set and a remainder equal to Sa." DIV, DIVU, REM and REMU complete on every pair of operands: a zero divisor
gives a quotient with every bit set and the dividend as remainder, -2^63 by -1 gives -2^63 and 0, and every other pair
gives the quotient rounded towards zero and its remainder. -/
def Obligations.DivisionResults : Prop :=
  givesSSS 0x1C .div (fun x y => if y = 0 then BitVec.allOnes 64 else BitVec.ofInt 64 (x.toInt.tdiv y.toInt)) ∧
  givesSSS 0x1D .divu (fun x y => if y = 0 then BitVec.allOnes 64 else BitVec.ofNat 64 (x.toNat / y.toNat)) ∧
  givesSSS 0x1E .rem (fun x y => if y = 0 then x else BitVec.ofInt 64 (x.toInt.tmod y.toInt)) ∧
  givesSSS 0x1F .remu (fun x y => if y = 0 then x else BitVec.ofNat 64 (x.toNat % y.toNat))

/-- Immediate, move and select instructions complete with their results. R106, R105, R99, Table 4.5. ADDI, ANDI, ORI, XORI
with the sign-extended immediate, SHLI, SHRI, SRAI by IMM[5:0], MOVI, MOVK (16 bits of Sd at 16 x IMM[23:22] replaced
by IMM[15:0]) and SEL (Sa when Sc is not zero, else Sb, poisoned by Sc and the register selected) complete, writing
only Sd. That SEL is poisoned by its condition and by the source selected is the model's reading (log 24, DEDUCED). -/
def Obligations.ScalarImmediateResults : Prop :=
  givesSSI .addi (formSSI 0x09) (fun x w => x + w.imm.signExtend 64) ∧ givesSSI .andi (formSSI 0x0A) (fun x w => x &&& w.imm.signExtend 64) ∧
  givesSSI .ori (formSSI 0x0B) (fun x w => x ||| w.imm.signExtend 64) ∧ givesSSI .xori (formSSI 0x0C) (fun x w => x ^^^ w.imm.signExtend 64) ∧
  givesSSI .shli (formShift 0x0D) (fun x w => BitVec.ofNat 64 (x.toNat * 2 ^ (w.imm.toNat % 64))) ∧
  givesSSI .shri (formShift 0x0E) (fun x w => BitVec.ofNat 64 (x.toNat / 2 ^ (w.imm.toNat % 64))) ∧
  givesSSI .srai (formShift 0x0F) (fun x w => BitVec.ofInt 64 (x.toInt / 2 ^ (w.imm.toNat % 64))) ∧
  (∀ (s : State) (n : Nat) (w : Fields), issuesWord s n w { op := 0x10, d := .s, imm := 0xFFFFFF } = true →
    ∃ t, exec (.movi n w) s = .next t ∧ wroteS s t n (nextPc (getSeat s n)) w.d.toNat (w.imm.signExtend 64, false)) ∧
  (∀ (s : State) (n : Nat) (w : Fields), issuesWord s n w { op := 0x11, d := .s, imm := 0xC0FFFF } = true →
    ∃ t y, exec (.movk n w) s = .next t ∧
      wroteS s t n (nextPc (getSeat s n)) w.d.toNat (y, (sget (getSeat s n) w.d.toNat).2) ∧
      ∀ i, i < 64 → y.getLsbD i = if i / 16 = w.imm.toNat / 2 ^ 22 then w.imm.getLsbD (i % 16)
        else (sget (getSeat s n) w.d.toNat).1.getLsbD i) ∧
  (∀ (s : State) (n : Nat) (w : Fields), issuesWord s n w { op := 0x14, d := .s, a := .s, b := .s, c := .s } = true →
    ∃ t, exec (.sel n w) s = .next t ∧
      wroteS s t n (nextPc (getSeat s n)) w.d.toNat
        (let x := if (sget (getSeat s n) w.c.toNat).1 = 0 then sget (getSeat s n) w.b.toNat else sget (getSeat s n) w.a.toNat
         (x.1, x.2 || (sget (getSeat s n) w.c.toNat).2)))

/-- Branches, jumps and LOOP go where Table 4.6 sends them. R108, R99, R105, Table 4.6. BEQ, BNE, BLT, BGE, BLTU, BGEU
(unpoisoned operands), BMANY and BMNONE go to PC + 8 x IMM when their condition holds and to PC + 8 otherwise,
changing nothing else. JAL writes PC + 8 to Sd and branches; JALR does so from the old Sa when the target is a
multiple of 8 and Sa is not poisoned; LOOP writes Sd - 1 and branches when that is not zero. -/
def Obligations.BranchOutcomes : Prop :=
  branchesSS 0x20 .beq (fun x y => x == y) ∧ branchesSS 0x21 .bne (fun x y => x != y) ∧
  branchesSS 0x22 .blt (fun x y => decide (x.toInt < y.toInt)) ∧ branchesSS 0x23 .bge (fun x y => decide (y.toInt ≤ x.toInt)) ∧
  branchesSS 0x24 .bltu (fun x y => decide (x.toNat < y.toNat)) ∧ branchesSS 0x25 .bgeu (fun x y => decide (y.toNat ≤ x.toNat)) ∧
  branchesM 0x26 .bmany (fun m => decide (m ≠ 0)) ∧ branchesM 0x27 .bmnone (fun m => decide (m = 0)) ∧
  (∀ (s : State) (n : Nat) (w : Fields), issuesWord s n w { op := 0x28, d := .s, imm := 0xFFFFFF } = true →
    ∃ t, exec (.jal n w) s = .next t ∧
      wroteS s t n (branchTarget (getSeat s n) w) w.d.toNat (BitVec.ofNat 64 ((getSeat s n).pc + 8), false)) ∧
  (∀ (s : State) (n : Nat) (w : Fields) (target : Nat), issuesWord s n w { op := 0x29, d := .s, a := .s, imm := 0xFFFFFF } = true →
    target = ((sget (getSeat s n) w.a.toNat).1 + w.imm.signExtend 64 * 8).toNat → target % 8 = 0 →
    (sget (getSeat s n) w.a.toNat).2 = false →
    ∃ t, exec (.jalr n w) s = .next t ∧
      wroteS s t n target w.d.toNat (BitVec.ofNat 64 ((getSeat s n).pc + 8), false)) ∧
  (∀ (s : State) (n : Nat) (w : Fields), issuesWord s n w { op := 0x2A, d := .s, imm := 0xFFFFFF } = true →
    (sget (getSeat s n) w.d.toNat).2 = false →
    ∃ t, exec (.loop n w) s = .next t ∧
      wroteS s t n (if (sget (getSeat s n) w.d.toNat).1 = 1 then nextPc (getSeat s n) else branchTarget (getSeat s n) w)
        w.d.toNat ((sget (getSeat s n) w.d.toNat).1 - 1, false))

/-- Elementwise vector instructions write the selected lanes only. R101, R103, R104, R105, R109, R149, R150, R112. VADD,
VSUB, VMUL, VFMA, VFNMA, VMIN, VMAX, VABS, VNEG, VDIV, VSQRT, VIADD, VISUB, VIMUL, VAND, VOR, VXOR, VSHL, VSHR and
VSRA complete on every operand: each selected lane of Vd is built, lowest element first, from the results of its
elements, and is poisoned when a lane or broadcast register it was computed from is; every other lane and register is
unchanged. -/
def Obligations.VectorElementResults : Prop :=
  givesV .vadd (formVfp 0x30 true false) true false (fun s t w a b _ j => roundArith (wFmt w) (wRm w) (wSat w) (drawFor s t j)
    (numAdd (numDecode (wFmt w) a) (numDecode (wFmt w) b))) ∧
  givesV .vsub (formVfp 0x31 true false) true false (fun s t w a b _ j => roundArith (wFmt w) (wRm w) (wSat w) (drawFor s t j)
    (numAdd (numDecode (wFmt w) a) (numNeg (numDecode (wFmt w) b)))) ∧
  givesV .vmul (formVfp 0x32 true false) true false (fun s t w a b _ j => roundArith (wFmt w) (wRm w) (wSat w) (drawFor s t j)
    (numMul (numDecode (wFmt w) a) (numDecode (wFmt w) b))) ∧
  givesV .vfma (formVfp 0x33 true false) true true (fun s t w a b d j => roundArith (wFmt w) (wRm w) (wSat w) (drawFor s t j)
    (numAdd (numMul (numDecode (wFmt w) a) (numDecode (wFmt w) b)) (numDecode (wFmt w) d))) ∧
  givesV .vfnma (formVfp 0x34 true false) true true (fun s t w a b d j => roundArith (wFmt w) (wRm w) (wSat w) (drawFor s t j)
    (numAdd (numDecode (wFmt w) d) (numNeg (numMul (numDecode (wFmt w) a) (numDecode (wFmt w) b))))) ∧
  givesV .vmin (formVfp 0x36 false true) true false (fun _ _ w a b _ _ => minMaxBits (wFmt w) false (wFlag w) a b) ∧
  givesV .vmax (formVfp 0x37 false true) true false (fun _ _ w a b _ _ => minMaxBits (wFmt w) true (wFlag w) a b) ∧
  givesV .vabs (formVfp1 0x38 [0, 1, 2] false) false false (fun _ _ w a _ _ _ => a % 2 ^ (fmtWidth (wFmt w) - 1)) ∧
  givesV .vneg (formVfp1 0x39 [0, 1, 2] false) false false (fun _ _ w a _ _ _ => (a + 2 ^ (fmtWidth (wFmt w) - 1)) % 2 ^ fmtWidth (wFmt w)) ∧
  givesV .vdiv { op := 0x3A, d := .v, a := .sv, b := .sv, c := .mask, rounds := true } true false
    (fun s t w a b _ j => divRound .fp32 (wRm w) (wSat w) (drawFor s t j) (numDecode .fp32 a) (numDecode .fp32 b)) ∧
  givesV .vsqrt (formVfp1 0x3B [0] true) false false
    (fun s t w a _ _ j => sqrtRound .fp32 (wRm w) (wSat w) (drawFor s t j) (numDecode .fp32 a)) ∧
  givesV .viadd (formVint 0x40 [10, 11]) true false (fun _ _ _ a b _ _ => a + b) ∧
  givesV .visub (formVint 0x41 [10, 11]) true false (fun _ _ w a b _ _ => 2 ^ fmtWidth (wFmt w) + a - b) ∧
  givesV .vimul (formVint 0x42 [11]) true false (fun _ _ _ a b _ _ => a * b) ∧
  givesV .vand (formVint 0x44 [11]) true false (fun _ _ _ a b _ _ => a &&& b) ∧
  givesV .vor (formVint 0x45 [11]) true false (fun _ _ _ a b _ _ => a ||| b) ∧
  givesV .vxor (formVint 0x46 [11]) true false (fun _ _ _ a b _ _ => a ^^^ b) ∧
  givesV .vshl (formVint 0x47 [11]) true false (fun _ _ _ a b _ _ => a * 2 ^ (b % 32)) ∧
  givesV .vshr (formVint 0x48 [11]) true false (fun _ _ _ a b _ _ => a / 2 ^ (b % 32)) ∧
  givesV .vsra (formVint 0x49 [11]) true false (fun _ _ _ a b _ _ => (BitVec.ofInt 32 ((BitVec.ofNat 32 a).toInt / 2 ^ (b % 32))).toNat)

/-- Dot products, lane moves and random numbers. R104, R105, R111, R112, R131, R149. VDOT adds to each selected FP32 lane
the exact sum of its element products, rounded once; VIDOT adds four signed byte products modulo 2^32; VSEL picks
lanes of a or b by the mask and writes every lane; VMOVS and SMOVV move one lane; VIOTA counts up from Sa; VPERM picks
lanes of Va by lanes of Vb; RAND draws from the rounding context. Each completes and writes only its destination. That
a poisoned index of VPERM poisons the lane is the model's reading (log 24, DEDUCED). -/
def Obligations.LaneResults : Prop :=
  (∀ (s : State) (n : Nat) (w : Fields), issuesDot s n w = true →
    ∃ t, exec (.vdot n w) s = .next t ∧ wroteV s t n (w.d.toNat - 32) (selMask (getSeat s n) w.c) fun i =>
      let a := getSeat s n
      let x := srcLane a w.a (fmtWidth (wFmt w)) i
      let y := srcLane a w.b (fmtWidth (wFmt w)) i
      let z := vget a (w.d.toNat - 32) i
      (BitVec.ofNat 32 (roundArith .fp32 (wRm w) (wSat w) (drawFor s a i)
          (dotNum a (wFmt w) (w.imm.toNat / 32 % 32) (w.imm.toNat % 32) i x.1 y.1 z.1)),
        x.2 || y.2 || z.2 || scalePoison a (wFmt w) (w.imm.toNat / 32 % 32) i || scalePoison a (wFmt w) (w.imm.toNat % 32) i)) ∧
  (∀ (s : State) (n : Nat) (w : Fields), issuesWord s n w { op := 0x43, d := .v, a := .v, b := .v, c := .mask, fmts := [10] } = true →
    ∃ t, exec (.vidot n w) s = .next t ∧ wroteV s t n (w.d.toNat - 32) (selMask (getSeat s n) w.c) fun i =>
      let x := vget (getSeat s n) (w.a.toNat - 32) i
      let y := vget (getSeat s n) (w.b.toNat - 32) i
      let z := vget (getSeat s n) (w.d.toNat - 32) i
      let p := fun e => signedOf 8 (elemOf x.1 8 e) * signedOf 8 (elemOf y.1 8 e)
      (BitVec.ofInt 32 ((z.1.toNat : Int) + p 0 + p 1 + p 2 + p 3), x.2 || y.2 || z.2)) ∧
  (∀ (s : State) (n : Nat) (w : Fields), issuesWord s n w { op := 0x4B, d := .v, a := .sv, b := .sv, c := .maskOn, fmts := [11] } = true →
    ∃ t, exec (.vsel n w) s = .next t ∧ wroteV s t n (w.d.toNat - 32) (BitVec.allOnes 64) fun i =>
      if (selMask (getSeat s n) w.c).getLsbD i then srcLane (getSeat s n) w.a 32 i else srcLane (getSeat s n) w.b 32 i) ∧
  (∀ (s : State) (n : Nat) (w : Fields), issuesWord s n w { op := 0x4C, d := .v, a := .s, imm := 0x3F } = true →
    ∃ t, exec (.vmovs n w) s = .next t ∧ wroteV s t n (w.d.toNat - 32) (1#64 <<< (w.imm.toNat % 64)) fun _ =>
      ((sget (getSeat s n) w.a.toNat).1.setWidth 32, (sget (getSeat s n) w.a.toNat).2)) ∧
  (∀ (s : State) (n : Nat) (w : Fields), issuesWord s n w { op := 0x4D, d := .s, a := .v, imm := 0x3F } = true →
    ∃ t, exec (.smovv n w) s = .next t ∧ wroteS s t n (nextPc (getSeat s n)) w.d.toNat
      ((vget (getSeat s n) (w.a.toNat - 32) (w.imm.toNat % 64)).1.setWidth 64,
        (vget (getSeat s n) (w.a.toNat - 32) (w.imm.toNat % 64)).2)) ∧
  (∀ (s : State) (n : Nat) (w : Fields), issuesWord s n w { op := 0x4E, d := .v, a := .s } = true →
    ∃ t, exec (.viota n w) s = .next t ∧ wroteV s t n (w.d.toNat - 32) (BitVec.allOnes 64) fun i =>
      (BitVec.ofNat 32 ((sget (getSeat s n) w.a.toNat).1.toNat + i), (sget (getSeat s n) w.a.toNat).2)) ∧
  (∀ (s : State) (n : Nat) (w : Fields), issuesWord s n w { op := 0x4F, d := .v, a := .v, b := .v } = true →
    ∃ t, exec (.vperm n w) s = .next t ∧ wroteV s t n (w.d.toNat - 32) (BitVec.allOnes 64) fun i =>
      let y := vget (getSeat s n) (w.b.toNat - 32) i
      let x := vget (getSeat s n) (w.a.toNat - 32) (y.1.toNat % 64)
      (x.1, x.2 || y.2)) ∧
  (∀ (s : State) (n : Nat) (w : Fields), issuesWord s n w { op := 0xD1, d := .v, imm := 0xFFFFFF } = true →
    ∃ t, exec (.rand n w) s = .next t ∧ wroteV s t n (w.d.toNat - 32) (BitVec.allOnes 64) fun i =>
      (roundingDraw (regGet s rSeed) (getSeat s n).tag ((getSeat s n).base + w.imm.signExtend 64 + BitVec.ofNat 64 i), false))

/-- Compares and mask instructions. R103, R105, R112, R150, Table 4.8. VCMP and VICMP with no poisoned selected lane
replace exactly the selected bits of Md by the outcome of the condition on their lanes; MAND, MOR, MXOR, MNOT combine
masks; MSET and MGET move between S and M; MCNT counts the one bits; MFIRST sets the first Sa bits. Each completes and
writes only its destination. -/
def Obligations.MaskResults : Prop :=
  (∀ (s : State) (n : Nat) (w : Fields), comparesWord 0x3C s n w [0] = true →
    ∃ t m, exec (.vcmp n w) s = .next t ∧ wroteM s t n w.d.toNat m ∧ ∀ i, i < 64 → m.getLsbD i =
      if (selMask (getSeat s n) w.c).getLsbD i then cmpCond (w.imm.toNat % 8)
        (numDecode .fp32 (srcLane (getSeat s n) w.a 32 i).1.toNat) (numDecode .fp32 (srcLane (getSeat s n) w.b 32 i).1.toNat)
      else (mget (getSeat s n) w.d.toNat).getLsbD i) ∧
  (∀ (s : State) (n : Nat) (w : Fields), comparesWord 0x4A s n w [11] = true →
    ∃ t m, exec (.vicmp n w) s = .next t ∧ wroteM s t n w.d.toNat m ∧ ∀ i, i < 64 → m.getLsbD i =
      if (selMask (getSeat s n) w.c).getLsbD i then intCond (w.imm.toNat % 8)
        (srcLane (getSeat s n) w.a 32 i).1 (srcLane (getSeat s n) w.b 32 i).1
      else (mget (getSeat s n) w.d.toNat).getLsbD i) ∧
  givesMMM 0x58 .mand (fun x y => x &&& y) ∧ givesMMM 0x59 .mor (fun x y => x ||| y) ∧ givesMMM 0x5A .mxor (fun x y => x ^^^ y) ∧
  (∀ (s : State) (n : Nat) (w : Fields), issuesWord s n w { op := 0x5B, d := .m, a := .m } = true →
    ∃ t, exec (.mnot n w) s = .next t ∧ wroteM s t n w.d.toNat (~~~(mget (getSeat s n) w.a.toNat))) ∧
  (∀ (s : State) (n : Nat) (w : Fields), issuesWord s n w { op := 0x5C, d := .m, a := .s } = true → (sget (getSeat s n) w.a.toNat).2 = false →
    ∃ t, exec (.mset n w) s = .next t ∧ wroteM s t n w.d.toNat (sget (getSeat s n) w.a.toNat).1) ∧
  (∀ (s : State) (n : Nat) (w : Fields), issuesWord s n w { op := 0x5D, d := .s, a := .m } = true →
    ∃ t, exec (.mget n w) s = .next t ∧
      wroteS s t n (nextPc (getSeat s n)) w.d.toNat (mget (getSeat s n) w.a.toNat, false)) ∧
  (∀ (s : State) (n : Nat) (w : Fields), issuesWord s n w { op := 0x5E, d := .s, a := .m } = true →
    ∃ t, exec (.mcnt n w) s = .next t ∧ wroteS s t n (nextPc (getSeat s n)) w.d.toNat
      (BitVec.ofNat 64 ((List.range 64).countP fun i => (mget (getSeat s n) w.a.toNat).getLsbD i), false)) ∧
  (∀ (s : State) (n : Nat) (w : Fields), issuesWord s n w { op := 0x5F, d := .m, a := .s } = true → (sget (getSeat s n) w.a.toNat).2 = false →
    ∃ t m, exec (.mfirst n w) s = .next t ∧ wroteM s t n w.d.toNat m ∧
      ∀ i, i < 64 → m.getLsbD i = decide (i < (sget (getSeat s n) w.a.toNat).1.toNat))

/-- CVT converts the elements of its part and leaves the rest. R113, R151, R152, R153, R154, R105. CVT completes whenever
its word fits R113: only the destination register and, for an MX destination, the scale registers change. For a
destination that is no MX format, each element of a selected lane inside the converted range is its source element
rounded once, each other element of Vd is unchanged, and a lane written is poisoned when a source lane or scale of its
elements is. -/
def Obligations.ConversionResults : Prop :=
  ∀ (s : State) (n : Nat) (w : Fields), issuesCvt s n w = true →
    ∃ t, exec (.cvt n w) s = .next t ∧ onlySeat s t n ∧ (getSeat t n).pc = nextPc (getSeat s n) ∧
      sameM (getSeat s n) (getSeat t n) ∧ sameRest (getSeat s n) (getSeat t n) ∧
      (∀ v i, v ≠ w.d.toNat - 32 → i < 64 → vget (getSeat t n) v i = vget (getSeat s n) v i) ∧
      (∀ r, r ∉ scaleRegs (wFmt w) (cvtDs w) → sget (getSeat t n) r = sget (getSeat s n) r) ∧
      (fmtIsMx (wFmt w) = false → ∀ i e, i < 64 → e < 32 / fmtWidth (wFmt w) →
        elemOf (vget (getSeat t n) (w.d.toNat - 32) i).1 (fmtWidth (wFmt w)) e =
          match cvtFrom (cvtSrc w) (wFmt w) (cvtPart w) (i * (32 / fmtWidth (wFmt w)) + e) with
          | some g => if (selMask (getSeat s n) w.c).getLsbD i ∧ i * (32 / fmtWidth (wFmt w)) + e < fmtCount (wFmt w) then
              roundNum (wFmt w) (wRm w) (wSat w) (drawFor s (getSeat s n) (i * (32 / fmtWidth (wFmt w)) + e))
                (cvtVal (getSeat s n) (cvtSrc w) (w.a.toNat - 32) (cvtSs w) g).1 % 2 ^ fmtWidth (wFmt w)
            else elemOf (vget (getSeat s n) (w.d.toNat - 32) i).1 (fmtWidth (wFmt w)) e
          | none => elemOf (vget (getSeat s n) (w.d.toNat - 32) i).1 (fmtWidth (wFmt w)) e) ∧
      (fmtIsMx (wFmt w) = false → ∀ i, i < 64 → (vget (getSeat t n) (w.d.toNat - 32) i).2 =
        if (selMask (getSeat s n) w.c).getLsbD i ∧ ((List.range (32 / fmtWidth (wFmt w))).any fun e =>
            (cvtFrom (cvtSrc w) (wFmt w) (cvtPart w) (i * (32 / fmtWidth (wFmt w)) + e)).isSome) = true then
          (List.range (32 / fmtWidth (wFmt w))).any fun e =>
            match cvtFrom (cvtSrc w) (wFmt w) (cvtPart w) (i * (32 / fmtWidth (wFmt w)) + e) with
            | some g => (cvtVal (getSeat s n) (cvtSrc w) (w.a.toNat - 32) (cvtSs w) g).2
            | none => (vget (getSeat s n) (w.d.toNat - 32) i).2
        else (vget (getSeat s n) (w.d.toNat - 32) i).2)

/-- XALLOC parks, XALLOC_GRANT grants zeroed registers, XFREE and XZERO clear them. R59, R60, R114. A seat without a grant
that issues XALLOC for 1 to 8 registers parks behind the requests already waiting; XALLOC_GRANT gives the oldest
request that many free registers, each reading zero, and wakes the seat; XFREE gives every register of the seat back;
XZERO zeroes every lane of one register and no other. -/
def Obligations.AccumulatorGrants : Prop :=
  (∀ (s : State) (n : Nat) (w : Fields), issuesWord s n w { op := 0x60, imm := 0xF } = true → 1 ≤ w.imm.toNat % 16 → w.imm.toNat % 16 ≤ 8 → (getSeat s n).grant = [] →
    ∃ t, exec (.xalloc n w) s = .next t ∧ onlyCoach s t n ∧
      getCoach t (n / 16) = { getCoach s (n / 16) with xwait := (getCoach s (n / 16)).xwait ++ [(n, w.imm.toNat % 16)] } ∧
      (getSeat t n).st = .parked .xalloc ∧ (getSeat t n).pc = nextPc (getSeat s n) ∧ (getSeat t n).grant = []) ∧
  (∀ (s : State) (c n k : Nat) (rest : List (Nat × Nat)), (getCoach s c).xwait = (n, k) :: rest →
    k ≤ ((List.range 8).filter fun x => !((getCoach s c).xowner.map Prod.fst).contains x).length →
    ∃ t, exec (.xallocGrant c) s = .next t ∧ (getSeat t n).st = .ready ∧ (getSeat t n).grant.length = k ∧
      (getSeat t n).grant.Nodup ∧ (getCoach t c).xwait = rest ∧
      (∀ x ∈ (getSeat t n).grant, x < 8 ∧ x ∉ (getCoach s c).xowner.map Prod.fst ∧ kget 8192 (getCoach t c).xowner x = n ∧
        ∀ i, i < 64 → xget (getCoach t c) x i = XLane.zero) ∧
      (∀ m, m ≠ n → getSeat t m = getSeat s m) ∧ (∀ d, d ≠ c → getCoach t d = getCoach s d)) ∧
  (∀ (s : State) (n : Nat) (w : Fields), issuesWord s n w { op := 0x61 } = true → noneAwaits s n [64, 65, 66, 67, 68, 69, 70, 71] = true →
    ∃ t, exec (.xfree n w) s = .next t ∧ onlyCoach s t n ∧ (getSeat t n).grant = [] ∧
      (getSeat t n).pc = nextPc (getSeat s n) ∧ (∀ e ∈ (getCoach t (n / 16)).xowner, e.2 ≠ n) ∧
      (∀ e ∈ (getCoach s (n / 16)).xowner, e.2 ≠ n → e ∈ (getCoach t (n / 16)).xowner)) ∧
  (∀ (s : State) (n : Nat) (w : Fields), issuesWord s n w { op := 0x63, d := .x } = true → w.d.toNat < (getSeat s n).grant.length →
    ∃ t, exec (.xzero n w) s = .next t ∧ onlyCoach s t n ∧ wentOn (getSeat s n) (getSeat t n) ∧
      ∀ x i, i < 64 → xget (getCoach t (n / 16)) x i =
        if x = xphys (getSeat s n) w.d.toNat then XLane.zero else xget (getCoach s (n / 16)) x i)

/-- XACC, XADD and XRD act lane by lane. R114, R115, R116, R156, R157, R159, R161. XACC adds element j of Va into lane j
mod 64 of register d + j / 64 when the lane of Va that holds it is selected, a poisoned element counting as such; XADD
adds lane to lane; both change no lane of another register, no byte of memory and no other seat. XRD rounds each
accumulator lane once into the selected lanes of Vd that its part names and changes nothing else. Each completes
whenever its word fits Table 4.9 and its registers are granted and await nothing. -/
def Obligations.ExactAccumulation : Prop :=
  (∀ (s : State) (n : Nat) (w : Fields), issuesWord s n w { op := 0x62, d := .x, a := .v, c := .mask, fmts := [0, 1, 2, 3, 4, 5, 6, 7, 8, 9, 10, 11], flag := true, imm := 0x3E0 } = true →
    scaleOk (wFmt w) (w.imm.toNat / 32 % 32) = true → w.d.toNat % fmtXRegs (wFmt w) = 0 →
    noneAwaits s n (scaleRegs (wFmt w) (w.imm.toNat / 32 % 32) ++ rangeFrom (64 + w.d.toNat) (fmtXRegs (wFmt w))) = true →
    w.d.toNat + fmtXRegs (wFmt w) ≤ (getSeat s n).grant.length → (getSeat s n).grant.Nodup →
    ∃ t, exec (.xacc n w) s = .next t ∧ wentOn (getSeat s n) (getSeat t n) ∧ t.mem = s.mem ∧
      (∀ m, m ≠ n → getSeat t m = getSeat s m) ∧
      (∀ x i, i < 64 → (∀ q, q < fmtXRegs (wFmt w) → x ≠ xphys (getSeat s n) (w.d.toNat + q)) →
        xget (getCoach t (n / 16)) x i = xget (getCoach s (n / 16)) x i) ∧
      ∀ q i, q < fmtXRegs (wFmt w) → i < 64 → xget (getCoach t (n / 16)) (xphys (getSeat s n) (w.d.toNat + q)) i =
        (let a := getSeat s n
         let f := wFmt w
         let j := 64 * q + i
         let k := 32 / fmtWidth f
         let x := vget a (w.a.toNat - 32) (j / k)
         let old := xget (getCoach s (n / 16)) (xphys a (w.d.toNat + q)) i
         if (selMask a w.c).getLsbD (j / k) then
           (if x.2 || (fmtIsMx f && (scaleOf a f (w.imm.toNat / 32 % 32) (j / 32)).2) then old.addPoisoned
            else old.addVal (addValOf (elemNum a f (w.imm.toNat / 32 % 32) j x.1) (wFlag w)))
         else old)) ∧
  (∀ (s : State) (n : Nat) (w : Fields), issuesWord s n w { op := 0x65, d := .x, a := .x } = true → w.d.toNat < (getSeat s n).grant.length →
    w.a.toNat < (getSeat s n).grant.length →
    ∃ t, exec (.xadd n w) s = .next t ∧ wentOn (getSeat s n) (getSeat t n) ∧ t.mem = s.mem ∧
      (∀ m, m ≠ n → getSeat t m = getSeat s m) ∧ ∀ i, i < 64 →
      xget (getCoach t (n / 16)) (xphys (getSeat s n) w.d.toNat) i =
        (xget (getCoach s (n / 16)) (xphys (getSeat s n) w.d.toNat) i).addLane
          (xget (getCoach s (n / 16)) (xphys (getSeat s n) w.a.toNat) i) ∧
      ∀ x, x ≠ xphys (getSeat s n) w.d.toNat → xget (getCoach t (n / 16)) x i = xget (getCoach s (n / 16)) x i) ∧
  (∀ (s : State) (n : Nat) (w : Fields), issuesWord s n w { op := 0x64, d := .v, a := .x, c := .mask, fmts := [0, 1, 2, 3, 4, 11], rounds := true, imm := 7 } = true →
    w.imm.toNat % 8 < fmtCount (wFmt w) / 64 → w.a.toNat < (getSeat s n).grant.length →
    ∃ t, exec (.xrd n w) s = .next t ∧ onlySeat s t n ∧ (getSeat t n).pc = nextPc (getSeat s n) ∧
      sameS (getSeat s n) (getSeat t n) ∧ sameM (getSeat s n) (getSeat t n) ∧ sameRest (getSeat s n) (getSeat t n) ∧
      (∀ v i, v ≠ w.d.toNat - 32 → i < 64 → vget (getSeat t n) v i = vget (getSeat s n) v i) ∧ ∀ i, i < 64 →
      vget (getSeat t n) (w.d.toNat - 32) i =
        (let a := getSeat s n
         let f := wFmt w
         let k := 32 / fmtWidth f
         let p := w.imm.toNat % 8
         let es := (rangeFrom 0 k).map fun e => readOut f (wRm w) (wSat w) (drawFor s a (i * k + e))
           (xget (getCoach s (n / 16)) (xphys a w.a.toNat) (i * k + e - 64 * p))
         if (selMask a w.c).getLsbD i ∧ 64 * p / k ≤ i ∧ i < 64 * p / k + 64 / k then
           (BitVec.ofNat 32 (joinElems (fmtWidth f) (es.map Prod.fst)), es.any Prod.snd)
         else vget a (w.d.toNat - 32) i))

/-- Loads and stores inside the own coach memory act at issue. R71, R105, R117, R118, R119, R61. LD and VLD from the own
coach memory write their register, or its selected lanes, at issue from the bytes there, poisoned with the block they
came from, and change nothing else; ST, VST and XST write exactly their bytes there, and nothing else of memory, of
the seat or of the hub changes but a poison mark; XLDA adds the 64 records there to the lanes of its register and
changes no other lane, no memory and no other seat. -/
def Obligations.OwnMemoryAccesses : Prop :=
  (∀ (s : State) (n : Nat) (w : Fields) (h : Nat), issuesWord s n w { op := 0x70, d := .s, a := .s, fmts := [0, 1, 2, 3], flag := true, imm := 0xFFFFFF } = true →
    reachesWin s n w w.a (2 ^ (w.fmt.toNat % 4)) (2 ^ (w.fmt.toNat % 4)) (.own h) = true →
    ∃ t, exec (.ld n w) s = .next t ∧ wroteS s t n (nextPc (getSeat s n)) w.d.toNat
      (let k := 2 ^ (w.fmt.toNat % 4)
       (if wFlag w then BitVec.ofInt 64 (signedOf (8 * k) (memVal s h k)) else BitVec.ofNat 64 (memVal s h k), poisonedAt s h k))) ∧
  (∀ (s : State) (n : Nat) (w : Fields) (h : Nat), issuesWord s n w { op := 0x71, a := .s, b := .s, fmts := [0, 1, 2, 3], imm := 0xFFFFFF } = true →
    reachesWin s n w w.b (2 ^ (w.fmt.toNat % 4)) (2 ^ (w.fmt.toNat % 4)) (.own h) = true →
    ∃ t, exec (.st n w) s = .next t ∧ wentOn (getSeat s n) (getSeat t n) ∧
      storedAt s t n h (leBytes (2 ^ (w.fmt.toNat % 4)) (sget (getSeat s n) w.a.toNat).1.toNat)) ∧
  (∀ (s : State) (n : Nat) (w : Fields) (h : Nat), issuesWord s n w { op := 0x72, d := .v, a := .s, c := .mask, imm := 0xFFFFFF } = true →
    reachesVec s n w w.a (selMask (getSeat s n) w.c) (.own h) = true →
    ∃ t, exec (.vld n w) s = .next t ∧ wroteV s t n (w.d.toNat - 32) (selMask (getSeat s n) w.c) fun i =>
      (BitVec.ofNat 32 (memVal s (h + 4 * i) 4), blockPoisoned s ((h + 4 * i) / 64))) ∧
  (∀ (s : State) (n : Nat) (w : Fields) (h : Nat), issuesWord s n w { op := 0x73, a := .v, b := .s, c := .mask, imm := 0xFFFFFF } = true →
    reachesVec s n w w.b (selMask (getSeat s n) w.c) (.own h) = true →
    ∃ t, exec (.vst n w) s = .next t ∧ wentOn (getSeat s n) (getSeat t n) ∧ onlyStored s t n ∧
      (∀ a, memByte t a = if h ≤ a ∧ a < h + 256 ∧ (selMask (getSeat s n) w.c).getLsbD ((a - h) / 4) then
        BitVec.ofNat 8 ((vget (getSeat s n) (w.a.toNat - 32) ((a - h) / 4)).1.toNat / 256 ^ ((a - h) % 4)) else memByte s a)) ∧
  (∀ (s : State) (n : Nat) (w : Fields) (h : Nat), issuesWord s n w { op := 0x67, a := .x, b := .s, imm := 0xFFFFFF } = true →
    reachesWin s n w w.b 4096 64 (.own h) = true → w.a.toNat < (getSeat s n).grant.length →
    ∃ t, exec (.xst n w) s = .next t ∧ wentOn (getSeat s n) (getSeat t n) ∧
      storedAt s t n h ((rangeFrom 0 64).flatMap fun i =>
        recordBytes (xget (getCoach s (n / 16)) (xphys (getSeat s n) w.a.toNat) i))) ∧
  (∀ (s : State) (n : Nat) (w : Fields) (h : Nat), issuesWord s n w { op := 0x66, d := .x, a := .s, imm := 0xFFFFFF } = true →
    reachesWin s n w w.a 4096 64 (.own h) = true → w.d.toNat < (getSeat s n).grant.length →
    ∃ t, exec (.xlda n w) s = .next t ∧ wentOn (getSeat s n) (getSeat t n) ∧ t.mem = s.mem ∧
      (∀ m, m ≠ n → getSeat t m = getSeat s m) ∧
      (∀ x i, i < 64 → x ≠ xphys (getSeat s n) w.d.toNat → xget (getCoach t (n / 16)) x i = xget (getCoach s (n / 16)) x i) ∧
      ∀ i, i < 64 →
      xget (getCoach t (n / 16)) (xphys (getSeat s n) w.d.toNat) i =
        addRecord (xget (getCoach s (n / 16)) (xphys (getSeat s n) w.d.toNat) i) (memBytes s (h + 64 * i) 64)
          (poisonedAt s (h + 64 * i) 64))

/-- Accesses outside the own coach memory take transaction entries. R57, R64, R65, R118, R119, R120, R122. With enough
free entries, LD, VLD, XLDA and the atomics to the yard or module memory add one access to the coach and their
destination register awaits it; ST, VST and XST add the store. Memory itself is unchanged until the transactions are
performed, and the seat goes on. -/
def Obligations.OutsideAccessesAreQueued : Prop :=
  (∀ (s : State) (n : Nat) (w : Fields) (win : Win), issuesWord s n w { op := 0x70, d := .s, a := .s, fmts := [0, 1, 2, 3], flag := true, imm := 0xFFFFFF } = true →
    reachesWin s n w w.a (2 ^ (w.fmt.toNat % 4)) (2 ^ (w.fmt.toNat % 4)) win = true → win.isOwn = false →
    1 ≤ entriesFree (getCoach s (n / 16)) →
    ∃ t, exec (.ld n w) s = .next t ∧ awaits (getSeat s n) (getSeat t n) w.d.toNat ∧
      tookAccess s t n (.load w.d.toNat (2 ^ (w.fmt.toNat % 4)) (wFlag w) win.addr) (blocksOf win.addr (2 ^ (w.fmt.toNat % 4))) []) ∧
  (∀ (s : State) (n : Nat) (w : Fields) (win : Win), issuesWord s n w { op := 0x71, a := .s, b := .s, fmts := [0, 1, 2, 3], imm := 0xFFFFFF } = true →
    reachesWin s n w w.b (2 ^ (w.fmt.toNat % 4)) (2 ^ (w.fmt.toNat % 4)) win = true → win.isOwn = false →
    1 ≤ entriesFree (getCoach s (n / 16)) →
    ∃ t, exec (.st n w) s = .next t ∧ wentOn (getSeat s n) (getSeat t n) ∧
      tookAccess s t n (.store (cellsAt win.addr (leBytes (2 ^ (w.fmt.toNat % 4)) (sget (getSeat s n) w.a.toNat).1.toNat))
        (if (sget (getSeat s n) w.a.toNat).2 then blocksOf win.addr (2 ^ (w.fmt.toNat % 4)) else []))
        (blocksOf win.addr (2 ^ (w.fmt.toNat % 4))) []) ∧
  (∀ (s : State) (n : Nat) (w : Fields) (win : Win), issuesWord s n w { op := 0x72, d := .v, a := .s, c := .mask, imm := 0xFFFFFF } = true →
    reachesVec s n w w.a (selMask (getSeat s n) w.c) win = true → win.isOwn = false → 4 ≤ entriesFree (getCoach s (n / 16)) →
    ∃ t, exec (.vld n w) s = .next t ∧ awaits (getSeat s n) (getSeat t n) w.d.toNat ∧
      tookAccess s t n (.vload w.d.toNat (selMask (getSeat s n) w.c) win.addr) (blocksOf win.addr 256) []) ∧
  (∀ (s : State) (n : Nat) (w : Fields) (win : Win), issuesWord s n w { op := 0x73, a := .v, b := .s, c := .mask, imm := 0xFFFFFF } = true →
    reachesVec s n w w.b (selMask (getSeat s n) w.c) win = true → win.isOwn = false → 4 ≤ entriesFree (getCoach s (n / 16)) →
    ∃ t cells pois, exec (.vst n w) s = .next t ∧ wentOn (getSeat s n) (getSeat t n) ∧
      tookAccess s t n (.store cells pois) (blocksOf win.addr 256) [] ∧
      ∀ a b, (a, b) ∈ cells ↔ ∃ i j, i < 64 ∧ j < 4 ∧ (selMask (getSeat s n) w.c).getLsbD i = true ∧ a = win.addr + 4 * i + j ∧
        b = BitVec.ofNat 8 ((vget (getSeat s n) (w.a.toNat - 32) i).1.toNat / 256 ^ j)) ∧
  (∀ (s : State) (n : Nat) (w : Fields) (win : Win), issuesWord s n w { op := 0x67, a := .x, b := .s, imm := 0xFFFFFF } = true →
    reachesWin s n w w.b 4096 64 win = true → win.isOwn = false → 64 ≤ entriesFree (getCoach s (n / 16)) →
    w.a.toNat < (getSeat s n).grant.length →
    ∃ t, exec (.xst n w) s = .next t ∧ wentOn (getSeat s n) (getSeat t n) ∧
      tookAccess s t n (.store (cellsAt win.addr ((rangeFrom 0 64).flatMap fun i =>
        recordBytes (xget (getCoach s (n / 16)) (xphys (getSeat s n) w.a.toNat) i))) []) (blocksOf win.addr 4096) []) ∧
  (∀ (s : State) (n : Nat) (w : Fields) (win : Win), issuesWord s n w { op := 0x66, d := .x, a := .s, imm := 0xFFFFFF } = true →
    reachesWin s n w w.a 4096 64 win = true → win.isOwn = false → 64 ≤ entriesFree (getCoach s (n / 16)) →
    w.d.toNat < (getSeat s n).grant.length →
    ∃ t, exec (.xlda n w) s = .next t ∧ awaits (getSeat s n) (getSeat t n) (64 + w.d.toNat) ∧
      tookAccess s t n (.xload [xphys (getSeat s n) w.d.toNat] win.addr) (blocksOf win.addr 4096) []) ∧
  queuesAtomic .aadd (formAtomic 0x74 false) (fun _ => .add) true false ∧ queuesAtomic .amin (formAtomic 0x75 true) (fun w => .min (wFlag w)) true false ∧
  queuesAtomic .amax (formAtomic 0x76 true) (fun w => .max (wFlag w)) true false ∧ queuesAtomic .aswap (formAtomic 0x77 false) (fun _ => .swap) true false ∧
  queuesAtomic .acas { op := 0x78, d := .s, a := .s, b := .s, c := .s, fmts := [2, 3], imm := 0xFFFFFF } (fun _ => .cas) true true ∧
  queuesAtomic .ald { op := 0x79, d := .s, a := .s, fmts := [2, 3], imm := 0xFFFFFF } (fun _ => .read) false false

/-- A transaction performed and a load returned act on memory and registers. R57, R64, R66, R78, R81, R105, R120, R124.
TRANSACTION_PERFORMED of a permitted block, in order and not in a yard bank under test: a store writes exactly its
bytes of that block; an atomic writes its word and gives the old value to its register, which then awaits nothing;
XSCADD adds each of its values to the record. Each frees the block of its entry, and pushes to rings that waited for
it follow. LOAD_RETURN of a permitted scalar load writes the register from memory and ends the access. -/
def Obligations.TransactionsAreApplied : Prop :=
  (∀ (s : State) (c id b : Nat) (a : Access) (cells : List (Nat × Byte)) (pois : List Nat), performs s c id b a = true →
    a.kind = .store cells pois →
    ∃ t, exec (.transactionPerformed c id b) s = .next (flushPushes t) ∧
      (∀ x, ((cells.reverse.find? fun e => e.1 == x && e.1 / 64 == b) = none → memByte t x = memByte s x) ∧
        ∀ v, (cells.reverse.find? fun e => e.1 == x && e.1 / 64 == b) = some (x, v) → memByte t x = v) ∧
      ∀ r, r ∈ (getCoach t c).acc → r.id = id → b ∉ r.blocks) ∧
  (∀ (s : State) (c id b : Nat) (a : Access) (op : AtomicOp) (rd k addr : Nat) (arg cmp : W64) (p : Bool),
    performs s c id b a = true → a.kind = .atomic op rd k addr arg cmp p →
    ∃ t, exec (.transactionPerformed c id b) s = .next (flushPushes t) ∧
      sget (getSeat t a.seat) rd = (BitVec.ofNat 64 (memVal s addr k), poisonedAt s addr k) ∧ rd ∉ (getSeat t a.seat).pend ∧
      (∀ x, memByte t x = match atomicNew op k (memVal s addr k) arg cmp with
        | some v => if addr ≤ x ∧ x < addr + k then BitVec.ofNat 8 (v / 256 ^ (x - addr)) else memByte s x
        | none => memByte s x) ∧
      ∀ r ∈ (getCoach t c).acc, r.id ≠ id) ∧
  (∀ (s : State) (c id b : Nat) (a : Access) (adds : List (Nat × AddVal)) (told : Bool), performs s c id b a = true → a.kind = .scadd adds told →
    blockPoisoned s b = false →
    ∃ t, exec (.transactionPerformed c id b) s = .next (flushPushes t) ∧
      (let r := (adds.filter fun x => x.1 / 64 == b).foldl (fun l x => l.addVal x.2) (recordLane (memBytes s (64 * b) 64))
       ∀ x, memByte t x = if 64 * b ≤ x ∧ x < 64 * b + 64 then lget 0 (recordBytes r) (x - 64 * b) else memByte s x) ∧
      ∀ r ∈ (getCoach t c).acc, r.id = id → b ∉ r.blocks) ∧
  (∀ (s : State) (c id : Nat) (a : Access) (rd k addr : Nat) (sx : Bool), findAcc (getCoach s c) id = some a →
    a.kind = .load rd k sx addr → a.got = [] → a.blocks = blocksOf addr k → (a.blocks.all fun b => inOrder (getCoach s c) a b) = true →
    addr / 64 = (addr + k - 1) / 64 → 1 ≤ k → (∀ b ∈ a.blocks, coachMay s c (64 * b) false = true) →
    (∀ b ∈ a.blocks, bankTested s (64 * b) = false) →
    ∃ t, exec (.loadReturn c id) s = .next t ∧
      sget (getSeat t a.seat) rd = (if sx then BitVec.ofInt 64 (signedOf (8 * k) (memVal s addr k)) else BitVec.ofNat 64 (memVal s addr k),
        poisonedAt s addr k) ∧ rd ∉ (getSeat t a.seat).pend ∧ (∀ r ∈ (getCoach t c).acc, r.id ≠ id) ∧ t.mem = s.mem)

/-- Gather, scatter and exact scatter-add by lane addresses. R103, R105, R118, R122, R123, R124. VGATHER inside the own
coach memory reads each selected lane at its address, and otherwise takes one entry for each distinct 64-byte block
outside; VSCATTER inside the own coach memory, at any alignment, leaves the word of each selected lane that no higher
one overlaps with that lane's value and changes no byte that no lane names; XSCADD queues one addition for each
selected lane. -/
def Obligations.GatherAndScatterResults : Prop :=
  (∀ (s : State) (n : Nat) (w : Fields) (win : Nat → Win), issuesWord s n w { op := 0x90, d := .v, a := .s, b := .v, c := .mask, imm := 3 } = true →
    lanesReach s n (selMask (getSeat s n) w.c) w.a w.b (w.imm.toNat % 4) 4 4 win → (∀ i, (win i).isOwn = true) →
    ∃ t, exec (.vgather n w) s = .next t ∧ wroteV s t n (w.d.toNat - 32) (selMask (getSeat s n) w.c) fun i =>
      (BitVec.ofNat 32 (memVal s (win i).addr 4), poisonedAt s (win i).addr 4)) ∧
  (∀ (s : State) (n : Nat) (w : Fields) (win : Nat → Win) (blocks : List Nat), issuesWord s n w { op := 0x90, d := .v, a := .s, b := .v, c := .mask, imm := 3 } = true →
    lanesReach s n (selMask (getSeat s n) w.c) w.a w.b (w.imm.toNat % 4) 4 4 win →
    blocks = dedup (((selLanes (selMask (getSeat s n) w.c)).filter fun i => !(win i).isOwn).map fun i => (win i).addr / 64) →
    blocks ≠ [] → blocks.length ≤ entriesFree (getCoach s (n / 16)) →
    ∃ t got, exec (.vgather n w) s = .next t ∧ awaits (getSeat s n) (getSeat t n) w.d.toNat ∧
      tookAccess s t n (.gather w.d.toNat ((selLanes (selMask (getSeat s n) w.c)).map fun i => (i, (win i).addr))) blocks got) ∧
  (∀ (s : State) (n : Nat) (w : Fields) (win : Nat → Win), issuesWord s n w { op := 0x91, d := .mask, a := .v, b := .s, c := .v, imm := 3 } = true →
    lanesReach s n (selMask (getSeat s n) w.d) w.b w.c (w.imm.toNat % 4) 4 1 win → (∀ i, (win i).isOwn = true) →
    ∃ t, exec (.vscatter n w) s = .next t ∧ wentOn (getSeat s n) (getSeat t n) ∧
      (∀ a, (∀ i ∈ selLanes (selMask (getSeat s n) w.d), ¬((win i).addr ≤ a ∧ a < (win i).addr + 4)) → memByte t a = memByte s a) ∧
      ∀ i ∈ selLanes (selMask (getSeat s n) w.d),
        (∀ j ∈ selLanes (selMask (getSeat s n) w.d), i < j →
          (win j).addr + 4 ≤ (win i).addr ∨ (win i).addr + 4 ≤ (win j).addr) →
        memVal t (win i).addr 4 = (vget (getSeat s n) (w.a.toNat - 32) i).1.toNat) ∧
  (∀ (s : State) (n : Nat) (w : Fields) (win : Nat → Win) (adds : List (Nat × AddVal)),
    issuesWord s n w { op := 0x92, d := .mask, a := .v, b := .s, c := .v, fmts := [0, 1, 2, 11], flag := true, imm := 1 } = true →
    64 * (w.imm.toNat % 2) < fmtCount (wFmt w) →
    lanesReach s n (selMask (getSeat s n) w.d) w.b w.c 6 64 64 win → (∀ i, (win i).isOwn = false) →
    adds = ((selLanes (selMask (getSeat s n) w.d)).map fun i =>
      let j := 64 * (w.imm.toNat % 2) + i
      let v := vget (getSeat s n) (w.a.toNat - 32) (j / (32 / fmtWidth (wFmt w)))
      ((win i).addr, if v.2 then AddVal.poisoned else addValOf (elemNum (getSeat s n) (wFmt w) 0 j v.1) (wFlag w))) →
    adds ≠ [] → (dedup (adds.map fun x => x.1 / 64)).length ≤ entriesFree (getCoach s (n / 16)) →
    ∃ t, exec (.xscadd n w) s = .next t ∧ wentOn (getSeat s n) (getSeat t n) ∧
      tookAccess s t n (.scadd adds false) (dedup (adds.map fun x => x.1 / 64)) [])

/-- Dray instructions and engine events. R67, R68, R69, R70, R121, Table 3.5. DSUB queues a copy of a descriptor that fits
Table 3.5 while its queue has room; DWAIT goes on or parks on its count; DCNT reads the count. DRAY_TRANSACTION starts
the next transaction of the current descriptor, which takes one entry and changes no memory; TRANSACTION_PERFORMED of
it copies the 64 bytes, zeros for ZERO, and frees the entry; DRAY_DESCRIPTOR_COMPLETE takes the oldest descriptor off
once all of it is performed, and raises the count when INC is set. Pushes to rings that waited follow. The model's
own: that the descriptor being executed counts among the 16 of its queue, that the ranges of Table 3.5 are judged as
the descriptor gives them and that DSUB takes its bytes without POISON (log 118, DESIGN CHOICE), the order in which
transactions start and the ACCESS of a write into a code area (log 27, DEDUCED). -/
def Obligations.DrayEngineEffects : Prop :=
  (∀ (s : State) (n : Nat) (w : Fields) (h : Nat) (d : DrayDesc), issuesWord s n w { op := 0x80, a := .s, imm := 1 } = true →
    seatWin s (n / 16) (codeLimit s n) (sget (getSeat s n) w.a.toNat).1.toNat 32 = some (.own h) →
    (sget (getSeat s n) w.a.toNat).1.toNat % 32 = 0 → (sget (getSeat s n) w.a.toNat).2 = false →
    drayParse (memBytes s h 32) = some d → (drayQ (getCoach s (n / 16)) (w.imm.toNat % 2)).length < 16 →
    ∃ t, exec (.dsub n w) s = .next t ∧ wentOn (getSeat s n) (getSeat t n) ∧ t.mem = s.mem ∧
      drayQ (getCoach t (n / 16)) (w.imm.toNat % 2) = drayQ (getCoach s (n / 16)) (w.imm.toNat % 2) ++
        [{ d with id := s.coaches.nextDesc, seat := n, pc := (getSeat s n).pc, accBound := s.coaches.nextAcc,
                  descBound := s.coaches.nextDesc }]) ∧
  (∀ (s : State) (n : Nat) (w : Fields), issuesWord s n w { op := 0x81, a := .s, imm := 1 } = true → (sget (getSeat s n) w.a.toNat).2 = false →
    ∃ t, exec (.dwait n w) s = .next t ∧ onlySeat s t n ∧ (getSeat t n).pc = nextPc (getSeat s n) ∧
      (getSeat t n).st = if (drayCount (getCoach s (n / 16)) (w.imm.toNat % 2) - (sget (getSeat s n) w.a.toNat).1.setWidth 32).toNat < 2 ^ 31
        then .ready else .parked (.drayCount (w.imm.toNat % 2) ((sget (getSeat s n) w.a.toNat).1.setWidth 32))) ∧
  (∀ (s : State) (n : Nat) (w : Fields), issuesWord s n w { op := 0x82, d := .s, imm := 1 } = true →
    ∃ t, exec (.dcnt n w) s = .next t ∧ wroteS s t n (nextPc (getSeat s n)) w.d.toNat
      (BitVec.ofNat 64 (if w.imm.toNat % 2 = 0 then (getCoach s (n / 16)).dc0 else (getCoach s (n / 16)).dc1).toNat, false)) ∧
  (∀ (s : State) (c e : Nat) (d : DrayDesc), e < 2 → drayRuns s c e d = true →
    ∃ t x, exec (.drayTransaction c e) s = .next t ∧ t.mem = s.mem ∧ (getCoach t c).acc = (getCoach s c).acc ++ [x] ∧
      x.id = s.coaches.nextAcc ∧ x.kind = .dray e d d.issued ∧ x.blocks = [drayDst d d.issued / 64] ∧
      drayQ (getCoach t c) e = (drayQ (getCoach s c) e).map fun x => if x.id = d.id then { x with issued := d.issued + 1 } else x) ∧
  (∀ (s : State) (c e id b k sa da : Nat) (d : DrayDesc) (x : Access), findAcc (getCoach s c) id = some x → x.kind = .dray e d k →
    b ∈ x.blocks → bankWaits s c x b = false → (d.zero = true ∨ ∃ p, drayTarget s c (draySrc d k) false = some (sa, p)) →
    drayTarget s c (drayDst d k) true = some (da, false) →
    ∃ t, exec (.transactionPerformed c id b) s = .next (flushPushes t) ∧
      (∀ a, memByte t a = if da ≤ a ∧ a < da + 64 then (if d.zero then 0 else memByte s (sa + (a - da))) else memByte s a) ∧
      ∀ r ∈ (getCoach t c).acc, r.id ≠ id) ∧
  (∀ (s : State) (c e : Nat) (d : DrayDesc) (rest : List DrayDesc), e < 2 → drayQ (getCoach s c) e = d :: rest →
    drayAllDone (getCoach s c) d = true →
    ∃ t, exec (.drayDescriptorComplete c e) s = .next (flushPushes t) ∧ drayQ (getCoach t c) e = rest ∧
      drayCount (getCoach t c) e = drayCount (getCoach s c) e + (if d.inc then 1 else 0) ∧ t.mem = s.mem)

/-- FENCE and BAR hold a seat until their conditions are met. R79, R125, R126. FENCE parks its seat on the classes that
IMM names and FENCE_COMPLETE makes it ready once they are performed; BAR counts the arrival and parks; BARRIER_RELEASE
makes every participating seat that has not halted ready once all have arrived, and touches no other seat. That FENCE
waits for descriptors where IMM names class 2 only is the model's reading (log 119, DEDUCED). -/
def Obligations.FencesAndBarriers : Prop :=
  (∀ (s : State) (n : Nat) (w : Fields), issuesWord s n w { op := 0xA0, imm := 7 } = true → w.imm.toNat % 8 ≠ 0 →
    ∃ t, exec (.fence n w) s = .next t ∧ onlySeat s t n ∧ (getSeat t n).pc = nextPc (getSeat s n) ∧
      (getSeat t n).st = .parked (.fence (w.imm.setWidth 3) s.coaches.nextAcc s.coaches.nextDesc)) ∧
  (∀ (s : State) (n : Nat) (m : BitVec 3) (a d : Nat), (getSeat s n).st = .parked (.fence m a d) →
    (m.getLsbD 0 = true → loadsDone (getCoach s (n / 16)) n a = true) →
    (m.getLsbD 1 = true → storesDone (getCoach s (n / 16)) n a = true) →
    (m.getLsbD 2 = true → descsDone (getCoach s (n / 16)) n d = true) →
    ∃ t, exec (.fenceComplete n) s = .next t ∧ getSeat t n = { getSeat s n with st := .ready } ∧
      (∀ k, k ≠ n → getSeat t k = getSeat s k) ∧ { t with coaches := { t.coaches with seat := s.coaches.seat } } = s) ∧
  (∀ (s : State) (n : Nat) (w : Fields), issuesWord s n w { op := 0xA1, imm := 1 } = true →
    ∃ t, exec (.bar n w) s = .next t ∧ onlySeat s t n ∧ (getSeat t n).pc = nextPc (getSeat s n) ∧
      (getSeat t n).st = .parked (.barrier (w.imm.toNat % 2) s.coaches.nextAcc s.coaches.nextDesc) ∧
      (getSeat t n).bar0 = (getSeat s n).bar0 + (if w.imm.toNat % 2 = 0 then 1 else 0) ∧
      (getSeat t n).bar1 = (getSeat s n).bar1 + (if w.imm.toNat % 2 = 0 then 0 else 1)) ∧
  (∀ (s : State) (c scope : Nat), (∀ n ∈ barSeats s c scope, arrived s scope n = true) →
    ∃ t, exec (.barrierRelease c scope) s = .next t ∧ ∀ n, getSeat t n =
      if n ∈ barSeats s c scope ∧ (getSeat s n).st ≠ .halted then { getSeat s n with st := .ready } else getSeat s n)

/-- Beat reads and waits, and the system group. R128, R131, R132, R133. BREAD gives the beat count; BWAIT goes on when Sa
+ IMM has been reached and parks on it otherwise; RCTX sets the rounding context; NOP does nothing; HALT halts the
seat and releases its X registers; TRAP takes exception TRAP with the PC of the instruction. The model's own: that
RCTX drops the poison of its sources (log 118, DESIGN CHOICE) and that the sum BWAIT compares wraps and is unsigned
(log 131). -/
def Obligations.BeatAndSystemInstructions : Prop :=
  (∀ (s : State) (n : Nat) (w : Fields), issuesWord s n w { op := 0xB1, d := .s } = true →
    ∃ t, exec (.bread n w) s = .next t ∧ wroteS s t n (nextPc (getSeat s n)) w.d.toNat (s.drum.count, false)) ∧
  (∀ (s : State) (n : Nat) (w : Fields), issuesWord s n w { op := 0xB0, a := .s, imm := 0xFFFFFF } = true → (sget (getSeat s n) w.a.toNat).2 = false →
    ∃ t, exec (.bwait n w) s = .next t ∧ onlySeat s t n ∧ (getSeat t n).pc = nextPc (getSeat s n) ∧
      (getSeat t n).st = if ((sget (getSeat s n) w.a.toNat).1 + w.imm.signExtend 64).toNat ≤ s.drum.count.toNat then .ready
        else .parked (.beat ((sget (getSeat s n) w.a.toNat).1 + w.imm.signExtend 64))) ∧
  (∀ (s : State) (n : Nat) (w : Fields), issuesWord s n w { op := 0xD0, a := .s, b := .s } = true →
    ∃ t, exec (.rctx n w) s = .next t ∧ onlySeat s t n ∧ (getSeat t n).pc = nextPc (getSeat s n) ∧
      (getSeat t n).tag = (sget (getSeat s n) w.a.toNat).1.setWidth 32 ∧ (getSeat t n).base = (sget (getSeat s n) w.b.toNat).1 ∧
      sameS (getSeat s n) (getSeat t n) ∧ sameV (getSeat s n) (getSeat t n) ∧ sameM (getSeat s n) (getSeat t n)) ∧
  (∀ (s : State) (n : Nat) (w : Fields), issuesWord s n w { op := 0xE0 } = true → ∃ t, exec (.nop n w) s = .next t ∧ wentTo s t n (nextPc (getSeat s n))) ∧
  (∀ (s : State) (n : Nat) (w : Fields), issuesWord s n w { op := 0xE1 } = true →
    ∃ t, exec (.halt n w) s = .next t ∧ onlyCoach s t n ∧ (getSeat t n).st = .halted ∧ (getSeat t n).grant = [] ∧
      sameS (getSeat s n) (getSeat t n) ∧ sameV (getSeat s n) (getSeat t n) ∧ sameM (getSeat s n) (getSeat t n) ∧
      ∀ e ∈ (getCoach t (n / 16)).xowner, e.2 ≠ n) ∧
  (∀ (s : State) (n : Nat) (w : Fields), issuesWord s n w { op := 0xE2 } = true →
    ∃ t, exec (.trap n w) s = .next t ∧ tookExc s t n 0xB)

/-- FETCH and ILLEGAL are taken at issue and change no register and no memory. R89, R97, R99, R133, R134. A seat that may
issue and whose PC has reached the end of its code area takes FETCH; one that fetches a word with an opcode that no
table assigns, or a word that breaks the form of its opcode, takes ILLEGAL. The coach stops with the code and the
seat, the first exception of the kernel is recorded with the PC of the instruction, and no scalar, vector or mask
register of any seat and no byte of memory changes. Stated for instructions of every group of Chapter 04. -/
def Obligations.ExceptionsAtIssue : Prop :=
  ∀ (s : State) (n : Nat) (w : Fields) (x : (Nat → Fields → Instr) × Form),
    x ∈ [(Instr.add, formSSS 0x01), (Instr.beq, { op := 0x20, a := .s, b := .s, imm := 0xFFFFFF }), (Instr.vadd, formVfp 0x30 true false),
      (Instr.viadd, formVint 0x40 [10, 11]),
      (Instr.cvt, { op := 0x50, d := .v, a := .v, c := .mask, fmts := [0, 1, 2, 3, 4, 5, 6, 7, 8, 9, 10, 11], rounds := true, imm := 0x3FF7F }),
      (Instr.mand, { op := 0x58, d := .m, a := .m, b := .m }), (Instr.xadd, { op := 0x65, d := .x, a := .x }),
      (Instr.ld, { op := 0x70, d := .s, a := .s, fmts := [0, 1, 2, 3], flag := true, imm := 0xFFFFFF }),
      (Instr.aadd, formAtomic 0x74 false), (Instr.dcnt, { op := 0x82, d := .s, imm := 1 }), (Instr.bar, { op := 0xA1, imm := 1 }),
      (Instr.vgather, { op := 0x90, d := .v, a := .s, b := .v, c := .mask, imm := 3 }),
      (Instr.vscatter, { op := 0x91, d := .mask, a := .v, b := .s, c := .v, imm := 3 }),
      (Instr.xscadd, { op := 0x92, d := .mask, a := .v, b := .s, c := .v, fmts := [0, 1, 2, 11], flag := true, imm := 1 }),
      (Instr.launch, formSSS 0xA2), (Instr.rpop, formSSS 0xC0), (Instr.rpush, formSSS 0xC1),
      (Instr.rctx, { op := 0xD0, a := .s, b := .s }), (Instr.rand, { op := 0xD1, d := .v, imm := 0xFFFFFF }),
      (Instr.bread, { op := 0xB1, d := .s }), (Instr.nop, { op := 0xE0 })] →
    mayIssue s n = true →
    (codeLimit s n ≤ (getSeat s n).pc → ∃ t, exec (x.1 n w) s = .next t ∧ tookExc s t n 2) ∧
    ((getSeat s n).pc < codeLimit s n → opAssigned (fetchWord s n / 2 ^ 56) = false →
      ∃ t, exec (x.1 n w) s = .next t ∧ tookExc s t n 1) ∧
    ((getSeat s n).pc < codeLimit s n → fetchWord s n = wordBits x.2.op w → wordOk x.2 w = false →
      ∃ t, exec (x.1 n w) s = .next t ∧ tookExc s t n 1)

/-- LAUNCH, RPOP and RPUSH move their 64 bytes and report in Sd. R80, R83, R127, R129, R130, R342, R343. LAUNCH to a train
of the seat's world appends the launch block to its queue and writes 0, or writes 1 when 64 wait. RPOP of a ring with
an entry copies it into the own coach memory, advances the ring and writes the entry's index; of an empty ring, or a
step ring with no chunk, it writes all ones. RPUSH writes 0 where the ring has room and 1 where it has none, and parks
on neither; it posts the 64 bytes at once when everything that the seat did before has been performed, and otherwise
posts them then, memory and the ring being unchanged until then. The model's own: that LAUNCH parks until the seat's
earlier stores and descriptors are performed and RPUSH does not (log 28, DEDUCED), that LAUNCH and RPUSH take their
bytes without POISON and the ACCESS of LAUNCH's Sa (log 118, DESIGN CHOICE), and the ring of a user program (log 47,
DESIGN CHOICE). -/
def Obligations.LaunchAndRingInstructions : Prop :=
  (∀ (s : State) (n : Nat) (w : Fields) (me : Nat), issuesWord s n w (formSSS 0xA2) = true → launchReady s n w me = true →
    ∃ t, exec (.launch n w) s = .next t ∧ (getSeat t n).pc = nextPc (getSeat s n) ∧ t.mem = s.mem ∧
      (let tr := (sget (getSeat s n) w.b.toNat).1.toNat
       if (getTrain s tr).queue.length < 64 then
         sget (getSeat t n) w.d.toNat = (0, false) ∧ (getTrain t tr).queue = (getTrain s tr).queue ++
           [{ raw := memBytes s (sget (getSeat s n) w.a.toNat).1.toNat 64, src := .seat n }]
       else sget (getSeat t n) w.d.toNat = (1, false) ∧ (getTrain t tr).queue = (getTrain s tr).queue)) ∧
  (∀ (s : State) (n : Nat) (w : Fields) (me h q : Nat), issuesWord s n w (formSSS 0xC0) = true → ringReady s n w me h q false = true → q < 0xFF00 → ringFill s q ≠ 0 →
    ∃ t, exec (.rpop n w) s = .next t ∧ (getSeat t n).pc = nextPc (getSeat s n) ∧
      sget (getSeat t n) w.d.toNat = (BitVec.ofNat 64 (getCons s q).toNat, false) ∧ getCons t q = getCons s q + 1 ∧
      (∀ a, memByte t a = if h ≤ a ∧ a < h + 64 then memByte s (headAddr s q + (a - h)) else memByte s a)) ∧
  (∀ (s : State) (n : Nat) (w : Fields) (me h q : Nat), issuesWord s n w (formSSS 0xC0) = true → ringReady s n w me h q false = true →
    (q < 0xFF00 → ringFill s q = 0 →
      ∃ t, exec (.rpop n w) s = .next t ∧ wroteS s t n (nextPc (getSeat s n)) w.d.toNat (BitVec.allOnes 64, false)) ∧
    (0xFF00 ≤ q → ∃ t, exec (.rpop n w) s = .next t ∧ (getSeat t n).pc = nextPc (getSeat s n) ∧
      sget (getSeat t n) w.d.toNat = (if (popChunk s (q - 0xFF00) (n / 16 / 32)).2.isNone then BitVec.allOnes 64
        else BitVec.ofNat 64 (getCons s q).toNat, false))) ∧
  (∀ (s : State) (n : Nat) (w : Fields) (me h q : Nat), issuesWord s n w (formSSS 0xC1) = true → ringReady s n w me h q true = true →
    ∃ t, exec (.rpush n w) s = .next t ∧ (getSeat t n).pc = nextPc (getSeat s n) ∧ (getSeat t n).st = (getSeat s n).st ∧
      sget (getSeat t n) w.d.toNat = (if pushRoom s q then 0 else 1, false) ∧ (pushRoom s q = false → t.mem = s.mem)) ∧
  (∀ (s : State) (n : Nat) (w : Fields) (me h q : Nat), issuesWord s n w (formSSS 0xC1) = true → ringReady s n w me h q true = true → pushRoom s q = true →
    s.coaches.pushes = [] → storesDone (getCoach s (n / 16)) n s.coaches.nextAcc = false ∨
      descsDone (getCoach s (n / 16)) n s.coaches.nextDesc = false →
    ∃ t p, exec (.rpush n w) s = .next t ∧ t.coaches.pushes = [p] ∧ p.seat = n ∧ p.ring = q ∧ p.entry = memBytes s h 64 ∧
      t.mem = s.mem ∧ getProd t q = getProd s q) ∧
  (∀ (s : State) (p : RingPush), s.coaches.pushes = [p] → pushReady s p = true → p.ring < 0xFF40 →
    flushPushes s = { postEntry s p.ring p.entry with coaches := { (postEntry s p.ring p.entry).coaches with pushes := [] } }) ∧
  (∀ (s : State) (n : Nat) (w : Fields) (me h q : Nat), issuesWord s n w (formSSS 0xC1) = true → ringReady s n w me h q true = true → q < 0xFF00 →
    storesDone (getCoach s (n / 16)) n s.coaches.nextAcc = true → descsDone (getCoach s (n / 16)) n s.coaches.nextDesc = true →
    s.coaches.pushes = [] → kget [] s.host.waiting q = [] → canPost s q (memBytes s h 64) = true →
    ∃ t, exec (.rpush n w) s = .next t ∧ (getSeat t n).pc = nextPc (getSeat s n) ∧
      sget (getSeat t n) w.d.toNat = (0, false) ∧ getProd t q = getProd s q + 1 ∧
      (∀ a, memByte t a = if q < 256 ∧ ringBase s q + 64 * ((getProd s q).toNat % ringDepth s q) ≤ a ∧
          a < ringBase s q + 64 * ((getProd s q).toNat % ringDepth s q) + 64
        then memByte s (h + (a - (ringBase s q + 64 * ((getProd s q).toNat % ringDepth s q)))) else memByte s a))

/-- A launch block is loaded, started, timed out, completed. R84, R85, R86, R87, R88, R89, R90, R364. LAUNCH_BLOCK_START
takes the head of an idle train's queue, reads its code image and loads its coaches, runs the service firmware's block
as the train's persistent kernel, beside which only optimizer kernels start, and waits while a job ends or a
completion entry waits for room; KERNEL_CODE_LOADED without launch-beat and G4C mode starts every seat at PC 0 with
S0, S2 and S5 set; KERNEL_TIMEOUT stops a kernel past its TIMEOUT with status 2; KERNEL_COMPLETE writes the completion
record and frees the train; KERNELS_STOPPED ends an ending job. The model's own: the service firmware's block (log
102), the code image read at the block's start and kept (log 103) and the wait of the launch service for a completion
entry (log 112), all DESIGN CHOICE. -/
def Obligations.KernelLifecycle : Prop :=
  (∀ (s : State) (tr : Nat) (l : Launch) (rest : List Launch), (getTrain s tr).kernel = none → (getTrain s tr).service = none →
    (getTrain s tr).queue = l :: rest → l.src ≠ .firmware → s.host.ending = none → svcWaits s tr = false → launchOk s tr l = true →
    ∃ t k, exec (.launchBlockStart tr) s = .next t ∧ (getTrain t tr).queue = rest ∧ (getTrain t tr).kernel = some k ∧
      k.launch = l ∧ k.phase = .loading ∧ k.image = memBytes s (lbCodeAddr l) (4096 * lbCodeSize l) ∧
      (∀ c ∈ k.coaches, (getCoach s c).cond ≠ .drained → (getCoach t c).cond = .loading) ∧ t.mem = s.mem) ∧
  (∀ (s : State) (tr : Nat) (l : Launch) (rest : List Launch), (getTrain s tr).kernel = none → (getTrain s tr).queue = l :: rest →
    (s.host.ending.isSome = true ∨ svcWaits s tr = true → exec (.launchBlockStart tr) s = .next s) ∧
    (l.src = .firmware → (getTrain s tr).service = none → s.host.ending = none → svcWaits s tr = false →
      ∃ t, exec (.launchBlockStart tr) s = .next t ∧ (getTrain t tr).queue = rest ∧ (getTrain t tr).service = some l ∧
        (getTrain t tr).kernel = none ∧ t.mem = s.mem)) ∧
  (∀ (s : State) (tr : Nat), (getTrain s tr).service.isSome = true → ((getTrain s tr).queue.all fun l => !l.ofStep) = true →
    exec (.launchBlockStart tr) s = .next s) ∧
  (∀ (s : State) (tr c i : Nat) (k : Kernel), (getTrain s tr).kernel = some k → k.phase = .loading → s.host.ending = none →
    s.consist.cfg.drum.g4cMode = false → (getCoach s c).cond ≠ .drained →
    lbFlags k.launch % 2 = 0 → k.late = 0 → k.coaches.Nodup → c ∈ k.coaches → i < lbSeats k.launch → lbSeats k.launch ≤ 16 →
    ∃ t, exec (.kernelCodeLoaded tr) s = .next t ∧ (getTrain t tr).kernel = some { k with phase := .running, startBeat := s.drum.count } ∧
      (getCoach t c).cond = .running ∧ (getSeat t (16 * c + i)).st = .ready ∧ (getSeat t (16 * c + i)).pc = 0 ∧
      sget (getSeat t (16 * c + i)) 0 = (BitVec.ofNat 64 (16 * c + i), false) ∧
      sget (getSeat t (16 * c + i)) 2 = (BitVec.ofNat 64 tr, false) ∧ sget (getSeat t (16 * c + i)) 5 = (s.drum.count, false)) ∧
  (∀ (s : State) (tr : Nat) (k : Kernel), (getTrain s tr).kernel = some k → k.phase = .running → lbTimeout k.launch ≠ 0 →
    k.startBeat.toNat + lbTimeout k.launch ≤ s.drum.count.toNat →
    ∃ t, exec (.kernelTimeout tr) s = .next t ∧ (getTrain t tr).kernel = some { k with phase := .stopping, status := 2 } ∧
      (∀ n ∈ kernelSeats k, (getSeat t n).st = .halted) ∧ t.mem = s.mem) ∧
  (∀ (s : State) (tr : Nat) (k : Kernel) (r : Nat) (q : Nat), (getTrain s tr).kernel = some k → k.phase = .running →
    kernelHalted s k = true → kernelQuiet s k = true → k.launch.src = .seat r → lbCompl k.launch ≠ 0 →
    complOk s tr k.launch = true → q < 32 →
    ∃ t, exec (.kernelComplete tr) s = .next t ∧ (getTrain t tr).kernel = none ∧
      memByte t (lbCompl k.launch + q) = lget 0 (completionRecord k k.status s.drum.count) q) ∧
  (∀ (s : State) (e : Ending), s.host.ending = some e → e.byHost = false →
    ∃ t, exec .kernelsStopped s = .next t ∧ t.host.ending = none ∧ ∀ tr, tr < 8 → (getTrain t tr).kernel = none ∧ (getTrain t tr).queue = [])

/-- A finding waits to be taken, or is retained while the main domain is down. R446, R449, R452, R456, R471. The unit that
a running slice tests finds nothing. Of any other source: while the main domain is up and fewer than four messages of
the source wait, a finding is appended with its beat and no register changes; while it is not up, a finding of a
standby source sets its sticky bit and is retained, and a finding of any other source leaves the state unchanged. No
finding touches memory. -/
def Obligations.MessagesFoundWaitForTheBelfry : Prop :=
  ∀ (s : State) (src kind cls addr : Nat),
    (underTest s src = true → raise s src kind cls addr = s) ∧ (underTest s src = false →
    (raise s src kind cls addr).mem = s.mem ∧
    (s.mainDom = .up → (s.belfry.raised.filter fun x => x.source == src).length < 4 →
      raise s src kind cls addr = { s with belfry := { s.belfry with raised := s.belfry.raised ++
        [{ seq := 0, beat := s.drum.count.toNat % 2 ^ 32, addr := addr % 2 ^ 48, cls := cls, kind := kind, source := src }] } }) ∧
    (s.mainDom ≠ .up → src = 0x276 ∨ src = 0x278 ∨ src = 0x27A ∨ src = 0x27C →
      newMsg s src kind cls addr ∈ (raise s src kind cls addr).belfry.retained ∧
      regBits (raise s src kind cls addr) (rSticky (src / 64)) (src % 64) (src % 64) = 1) ∧
    (s.mainDom ≠ .up → ¬(src = 0x276 ∨ src = 0x278 ∨ src = 0x27A ∨ src = 0x27C) → raise s src kind cls addr = s))

/-- FAULT_MESSAGE: the Belfry takes a message with the next SEQ. R446, R447, R448, R449, R450, R452, R453, R454, R456,
R463, R471. With the main domain up, a message of the class of its kind whose class is not escalated, whose reaction
is none and whose source no running slice tests enters the queue with the next SEQ and sets its sticky bit; a U-class
message of a source other than P1 that does not touch the datapath also makes its domain degraded. With the main
domain down a standby source's message is retained. A message at another class than its kind's, or of a kind that no
rule gives its source, is none; the fifth that would wait is merged. The unit that a running slice tests raises
nothing. That a merged message of class F latches too is the model's reading (log 145, DEDUCED), and so is that a
latch stands over the restart of Table 13.2 (log 148, DEDUCED). -/
def Obligations.FaultMessagesAreTaken : Prop :=
  (∀ (s : State) (src kind addr : Nat), isSource src = true → 1 ≤ kind → kind ≤ 0x3C → kindClass kind = 1 → kindFrom kind src = true → s.mainDom = .up →
    (s.belfry.raised.all fun m => m.source != src) = true → unacked s src 1 = false → reactionOf s src 1 = 0 → underTest s src = false →
    fatalLatch s src = false → s.belfry.queue.length < 4032 →
    ∃ t, exec (.faultMessage src kind 1 addr) s = .next t ∧
      t.belfry.queue = s.belfry.queue ++ [{ newMsg s src kind 1 addr with seq := regBits s rFltSeq 29 0 }] ∧
      regBits t (rSticky (src / 64)) (src % 64) (src % 64) = 1 ∧ t.mem = s.mem ∧ t.outbox = s.outbox) ∧
  (∀ (s : State) (src kind addr d : Nat), isSource src = true → 1 ≤ kind → kind ≤ 0x3C → kindClass kind = 2 → kindFrom kind src = true →
    kind ≠ 8 → s.mainDom = .up →
    (s.belfry.raised.all fun m => m.source != src) = true → unacked s src 2 = false → reactionOf s src 2 = 0 → underTest s src = false →
    touches s src = false → src ≠ 0x249 → domainOf src = some d → s.belfry.queue.length < 4096 →
    ∃ t, exec (.faultMessage src kind 2 addr) s = .next t ∧
      t.belfry.queue = s.belfry.queue ++ [{ newMsg s src kind 2 addr with seq := regBits s rFltSeq 29 0 }] ∧
      nbit (regGet t rDomain).toNat d = true) ∧
  (∀ (s : State) (src kind cls addr : Nat), isSource src = true → 1 ≤ kind → kind ≤ 0x3C → kindClass kind = cls →
    kindFrom kind src = true → s.mainDom ≠ .up → exec (.faultMessage src kind cls addr) s = .next (raise s src kind cls addr)) ∧
  (∀ (s : State) (src kind cls addr : Nat), kindClass kind ≠ cls ∨ kindFrom kind src = false →
    exec (.faultMessage src kind cls addr) s = .next s) ∧
  (∀ (s : State) (src kind cls addr : Nat), isSource src = true → 1 ≤ kind → kind ≤ 0x3C → kindClass kind = cls →
    kindFrom kind src = true → s.mainDom = .up → 4 ≤ (waitingOf s src).length →
    (∀ m ∈ s.belfry.raised, ¬(m.source = src ∧ m.kind = kind ∧ m.addr = addr % 2 ^ 48)) →
    exec (.faultMessage src kind cls addr) s = .next (raise s src kind cls addr)) ∧
  (∀ (s : State) (src kind cls addr : Nat), (s.belfry.raised.all fun m => m.source != src) = true → s.mainDom = .up →
    underTest s src = true → exec (.faultMessage src kind cls addr) s = .next s)

/-- Queue pops, acknowledgement, block reset and domain recovery. R455, R457, R459, R460, R463. With the main domain up,
FLT_QPOP_HI and FLT_GFIFO_HI remove the oldest message and nothing else; FLT_ACK clears the unacknowledged bit of its
source and class and releases its ERR_N hold. BLOCK_RESET of a coach that waits, with no job running, resets that
coach, but for CAUSE and SEAT of COACH_STATUS, and its sixteen seats. DOMAIN_QUIET_EXPIRY clears the bit of a degraded
domain. -/
def Obligations.FaultQueueAndAcknowledgement : Prop :=
  (∀ (s : State), s.mainDom = .up → exec .fltQpopHi s = .next { s with belfry := { s.belfry with queue := s.belfry.queue.drop 1 } }) ∧
  (∀ (s : State) (g : Nat), s.mainDom = .up → g < 6 →
    ∃ t, exec (.fltGfifoHi g) s = .next t ∧ kget [] t.belfry.gfifo g = (kget [] s.belfry.gfifo g).drop 1 ∧
      (∀ k, k ≠ g → kget [] t.belfry.gfifo k = kget [] s.belfry.gfifo k) ∧ t.belfry.queue = s.belfry.queue ∧
      { t with belfry := s.belfry } = s) ∧
  (∀ (s : State) (v : W64), s.mainDom = .up → 1 ≤ bits v 17 16 →
    ∃ t, exec (.fltAck v) s = .next t ∧
      regBits t (rSrc (bits v 9 0)) (35 + bits v 17 16) (35 + bits v 17 16) = 0 ∧
      (bits v 9 0, bits v 17 16) ∉ t.belfry.errReact ∧ (bits v 17 16 = 3 → bits v 9 0 ∉ t.belfry.errEsc) ∧
      (bits v 63 63 = 1 → regBits t (rSrc (bits v 9 0)) 63 48 = 0 ∧ regBits t (rSrc (bits v 9 0)) 47 40 = 0) ∧
      (∀ a, a ≠ rSrc (bits v 9 0) → regGet t a = regGet s a) ∧ t.mem = s.mem) ∧
  (∀ (s : State) (c : Nat), c < 512 → c ∈ s.belfry.resets → s.host.job = none →
    ∃ t, exec (.blockReset c) s = .next t ∧ c ∉ t.belfry.resets ∧
      getCoach t c = { Coach.init with cond := if coachInService s c then .idle else .excluded, cause := (getCoach s c).cause,
                                       seat := (getCoach s c).seat } ∧
      (∀ n, getSeat t n = if n / 16 = c then Seat.init else getSeat s n)) ∧
  (∀ (s : State) (d : Nat), d < 48 → s.mainDom = .up → nbit (regGet s rDomain).toNat d = true →
    ∃ t, exec (.domainQuietExpiry d) s = .next t ∧ nbit (regGet t rDomain).toNat d = false)

/-- A due slice drains its coach, ends with a result and gives the coach back. R93, R466, R468, R469, R470, R471, R472,
R473. BIST_REQ_GO requests a slice; BIST_SLICE_START of the schedule's coach slice, when nothing makes it wait, drains
the coach and remembers its state; BIST_BUDGET_EXPIRY stops the slice; while the coach has transactions in flight the
slice does not end; a slice that was stopped, or whose set is not complete, ends ABORTED; BIST_SLICE_END of a slice of
a coach, not stopped, whose transactions are performed, with every pattern of the set answered, both passes of the
march test alike and the signature of R469 as expected, writes PASS to BIST_LAST, restores the coach and moves the
schedule on. That the bits of a word enter the signature from the highest to the lowest is the model's choice (log
147). -/
def Obligations.SelfTestSlices : Prop :=
  (∀ (s : State) (k : Nat), s.mainDom = .up → k < 1024 →
    ∃ t, exec (.bistReqGo k) s = .next t ∧ regBits t rBistReq 63 63 = 1 ∧ regBits t rBistReq 9 0 = k ∧
      (∀ a, a ≠ rBistReq → regGet t a = regGet s a) ∧ t.mem = s.mem) ∧
  (∀ (s : State) (c : Nat), s.mainDom = .up → s.bist.run = none → s.bist.urgent = [] → regBits s rBistReq 63 63 = 0 →
    regBits s rBistStatus 63 54 = 2 * c → coachInService s c = true → sliceWaits s (2 * c) = false →
    ∃ t sl, exec .bistSliceStart s = .next t ∧ t.bist.run = some sl ∧ sl.slice = 2 * c ∧ sl.saved = some (getCoach s c).cond ∧
      sl.set = patternSet (regBits s rPcapStatus 63 60) (regBits s rBistCtl 31 16) ∧
      getCoach t c = { getCoach s c with cond := .drained } ∧ (∀ d, d ≠ c → getCoach t d = getCoach s d) ∧ t.mem = s.mem) ∧
  (∀ (s : State) (sl : Slice), s.bist.run = some sl →
    exec .bistBudgetExpiry s = .next { s with bist := { s.bist with run := some { sl with stopped := true } } }) ∧
  (∀ (s : State) (sl : Slice) (c : Nat) (l : List W64) (m sig : W64), s.bist.run = some sl → sl.slice = 2 * c → sl.stopped = false → sl.saved.isSome = true →
    sliceDrained s sl = true → sl.restore = true → c < 512 → l.length = 1024 * 2 ^ sl.set →
    sig = misrCount (misrRun l) l.length → sig = Config.bistExpect sl.set → sl.slice = regBits s rBistStatus 63 54 →
    ∃ t, exec (.bistSliceEnd l m m) s = .next t ∧ t.bist.run = none ∧ regBits t rBistLast 63 62 = 1 ∧
      regBits t rBistLast 57 48 = sl.slice ∧ regGet t rBistSig = sig ∧ some (getCoach t c).cond = sl.saved ∧
      regBits t rBistStatus 63 54 = (sl.slice + 1) % 1024) ∧
  (∀ (s : State) (sl : Slice) (l : List W64) (x y : W64), s.bist.run = some sl → sliceDrained s sl = false →
    exec (.bistSliceEnd l x y) s = .next s) ∧
  (∀ (s : State) (sl : Slice) (l : List W64) (x y : W64), s.bist.run = some sl → sliceDrained s sl = true →
    sl.stopped = true ∨ (sl.slice % 2 = 0 ∧ l.length < 1024 * 2 ^ sl.set) →
    ∃ t, exec (.bistSliceEnd l x y) s = .next t ∧ t.bist.run = none ∧ regBits t rBistLast 63 62 = 3)

/-- Each beat edge raises the beat count by one, or corrects it by a pending step. R249, R250, R251, R254. DRUM_BEAT of a
running Drum: the count is one more, or with a step pending and no job running the corrected count; every edge is
counted, and the outputs' delays are those that DRUM_PIN_DLY holds. The first edge starts the Drum and leaves the
count. The beat's work of the main domain, and the datagrams that wait, in the order of their arrival, follow; while
the main domain is not up no memory or coach changes. The sign of the offset and the moment of a step are the model's
reading (log 87, DEDUCED). -/
def Obligations.DrumBeatAdvancesTheCount : Prop :=
  (∀ (s : State), s.stbyDom = .up → s.drum.running = true → s.drum.step = none →
    ∃ u, exec .drumBeat s = .next ((heldRoles (mainBeat u)).foldl serveHeld (mainBeat u)) ∧ u.drum.count = s.drum.count + 1 ∧
      u.drum.beats = s.drum.beats + 1 ∧ u.drum.pinDly = pinDelays s ∧ u.mem = s.mem ∧ u.coaches = s.coaches ∧ u.mainDom = s.mainDom ∧
      (s.mainDom ≠ .up → (heldRoles (mainBeat u)).foldl serveHeld (mainBeat u) = u)) ∧
  (∀ (s : State) (off : Int), s.stbyDom = .up → s.drum.running = true → s.drum.step = some off → s.host.job = none →
    ∃ u, exec .drumBeat s = .next ((heldRoles (mainBeat u)).foldl serveHeld (mainBeat u)) ∧ u.drum.step = none ∧ u.drum.stepMark = true ∧
      u.drum.beats = s.drum.beats + 1 ∧ u.drum.pinDly = pinDelays s ∧
      u.drum.count = BitVec.ofInt 64 ((s.drum.count.toNat + 1 : Nat) - (off * 8 / 5 + 320) / 640)) ∧
  (∀ (s : State), s.stbyDom = .up → s.drum.running = false →
    ∃ u, exec .drumBeat s = .next ((heldRoles (mainBeat u)).foldl serveHeld (mainBeat u)) ∧ u.drum.running = true ∧ u.drum.count = s.drum.count ∧
      u.drum.beats = s.drum.beats + 1 ∧ u.drum.pinDly = pinDelays s ∧ u.regs = s.regs ∧ u.mem = s.mem)

/-- Beat-sync and PTP exchanges set the Drum's offset and source. R252, R255, R256, R257, R258, R259. BEAT_SYNC of a good
flit on an enabled ACTIVE P port records its arrival at the present count and, with the echo of a flit the hub sent,
the offset of R258; one whose CRC fails is counted and dropped. PTP_SYNC, PTP_FOLLOW_UP and PTP_DELAY_RESP of the
selected master run the exchange of R256, hub times being the count times 400 ns, and PTP_ANNOUNCE selects a master
when there is none; DRUM_SOURCE_LOST with P0 followed and silent gives the next source and leaves a Drum that followed
it in HOLDOVER with no step pending, else it forgets the PTP master; DRUM_REPORT raises DRUM_FRAME of its port. The
rank that an Announce carries and the Delay_Resp that is ignored are the model's choice (log 20); the sign of the
offset is its reading (log 87, DEDUCED), and so is that the loss of a source enters HOLDOVER even when another is
chosen (log 136, DEDUCED). -/
def Obligations.DrumSources : Prop :=
  (∀ (s : State) (port seq echoSeq txCount txPhase rxCount rxPhase info phase : Nat) (header crc : W64) (rest : List Byte),
    let f := syncFlit port header seq echoSeq txCount txPhase rxCount rxPhase info rest crc
    8 ≤ port → port < 10 → portActive s port = true → flitKind f = 0xC → crcOk f = true →
    syncOk f = true → s.consist.cfg.drum.beatSync.getLsbD (port - 8) = true →
    ∃ t, exec (.beatSync port header seq echoSeq txCount txPhase rxCount rxPhase info rest crc phase) s = .next t ∧ t.mem = s.mem ∧ t.coaches = s.coaches ∧
      (let r := if port = 8 then t.drum.sync0 else t.drum.sync1
       let old := if port = 8 then s.drum.sync0 else s.drum.sync1
       r.rxSeq = field f.payload 0 2 ∧ r.rxCount = s.drum.count ∧ r.rxPhase = phase ∧ r.depth = field f.payload 0x1D 1 ∧
       r.last = s.drum.beats + 1 ∧ r.offset = ((syncOffset s old f.payload phase).map fun o => o * 5 / 8).getD old.offset)) ∧
  (∀ (s : State) (port seq echoSeq txCount txPhase rxCount rxPhase info phase : Nat) (header crc : W64) (rest : List Byte),
    let f := syncFlit port header seq echoSeq txCount txPhase rxCount rxPhase info rest crc
    8 ≤ port → port < 10 → portActive s port = true → flitKind f = 0xC → crcOk f = false →
    exec (.beatSync port header seq echoSeq txCount txPhase rxCount rxPhase info rest crc phase) s = .next (crcFailed s port 0xC)) ∧
  (∀ (s : State) (p : PtpIn) (m : Nat) (t1 : Int) (phase : Nat), ptpAccepts s p 319 = true → s.drum.ptp.master = some m →
    ∃ t, exec (.ptpSync p m false t1 phase) s = .next t ∧ t.drum.ptp.t1 = some t1 ∧ t.drum.ptp.t2 = some (timeNs s.drum.count phase) ∧
      t.outbox.length = s.outbox.length + 1 ∧ t.regs = s.regs ∧
    ∃ u, exec (.ptpSync p m true t1 phase) s = .next u ∧ u.drum.ptp.t1 = none ∧ u.drum.ptp.t2 = some (timeNs s.drum.count phase) ∧
      u.drum.ptp.needFollowUp = true ∧ u.outbox = s.outbox ∧ u.regs = s.regs) ∧
  (∀ (s : State) (p : PtpIn) (m : Nat) (t1 : Int), ptpAccepts s p 320 = true → s.drum.ptp.master = some m →
    s.drum.ptp.needFollowUp = true →
    ∃ t, exec (.ptpFollowUp p m t1) s = .next t ∧ t.drum.ptp.t1 = some t1 ∧ t.drum.ptp.t2 = s.drum.ptp.t2 ∧
      t.drum.ptp.needFollowUp = false ∧ t.outbox.length = s.outbox.length + 1) ∧
  (∀ (s : State) (p : PtpIn) (m : Nat) (t1 t2 t3 t4 : Int), ptpAccepts s p 320 = true → s.drum.ptp.master = some m →
    s.drum.ptp.t1 = some t1 → s.drum.ptp.t2 = some t2 → s.drum.ptp.t3 = some t3 →
    exec (.ptpDelayResp p m false t4) s = .next s ∧
    ∃ t, exec (.ptpDelayResp p m true t4) s = .next t ∧ t.drum.ptp.t1 = none ∧ t.drum.ptp.t2 = none ∧ t.drum.ptp.t3 = none ∧
      regBits t rPtp 31 0 = satSigned 32 (linkOffset t1 t2 t3 t4) ∧ regBits t rPtp 63 56 = 9) ∧
  (∀ (s : State) (p : PtpIn) (m rank : Nat), ptpAccepts s p 320 = true → s.drum.ptp.master = none →
    ∃ t, exec (.ptpAnnounce p m rank) s = .next t ∧ t.drum.ptp.master = some m ∧
      t.drum.ptp.priority = rank ∧ regBits t rPtp 63 56 = 7) ∧
  (∀ (s : State), s.drum.ptp.master.isSome = true → drumSource s ≠ 2 ∨ (p0Receiving s && portActive s 8) = true →
    ∃ t, exec .drumSourceLost s = .next t ∧ t.drum.ptp = Ptp.init ∧ regBits t rPtp 63 56 = 4) ∧
  (∀ (s : State), drumSource s = 2 → (p0Receiving s && portActive s 8) = false →
    ∃ t, exec .drumSourceLost s = .next t ∧ drumSource t = (if s.drum.ptp.master.isSome then 1 else 0) ∧ t.drum.step = none ∧
      (drumState s = 1 ∨ drumState s = 2 → drumState t = 3) ∧ t.mem = s.mem) ∧
  (∀ (s u : State) (c : Ctl), takeCtl s c 0x40 (fromPartner c) = (u, true) →
    exec (.drumReport c) s = .next (raise u (srcPort c.port) 0x10 1 (field c.msg 8 6)))

/-- The hub cap loop, operating points, droop counts and slope grants. R418, R419, R420, R422, R423, R424, R425, R429.
HUB_CAP_PERIOD gives the bubble level and the measured power; OP_EVALUATION begins a step to a slower point when the
cap asks for it and sets UNATTAINABLE at the slowest point; OP_STEP_COMPLETE makes the step, after which the rails
carry the voltages of the new point; DROOP_DETECT adds to two saturating counters and nothing else; SLOPE_REQUEST is
granted exactly when the conditions of R429 hold. That MODULE_W is rounded down from milliwatts (log 81, DESIGN
CHOICE) and the order of clock and voltage in a step (log 142, DEDUCED) are the model's. -/
def Obligations.HubPowerLoop : Prop :=
  (∀ (s : State) (core : Nat) (share : List Nat) (cycles : Nat), s.mainDom = .up →
    ∃ t, exec (.hubCapPeriod core share cycles) s = .next t ∧ t.power.meas = measure s core ∧
      regBits t rPcapStatus 59 54 = (if capUnattainable s then 48
        else bubbleStep (bubbles s) (measure s core) (capMw s) (capLoop s 63 56) (capLoop s 55 48)) ∧
      regBits t rPcapPower 63 48 = min 0xFFFF (measure s core / 1000) ∧
      { t with regs := s.regs, power := s.power } = s) ∧
  (∀ (s : State), s.mainDom = .up → s.drum.count.toNat % 25000 = 0 → s.power.step = none →
    (opPoint s < capLoop s 31 28 ∨ (0 < s.power.winN ∧ capLoop s 47 40 * s.power.winN ≤ s.power.winB ∧ opPoint s ≠ 5)) →
    ∃ t, exec .opEvaluation s = .next t ∧ t.power.step = some (opPoint s + 1) ∧ t.power.winN = 0 ∧
      { t with regs := s.regs, power := s.power } = s) ∧
  (∀ (s : State), s.mainDom = .up → s.drum.count.toNat % 25000 = 0 → s.power.step = none → opPoint s = 5 → capLoop s 31 28 ≤ 5 →
    s.power.winB ≠ 0 → 0 < s.power.winN → s.power.winMax = s.power.winN → capUnattainable s = false →
    ∃ t, exec .opEvaluation s = .next t ∧ regBits t rPcapStatus 53 53 = 1 ∧ t.power.step = none) ∧
  (∀ (s : State) (n : Nat), s.mainDom = .up → s.power.step = some n → n < 16 →
    ∃ t, exec .opStepComplete s = .next t ∧ opPoint t = n ∧ bubbles t = 0 ∧ t.power.step = none ∧ t.power.winN = 0 ∧ t.power.volt = n ∧
      t.outbox = s.outbox ++ (if s.power.volt = n then [] else [⟨.pmbus, [64, 4, n, regBits s rTrim 63 59], []⟩]) ∧
      (∀ a, a ≠ rPcapStatus → regGet t a = regGet s a)) ∧
  (∀ (s : State) (d c : Nat), s.mainDom = .up → 1 ≤ d → d ≤ 64 →
    ∃ t, exec (.droopDetect d c) s = .next t ∧
      regBits t rDroop 31 0 = min (2 ^ 32 - 1) (regBits s rDroop 31 0 + d) ∧
      regBits t rDroop 63 32 = min (2 ^ 32 - 1) (regBits s rDroop 63 32 + c) ∧
      (∀ a, a ≠ rDroop → regGet t a = regGet s a) ∧ { t with regs := s.regs } = s) ∧
  (∀ (s : State) (n phase : Nat), n < 8 → phase < 40 →
    let missing := kget 0 s.power.bucket n - phase * bucketGain s n
    (slopeOk s n missing = true →
      ∃ t, exec (.slopeRequest n phase) s = .next t ∧ t.outbox = s.outbox ++ [⟨.pin, [8 + n, 1], []⟩] ∧
        kget 0 t.power.granted n = kget 0 s.power.granted n + stepW s ∧
        (∀ a, a ≠ rThr n → regGet t a = regGet s a) ∧
        { t with regs := s.regs, power := s.power, outbox := s.outbox } = s) ∧
    (slopeOk s n missing = false → exec (.slopeRequest n phase) s = .next s))

/-- Tray scans, temperatures, rail polls, leak samples, emergencies and ageing. R418, R419, R431, R434, R435, R505.
TRAY_SCAN keeps P_in and P_core and starts the grants anew; TEMP_SWEEP keeps the hottest sensor and, from 100 degrees
on, enters the hub-junction emergency; RAIL_STATUS_POLL of a faulty rail and LEAK_SAMPLE enter their emergencies;
EMERGENCY_CLEAR leaves one; AGEING_TRIM counts the measurement and steps the trim, in use from the next beat edge,
which G5 must be running to keep in the authenticated region; that no step is taken while it does not run or there is
no such region is the model's choice (log 114). -/
def Obligations.TrayAndTemperatures : Prop :=
  (∀ (s : State) (pin core : Nat) (slots : List (Nat × Nat)), s.mainDom = .up →
    ∃ t, exec (.trayScan pin core slots) s = .next t ∧ t.power.pIn = pin ∧ t.power.coreScan = core ∧ t.power.granted = [] ∧
      (s.power.hotSince = false → t.mem = s.mem ∧ t.outbox = s.outbox ∧ t.belfry = s.belfry ∧ t.coaches = s.coaches)) ∧
  (∀ (s : State) (rakes : List Nat), rakes.length = 16 → (∀ x ∈ rakes, x ≤ 255) → s.mainDom = .up → rakes.foldl max 0 < 100 →
    ∃ t, exec (.tempSweep rakes) s = .next t ∧ t.power.hot = rakes.foldl max 0 ∧ t.power.hotSweeps = 0 ∧ t.power.hotSince = false ∧
      regBits t rPcapPower 47 40 = rakes.foldl max 0 ∧ { t with regs := s.regs, power := s.power } = s) ∧
  (∀ (s : State) (rakes : List Nat), rakes.length = 16 → s.mainDom = .up → 100 ≤ rakes.foldl max 0 → rakes.foldl max 0 < 110 →
    (∀ x ∈ rakes, x ≤ 255) → ∃ t, exec (.tempSweep rakes) s = .next t ∧ 0 ∈ t.power.emerg ∧ t.power.hotSince = true) ∧
  (∀ (s : State) (slot status mv : Nat), slot < 64 → slotUsed s slot = true → slotMon s slot = 2 →
    ∃ t, exec (.railStatusPoll slot status mv) s = .next t ∧ kget 0 t.peal.mv slot = mv + 1 ∧
      (if nbit status 15 || nbit status 14 || nbit status 13 || nbit status 2 then slot ∈ t.power.railBad ∧ 0x40 + slot ∈ t.power.emerg
       else slot ∉ t.power.railBad ∧ { t with peal := s.peal, power := s.power } = s)) ∧
  (∀ (s : State) (slot status mv : Nat), slot < 64 → slotUsed s slot = true → slotMon s slot = 1 →
    ∃ t, exec (.railStatusPoll slot status mv) s = .next t ∧ kget 0 t.peal.mv slot = mv + 1 ∧ { t with peal := s.peal } = s) ∧
  (∀ (s : State) (input mv : Nat), input < 8 → mv ≤ 3300 → 2 * mv < leakMv s input →
    ∃ t, exec (.leakSample input mv) s = .next t ∧
      regBits t (rLeakRead (input / 4)) (16 * (input % 4) + 15) (16 * (input % 4)) = mv ∧
      kget 0 t.power.leakWarn input = 0 ∧ kget 0 t.power.leakTrip input = 0 ∧
      (∀ a, a ≠ rLeakRead (input / 4) → regGet t a = regGet s a) ∧ { t with regs := s.regs, power := s.power } = s) ∧
  (∀ (s : State) (input mv : Nat), input < 8 → mv ≤ 3300 → leakMv s input ≤ 2 * mv → mv < leakMv s input →
    9 ≤ kget 0 s.power.leakWarn input → ∃ t, exec (.leakSample input mv) s = .next t ∧ 2 ∈ t.power.emerg) ∧
  (∀ (s : State) (code : Nat), code ∈ s.power.emerg → emergClear s code = true →
    ∃ t, exec (.emergencyClear code) s = .next t ∧ code ∉ t.power.emerg ∧ t.coaches = s.coaches ∧ t.peal = s.peal) ∧
  (∀ (s : State) (slack : Int), s.mainDom = .up → guardRuns s 4 = true →
    (∃ t, exec (.ageingTrim slack false) s = .next t ∧ regBits t rTrim 31 0 = (regBits s rTrim 31 0 + 1) % 2 ^ 32 ∧
      regBits t rTrim 47 32 = satSigned 16 slack ∧ (∀ a, a ≠ rTrim → regGet t a = regGet s a) ∧ t.power.trimmed = true ∧ { t with regs := s.regs, power := s.power } = s) ∧
    (s.power.trimSteps < 20 → guardRuns s 5 = true → s.trust.puf = true → ∃ t, exec (.ageingTrim slack true) s = .next t ∧ t.power.trimSteps = s.power.trimSteps + 1 ∧
      regBits t rTrim 63 59 = regBits s rTrim 63 59 ∧ regBits (applyTrim t) rTrim 63 59 = s.power.trimSteps + 1 ∧
      regBits t rPcapLoop 31 28 = regBits s rPcapLoop 31 28) ∧
    (s.power.trimSteps < 20 → guardRuns s 5 = false ∨ s.trust.puf = false → exec (.ageingTrim slack true) s = exec (.ageingTrim slack false) s) ∧
    (20 ≤ s.power.trimSteps → ∃ t, exec (.ageingTrim slack true) s = .next t ∧
      regBits t rPcapLoop 31 28 = min 5 (capLoop s 31 28 + 1) ∧ regBits t rTrim 58 58 = 1))

/-- Trips take the main domain down; outputs follow the states of Table 15.5. R437, R438, R439, R440, R442, R443, R444.
FLOW_OK_LOW trips once and leaves the main domain unpowered; TRIP_CLEAR ends the flow, leak or thermal trip;
COOLING_UPDATE turns an unused output off, drives a lost one in full and puts one that comes into use while a trip
stands into TRIP; while the standby image runs, pulses, time-outs, stalls and kicks move an output between SPINUP,
RUN, STALLED and TACH_LOST. -/
def Obligations.TripsAndCooling : Prop :=
  (∀ (s : State), regBits s rTrip 63 63 = 0 → ∃ t, exec .flowOkLow s = .next t ∧ t.mainDom = .off) ∧
  (∀ (s : State), regBits s rTrip 63 63 = 1 → exec .flowOkLow s = .next (regPut s rPins 63 63 0)) ∧
  (∀ (s : State), regBits s rTrip 63 63 = 1 → ∃ t, exec (.tripClear 0) s = .next t ∧ regBits t rTrip 63 63 = 0 ∧
      regBits t rPins 63 63 = 1 ∧ t.mem = s.mem ∧ t.peal = s.peal ∧ t.mainDom = s.mainDom) ∧
  (∀ (s : State), regBits s rTrip 62 62 = 1 → s.power.leakWarn = [] → s.power.offLeak = true →
    ∃ t, exec (.tripClear 1) s = .next t ∧ regBits t rTrip 62 62 = 0 ∧ regBits t rTrip 55 48 = 0 ∧ t.peal = s.peal) ∧
  (∀ (s : State), regBits s rTrip 61 61 = 1 → s.power.third = false ∨ s.power.offTherm = true →
    ∃ t, exec (.tripClear 2) s = .next t ∧ regBits t rTrip 61 61 = 0 ∧ t.peal = s.peal) ∧
  (∀ (s : State), s.board.stbyBoot = true → ∃ t, exec .coolingUpdate s = .next t ∧ { t with regs := s.regs, power := s.power } = s ∧
    ∀ k, k < 12 → (coolRole s k = 0 → coolState t k = 0 ∧ coolDuty t k = 0) ∧
      (coolRole s k ≠ 0 → coolState s k = 4 → coolState t k = 4 ∧ coolDuty t k = 100) ∧
      (coolRole s k ≠ 0 → coolState s k = 0 → tripStands s = true → coolState t k = 5 ∧ coolDuty t k = tripDuty s (coolRole s k))) ∧
  (∀ (s : State) (k period : Nat) (steady : Bool), k < 12 → s.board.stbyBoot = true → coolRole s k ≠ 0 → period ≠ 0 →
    coolState s k = 2 ∨ (coolState s k = 4 ∧ steady = true) →
    ∃ t, exec (.fanPulseSeen k period steady) s = .next t ∧ coolState t k = 1 ∧
      regBits t (rCoolStatus k) 31 16 = min 0xFFFF (30000000 / period) ∧ (∀ a, a ≠ rCoolStatus k → regGet t a = regGet s a)) ∧
  (∀ (s : State) (k : Nat), k < 12 → s.board.stbyBoot = true → coolState s k = 2 → coolRole s k ≠ 0 → coolRole s k ≠ 3 →
    ∃ t, exec (.fanSpinupTimeout k) s = .next t ∧ coolState t k = 3 ∧ coolDuty t k = 0) ∧
  (∀ (s : State) (k : Nat), k < 12 → s.board.stbyBoot = true → coolState s k = 1 → 10 ≤ coolDuty s k → coolRole s k = 3 →
    ∃ t, exec (.fanStallDetect k) s = .next t ∧ 3 ∈ t.power.emerg) ∧
  (∀ (s : State) (k : Nat), k < 12 → s.board.stbyBoot = true → coolState s k = 3 → k ∉ s.power.kicking →
    ∃ t, exec (.fanKickStart k) s = .next t ∧ coolDuty t k = 100 ∧ k ∈ t.power.kicking ∧
      (∀ a, a ≠ rCoolStatus k → regGet t a = regGet s a)) ∧
  (∀ (s : State) (k : Nat), k < 12 → s.board.stbyBoot = true → coolState s k = 3 → k ∈ s.power.kicking →
    ∃ t, exec (.fanKickEnd k) s = .next t ∧ k ∉ t.power.kicking ∧
      (if 3 ≤ regBits s (rCoolStatus k) 59 56 + 1 then coolState t k = 4 ∧ coolDuty t k = 100
       else coolState t k = 3 ∧ coolDuty t k = if coolRole s k = 3 then 100 else 0))

/-- The words of a Peal program, in an upper and a lower run. R403, R404, R405, R409, R410, R411, R412. At the current
word of a run that is not stopped: END of an upper run is ON, of a lower run to OFF is OFF; EN and CHK go on when what
they wait for is good, else wait; DIS deasserts the enable, the slot being good until its first sample that is not,
and waits for the discharge; what follows an enable or the end of an upper run for PARTNERS and the main domain is
`slotsChanged`; WAIT and STAGGER wait; JMP and JFAIL go where they say; the end of a wait goes on with the next word.
The model's own: when GOOD of a slot clears (log 83, DEDUCED), a PC that wraps and words past the last read as END
(log 99, DESIGN CHOICE). -/
def Obligations.PealWords : Prop :=
  (∀ (s : State) (r : PealRun) (w : Nat), currentWord s 0 = some (r, w) →
    (r.mode = 0 → nbit w 0 = false → r.stop = false →
      ∃ u, exec .pealEnd s = .next (slotsChanged u u.trust.damaged) ∧ pealState u = 2 ∧ u.peal.run = none ∧ u.mem = s.mem) ∧
    (r.mode ≠ 0 → s.peal.next = .off → ∃ t, exec .pealEnd s = .next t ∧ pealState t = 0 ∧ t.peal.run = none)) ∧
  (∀ (s : State) (r : PealRun) (w : Nat), currentWord s 1 = some (r, w) → mayGoOn r = true →
    let k := nbits w 27 22
    let x := PealWait.en k (nbits w 21 18)
    (r.mode ≠ 0 ∨ slotSkipped s k = true → ∃ t, exec .pealEn s = .next t ∧ goesOn s t r (pealPc s + 1)) ∧
    (r.mode = 0 → slotSkipped s k = false → waitOver s x = true →
      ∃ u, exec .pealEn s = .next (nextWord (slotsChanged u u.trust.damaged)) ∧ u.peal.run = some r ∧ pealPc u = pealPc s ∧
        slotEnabled u k = true ∧ u.mem = s.mem) ∧
    (r.mode = 0 → slotSkipped s k = false → waitOver s x = false → exec .pealEn s = .next (putRun s { r with wait := some x }))) ∧
  (∀ (s : State) (r : PealRun) (w : Nat), currentWord s 2 = some (r, w) → mayGoOn r = true →
    let k := nbits w 27 22
    (slotSkipped s k = true → ∃ t, exec .pealDis s = .next t ∧ goesOn s t r (pealPc s + 1)) ∧
    (slotSkipped s k = false → nbit w 21 = false →
      ∃ t, exec .pealDis s = .next t ∧ t.peal.run = some { r with wait := some (.discharge k) } ∧
        (r.mode ≠ 2 → 32 ≤ k → slotOwner s k = 0x20 → slotEnabled t k = false ∧ slotGood t k = slotGood s k ∧ slotRunning t k = false))) ∧
  (∀ (s : State) (r : PealRun) (w : Nat), currentWord s 3 = some (r, w) → mayGoOn r = true →
    (r.mode = 2 → ∃ t, exec .pealWait s = .next t ∧ goesOn s t r (pealPc s + 1)) ∧
    (r.mode ≠ 2 → exec .pealWait s = .next (putRun s { r with wait := some .time }))) ∧
  (∀ (s : State) (r : PealRun) (w : Nat), currentWord s 4 = some (r, w) → mayGoOn r = true →
    let x := PealWait.chk (nbits w 27 22) (nbits w 21 18)
    (r.mode ≠ 0 ∨ waitOver s x = true → ∃ t, exec .pealChk s = .next t ∧ goesOn s t r (pealPc s + 1)) ∧
    (r.mode = 0 → waitOver s x = false → exec .pealChk s = .next (putRun s { r with wait := some x }))) ∧
  (∀ (s : State) (r : PealRun) (w : Nat), currentWord s 5 = some (r, w) → mayGoOn r = true →
    ∃ t, exec .pealJmp s = .next t ∧ goesOn s t r (nbits w 8 0)) ∧
  (∀ (s : State) (r : PealRun) (w : Nat), currentWord s 6 = some (r, w) → mayGoOn r = true →
    ∃ t, exec .pealJfail s = .next t ∧
      if r.mode = 0 ∧ r.fail = true then goesOn s t { r with fail := false } (nbits w 8 0) else goesOn s t r (pealPc s + 1)) ∧
  (∀ (s : State) (r : PealRun) (w : Nat), currentWord s 7 = some (r, w) → mayGoOn r = true →
    ∃ t, exec .pealStagger s = .next t ∧
      if r.mode = 0 ∧ r.stagger = true then t = putRun s { r with wait := some .stagger }
      else goesOn s t (if r.mode = 0 then { r with stagger := true } else r) (pealPc s + 1)) ∧
  (∀ (s : State) (r : PealRun), s.peal.run = some r → mayGoOn r = true →
    (r.wait = some .time ∨ r.wait = some .stagger → ∃ t, exec .pealWaitExpiry s = .next t ∧ goesOn s t r (pealPc s + 1)) ∧
    (∀ k, r.mode = 0 → r.wait = some (.discharge k) →
      ∃ t, exec .dischargeTimeout s = .next t ∧ goesOn s t r (pealPc s + 1)) ∧
    (∀ k mv, k < 64 → r.wait = some (.discharge k) → slotMon s k = 0 ∨ 10 * mv < slotMv s k →
      ∃ u, exec (.dischargeDone k mv) s = .next (nextWord u) ∧ u.peal.run = some r ∧ pealPc u = pealPc s ∧ slotGood u k = false ∧
        (32 ≤ k → slotOwner s k = 0x20 → u.mem = s.mem)))

/-- Runs, time-outs, rail faults and program loads of the Peal. R370, R401, R402, R404, R406, R407, R409, R410, R411,
R413. An upper run starts in OFF, HOLD or RETRY_WAIT when R409 allows, and the main domain is released then and there
where every MOD slot is good already; the END of a lower run that a failed attempt brought leads to LOCKED_OUT after
the last attempt, else to RETRY_WAIT, or to OFF where the sequencer sees the power order off; a time-out goes on to a
JFAIL word, else starts a lower run after which the attempt is repeated; a rail fault starts a fault run, and a slot
that was good without running is so no longer; a good slot shows in PSEQ_GOOD; a load, which G5 checks and writes, is
refused with its reason or put into a copy. The model's own: when GOOD of a slot clears (log 83, DEDUCED), the image
read wherever ADDR points (log 99, DESIGN CHOICE) and what a load does while G5 does not run (log 114, DESIGN CHOICE). -/
def Obligations.PealRuns : Prop :=
  (∀ (s : State), upperMay s = true →
    (pealState s = 0 ∨ pealState s = 7 →
      ∃ u, exec .pealUpperRunStart s = .next (releaseMain u u.trust.damaged false) ∧ upperBegins s u) ∧
    (pealState s = 5 → ∃ u, exec .retryWaitExpiry s = .next (releaseMain u u.trust.damaged false) ∧ upperBegins s u)) ∧
  (∀ (s : State) (r : PealRun) (w : Nat), currentWord s 0 = some (r, w) → r.mode ≠ 0 → s.peal.next = .retry →
    ∃ t, exec .pealEnd s = .next t ∧ t.peal.run = none ∧
      pealState t = (if s.peal.eff.ref.retries < s.peal.failed then 6 else if seqOn s then 5 else 0)) ∧
  (∀ (s : State), pealState s = 2 → ∃ t, exec .attemptCountReset s = .next t ∧ t.peal.failed = 0 ∧ regBits t rPseq 57 54 = 0 ∧
    (∀ a, a ≠ rPseq → regGet t a = regGet s a)) ∧
  (∀ (s : State) (l : List (Nat × Nat)) (r : PealRun) (w : PealWait) (k : Nat) (ks : List Nat), s.peal.run = some r → r.wait = some w →
    (∃ j d, w = .en j d ∨ w = .chk j d) → (waitSlots s w).filter (fun k => !slotSatisfied s k) = k :: ks →
    (nbits (progWord s (pealPc s + 1)) 31 28 = 6 → mayGoOn r = true →
      ∃ t, exec (.pealStepTimeout l) s = .next t ∧ pealPc t = (pealPc s + 1) % 512 ∧
        ∃ q, t.peal.run = some q ∧ q.fail = true ∧ q.wait = none ∧ q.first.isSome = true) ∧
    (nbits (progWord s (pealPc s + 1)) 31 28 ≠ 6 → r.stop = false →
      ∃ t, exec (.pealStepTimeout l) s = .next t ∧ pealState t = 3 ∧ t.peal.next = .retry ∧ ∃ q, t.peal.run = some q ∧ q.mode = 1)) ∧
  (∀ (s : State) (slot : Nat), slot < 64 → slotRunning s slot = true → pealState s = 1 ∨ pealState s = 2 →
    ∃ t, exec (.pealRailFault slot) s = .next t ∧ pealState t = 4 ∧ t.peal.next = .retry ∧ ∃ q, t.peal.run = some q ∧ q.mode = 2) ∧
  (∀ (s : State) (slot : Nat), slot < 64 → slotRunning s slot = false → slotGood s slot = true →
    ∃ t, exec (.pealRailFault slot) s = .next t ∧ slotGood t slot = false) ∧
  (∀ (s : State) (slot : Nat) (r : PealRun), 32 ≤ slot → slot < 64 → slotOwner s slot = 0x20 → s.peal.run = some r → r.mode ≠ 0 →
    slotRunning s slot = true → ∃ t, exec (.railLostDown slot) s = .next t ∧ slotGood t slot = false ∧ slotRunning t slot = false ∧
      regBits t rPseqFirst 63 63 = 1 ∧ t.mem = s.mem) ∧
  (∀ (s : State) (slot chatter : Nat) (bad : List Nat), slot < 64 → pealState s ≠ 1 → pealState s ≠ 2 → (∀ r, s.peal.run = some r → r.wait = none) →
    ∃ t, exec (.powerGoodQualified slot chatter bad) s = .next t ∧ slotGood t slot = true ∧
      (slotEnabled s slot = true → slotRunning t slot = true) ∧ t.mainDom = s.mainDom ∧ t.mem = s.mem) ∧
  (∀ (s : State) (slot chatter : Nat) (bad : List Nat), slot < 64 →
    ∃ u, exec (.powerGoodQualified slot chatter bad) s = .next (resumeRun (slotsChanged u bad)) ∧ slotGood u slot = true ∧
      (slotEnabled s slot = true → slotRunning u slot = true) ∧ pealState u = pealState s ∧ u.mainDom = s.mainDom ∧ u.mem = s.mem) ∧
  (∀ (s : State) (v : W64), s.mainDom = .up → regBits s rPseqLoad 63 63 = 0 → guardRuns s 5 = false →
    exec (.pseqLoadGo v) s = .next (regPut s rPseqLoad 47 12 (bits v 47 12))) ∧
  (∀ (s : State) (v : W64), s.mainDom = .up → regBits s rPseqLoad 63 63 = 0 → guardRuns s 5 = true →
    let a := bits v 47 12 * 4096
    let img := memBytes s a (pealLength (memBytes s a 256))
    (∀ r, r < 256 → pealCheck s (pealRecord s).ref.digest img = some r →
      ∃ t, exec (.pseqLoadGo v) s = .next t ∧ regBits t rPseqLoad 62 60 = 3 ∧ regBits t rPseqLoad 55 48 = r ∧ t.peal = s.peal) ∧
    (pealCheck s (pealRecord s).ref.digest img = none →
      ∃ t, exec (.pseqLoadGo v) s = .next t ∧ regBits t rPseqLoad 63 60 = 9 ∧ t.peal.loading = some img ∧ t.mem = s.mem)) ∧
  (∀ (s : State) (img : List Byte), s.peal.loading = some img → guardRuns s 5 = true →
    ∃ t, exec .pealLoadComplete s = .next t ∧ t.peal.loading = none ∧ regBits t rPseqLoad 63 60 = 2 ∧
      (t.peal.copyA = img ∧ t.peal.copyB = s.peal.copyB ∨ t.peal.copyB = img ∧ t.peal.copyA = s.peal.copyA) ∧
      (pealState s = 6 → pealState t = 0 ∧ t.peal.failed = 0))

/-- Writes, reads, ring messages and job aborts of a partner. R303, R304, R305, R306, R307, R308. A WRITE whose units the
partner may reach stores exactly those units and nothing else; one whose units it may not reach leaves memory as it
was; a READ_REQ of reachable units is answered by READ_DATA flits; RING_SUB of a partner that holds the credits puts
its descriptors into the ring, raises the producer index and takes the credits, and without them is a protocol error;
RING_FREE sets the consumer index; JOB_ABORT of a partner raises a fault, of a neighbour hub ends the job;
JOB_ABORT_ACK is taken. That JOB_ABORT of a partner is CPL_PARTNER_ABORT whatever its REASON is the model's reading
(log 64, DEDUCED). -/
def Obligations.PartnerRequestsOverThePort : Prop :=
  (∀ (s u : State) (f : Flit), f.port < 8 → f.payload.length = 240 → nbits (flitHdr f) 51 0 = 0 → gapZero f 8 48 = true →
    (∀ i, i < 3 → nbit (nbits (flitHdr f) 57 55) i = false →
      nbit (nbits (flitHdr f) 54 52) i = false ∧ gapZero f (48 + 64 * i) (112 + 64 * i) = true) →
    takeFlit s f 1 0 true = (u, true) →
    let a := field f.payload 0 8
    let on := fun (i : Nat) => nbit (nbits (flitHdr f) 57 55) i
    ((∀ i, i < 3 → on i = true → partnerMay s f.port (a + 64 * i) true = true) →
      ∃ t, exec (.write f) s = .next t ∧ { t with mem := u.mem, poison := u.poison } = u ∧
        ∀ x, memByte t x = if a ≤ x ∧ x < a + 192 ∧ on ((x - a) / 64) = true then lget 0 f.payload (48 + (x - a)) else memByte s x) ∧
    ((∀ i, i < 3 → on i = true → partnerMay s f.port (a + 64 * i) true = false) →
      ∃ t, exec (.write f) s = .next t ∧ t.mem = s.mem ∧ t.poison = s.poison)) ∧
  (∀ (s u : State) (f : Flit), f.port < 8 → nbits (flitHdr f) 39 0 = 0 → zeroFrom f.payload 8 = true → takeFlit s f 2 0 true = (u, true) →
    tagBusy u f.port (nbits (flitHdr f) 57 46) = false →
    let units := (rangeFrom 0 (nbits (flitHdr f) 45 40 + 1)).map fun i => field f.payload 0 8 + 64 * i
    (∀ x ∈ units, (readUnit u f.port x).isSome = true) →
    ∃ t, exec (.readReq f) s = .next t ∧ t = sendRead u f.port (nbits (flitHdr f) 57 46) 0 (units.filterMap fun x => readUnit u f.port x) ∧
      t.mem = s.mem) ∧
  (∀ (s u : State) (f : Flit), f.port < 8 → f.payload.length = 240 → nbits (flitHdr f) 51 0 = 0 →
    let n := nbits (flitHdr f) 53 52
    let q := partnerRing f.port (nbits (flitHdr f) 57 54)
    1 ≤ n → zeroFrom f.payload (64 * n) = true → takeFlit s f 4 0 true = (u, true) → nbits (flitHdr f) 57 54 % 2 = 0 →
    ringEnabled s q = true →
    (kget 0 s.host.subCredit q < n → ∃ t, exec (.ringSub f) s = .next t ∧ detects u t f.port (getLink u f.port)) ∧
    (n ≤ kget 0 s.host.subCredit q → n ≤ ringDepth s q →
    ∃ t, exec (.ringSub f) s = .next t ∧ getProd t q = getProd s q + BitVec.ofNat 32 n ∧
      (∀ r, r ≠ q → getProd t r = getProd s r) ∧ kget 0 t.host.subCredit q = kget 0 s.host.subCredit q - n ∧
      ∀ i, i < n → memBytes t (ringBase s q + 64 * ((getProd s q + BitVec.ofNat 32 i).toNat % ringDepth s q)) 64 =
        (f.payload.drop (64 * i)).take 64)) ∧
  (∀ (s u : State) (c : Ctl), takeCtl s c 0x21 (fromPartner c) = (u, true) →
    let q := partnerRing c.port (field c.msg 1 1)
    let i := BitVec.ofNat 32 (field c.msg 4 4)
    field c.msg 1 1 < 16 → field c.msg 1 1 % 2 = 1 → ringEnabled u q = true → (i - getCons u q).toNat ≤ ringFill u q →
    ∃ t, exec (.ringFree c) s = .next t ∧ getCons t q = i) ∧
  (∀ (s u : State) (c : Ctl), takeCtl s c 0x01 (fromPartner c || fromHub c) = (u, true) →
    (c.port < 8 → exec (.jobAbort c) s = .next (raise u (srcPort c.port) 0x19 2 0)) ∧
    (8 ≤ c.port → ∃ t, exec (.jobAbort c) s = .next t ∧ t.host.job = none)) ∧
  (∀ (s u : State) (c : Ctl), takeCtl s c 0x02 (fromPartner c) = (u, true) → exec (.jobAbortAck c) s = .next u)

/-- The side-band of a partner: its watch, its address, its reset and fault pins. R310, R311, R485, R486, R490, R491,
R492. Polls of an open watch read the link state and keep what they read; a port that is ACTIVE while the far end is
not is read again, and a second such read declares it down; interrupts are answered by a read of the link state, and
of what they name, or NACKed; the watch closes when the target is lost and opens when it takes its address; resets are
released, none in recovery or while the hub shows NO_CONSIST, and asserted; and an asserted fault pin shows in its
register. That PART_ID is read with the firmware registers is the model's reading (log 90, DEDUCED). -/
def Obligations.SideBand : Prop :=
  (∀ (s : State) (n state : Nat), n < 8 → watchOpen s n = true → state < 16 →
    (∃ t, exec (.linkStatePoll n ⟨state, false⟩) s = .next t ∧ regBits t (rSidePart n) 47 44 = state ∧
      (∀ a, a ≠ rSidePart n → regGet t a = regGet s a) ∧ t.outbox = s.outbox ++ [⟨.i3c, [n, 0, 0, 0], []⟩] ∧
      { t with regs := s.regs, board := s.board, outbox := s.outbox } = s ∧
      (portActive s n = true → state ≠ 6 → resetReleased s n = true → n ∈ t.board.linkBad) ∧
      (portActive s n = false ∨ state = 6 ∨ resetReleased s n = false → t.board = s.board)) ∧
    (n ∈ s.board.linkBad → ∃ t, exec (.linkStatePoll n ⟨state, true⟩) s = .next t ∧ regBits t (rSidePart n) 47 44 = state ∧ n ∉ t.board.linkBad ∧
      (portActive s n = true → state ≠ 6 → resetReleased s n = true → detects s t n (getLink s n)) ∧
      (portActive s n = false ∨ state = 6 ∨ resetReleased s n = false → t.ports = s.ports ∧ t.mem = s.mem))) ∧
  (∀ (s : State) (n : Nat), n < 8 →
    (watchOpen s n = false → ∀ d state, exec (.inBandInterrupt n ⟨d, state⟩) s = .next (emit s .i3c [n, 6])) ∧
    (watchOpen s n = true → ∀ d state, ∃ u, exec (.linkStatePoll n ⟨state, false⟩) s = .next u ∧
      exec (.inBandInterrupt n ⟨d, state⟩) s =
        .next (if d = 2 then emit (emit u .i3c [n, 0, 0x18, 0]) .i3c [n, 0, 0x19, 0] else u))) ∧
  (∀ (s : State) (n temp st ver part : Nat), n < 8 → watchOpen s n = true → temp < 256 → st < 256 → nbit (regBits s rPseq 47 40) n = false →
    ∃ t, exec (.partnerWatchPoll n temp (some (st, ver, part))) s = .next t ∧ regBits t (rSidePart n) 39 32 = temp ∧
      regBits t (rSidePart n) 31 24 = st ∧ regBits t (rSideFw n) 31 0 = ver % 2 ^ 32 ∧ regBits t (rSideFw n) 63 32 = part % 2 ^ 32 ∧
      { t with regs := s.regs, board := s.board } = s) ∧
  (∀ (s : State) (n : Nat), n < 8 → watchOpen s n = true →
    ∃ t, exec (.sideNoresp n) s = .next t ∧ regBits t (rSidePart n) 63 60 = 3 ∧ regBits t (rSidePart n) 59 53 = 0 ∧
      t.outbox = s.outbox ++ [⟨.i3c, [n, 3, regBits s (rSidePart n) 59 53], []⟩] ∧
      regBits t (rSidePart n) 15 0 = min (2 ^ 16 - 1) (regBits s (rSidePart n) 15 0 + 1)) ∧
  (∀ (s : State) (n : Nat), n < 8 → resetReleased s n = true → watchOpen s n = false → i3cAddrOf s n < 128 →
    ∃ t, exec (.i3cAddressAssign n true) s = .next t ∧ watchOpen t n = true ∧ regBits t (rSidePart n) 59 53 = i3cAddrOf s n) ∧
  (∀ (s : State) (n : Nat), n < 8 → resetReleased s n = true → watchOpen s n = false → i3cState s n = 3 ∨ n ∈ s.board.daaSent →
    exec (.i3cAddressAssign n false) s = .next (emit s .i3c [n, 3, i3cAddrOf s n])) ∧
  (∀ (s : State) (n : Nat), noPartners s = true → exec (.partnerResetRelease n) s = .next s) ∧
  (∀ (s : State) (n : Nat), n < 8 → watchOpen s n = true →
    ∃ t, exec (.hotJoin n) s = .next t ∧ regBits t (rSidePart n) 63 60 = 1 ∧ t.outbox = s.outbox ++ [⟨.i3c, [n, 3, i3cAddrOf s n], []⟩]) ∧
  (∀ (s : State) (n : Nat), n < 8 → watchOpen s n = false → exec (.hotJoin n) s = .next (emit s .i3c [n, 6])) ∧
  (∀ (s : State) (n : Nat), n < 8 → partnersBit s n = true → holdBit s n = false → resetReleased s n = false → pealState s = 1 ∨ pealState s = 2 → noPartners s = false →
    ∃ t, exec (.partnerResetRelease n) s = .next t ∧ resetReleased t n = true ∧ i3cState t n = 1 ∧
      t.outbox = s.outbox ++ [⟨.pin, [n, 1], []⟩] ∧ { t with regs := s.regs, outbox := s.outbox } = s) ∧
  (∀ (s : State) (n : Nat), n < 8 → ∃ t, exec (.sideCtlHold n) s = .next t ∧ resetReleased t n = false ∧ holdBit t n = true) ∧
  (∀ (s : State) (n : Nat), n < 8 → holdBit s n = false → partnersBit s n = true →
    ∃ t, exec (.sideCtlPulse n) s = .next t ∧ resetReleased t n = false ∧ regBits t rSideCtl (40 + n) (40 + n) = 1) ∧
  (∀ (s : State) (n : Nat), n < 8 →
    (∃ t, exec (.accFaultAssert n true) s = .next t ∧ regBits t (rSidePart n) 49 49 = 1 ∧
      (resetReleased s n = true → partnersBit s n = true → n ∈ t.board.fltHeld)) ∧
    (∃ t, exec (.accFaultAssert n false) s = .next t ∧ regBits t (rSidePart n) 49 49 = 0 ∧ n ∉ t.board.fltHeld ∧
      (∀ a, a ≠ rSidePart n → regGet t a = regGet s a)))

/-- A Coupler port goes through the states of Table 10.3. R275, R276, R277, R278, R279, R280, R282, R283, R284.
PORT_ENABLE, PORT_FAILED_RETRY, CPL_LANE_LOST and CPL_RETEST bring a port into DETECT (that a port held out stays so
is the model's reading, log 105, that the flits of a partner's rings are kept log 138); TRAINING_FRAME and
TRAINING_TIMEOUT carry it through DETECT and EQUALIZE; once LANE_TEST_END and a closing frame have given both GOOD
masks its width is fixed or it fails; an ALIGN flit aligns the receiver with its slot index and leads to CONFIG, one
whose unused fields are not zero is a protocol error; an acceptable CONFIG of a partner makes the port ACTIVE with the
credits it names. FAIL_CODE 2 of an EQUALIZE time-out with fewer than four lanes is the model's reading (log 69,
DEDUCED), and so is the GOOD mask that a closing frame carries (log 107, DEDUCED). -/
def Obligations.PortTraining : Prop :=
  (∀ (s : State) (n : Nat), n < 10 → portMayRun s n = true →
    (portSt s n = 0 → ∃ t, exec (.portEnable n) s = .next t ∧ detects s t n (getLink s n) ∧ t.mem = s.mem) ∧
    (portSt s n = 8 → ∃ t, exec (.portFailedRetry n) s = .next t ∧ detects s t n (getLink s n) ∧ t.mem = s.mem)) ∧
  (∀ (s : State) (n lane : Nat), n < 10 → portActive s n = true → nbit (regBits s (rCplStatus n) 55 48) lane = true →
    ∃ t, exec (.cplLaneLost n lane) s = .next t ∧ detects s t n (getLink s n) ∧ nbit (regBits t (rCplStatus n) 47 40) lane = true) ∧
  (∀ (s : State) (n : Nat), n < 10 → s.mainDom = .up →
    (s.host.job = none → portSt s n ≠ 0 → portSt s n ≠ 7 → nbit (regGet s (rFatal 9)).toNat n = false →
      ∃ t, exec (.cplRetest n) s = .next t ∧ detects s t n (getLink s n) ∧
      regBits t (rCplStatus n) 47 40 = 0 ∧ regBits t (rLaneCtl n) 8 8 = 0) ∧
    (s.host.job = none → portSt s n = 0 ∨ portSt s n = 7 ∨ nbit (regGet s (rFatal 9)).toNat n = true → ∃ t, exec (.cplRetest n) s = .next t ∧ portSt t n = portSt s n ∧
      regBits t (rCplStatus n) 47 40 = 0 ∧ regBits t (rLaneCtl n) 8 8 = 0 ∧ { t with regs := s.regs } = s) ∧
    (s.host.job.isSome = true → exec (.cplRetest n) s = .next (regPut s (rLaneCtl n) 8 8 1))) ∧
  (∀ (s : State) (n lane : Nat) (w : W64) (ready : Bool) (op tap : Nat), n < 10 → lane < portLanes n →
    frameOk n lane w.toNat = true → portSt s n = 1 → nbit (lanesUsable s n) lane = true →
    ∃ t, exec (.trainingFrame n lane w ready op tap) s = .next t ∧ (getTraining t n).seen = laneAdd (getTraining s n).seen lane ∧
      portSt t n = (if 4 ≤ laneCount (laneAdd (getTraining s n).seen lane) then 2 else 1) ∧ t.mem = s.mem) ∧
  (∀ (s : State) (n lane : Nat) (w : W64) (ready : Bool) (op tap : Nat), n < 10 → lane < portLanes n →
    frameOk n lane w.toNat = true → portActive s n = true →
    ∃ t, exec (.trainingFrame n lane w ready op tap) s = .next t ∧ detects s t n (getLink s n)) ∧
  (∀ (s : State) (n : Nat), n < 10 →
    (portSt s n = 1 → ∃ t, exec (.trainingTimeout n) s = .next t ∧
      if laneCount (lanesUsable s n) < 4 then failsWith s t n 3
      else if laneCount (getTraining s n).seen < 4 then failsWith s t n 1 else portSt t n = 2) ∧
    (portSt s n = 2 → ∃ t, exec (.trainingTimeout n) s = .next t ∧
      if laneCount (laneAnd (getTraining s n).rxHub (getTraining s n).rxPeer) < 4 then failsWith s t n 2
      else portSt t n = 3 ∧ ∀ i, i < portLanes n → nbit (lanesUsable s n) i = true → (⟨.pattern, [n, i, 2 ^ 28], []⟩ : Out) ∈ t.outbox)) ∧
  (∀ (s : State) (n : Nat) (errors snr : List Nat), n < 10 → portSt s n = 3 → (getTraining s n).good = none →
    ((getTraining s n).peerGood = none → ∃ t, exec (.laneTestEnd n errors snr []) s = .next t ∧ portSt t n = 3 ∧
      (getTraining t n).good = some (goodMask s n errors) ∧ t.mem = s.mem) ∧
    (∀ peer, (getTraining s n).peerGood = some peer → ∃ t, exec (.laneTestEnd n errors snr []) s = .next t ∧
      widthFixed s t n (laneAnd (goodMask s n errors) peer)) ∧
    (∀ lane (w : W64), (getTraining s n).peerGood = none → lane < portLanes n → frameOk n lane w.toNat = true →
      nbit (lanesUsable s n) lane = true → nbits w.toNat 63 60 = 3 →
      ∃ t, exec (.laneTestEnd n errors snr [(lane, w)]) s = .next t ∧ widthFixed s t n (laneAnd (goodMask s n errors) (nbits w.toNat 46 39)))) ∧
  (∀ (s : State) (n lane good : Nat) (w : W64) (ready : Bool) (op tap : Nat), n < 10 → lane < portLanes n → frameOk n lane w.toNat = true →
    portSt s n = 3 → nbit (lanesUsable s n) lane = true → nbits w.toNat 63 60 = 3 → (getTraining s n).good = some good →
    ∃ t, exec (.trainingFrame n lane w ready op tap) s = .next t ∧ widthFixed s t n (laneAnd good (nbits w.toNat 46 39))) ∧
  (∀ (s : State) (f : Flit), f.port < 10 → portSt s f.port = 4 →
    (isAlign f = true → alignZero f = true → alignSlot f < 40 → ∃ t h, exec (.align f true) s = .next t ∧ portSt t f.port = 5 ∧
      nbits h 63 60 = 0xD ∧ sends s t .ctlFlit [f.port, h] ∧ (getTraining t f.port).rxSlot = some (alignSlot f) ∧ t.mem = s.mem) ∧
    (isAlign f = true → alignZero f = false → ∃ t, exec (.align f true) s = .next t ∧ detects s t f.port (getLink s f.port)) ∧
    (isAlign f = false → ∃ t h, exec (.align f true) s = .next t ∧ portSt t f.port = 4 ∧ nbits h 63 60 = 0xE ∧
      sends s t .ctlFlit [f.port, h] ∧ t.mem = s.mem) ∧
    (∃ t, exec (.align f false) s = .next t ∧ failsWith s t f.port 4)) ∧
  (∀ (s : State) (port : Nat) (header : W64) (rest : List Byte),
    let f := flitOf port header rest
    port < 8 → portSt s port = 5 → crcOk f = true → flitKind f = 0xD → flitVc f = 3 →
    nbits (flitHdr f) 57 56 = 0 → configZero 0 f = true → kget [] (getTraining s port).parts 0 = [] →
    let p := f.payload
    (part0Ok s port p = true → ∃ t, exec (.config port header rest) s = .next t ∧ portActive t port = true ∧
      ((getLink s port).wait = [] → getLink t port = Link.init) ∧
      peerCredits t port 0 = field p 4 2 ∧ peerCredits t port 1 = field p 6 2 ∧ peerCredits t port 2 = field p 8 2 ∧
      peerCredits t port 3 = field p 10 2) ∧
    (part0Ok s port p = false → ∃ t, exec (.config port header rest) s = .next t ∧ failsWith s t port 5))

/-- Link words free credits and replay; errors are counted or retrain the port. R274, R283, R288, R289, R290, R291, R293,
R295, R309. A link word with a wrong LCRC is counted, leaves the flits after it without a number and is answered by a
NAK; a right one frees the credits it names and gives the next flit's number, and with NAK resends the replay buffer,
or declares the link down after eight resends; credits never used are a protocol error. CPL_LINK_DOWN retrains an
ACTIVE port with flits unacknowledged. COMPENSATION_FRAME repeats the last link word over NULL flits, unless that word
carried REPLAY. FAILED_FLIT of a flit whose CRC fails discards a sequenced one and counts a beat-sync one; a codeword
with at most 15 symbol errors is corrected, one with more is counted and discards, and the 64th in a row retrains the
port. FEC_RATE_SECOND counts corrected symbols. That a link word goes out for each that comes in is the model's
reading (log 69, DEDUCED). -/
def Obligations.FlitsAndLinkWords : Prop :=
  (∀ (s : State) (n : Nat) (w : W64) (later : Bool), n < 10 → portActive s n = true → nbits w.toNat 7 0 ≠ lcrc (w.toNat - nbits w.toNat 7 0) →
    ∃ t x, exec (.linkWord n w later) s = .next t ∧ (getLink t n).nak = true ∧ (getLink t n).rxSeq = none ∧
      sends s t .linkWord [n, x] ∧ nbit x 42 = true ∧ t.mem = s.mem ∧
      regBits t (rCplErr2 n) 63 48 = min (2 ^ 16 - 1) (regBits s (rCplErr2 n) 63 48 + 1) ∧
      (∀ a, a ≠ rCplErr2 n → regGet t a = regGet s a)) ∧
  (∀ (s : State) (n : Nat) (w : W64) (later : Bool) (f : List Nat), n < 10 → portActive s n = true →
    nbits w.toNat 7 0 = lcrc (w.toNat - nbits w.toNat 7 0) → creditsOf (getLink s n) w.toNat = some f →
    let l := ackLink { getLink s n with freed := f, bad := 0, rxSeq := some (nbits w.toNat 63 54) } (nbits w.toNat 52 43)
    (nbit w.toNat 42 = false ∨ l.replay = [] ∨ (l.resent = some (nbits w.toNat 52 43) ∧ later = false) →
      ∃ t, exec (.linkWord n w later) s = .next t ∧ (getLink t n).freed = f ∧ (getLink t n).rxSeq = some (nbits w.toNat 63 54) ∧
        portSt t n = portSt s n ∧ (∀ a, a ≠ rCplErr n → regGet t a = regGet s a) ∧ t.mem = s.mem ∧
        (nbit w.toNat 53 = false → t.regs = s.regs)) ∧
    (nbit w.toNat 42 = true → l.replay ≠ [] → l.resent ≠ some (nbits w.toNat 52 43) ∨ later = true → l.resends < 8 →
      ∃ t, exec (.linkWord n w later) s = .next t ∧ (getLink t n).resends = l.resends + 1 ∧
        (getLink t n).resent = some (nbits w.toNat 52 43) ∧ t.mem = s.mem ∧ (nbit w.toNat 53 = false →
        regBits t (rCplErr n) 15 0 = min (2 ^ 16 - 1) (regBits s (rCplErr n) 15 0 + 1))) ∧
    (nbit w.toNat 42 = true → l.replay ≠ [] → l.resent ≠ some (nbits w.toNat 52 43) ∨ later = true → 8 ≤ l.resends →
      ∃ t, exec (.linkWord n w later) s = .next t ∧ detects s t n l)) ∧
  (∀ (s : State) (n : Nat) (w : W64) (later : Bool), n < 10 → portActive s n = true →
    nbits w.toNat 7 0 = lcrc (w.toNat - nbits w.toNat 7 0) → creditsOf (getLink s n) w.toNat = none →
    ∃ t, exec (.linkWord n w later) s = .next t ∧ detects s t n (getLink s n)) ∧
  (∀ (s : State) (n : Nat), n < 10 → portActive s n = true → (getLink s n).replay ≠ [] →
    ∃ t, exec (.cplLinkDown n) s = .next t ∧ detects s t n (getLink s n)) ∧
  (∀ (s : State) (n : Nat), n = 8 ∨ n = 9 → portActive s n = true →
    (nbit (getLink s n).last 53 = false → ∃ t rest, exec (.compensationFrame n) s = .next t ∧
      t.outbox = s.outbox ++ ⟨.ctlFlit, [n, 1, 8], nullFlit true⟩ :: ⟨.linkWord, [n, (getLink s n).last], []⟩ :: rest ∧
      getLink t n = getLink s n ∧ { t with ports := s.ports, outbox := s.outbox } = s) ∧
    (nbit (getLink s n).last 53 = true → exec (.compensationFrame n) s = .next s)) ∧
  (∀ (s : State) (f : Flit), f.port < 10 → portActive s f.port = true → crcOk f = false →
    (flitKind f = 0xC → ∃ t, exec (.failedFlit f.port (.crc f) []) s = .next t ∧
      regBits t (rCplErr2 f.port) 47 32 = min (2 ^ 16 - 1) (regBits s (rCplErr2 f.port) 47 32 + 1) ∧
      (∀ a, a ≠ rCplErr2 f.port → regGet t a = regGet s a) ∧ { t with regs := s.regs } = s) ∧
    (sequenced (flitKind f) = true → exec (.failedFlit f.port (.crc f) []) s = .next (putLink s f.port (discard (getLink s f.port))))) ∧
  (∀ (s : State) (n symbols : Nat) (second : Bool) (kinds : List Nat), n < 10 → portActive s n = true →
    (symbols ≤ 15 → exec (.failedFlit n (.codeword second symbols) kinds) s = .next (putLink s n { getLink s n with bad := 0 })) ∧
    (15 < symbols → ∃ t, exec (.failedFlit n (.codeword second symbols) kinds) s = .next t ∧ t.mem = s.mem ∧
      regBits t (rCplErr n) 31 16 = min (2 ^ 16 - 1) (regBits s (rCplErr n) 31 16 + 1) ∧
      if (getLink s n).bad + 1 < 64 then (getLink t n).nak = true ∧ (getLink t n).rxSeq = none ∧ (getLink t n).bad = (getLink s n).bad + 1
      else detects s t n (getLink s n))) ∧
  (∀ (s : State) (n symbols : Nat), n < 10 → s.mainDom = .up →
    ∃ t, exec (.fecRateSecond n symbols) s = .next t ∧ t.mem = s.mem ∧
      regBits t (rCplErr n) 63 32 = min (2 ^ 32 - 1) (regBits s (rCplErr n) 63 32 + symbols) ∧
      (symbols ≤ 2 ^ 20 → t.belfry = s.belfry ∧ ∀ a, a ≠ rCplErr n → regGet t a = regGet s a))

/-- Requests that report: each is answered with what it reads. R354, R357, R416, R445, R455, R459, R500. STATUS_GET,
IDENTITY_GET, REG_READ, ENERGY_GET, TELEMETRY_GET, FAULT_READ and LOG_READ are answered with the registers, messages
or records they name; REG_WRITE and FAULT_ACK are answered once they have acted; a CODE that is not in the table is
answered UNKNOWN_CODE, and one that only the hub sends DENIED. That index 0 of LOG_READ is the newest record (log 85,
DEDUCED) and the byte layout of IDENTITY_GET (log 36, DESIGN CHOICE) are the model's. -/
def Obligations.ReportsToARole : Prop :=
  ∀ (s : State) (q : Req) (body : List Byte),
    let h := heardFrom s q
    (accepts s q 0x01 [] = true → exec (.statusGet q []) s = .next (reply h q 0x01 (ansOk (statusBody h)))) ∧
    (accepts s q 0x02 [] = true → exec (.identityGet q []) s = .next (reply h q 0x02 (ansOk (leBytes 4 (readReg h 0xC00000).toNat ++
      ((rangeFrom 0 4).flatMap fun i => leBytes 8 (readReg h (rIdKey i)).toNat) ++
      ((rangeFrom 0 4).flatMap fun i => leBytes 8 (readReg h (rVendor i)).toNat) ++
      (rangeFrom 0 4).flatMap fun i => leBytes 8 (readReg h (rOwnerH i)).toNat)))) ∧
    (∀ x, accepts s q 0x03 body = true → consistState s ≠ 0 → body.length = 9 → field body 8 1 = 4 ∨ field body 8 1 = 8 →
      regCheck h (ethSecure h) false (field body 0 8) (field body 8 1) = .ok x →
      exec (.regRead q body) s = .next (reply (readEffect h (field body 0 8 - regSpace)) q 0x03
        (ansOk (leBytes 8 (readReg h (field body 0 8 - regSpace)).toNat)))) ∧
    (∀ x, accepts s q 0x04 body = true → consistState s ≠ 0 → body.length = 17 → field body 8 1 = 4 ∨ field body 8 1 = 8 →
      regCheck h (ethSecure h) true (field body 0 8) (field body 8 1) = .ok x → x.1.w32 = false ∨ field body 13 4 = 0 →
      exec (.regWrite q body) s = .next (reply (writeReg h (srcEth (reqPort h q)) (field body 0 8 - regSpace) x.1 x.2.2
        (BitVec.ofNat 64 (field body 9 8))) q 0x04 (ansOk []))) ∧
    (accepts s q 0x32 [] = true → consistState s ≠ 0 → exec (.energyGet q []) s = .next (reply h q 0x32
      (ansOk ((rangeFrom 0 16).flatMap fun t => leBytes 8 (readReg h (rEnergy t)).toNat)))) ∧
    (∀ l, accepts s q 0x33 body = true → consistState s ≠ 0 → body.length = 2 → telemetryPage (field body 0 2) = some l →
      exec (.telemetryGet q body) s = .next (reply h q 0x33 (ansOk (l.flatMap fun a => leBytes 8 (readReg h a).toNat)))) ∧
    (accepts s q 0x70 body = true → consistState s ≠ 0 → body.length = 2 → 1 ≤ field body 0 2 → field body 0 2 ≤ 64 → h.belfry.queue ≠ [] →
      exec (.faultRead q body) s = .next (reply { h with belfry := { h.belfry with queue := h.belfry.queue.drop (field body 0 2) } } q 0x70
        (ansOk ((h.belfry.queue.take (field body 0 2)).flatMap msgBytes)))) ∧
    (accepts s q 0x71 body = true → consistState s ≠ 0 → body.length = 3 → field body 0 2 < 1024 → 1 ≤ field body 2 1 → field body 2 1 ≤ 3 →
      exec (.faultAck q body) s = .next (reply (ackMsg h (field body 0 2) (field body 2 1)) q 0x71 (ansOk []))) ∧
    (accepts s q 0x72 body = true → consistState s ≠ 0 → body.length = 2 → exec (.logRead q body) s = .next (reply h q 0x72
      (ansOk (((h.peal.log.reverse.drop (field body 0 2)).filter recordChecks).take 16).flatten))) ∧
    (∀ code, accepts s q code body = true → code ∉ sentCodes →
      exec (.unknownCode q code body) s = .next (reply h q code (ansStatus (if code = 0x80 ∨ code = 0x81 then 7 else 0xD)))) ∧
    (accepts s q 0x60 body = true → consistState s ≠ 0 → 4 ≤ body.length → field body 1 1 ∉ spdmCodes → q.role ∉ s.trust.spdmLost →
      exec (.unsupportedRequest q body) s = .next (reply h q 0x60 (ansOk (spdmError 0x07 (field body 1 1)))))

/-- Requests that set rings, connections, addresses, orders and caps. R335, R339, R346, R347, R359, R360, R361, R367. An
acceptable RING_SETUP, NOTIFY_SET, CONN_OPEN, CONN_CLOSE, ADDR_SET, HEARTBEAT, POWER_SET or CAP_SET sets what it names
and is answered; a RING_SETUP or ADDR_SET against the rules is refused and changes nothing, and a RING_SETUP from a
world that may not write the rings is DENIED. -/
def Obligations.SettingsOfARole : Prop :=
  (∀ (s : State) (q : Req) (body : List Byte), accepts s q 0x10 body = true → consistState s ≠ 0 → svcOpen s 1 = true →
    body.length = 16 → field body 0 1 < 128 → field body 1 1 < 2 → field body 2 1 < 8 → field body 3 1 < 16 → field body 4 1 < 64 →
    field body 6 1 < 16 → field body 7 1 < 2 → field body 8 8 % 4096 = 0 → field body 8 8 < 2 ^ 48 → (q.role = 1 ↔ field body 0 1 = 1) →
    let h := heardFrom s q
    let p := field body 0 1
    let regs := [rRingBase (2 * p), rRingCfg (2 * p), rRingBase (2 * p + 1), rRingCfg (2 * p + 1)]
    let t := ringSetup (unstage h regs) q.role body
    exec (.ringSetup q body) s = .next (if ethSecure h = false ∧ h.consist.cfg.worlds.blockSecure.getLsbD 6 = true then
        reply (refuseReg h (srcEth (reqPort h q)) .world (regSpace + rRingBase (2 * p))) q 0x10 (ansStatus 7)
      else if pairRule h t p then reply (notifyWords h (storeFlash t regs)) q 0x10 (ansOk [])
      else reply h q 0x10 (ansRefused 1))) ∧
  (∀ (s : State) (q : Req) (body : List Byte), accepts s q 0x11 body = true → consistState s ≠ 0 → svcOpen s 1 = true →
    body.length = 16 → field body 1 3 = 0 → field body 8 8 % 4096 = 0 → ownConn (heardFrom s q) q.role (field body 0 1) = true →
    let h := heardFrom s q
    let t : Target := { conn := field body 0 1, addr := field body 8 8, key := field body 4 4 }
    exec (.notifySet q body) s = .next (reply (putHost h { h.host with target := kput h.host.target q.role t }) q 0x11 (ansOk []))) ∧
  (∀ (s : State) (q : Req) (body : List Byte) (k : Nat), accepts s q 0x12 body = true → consistState s ≠ 0 → svcOpen s 1 = true →
    body.length = 28 → field body 0 4 < 2 ^ 24 → field body 4 4 < 2 ^ 24 → field body 8 1 < 3 → field body 9 3 = 0 →
    (q.role = 1 → ((heardFrom s q).host.conns.filter fun e => e.2.role == 1).length < 4) →
    (rangeFrom 0 64).find? (fun k => (getConn (heardFrom s q) k).isNone) = some k →
    ∃ u a c, exec (.connOpen q body) s = .next (reply u q 0x12 a) ∧ a.status = 0 ∧ getConn u k = some c ∧ c.role = q.role ∧
      c.port = reqPort (heardFrom s q) q ∧
      c.qpn = field body 0 4 ∧ c.expect = field body 4 4 ∧ c.mtu = 1024 * 2 ^ field body 8 1 ∧ c.gid = body.drop 12 ∧ c.sent = [] ∧
      (∀ j, j ≠ k → getConn u j = getConn (heardFrom s q) j) ∧ u.mem = (heardFrom s q).mem ∧ u.regs = (heardFrom s q).regs) ∧
  (∀ (s : State) (q : Req) (body : List Byte), accepts s q 0x13 body = true → consistState s ≠ 0 → body.length = 1 →
    ownConn (heardFrom s q) q.role (field body 0 1) = true →
    exec (.connClose q body) s = .next (reply (closeConn (heardFrom s q) (field body 0 1) 1) q 0x13 (ansOk []))) ∧
  (∀ (s : State) (q : Req) (body : List Byte), accepts s q 0x14 body = true → consistState s ≠ 0 → body.length = 32 →
    let h := heardFrom s q
    let p := rolePort h q.role
    let regs := [rEthIp4 p, rEthIp6H p, rEthIp6L p, rEthCtl p]
    let t := (rangeFrom 0 4).foldl (fun s i => regSet s (lget 0 regs i) (wordOf body i &&& stagedMask (lget 0 regs i))) (unstage h regs)
    exec (.addrSet q body) s = .next (if ethRule t p = 0 then reply (committed h (storeFlash t regs) 0xDFFF00 [p]) q 0x14 (ansOk [])
      else reply h q 0x14 (ansRefused 1))) ∧
  (∀ (s : State) (q : Req) (body : List Byte), accepts s q 0x15 body = true → consistState s ≠ 0 → body.length = 5 →
    field body 0 4 = 0 ∨ (100 ≤ field body 0 4 ∧ field body 0 4 ≤ 60000) → field body 4 1 ≤ (if q.role = 0 then 1 else 0) →
    ∃ u, exec (.heartbeat q body) s = .next (reply u q 0x15 (ansOk [])) ∧ roleInterval u q.role = field body 0 4 ∧
      (q.role = 0 → regBits u rSilence 63 48 = field body 0 4 / 100 ∧ roleAction u 0 = field body 4 1) ∧
      (q.role = 1 → regBits u rSilence 31 16 = field body 0 4 / 100)) ∧
  (∀ (s : State) (q : Req) (body : List Byte), accepts s q 0x30 body = true → consistState s ≠ 0 → svcOpen s 6 = true → body.length = 2 →
    field body 1 1 < 2 →
    let h := heardFrom s q
    (field body 0 1 = 1 → exec (.powerSetOn q body) s = .next (reply (setOrder h q.role false (field body 1 1 == 1)) q 0x30
      (if (if q.role = 0 then h.host.offRack else h.host.offHost) then ⟨3, [], 0, 2 - q.role⟩ else ansOk []))) ∧
    (field body 0 1 = 0 → exec (.powerSetOff q body) s =
      .next (reply (setOrder h q.role true (field body 1 1 == 1)) q 0x30 (ansOk [])))) ∧
  (∀ (s : State) (q : Req) (body : List Byte), accepts s q 0x31 body = true → consistState s ≠ 0 → svcOpen s 6 = true → body.length = 8 →
    field body 0 1 < 2 → field body 1 3 = 0 → field body 4 4 ≠ 0 →
    let hub := field body 0 1 == 0
    let l := s.consist.cfg.limits
    let top := if hub then l.hubMax else l.trayMax
    let v := if field body 4 4 = 0xFFFFFFFF then top else field body 4 4
    (hub = true → l.hubMin ≤ field body 4 4) →
    ∃ u, exec (.capSet q body) s = .next (reply u q 0x31 (capAnswer q.role v (capOf s hub (1 - q.role)) top)) ∧
      capOf u hub q.role = v ∧ capOf u hub (1 - q.role) = capOf s hub (1 - q.role))

/-- Requests that start and end jobs, load an image and enrol an owner. R42, R43, R239, R356, R363, R365, R394. JOB_START
that nothing forbids starts the job it names with its seed and queues the persistent kernel of every service train;
JOB_END of that job ends it, the reply following later; CONSIST_DATA and ENROL collect pieces, CONSIST_LOAD of an
image that checks starts the write of its slot and of one that does not names the reason, and a token of the right
device enrols its key. The model's own: the service firmware's block at a job's start (log 102), that posting services
wait for room (log 112), both DESIGN CHOICE, and the receive buffer emptied by a CONSIST_LOAD that is answered (log
37, DEDUCED). -/
def Obligations.JobsImagesAndEnrolment : Prop :=
  (∀ (s : State) (q : Req) (body : List Byte), accepts s q 0x20 body = true → consistState s ≠ 0 → svcOpen s 5 = true → q.role = 0 →
    body.length = 24 →
    let h := heardFrom s q
    (∀ j, s.host.job = some j → exec (.jobStart q body) s = .next (reply h q 0x20 (ansStatus 9))) ∧
    (∀ d, s.host.job = none → s.consist.unitFailed = some d → exec (.jobStart q body) s = .next (reply h q 0x20 ⟨8, [], 0, d⟩)) ∧
    (s.host.job = none → s.consist.unitFailed = none → jobForbidden h = false → drumForbids h = false →
      ∃ u a j, exec (.jobStart q body) s = .next (reply u q 0x20 a) ∧ a.status = 0 ∧ u.host.job = some j ∧ j.id = field body 0 8 ∧
        j.firstBeat = BitVec.ofNat 64 (max (field body 16 8) (h.drum.count.toNat + 2500)) ∧ regGet u rSeed = wordOf body 1 ∧
        ∀ t, t < s.consist.cfg.trains.length →
          let v := (lget { rakes := 0, service := 0 } s.consist.cfg.trains t).service
          v = 1 ∨ v = 2 ∨ v = 3 → { raw := Config.serviceBlock t, src := .firmware } ∈ (getTrain u t).queue)) ∧
  (∀ (s : State) (q : Req) (body : List Byte), accepts s q 0x21 body = true → consistState s ≠ 0 → q.role = 0 → body.length = 8 →
    (s.host.job = none → exec (.jobEnd q body) s = .next (reply (heardFrom s q) q 0x21 (ansStatus 0xA))) ∧
    (∀ j, s.host.job = some j → j.id = field body 0 8 → s.snap.take = none →
      ∃ t, exec (.jobEnd q body) s = .next t ∧ t.host.job = none ∧ owes t q 0x21)) ∧
  (∀ (s u : State) (q : Req) (body buf : List Byte), accepts s q 0x40 body = true → appendPiece (heardFrom s q) q 0 body = some (u, buf) →
    exec (.consistData q body) s = .next (reply u q 0x40 (ansOk []))) ∧
  (∀ (s : State) (q : Req) (body : List Byte), accepts s q 0x41 body = true → body.length = 4 → consistBusy (heardFrom s q) = none →
    let h := heardFrom s q
    let img := kget [] h.host.buffers (q.role * 4)
    (∀ m, checkImage (checkCtx (clearBuffer h q.role 0) true) img (field body 0 4) = .ok m →
      ∃ t, exec (.consistLoad q body) s = .next t ∧ t.consist.load = some { role := q.role + 1, image := img } ∧ owes t q 0x41) ∧
    (∀ r, checkImage (checkCtx (clearBuffer h q.role 0) true) img (field body 0 4) = .error r →
      exec (.consistLoad q body) s = .next (reply (lastReason (clearBuffer h q.role 0) r.reason) q 0x41 (refuse r)))) ∧
  (∀ (s u : State) (q : Req) (body tok : List Byte), accepts s q 0x50 body = true → appendPiece (heardFrom s q) q 2 body = some (u, tok) →
    (tok.length < 256 → exec (.enrol q body) s = .next (reply u q 0x50 (ansOk []))) ∧
    (tok.length = 256 → tokenReason (clearBuffer u q.role 2) tok = none →
      ∃ v, exec (.enrol q body) s = .next (reply v q 0x50 (ansOk [])) ∧ v.trust.owner = some ((tok.drop 0x30).take 32)) ∧
    (∀ r, tok.length = 256 → tokenReason (clearBuffer u q.role 2) tok = some r →
      exec (.enrol q body) s = .next (reply (clearBuffer u q.role 2) q 0x50 (ansRefused r))))

/-- A Consist is written, accepted, applied and shown by CFG_CONSIST_STATE. R27, R28, R42, R45, R46, R47.
CONSIST_SLOT_WRITTEN puts the image into its slot and makes it pending; CONSIST_APPLY of a pending image that checks
enters APPLYING, without one, or with a job that its changes must wait for, it is refused; APPLY_BEAT and
APPLY_COMPLETE, whichever is second, make its slot the active one in state ACTIVE or FALLBACK; CONSIST_BOOT_APPLY
without an active slot reports NO_CONSIST and starts the apply of an image that checks. That structure comes first and
which event ends an apply is the model's reading (log 39, DEDUCED). -/
def Obligations.ConsistApplies : Prop :=
  (∀ (s : State) (l : ConsistLoad), s.consist.load = some l →
    ∃ t, exec .consistSlotWritten s = .next t ∧ t.consist.load = none ∧ t.consist.pendingImg = true ∧ t.consist.pendingAt = inactiveSlot s ∧
      slotImage t (inactiveSlot s) = l.image ∧ slotImage t (!inactiveSlot s) = slotImage s (!inactiveSlot s)) ∧
  (∀ (s : State) (q : Req) (m : Consist), accepts s q 0x42 [] = true → consistBusy (heardFrom s q) = none →
    let h := heardFrom s q
    (h.consist.pendingImg = false → exec (.consistApply q []) s = .next (reply (lastReason h 0x0D) q 0x42 (refuse ⟨0x0D, 0, 0⟩))) ∧
    let img := slotImage h h.consist.pendingAt
    (h.consist.pendingImg = true → isBetween h (imageConsist img) = true → h.host.job.isSome = true →
      exec (.consistApply q []) s = .next (reply (lastReason h 0x0C) q 0x42 (refuse ⟨0x0C, 0, 0⟩))) ∧
    (h.consist.pendingImg = true → isBetween h (imageConsist img) = false ∨ h.host.job = none → checkBody (checkCtx h true) img = .ok m →
      ∃ t a, exec (.consistApply q []) s = .next t ∧ t.consist.apply = some a ∧ a.slotB = h.consist.pendingAt ∧ a.role = q.role + 1 ∧
        a.image = img ∧ a.beatDone = false ∧ consistState t = 2 ∧ owes t q 0x42)) ∧
  (∀ (s : State) (a : ConsistApply), s.consist.apply = some a → a.beatDone = false →
    (a.betweenJobs = false → ∃ t, exec .applyBeat s = .next t ∧ appliedBy t a ∧ t.consist.cfg.limits = a.merged.limits) ∧
    (a.betweenJobs = true → a.structureDone = false → s.host.ending = none →
      ∃ t b, exec .applyBeat s = .next t ∧ t.consist.apply = some b ∧ b.beatDone = true ∧ b.structureDone = true ∧ b.image = a.image)) ∧
  (∀ (s : State) (a : ConsistApply), s.consist.apply = some a → a.betweenJobs = true → s.host.ending = none → a.structureDone = true →
    (a.beatDone = true → ∃ t, exec .applyComplete s = .next t ∧ appliedBy t a) ∧
    (a.beatDone = false → exec .applyComplete s = .next s)) ∧
  (∀ (s : State), s.mainDom = .up → s.consist.booted = false → s.consist.apply = none → guardRuns s 5 = true →
    (s.consist.activeSlot = none → modPlain s = true → ∃ t, exec .consistBootApply s = .next t ∧ t.consist.booted = true ∧ t.consist.applied = false ∧
      consistState t = 0) ∧
    (∀ b m, s.consist.activeSlot = some b → (ownerKey s).isSome = true → regBits s rMemStatus 63 60 = 3 →
      checkImage (checkCtx s true) (slotImage s b) (slotImage s b).length = .ok m →
      ∃ t a, exec .consistBootApply s = .next t ∧ t.consist.apply = some a ∧ a.boot = true ∧ a.fallback = false ∧ a.slotB = b ∧ a.merged = m ∧
        { t with consist := s.consist } = s))

/-- An update session receives, verifies and activates an image; trials are confirmed or abandoned. R370, R380, R383,
R384, R385, R386, R387, R388, R391. UPD_BEGIN of a header that checks opens a session, of one that does not names the
reason; UPD_DATA, UPD_DATA_PROGRAMMED, UPD_END and UPD_VERIFY_COMPLETE carry it to VERIFIED with the image in its
partition; UPD_ACTIVATE activates or defers it; UPD_ABORT and UPD_SESSION_TIMEOUT end it; a trial that is confirmed,
by G5 while it runs, is on trial no longer; one that times out resets the main domain, its first failure is counted,
the boot after that runs the previous slot, during which no failure counts, and after the second failure it is
abandoned. Programming fails at an address of the piece in its partition (Table 13.4). The model's own: the order of
the checks of UPD_ACTIVATE and when its messages go (log 73, DEDUCED), and the failures that abandon a trial of kind
0x02 or 0x03 (log 74, DEDUCED). -/
def Obligations.UpdateSessions : Prop :=
  (∀ (s : State) (q : Req) (body : List Byte), accepts s q 0x51 body = true → body.length = 512 → s.trust.session = none →
    (∀ r, headerReason (heardFrom s q) body = some r → exec (.updBegin q body) s = .next (reply (heardFrom s q) q 0x51 (ansRefused r))) ∧
    (headerReason (heardFrom s q) body = none →
      ∃ u a x, exec (.updBegin q body) s = .next (reply u q 0x51 a) ∧ a.status = 0 ∧ u.trust.session = some x ∧ x.state = 1 ∧
        x.role = q.role ∧ x.header = body ∧ x.body = [] ∧ kindOf body = some x.kind ∧ partImage u (updTarget (heardFrom s q) x.kind) = none)) ∧
  (∀ (s : State) (q : Req) (body : List Byte) (x : Session), accepts s q 0x52 body = true → (heardFrom s q).trust.session = some x →
    isHolder (heardFrom s q) q x = true → x.state = 1 → 4 ≤ body.length → body.length ≤ 1028 → field body 0 4 = x.body.length →
    x.body.length + (body.length - 4) ≤ imBodySize x.header →
    ∃ t, exec (.updData q body) s = .next t ∧ t.trust.session = some { x with piece := some (body.drop 4) } ∧ owes t q 0x52) ∧
  (∀ (s : State) (x : Session) (d : List Byte) (addr : Nat), s.trust.session = some x → x.piece = some d →
    (∃ t, exec (.updDataProgrammed true addr) s = .next t ∧ t.trust.session = some { x with piece := none, body := x.body ++ d }) ∧
    (exec (.updDataProgrammed false addr) s = .next (answerOwed (raise (putSession s { x with piece := none }) srcUpd 0x29 1
      (pieceAddr s x d.length addr)) 0x52 none (ansRefused 0x16))) ∧
    (d ≠ [] → let lo := partBase (updTarget s x.kind) + 512 + x.body.length
      lo ≤ pieceAddr s x d.length addr ∧ pieceAddr s x d.length addr < lo + d.length ∧
        (lo ≤ addr → addr < lo + d.length → pieceAddr s x d.length addr = addr))) ∧
  (∀ (s : State) (q : Req) (x : Session), accepts s q 0x53 [] = true → (heardFrom s q).trust.session = some x →
    isHolder (heardFrom s q) q x = true → x.state = 1 → imBodySize x.header ≤ x.body.length →
    ∃ t, exec (.updEnd q []) s = .next t ∧ t.trust.session = some { x with state := 2 } ∧ owes t q 0x53) ∧
  (∀ (s : State) (x : Session), s.trust.session = some x → x.state = 2 →
    (Config.sha512 x.body = (x.header.drop 0x80).take 64 → x.header ≠ [] →
      ∃ t, exec (.updVerifyComplete true) s = .next t ∧ t.trust.session = some { x with state := 3, mark := s.drum.beats } ∧
        partImage t (updTarget s x.kind) = some (x.header ++ x.body)) ∧
    (∃ t, exec (.updVerifyComplete false) s = .next t ∧ t.trust.session = none)) ∧
  (∀ (s : State) (q : Req) (body : List Byte) (x : Session), accepts s q 0x54 body = true → body.length = 1 → field body 0 1 = 0 →
    (heardFrom s q).trust.session = some x → isHolder (heardFrom s q) q x = true → x.state = 3 → s.trust.restart = none →
    (x.kind ≠ 3 → s.trust.puf = true → quietEnough (heardFrom s q) = true → ∃ t, exec (.updActivate q body) s = .next t ∧ t.trust.session = none ∧
      selectorOf t x.kind = 1 - selectorOf s x.kind % 2 + 4 + 8) ∧
    (x.kind = 3 → ∃ t, exec (.updActivate q body) s = .next t ∧ t.trust.session = none ∧ t.trust.staged = some (x.header ++ x.body)) ∧
    (x.kind ≠ 3 → quietEnough (heardFrom s q) = false → ∃ t, exec (.updActivate q body) s = .next t ∧
      t.trust.session = some { x with state := 4, mode := 0 })) ∧
  (∀ (s : State) (q : Req) (x : Session), accepts s q 0x55 [] = true → (heardFrom s q).trust.session = some x →
    isHolder (heardFrom s q) q x = true → ∃ t, exec (.updAbort q []) s = .next t ∧ t.trust.session = none) ∧
  (∀ (s : State) (x : Session), s.trust.session = some x → x.state = 1 ∨ x.state = 3 → x.piece = none →
    ∃ t, exec .updSessionTimeout s = .next t ∧ t.trust.session = none ∧ t.mem = s.mem ∧ t.regs = s.regs) ∧
  (∀ (s : State) (x : Session), s.trust.session = some x → x.state = 4 → x.mode = 0 ∨ s.host.job.isSome = true → x.kind ≠ 3 →
    s.trust.puf = true → quietEnough s = true → s.trust.restart = none → ∃ t, exec .updDeferralEnd s = .next t ∧ t.trust.session = none ∧
      t.trust.restart = none ∧ t.mainDom = s.mainDom ∧ selectorOf t x.kind = 1 - selectorOf s x.kind % 2 + 4 + 8) ∧
  (∀ (s : State), s.mainDom = .up → svcOpen s 5 = false → onTrial s 1 = true →
    (s.trust.trialFails ≠ 2 → s.trust.trialFails ≠ 3 →
      ∃ t, exec .trialTimeout s = .next t ∧ t.mainDom = .inReset ∧ t.trust.trialFails = 1 ∧ selectorOf t 1 = selectorOf s 1) ∧
    (s.trust.trialFails = 2 → exec .trialTimeout s = .next s) ∧
    (s.trust.trialFails = 3 → s.trust.puf = true → ∃ t, exec .trialTimeout s = .next t ∧ t.mainDom = .inReset ∧ t.trust.trialFails = 0 ∧ onTrial t 1 = false)) ∧
  (∀ (s : State), (trialStep s).trust.trialFails = (if s.trust.trialFails = 1 then 2 else if s.trust.trialFails = 2 then 3 else s.trust.trialFails) ∧
    ∀ (k : Nat) (bad : List Nat), k ≠ 0 → onTrial s k = true → s.trust.puf = true → s.trust.trialFails = 2 →
      partOk s bad (2 * k + (1 - selectorOf s k % 2)) = true → bootSlot s bad k = some (1 - selectorOf s k % 2)) ∧
  (∀ (s : State), s.board.stbyBoot = true → s.trust.puf = true →
    (guardRuns s 5 = true → ∃ t, exec .standbyTrialConfirm s = .next t ∧ onTrial t 0 = false ∧ { t with trust := s.trust } = s) ∧
    (guardRuns s 5 = false → exec .standbyTrialConfirm s = .next s))

/-- The SPDM responder answers each request of Table 13.10 in its order. R376, R392, R396, R397. GET_VERSION,
GET_CAPABILITIES, NEGOTIATE_ALGORITHMS, GET_DIGESTS, GET_CERTIFICATE, CHALLENGE and GET_MEASUREMENTS of a role that
has come far enough are answered, the exchange grows by request and response, and the role's state moves on; a signing
request draws a nonce and its response ends with a signature over the exchange, and without an identity it is answered
REFUSED; a request of an exchange that a restart of G5 has cut is answered ABORTED_RESUBMIT. The byte formats of the
SPDM messages are those of DSP0274 1.2 (log 70, PRESUMED). -/
def Obligations.Attestation : Prop :=
  ∀ (s : State) (q : Req) (body : List Byte),
    (accepts s q 0x60 body = true → 4 ≤ body.length → field body 1 1 = 0x83 → s.trust.puf = false →
      exec (.challenge q body) s = .next (reply (heardFrom s q) q 0x60 (ansRefused 0))) ∧
    (accepts s q 0x60 body = true → consistState s ≠ 0 → 4 ≤ body.length → field body 1 1 = 0xE1 → q.role ∈ s.trust.spdmLost →
      ∃ u, exec (.getCapabilities q body) s = .next (reply u q 0x60 (ansStatus 0xB)) ∧ q.role ∉ u.trust.spdmLost ∧ { u with trust := s.trust } = { heardFrom s q with trust := s.trust }) ∧
    (spdmReady s q body 0x84 0 = true → spdmReplies s q body (.getVersion q body) 1 true [0x10, 0x04, 0, 0, 0, 1, 0x00, 0x12]) ∧
    (spdmReady s q body 0xE1 1 = true → spdmReplies s q body (.getCapabilities q body) 2 false
      ([0x12, 0x61, 0, 0, 0, 20, 0, 0] ++ leBytes 4 0x16 ++ leBytes 4 1408 ++ leBytes 4 1408)) ∧
    (spdmReady s q body 0xE3 2 = true → ∃ resp, resp.take 2 = [0x12, 0x63] ∧ spdmReplies s q body (.negotiateAlgorithms q body) 3 false resp) ∧
    (spdmReady s q body 0x81 3 = true →
      spdmReplies s q body (.getDigests q body) 3 false ([0x12, 0x01, 0, 1] ++ Config.sha512 Config.certChain)) ∧
    (spdmReady s q body 0x82 3 = true → field body 2 1 = 0 → field body 4 2 < Config.certChain.length →
      let part := (Config.certChain.drop (field body 4 2)).take (min (field body 6 2) 1400)
      spdmReplies s q body (.getCertificate q body) 3 false ([0x12, 0x02, 0, 0] ++ leBytes 2 part.length ++
        leBytes 2 (Config.certChain.length - field body 4 2 - part.length) ++ part)) ∧
    (spdmReady s q body 0x83 3 = true → s.trust.puf = true → field body 2 1 = 0 → body.length = 36 → field body 3 1 = 0 →
      let resp := [0x12, 0x03, 0, 1] ++ Config.sha512 Config.certChain ++ Config.nonce s.trust.draws ++ [] ++ [0, 0]
      spdmReplies s q body (.challenge q body) 3 false
        (resp ++ Config.edSign (Config.sha512 (spdmLog s q.role ++ body ++ resp)))) ∧
    (spdmReady s q body 0xE0 3 = true → s.trust.puf = true → nbit (field body 2 1) 0 = true → body.length = 37 → field body 36 1 = 0 →
      1 ≤ field body 3 1 → field body 3 1 ≤ 7 →
      let rec' := measureBlock (heardFrom s q) (field body 3 1)
      let resp := [0x12, 0x60, 0, 0, 1] ++ leBytes 3 rec'.length ++ rec' ++ Config.nonce s.trust.draws ++ [0, 0]
      spdmReplies s q body (.getMeasurements q body) 3 false
        (resp ++ Config.edSign (Config.sha512 (spdmLog s q.role ++ body ++ resp))))

/-- Ethernet ports answer ARP, echo and neighbour requests; link, router, pauses and silence. R330, R334, R335, R337,
R367. On a port whose link is up and in its VLAN, a request for one of the port's addresses is answered by one frame
and nothing else; one in another VLAN is counted; ETH_LINK_CHANGE, ROUTER_ADVERTISEMENT and PFC_PAUSE set what they
name, a port of an unused role staying down; ROLE_SILENT of an armed role marks it, and stops the job where the role
asked for that. -/
def Obligations.EthernetPorts : Prop :=
  (∀ (s : State) (p : Nat) (up : Bool), p < 2 → s.mainDom = .up → ∃ t, exec (.ethLinkChange p up) s = .next t ∧
      ethLink t p = (up && decide (portRole s p < 2)) ∧ (∀ a, a ≠ rEthStatus p → regGet t a = regGet s a) ∧
      { t with regs := s.regs, host := { t.host with ethUp := s.host.ethUp } } = s) ∧
  (∀ (s : State) (p vlan target ip mac : Nat), ethLink s p = true →
    (vlanOk s p vlan = true → isIp4 s p target = true →
      exec (.arpRequest p vlan target ip mac) s = .next (emit s .ethFrame [p, 1, target, ip, mac])) ∧
    (vlanOk s p vlan = false → ∃ t, exec (.arpRequest p vlan target ip mac) s = .next t ∧ { t with regs := s.regs } = s ∧
      regBits t (rEthCnt p) 63 48 = min (2 ^ 16 - 1) (regBits s (rEthCnt p) 63 48 + 1) ∧ ∀ a, a ≠ rEthCnt p → regGet t a = regGet s a)) ∧
  (∀ (s : State) (p vlan dst src : Nat) (v6 : Bool) (data : List Byte), ethLink s p = true → vlanOk s p vlan = true →
    (if v6 then isIp6 s p dst else isIp4 s p dst) = true →
    exec (.icmpEchoRequest p vlan v6 dst src data) s = .next (emit s .ethFrame [p, 2, if v6 then 1 else 0, dst, src] data)) ∧
  (∀ (s : State) (p vlan target src : Nat), ethLink s p = true → vlanOk s p vlan = true → isIp6 s p target = true →
    exec (.neighborSolicitation p vlan target src) s = .next (emit s .ethFrame [p, 3, target, src])) ∧
  (∀ (s : State) (p vlan router life : Nat), ethLink s p = true → vlanOk s p vlan = true → life ≠ 0 →
    ∃ t, exec (.routerAdvertisement p vlan router life) s = .next t ∧ t.host.router.find? (fun e => e.1 == p) = some (p, router) ∧
      { t with host := { t.host with router := s.host.router } } = s) ∧
  (∀ (s : State) (p quanta : Nat), ethLink s p = true → regBits s (rEthCtl p) 48 48 = 1 →
    ∃ t, exec (.pfcPause p (regBits s (rEthCtl p) 47 45) quanta) s = .next t ∧
      (quanta ≠ 0 → p ∈ t.host.paused ∧ { t with host := { t.host with paused := s.host.paused } } = s) ∧ (quanta = 0 → p ∉ t.host.paused)) ∧
  (∀ (s : State) (role : Nat), role < 2 → s.mainDom = .up → roleInterval s role ≠ 0 → roleSilent s role = false →
    ∃ t, exec (.roleSilent role) s = .next t ∧
      (role = 0 → roleAction s 0 = 1 → t.host.job = none) ∧ (role = 1 ∨ roleAction s role = 0 → roleSilent t role = true))

/-- RDMA packets in order write and read what the role may reach; doorbells and rings. R336, R337, R338, R344, R349, R504.
An RDMA WRITE packet with the expected PSN and the right key, to memory that the role of its port may write, stores
its bytes, is acknowledged and moves the PSN on; one out of order is answered without effect; a READ is answered with
the bytes read; what goes out waits while the port is paused, a connection with sixteen READs waiting refusing the
next (PRESUMED, log 139); a packet marked CE is answered by a CNP, one in 50 µs, and acts as any other; a packet of
another VLAN is dropped and counted; acknowledgements, CNPs, rate recovery and time-outs change the connection; a
fitting doorbell of a submission ring sets its producer index; RING_ENTRY_TAKE serves the ring that R349 names. That a
refused packet advances the PSN and a duplicate is acknowledged again is the model's choice (log 65). -/
def Obligations.RdmaAndDoorbells : Prop :=
  (∀ (s : State) (k vlan psn addr key : Nat) (data : List Byte) (c : Conn), getConn s k = some c → ethLink s c.port = true →
    vlanOk s c.port vlan = true → data.length ≤ c.mtu →
    (psn = c.expect → key = c.rkey → addr + data.length ≤ doorbellPage → roleMay s (connRole s c) addr data.length true = true →
      ∃ t, exec (.rdmaWrite ⟨k, vlan⟩ psn 0 addr key data false) s = .next t ∧ t.regs = s.regs ∧
        (let ack : Out := ⟨.rdma, [k, 17, psn], []⟩
         let d := { c with expect := (c.expect + 1) % 2 ^ 24, write := none }
         if s.host.paused.contains c.port then t.outbox = s.outbox ∧ getConn t k = some { d with held := c.held ++ [ack] }
         else t.outbox = s.outbox ++ [ack] ∧ getConn t k = some d) ∧
        ∀ x, memByte t x = if addr ≤ x ∧ x < addr + data.length then lget 0 data (x - addr) else memByte s x) ∧
    (psn ≠ c.expect → exec (.rdmaWrite ⟨k, vlan⟩ psn 0 addr key data false) s = .next (rdmaEmit s k
      (if (c.expect + 2 ^ 24 - psn) % 2 ^ 24 ≤ 2 ^ 23 then [17, psn] else [96, c.expect])))) ∧
  (∀ (s : State) (k vlan addr len : Nat) (c : Conn) (bs : List Byte), getConn s k = some c → ethLink s c.port = true →
    vlanOk s c.port vlan = true → readsFull s c = false → readWindow s c addr len = some bs →
    ∃ t, exec (.rdmaRead ⟨k, vlan⟩ c.expect addr c.rkey len false) s = .next t ∧ t.mem = s.mem ∧ t.regs = s.regs ∧
      (s.host.paused.contains c.port = true → t.outbox = s.outbox) ∧
      (s.host.paused.contains c.port = false →
        getConn t k = some { c with expect := (c.expect + max 1 ((len + c.mtu - 1) / c.mtu)) % 2 ^ 24 } ∧
        (bs.length ≤ c.mtu → t.outbox = s.outbox ++ [⟨.rdma, [k, 13, c.expect], bs⟩]))) ∧
  (∀ (s : State) (k vlan addr key len : Nat) (c : Conn), getConn s k = some c → ethLink s c.port = true →
    vlanOk s c.port vlan = true → readsFull s c = true →
    exec (.rdmaRead ⟨k, vlan⟩ c.expect addr key len false) s = .next (rdmaEmit s k [97, c.expect])) ∧
  (∀ (s : State) (k vlan : Nat) (c : Conn), getConn s k = some c → ethLink s c.port = true → vlanOk s c.port vlan = true →
    (∀ psn, exec (.rdmaAck ⟨⟨k, vlan⟩, true⟩ psn) s = exec (.rdmaAck ⟨⟨k, vlan⟩, false⟩ psn) (answerCe s k true)) ∧
    (∀ r v, exec (.doorbell ⟨⟨k, vlan⟩, true⟩ r v) s = exec (.doorbell ⟨⟨k, vlan⟩, false⟩ r v) (answerCe s k true)) ∧
    (∀ psn pos addr key data, data.length ≤ c.mtu →
      exec (.rdmaWrite ⟨k, vlan⟩ psn pos addr key data true) s = exec (.rdmaWrite ⟨k, vlan⟩ psn pos addr key data false) (answerCe s k true)) ∧
    (∀ psn addr key len,
      exec (.rdmaRead ⟨k, vlan⟩ psn addr key len true) s = exec (.rdmaRead ⟨k, vlan⟩ psn addr key len false) (answerCe s k true)) ∧
    (c.cnpAt = 0 ∨ c.cnpAt + 124 ≤ s.drum.beats → s.host.paused.contains c.port = false →
      (answerCe s k true).outbox = s.outbox ++ [⟨.rdma, [k, 129], []⟩] ∧
        getConn (answerCe s k true) k = some { c with cnpAt := s.drum.beats + 1 }) ∧
    (c.cnpAt ≠ 0 → s.drum.beats < c.cnpAt + 124 → answerCe s k true = s)) ∧
  (∀ (s : State) (k vlan psn : Nat) (c : Conn), getConn s k = some c → ethLink s c.port = true → vlanOk s c.port vlan = true →
    s.snap.drains = [] →
    ∃ t, exec (.rdmaAck ⟨⟨k, vlan⟩, false⟩ psn) s = .next t ∧ ∃ d, getConn t k = some d ∧ d.retries = 0 ∧
      d.sent = c.sent.filter fun o => !decide ((psn + 2 ^ 24 - o.psn) % 2 ^ 24 < 2 ^ 23)) ∧
  (∀ (s : State) (k vlan : Nat) (c : Conn), getConn s k = some c →
    (ethLink s c.port = true → vlanOk s c.port vlan = true →
      ∃ t, exec (.cnp ⟨k, vlan⟩) s = .next t ∧ getConn t k = some { c with rate := max 1000 (c.rate - c.rate / 8) } ∧ t.mem = s.mem) ∧
    (exec (.rdmaRateRecovery k) s = .next (putConn s k { c with rate := min 100000 (c.rate + 5000) })) ∧
    (c.sent ≠ [] → c.retries < 7 → ∃ t, exec (.rdmaAckTimeout k) s = .next t ∧ t.mem = s.mem ∧
      (s.host.paused.contains c.port = true → t.outbox = s.outbox) ∧
      (s.host.paused.contains c.port = false → getConn t k = some { c with retries := c.retries + 1 } ∧
        t.outbox = s.outbox ++ (c.sent.filter fun o => !c.held.contains o.out).map fun o => o.out))) ∧
  (∀ (s : State) (k vlan r : Nat) (v : W64) (c : Conn), getConn s k = some c → ethLink s c.port = true → vlanOk s c.port vlan = true →
    r < 256 → r % 2 = 0 → ringEnabled s r = true → pairOpen s r = true →
    ringRole s r = connRole s c → bits v 63 32 = 0 → (BitVec.ofNat 32 v.toNat - getCons s r).toNat ≤ ringDepth s r →
    ∃ t, exec (.doorbell ⟨⟨k, vlan⟩, false⟩ r v) s = .next t ∧ getProd t r = BitVec.ofNat 32 v.toNat ∧ getCons t r = getCons s r ∧ t.mem = s.mem) ∧
  (∀ (s : State) (k vlan : Nat) (c : Conn) (i : Instr), getConn s k = some c → ethLink s c.port = true → vlanOk s c.port vlan = false →
    (∃ psn pos addr key data ce, i = .rdmaWrite ⟨k, vlan⟩ psn pos addr key data ce) ∨
      (∃ psn addr key len ce, i = .rdmaRead ⟨k, vlan⟩ psn addr key len ce) ∨ (∃ psn ce, i = .rdmaAck ⟨⟨k, vlan⟩, ce⟩ psn) ∨ i = .cnp ⟨k, vlan⟩ ∨
      (∃ r v ce, i = .doorbell ⟨⟨k, vlan⟩, ce⟩ r v) →
    exec i s = .next (dropFrame s c.port)) ∧
  (∀ (s : State) (cons q left : Nat), s.mainDom = .up → nextRing s cons = some (q, left) →
    exec (.ringEntryTake cons) s = .next (actOn (putHost s { s.host with drr := kput s.host.drr cons (q, left) }) cons q)) ∧
  (∀ (s : State) (cons : Nat), nextRing s cons = none → exec (.ringEntryTake cons) s = .next s)

/-- Reads, writes, scrub reads, training, fill, temperature and error rates of the memory controllers. R320, R321, R322,
R323, R325, R326, R328. A MEMORY_WRITE stores exactly its bytes; a read that finds an error the decoder corrects
counts it and writes the corrected data back, one it cannot correct writes the data back as read and poisons the
block; a scrub read of the block that the pass has reached moves the pass on; training, full unless the stored values
are valid, whose values G5 stores while it runs, and fill bring MEM_STATUS to FILL and READY with the map of the
channels and zeroed memory; MR4_POLL enters the memory emergency; MEM_ERROR_RATE_SECOND judges a channel. That a scrub
pass takes the usable blocks in ascending order is the model's choice (log 109). -/
def Obligations.MemoryControllers : Prop :=
  (∀ (s : State) (a : Nat) (ck : Bool), a < memTop s →
    exec (.memoryRead a [] ck) s = .next s ∧
    (∀ e, e ≠ [] →
      let data := applyErrors (memBytes s (64 * (a / 64)) 64) e
      (∀ fix, decodeErrors e = some fix → fix ≠ [] → ∃ t, exec (.memoryRead a e ck) s = .next t ∧
        (∀ x, memByte t x = if 64 * (a / 64) ≤ x ∧ x < 64 * (a / 64) + 64 then lget 0 (applyErrors data fix) (x - 64 * (a / 64)) else memByte s x) ∧
        regBits t (rChErr (channelOf s a)) 63 48 = min (2 ^ 16 - 1) (regBits s (rChErr (channelOf s a)) 63 48 + 1)) ∧
      (decodeErrors e = none → ∃ t, exec (.memoryRead a e ck) s = .next t ∧
        (∀ x, memByte t x = if 64 * (a / 64) ≤ x ∧ x < 64 * (a / 64) + 64 then lget 0 data (x - 64 * (a / 64)) else memByte s x) ∧
        a / 64 ∈ t.poison ∧ regBits t rLastErr 63 63 = 1 ∧ regBits t rLastErr 56 48 = channelOf s a ∧
        regBits t (rChErr (channelOf s a)) 47 40 = min (2 ^ 8 - 1) (regBits s (rChErr (channelOf s a)) 47 40 + 1)))) ∧
  (∀ (s : State) (a off : Nat) (data : List Byte) (p : Bool), 64 * (a / 64) + 64 ≤ memTop s → off + data.length ≤ 64 →
    ∃ t, exec (.memoryWrite a off data p []) s = .next t ∧ { t with mem := s.mem, poison := s.poison } = s ∧
      (∀ x, memByte t x = if 64 * (a / 64) + off ≤ x ∧ x < 64 * (a / 64) + off + data.length
        then lget 0 data (x - (64 * (a / 64) + off)) else memByte s x) ∧
      (data.length = 64 → (a / 64 ∈ t.poison ↔ p = true)) ∧ (∀ b, b ≠ a / 64 → (b ∈ t.poison ↔ b ∈ s.poison))) ∧
  (∀ (s : State) (a : Nat), a < memTop s →
    (a / 64 ≠ s.memctl.scrub → exec (.scrubRead a []) s = .next s) ∧
    (a / 64 = s.memctl.scrub → ∃ t, exec (.scrubRead a []) s = .next t ∧
      { t with regs := s.regs, memctl := { t.memctl with scrub := s.memctl.scrub } } = s ∧
      (∀ r, r ≠ rScrub → regGet t r = regGet s r) ∧ t.memctl.scrub = (if memTop s ≤ 64 * (a / 64) + 64 then 0 else a / 64 + 1) ∧
      if memTop s ≤ 64 * (a / 64) + 64 then regBits t rScrub 31 0 = min (2 ^ 32 - 1) (regBits s rScrub 31 0 + 1) ∧ regBits t rScrub 47 32 = 0
      else regBits t rScrub 47 32 = (a / 64 + 1) * 64 * 65536 / memTop s)) ∧
  (∀ (s : State) (failed : List Nat) (devs : List (Nat × Int)) (ms : Nat), s.mainDom = .up → regBits s rMemStatus 63 60 = 1 → s.memctl.filled = false →
    ∃ t, exec (.memoryTrainingComplete failed devs ms) s = .next t ∧ regBits t rMemStatus 63 60 = 2 ∧
      regBits t rMemStatus 59 59 = bitOf (!storedValid s devs) ∧ regBits t rMemStatus 31 16 = min 0xFFFF ms ∧ t.mem = s.mem ∧
      t.memctl.savedVals = (if storedValid s devs = false ∧ s.trust.puf = true ∧ guardRuns s 5 = true then (rangeFrom 0 48).map fun d => lget (0, 0) devs d
        else s.memctl.savedVals) ∧
      ∀ c, c < 384 → regBits t (rChErr c) 31 28 = if c ∈ failed then 2 else if s.consist.rakeOut.getLsbD (c / 24) then 3 else 1) ∧
  (∀ (s : State), s.mainDom = .up → regBits s rMemStatus 63 60 = 2 →
    ∃ t, exec .memoryFillComplete s = .next t ∧ regBits t rMemStatus 63 60 = 3 ∧ t.memctl.filled = true ∧
      ∀ a, memByte t a = if a < 16 * rakeRange then 0 else memByte s a) ∧
  (∀ (s : State) (d : Nat), s.mainDom = .up → d < 48 →
    exec (.mr4Poll []) s = .next { s with memctl := { s.memctl with mr4Hot := [] } } ∧
    (d ∉ s.memctl.mr4Hot → ∃ t, exec (.mr4Poll [d]) s = .next t ∧ t.memctl.mr4Hot = [d] ∧ 1 ∈ t.power.emerg)) ∧
  (∀ (s : State) (c : Nat), c < 384 → ∃ t, exec (.memErrorRateSecond c) s = .next t ∧ kget 0 t.memctl.second c = 0 ∧
    (kget 0 s.memctl.second c ≤ 65536 → kget 0 t.memctl.stormRun c = 0 ∧ { t with memctl := s.memctl } = s) ∧
    (65536 < kget 0 s.memctl.second c → kget 0 t.memctl.stormRun c = kget 0 s.memctl.stormRun c + 1))

/-- Resets, supplies, wake, restarts and the opening of services. R12, R15, R25, R326, R327, R377, R409, R434, R476, R477,
R478, R493. A standby power-on reset keeps flash and loses the rest; STANDBY_RESET_EXIT starts the standby domain,
with both of its slots bad in the boot ROM alone; a main-domain reset loses every coach, table, collective and port
and ends the job; its release brings the domain up; supplies and wake show in their registers; SERVICE_OPEN sets its
bit, the last one not before the trim of the voltage while G4 runs (R434); compartment, guard and standby-controller
restarts are counted, a compartment of the standby controller raising its message alone. The model's own: memory that
lists nothing and reads as zero where R326 calls the content undefined (log 2, DESIGN CHOICE), a restart that is over
within its step (log 60, DESIGN CHOICE) and a supply out of range taken as the power orders off (log 77, DEDUCED). -/
def Obligations.ResetsAndStart : Prop :=
  (∀ (s : State), ∃ t, exec .standbyPowerOnReset s = .next t ∧ t.mainDom = .off ∧ t.regs = [] ∧ t.mem = [] ∧ t.coaches = Coaches.init ∧
      t.flash = s.flash ∧ t.consist.slotA = s.consist.slotA ∧ t.consist.slotB = s.consist.slotB ∧
      t.consist.pendingImg = s.consist.pendingImg ∧ t.consist.pendingAt = s.consist.pendingAt ∧ t.trust.owner = s.trust.owner ∧
      t.host.job = none) ∧
  (∀ (s : State) (puf flow v54 v12 : Bool) (lead : Nat) (bad : List Nat), s.stbyDom ≠ .up → s.mainDom = .off →
    ∃ t, exec (.standbyResetExit puf flow v54 v12 lead bad) s = .next t ∧ t.stbyDom = .up ∧ t.trust.puf = puf ∧
      t.host.offHost = (puf && !bad.contains 25 && s.host.storedOffHost) ∧ t.host.offRack = (puf && !bad.contains 25 && s.host.storedOffRack) ∧
      (0 ∈ bad → 1 ∈ bad → t.belfry.errBoot = true ∧ t.board.stbyBoot = s.board.stbyBoot ∧ t.board.bootLog.length = 2) ∧
      regBits t rPins 63 63 = bitOf flow ∧ regBits t rSupply 0 0 = bitOf v54 ∧ regBits t rSupply 1 1 = bitOf v12 ∧ t.mem = s.mem) ∧
  (∀ (s : State), s.mainDom = .up → ∃ t, exec .mainDomainReset s = .next t ∧ t.mainDom = .inReset ∧ t.coaches = Coaches.init ∧
      t.host.job = none ∧ t.colls = Colls.init ∧ t.tables = Tables.init ∧ t.ports = [] ∧ t.trust.owner = s.trust.owner ∧
      t.flash = s.flash ∧ t.host.offHost = s.host.offHost) ∧
  (∀ (s : State) (bad : List Nat), s.mainDom = .inReset → s.mainPower = true → s.belfry.retained = [] → s.belfry.carried = none → modPlain s = true →
    ∃ t, exec (.mainResetRelease bad) s = .next t ∧ t.mainDom = .up ∧ t.mem = s.mem ∧ t.coaches = s.coaches) ∧
  (∀ (s : State) (i mv : Nat), i < 2 → s.stbyDom = .up →
    (∃ t, exec (.supplyOutOfRange i mv) s = .next t ∧ regBits t rSupply i i = 0 ∧
      (supplyOk s = true → orderOn s = true → pealState s = 2 → pealState t = 3)) ∧
    (∃ t, exec (.supplyInRange i mv) s = .next t ∧ regBits t rSupply i i = 1 ∧ t.mem = s.mem)) ∧
  (∀ (s : State), s.stbyDom = .up →
    exec (.wakeAssert false) s = .next (regPut s rPins 62 62 0) ∧
    (∃ t, exec (.wakeAssert true) s = .next t ∧ regBits t rPins 62 62 = 1 ∧ orderOn t = true ∧
      regBits t rPins 15 0 = min (2 ^ 16 - 1) (regBits s rPins 15 0 + 1))) ∧
  (∀ (s : State) (i : Nat), i ≤ 6 → mayOpen s i = true → ∃ t, exec (.serviceOpen i) s = .next t ∧ svcOpen t i = true) ∧
  (∀ (s : State) (i : Nat), mayOpen s i = false → exec (.serviceOpen i) s = .next s) ∧
  (∀ (s : State), guardRuns s 4 = true → s.power.trimmed = false → exec (.serviceOpen 5) s = .next s) ∧
  (∀ (s : State) (i owns : Nat), s.board.stbyBoot = true →
    exec (.compartmentFault 6 i owns) s = .next (raise s srcSctl 0x24 1 i) ∧
    exec (.compartmentWatchdogExpiry 6 i owns) s = .next (raise s srcSctl 0x24 1 i)) ∧
  (∀ (s : State) (g i owns : Nat), s.mainDom = .up → g < 6 → guardRuns s g = true → (restartsIn s (kget [] s.trust.cRestarts g) 150000000).length < 4 →
    (∃ t, exec (.compartmentFault g i owns) s = .next t ∧ restartCounted s t g ∧ (owns = 0 → t.mem = s.mem)) ∧
    (∃ t, exec (.compartmentWatchdogExpiry g i owns) s = .next t ∧ restartCounted s t g ∧ (owns = 0 → t.mem = s.mem))) ∧
  (∀ (s : State) (g : Nat), s.mainDom = .up → g < 6 → guardHeld s g = false →
    (∃ t, exec (.guardWatchdogExpiry g) s = .next t ∧ guardRestarted s t g) ∧
    (∃ t, exec (.guardKernelFault g) s = .next t ∧ guardRestarted s t g)) ∧
  (∀ (s : State), s.board.stbyBoot = true → ∃ t, exec .sctlWatchdogExpiry s = .next t ∧
      regBits t rSctl 63 48 = min (2 ^ 16 - 1) (regBits s rSctl 63 48 + 1) ∧ t.mem = s.mem ∧ t.mainDom = s.mainDom)

/-- Posting a descriptor, waiting for a match, opening a window, hub-to-hub posts. R163, R165, R166, R168, R171, R173,
R191, R302. The six collective commands: a first descriptor whose fields are in range waits for its other members; one
with a field out of range completes BAD_DESC naming the field. A collective unmatched for MATCH_BEATS completes
UNMATCHED and leaves, or waits for room in its members' completion rings; a matched window whose start beat is here
and which nothing holds opens, next in the order of opening; a neighbour's COLL_CREDIT grants its chunks, at once or,
before the match, kept for it; a neighbour's XH_POST is kept until the descriptors here match. The model's own: that
the completion entries of a collective wait for room in every member's ring (log 112) and the four chunks reserved
ahead from the match on (log 44), both DESIGN CHOICE. -/
def Obligations.CollectivePosts : Prop :=
  (∀ (s : State) (n op : Nat) (raw : List Byte) (i : Instr),
    (i, op) ∈ [(Instr.reduce (.port n) raw, 1), (.allReduce (.port n) raw, 2), (.reduceScatter (.port n) raw, 3),
      (.allGather (.port n) raw, 4), (.broadcast (.port n) raw, 5), (.allToAll (.port n) raw, 6)] →
    raw.length = 64 → dOp raw = op → n < 8 → collTakes s n = true →
    (∀ k, (descChecks s n raw).find? (fun k => !k.2) = some k →
      exec i s = .next (collReport s n (collEntry (dId raw) 6 k.1 0 s.drum.count 0 0 []))) ∧
    ((descChecks s n raw).find? (fun k => !k.2) = none → (∀ c ∈ s.colls.list, c.id ≠ dId raw) → dPorts raw ≠ [n] →
      exec i s = .next { s with colls :=
        { s.colls with list := s.colls.list ++ [newColl s.colls.made (dId raw) n raw s.drum.beats], made := s.colls.made + 1 } })) ∧
  (∀ (s : State) (c : Coll), s.colls.list.find? (fun e => e.phase == .posted && e.id == c.id) = some c →
    s.colls.list.find? (fun e => e.uid == c.uid) = some c → c.since + max 2500 (regBits s rCollCtl 31 0) ≤ s.drum.beats →
    ((∃ p ∈ c.posts, entryRoom s p.1 = false) → exec (.collUnmatched c.id) s =
      .next (putColl s { c with phase := .posting, status := 4, fld := 0, due := c.posts.map fun p => p.1 })) ∧
    ((∀ p ∈ c.posts, entryRoom s p.1 = true) →
      ∃ t, exec (.collUnmatched c.id) s = .next t ∧ ∀ e ∈ t.colls.list, e.uid ≠ c.uid)) ∧
  (∀ (s : State) (slot : Nat) (c : Coll), collOf s slot = some c → c.phase = .matched → c.openAt.toNat ≤ s.drum.count.toNat →
    cutHolds s (collPorts c) = false → changeHolds s (collPorts c) = false →
    ∃ t d, exec (.collWindowOpen slot) s = .next t ∧ collOf t slot = some d ∧ d.phase = .opened ∧ d.openBeat = s.drum.count ∧
      d.posts = c.posts ∧ d.order = s.colls.opens ∧ t.colls.opens = s.colls.opens + 1 ∧ t.mem = s.mem) ∧
  (∀ (s u : State) (c : Ctl), takeCtl s c 0x11 (fromHub c) = (u, true) →
    (∀ d, u.colls.list.find? (fun e => e.slot == field c.msg 1 1 && collCross u e) = some d →
      ∃ t e, exec (.collCredit c) s = .next t ∧ e ∈ t.colls.list ∧ e.uid = d.uid ∧ e.slot = field c.msg 1 1 ∧ t.mem = u.mem ∧
        ∀ k, field c.msg 4 4 ≤ k → k < field c.msg 4 4 + field c.msg 2 1 → kget 0 e.granted (2 ^ 32 * c.port + k) = 1) ∧
    (u.colls.list.find? (fun e => e.slot == field c.msg 1 1 && collCross u e) = none →
      exec (.collCredit c) s = .next { u with colls := { u.colls with grants := u.colls.grants ++
        [{ port := c.port, slot := field c.msg 1 1, first := field c.msg 4 4, count := field c.msg 2 1 }] } })) ∧
  (∀ (s u : State) (c : Ctl), takeCtl s c 0x50 (fromHub c) = (u, true) →
    (∀ e ∈ u.colls.list, e.phase ≠ .posted ∨ e.id ≠ field c.msg 4 4 ∨ e.handed ≠ [1]) →
    ∃ t p, exec (.xhPost c) s = .next t ∧ p ∈ t.colls.posts ∧ p.id = field c.msg 4 4 ∧ p.origin = field c.msg 2 2 ∧
      p.digest = field c.msg 8 4 ∧ t.colls.list = u.colls.list)

/-- Collective data, chunks, dispatches, completion and stalls. R170, R173, R175, R177, R182, R185, R186, R298, R300,
R306. A member's next data flit of an open collective is staged; chunks are served one at a time, in turn, in the
order in which their windows opened: a staged chunk of a copy or of hub memory is served, one of a reduction is
reduced, and the staging that this frees is granted; dispatch flits are counted against their pool, and a credit goes
back once a forwarded flit has left; a collective that is done leaves with its completion entries, or waits for room
in its members' rings; one that misses input is reported once. The model's own: the turn that COLL_CHUNK_REDUCE waits
for (log 44), where staged chunks lie (log 113) and that completion entries wait for room in every ring (log 112), all
DESIGN CHOICE. -/
def Obligations.CollectiveDataAndCompletion : Prop :=
  (∀ (s u : State) (f : Flit) (c : Coll), f.port < 8 → zeroFrom f.payload (nbits (flitHdr f) 18 11) = true → nbits (flitHdr f) 5 0 = 0 →
    1 ≤ nbits (flitHdr f) 18 11 → nbits (flitHdr f) 18 11 ≤ 240 → takeFlit s f 7 2 true = (u, true) → s.host.job.isSome = true →
    collOf u (nbits (flitHdr f) 57 52) = some c → c.phase = .opened → f.port ∈ senders u c →
    kget (0, 0) c.next f.port = (nbits (flitHdr f) 51 32, nbits (flitHdr f) 31 19) → nbits (flitHdr f) 51 32 < kget 0 c.granted f.port →
    nbit (flitHdr f) 6 = false →
    nbits (flitHdr f) 18 11 = min 240 (min (dChunk (collDesc c)) (sendBytes c - nbits (flitHdr f) 51 32 * dChunk (collDesc c)) -
      240 * nbits (flitHdr f) 31 19) →
    ∃ t d, exec (.collData f) s = .next t ∧ collOf t (nbits (flitHdr f) 57 52) = some d ∧ t.mem = s.mem ∧
      ∃ g ∈ d.stage, g.port = f.port ∧ g.chunk = nbits (flitHdr f) 51 32 ∧
        ∃ old, g.bytes = old ++ f.payload.take (nbits (flitHdr f) 18 11)) ∧
  (∀ (s : State) (c : Coll), nextServed s = some c → c ∈ s.colls.list ∧ chunkReady s c = true ∧
    ∀ e ∈ s.colls.list, chunkReady s e = true →
      (s.colls.turn ≤ e.order → s.colls.turn ≤ c.order ∧ c.order ≤ e.order) ∧ (c.order < s.colls.turn → c.order ≤ e.order)) ∧
  (∀ (s : State) (slot : Nat),
    ((∀ c, nextServed s = some c → c.slot ≠ slot ∨ collWaits s = true) → exec (.collChunkReduce slot) s = .next s) ∧
    (∀ c, nextServed s = some c → c.slot = slot → collWaits s = false →
      let u := { s with colls := { s.colls with turn := c.order + 1 } }
      exec (.collChunkReduce slot) s = .next (grantAll (serveChunk u c)) ∧
      (dOp (collDesc c) ≤ 3 → exec (.collChunkReduce slot) s = .next (grantAll (reduceChunk u c))) ∧
      (collOf s slot = some c → c.link = none → dOp (collDesc c) = 4 ∨ dOp (collDesc c) = 5 →
        ∃ t d, exec (.collChunkReduce slot) s = .next t ∧ collOf t slot = some d ∧ d.served = c.served + 1 ∧ t.mem = s.mem))) ∧
  (∀ (s u : State) (f : Flit) (c : Coll) (a b : Nat), f.port < 8 → s.host.job.isSome = true → collOf u (nbits (flitHdr f) 57 52) = some c →
    c.phase = .opened → dOp (collDesc c) = 6 → (collPorts c)[nbits (flitHdr f) 51 49]? = some a →
    (collPorts c)[nbits (flitHdr f) 48 46]? = some b → a = f.port → a ≠ b → poolUsed u a b < 64 →
    let key := 8 * nbits (flitHdr f) 51 49 + nbits (flitHdr f) 48 46
    (takeFlit s f 8 2 true = (u, true) → nbits (flitHdr f) 13 0 = 0 → 1 ≤ nbits (flitHdr f) 25 18 → nbits (flitHdr f) 25 18 ≤ 240 →
      zeroFrom f.payload (nbits (flitHdr f) 25 18) = true →
      ∃ t d, exec (.dispatch f) s = .next t ∧ poolUsed t a b = poolUsed u a b + 1 ∧ collOf t (nbits (flitHdr f) 57 52) = some d ∧
        kget 0 d.blocks key = kget 0 c.blocks key + nbits (flitHdr f) 25 18) ∧
    (takeFlit s f 9 2 true = (u, true) → nbits (flitHdr f) 45 0 = 0 → zeroFrom f.payload 8 = true → dVariable (collDesc c) = true →
      ∃ t d, exec (.dispatchEnd f) s = .next t ∧ poolUsed t a b = poolUsed u a b + 1 ∧ collOf t (nbits (flitHdr f) 57 52) = some d ∧
        key ∈ d.ended)) ∧
  (∀ (s : State) (a b : Nat), a < 8 → b < 8 →
    (unsentFrom s a b < poolUsed s a b →
      ∃ t, exec (.dispatchCredit a b) s = .next t ∧ poolUsed t a b = poolUsed s a b - 1 ∧ t.colls.list = s.colls.list ∧ t.mem = s.mem) ∧
    (poolUsed s a b ≤ unsentFrom s a b → exec (.dispatchCredit a b) s = .next s)) ∧
  (∀ (s : State) (slot : Nat) (c : Coll), collOf s slot = some c → s.colls.list.find? (fun e => e.uid == c.uid) = some c →
    collDone s c = true →
    let status := if poisonUnits s c ≠ 0 then 2 else if c.nan ≠ 0 then 1 else 0
    ((∃ p ∈ c.posts, entryRoom s p.1 = false) → exec (.collComplete slot) s =
      .next (putColl s { c with phase := .posting, status := status, fld := 0, due := c.posts.map fun p => p.1 })) ∧
    ((∀ p ∈ c.posts, entryRoom s p.1 = true) →
      ∃ t, exec (.collComplete slot) s = .next t ∧ ∀ e ∈ t.colls.list, e.uid ≠ c.uid)) ∧
  (∀ (s : State) (slot n : Nat) (c : Coll), collOf s slot = some c → c.phase = .opened → c.stalled = false →
    c.openMark + max 2500 (regBits s rCollCtl 63 32) ≤ s.drum.beats → missingMember s c = some n →
    exec (.collStall slot) s = .next (putColl (raise s (srcTrain c.train) 0x0A 2 (n + c.id * 2 ^ 16)) { c with stalled := true }))

/-- State commands that pass their checks define, release, queue or post. R196, R197, R199, R202, R203, R217, R220.
TABLE_DEFINE of a block that checks makes the table READY with that block; TABLE_RELEASE frees one that is not busy; a
STEP of any GMODE, an EMB_GATHER or an EMB_SCATTER_ADD that may wait joins its table's queue, a scatter-add behind its
source's apply of the next step being STALE_STEP at once and of a later one marked late; an EMB_APPLY for the next
step is posted. A field out of range completes the command naming it. The model's own: the statuses and their order
where the text lists several (log 53, DEDUCED) and that the state service waits for room (log 112, DESIGN CHOICE). -/
def Obligations.StateCommandsTaken : Prop :=
  (∀ (s : State) (src : Origin) (raw : List Byte) (k : Nat × Bool) (i : Instr), postsState s src raw = true →
    (i, cmCmd raw) ∈ [(Instr.tableDefine src raw, 1), (.tableRelease src raw, 2), (.embGather src raw, 4), (.embScatterAdd src raw, 5),
      (.embApply src raw, 6)] →
    (cmdChecks raw).find? (fun k => !k.2) = some k → exec i s = .next (endCmd s { origin := src, raw := raw, start := none, late := false } 2 k.1)) ∧
  (∀ (s : State) (src : Origin) (raw : List Byte), postsState s src raw = true → (cmdChecks raw).find? (fun k => !k.2) = none →
    guardRuns s 3 = true → tableBusy (getTable s (cmTable raw)) = false →
    (cmCmd raw = 1 →
      mayAccessRange s (.guard 3) (s.consist.cfg.worlds.guardSecure.getLsbD 3) (cmStep raw) 256 false = true →
      (rangeFrom 0 4).find? (fun k => blockPoisoned s (cmStep raw / 64 + k)) = none →
      let x := { Table.init with st := .ready, raw := memBytes s (cmStep raw) 256, last := memVal s (cmStep raw + 4) 4 }
      (tableChecks s (cmTable raw) x).find? (fun k => !k.2) = none →
      ∃ t, exec (.tableDefine src raw) s = .next t ∧ getTable t (cmTable raw) = x ∧ regGet t (rStbl (cmTable raw)) = stblOf x ∧
        ∀ j, j ≠ cmTable raw → getTable t j = getTable s j) ∧
    (cmCmd raw = 2 → (getTable s (cmTable raw)).st ≠ .free →
      ∃ t, exec (.tableRelease src raw) s = .next t ∧ getTable t (cmTable raw) = Table.init ∧
        ∀ j, j ≠ cmTable raw → getTable t j = getTable s j)) ∧
  (∀ (s : State) (src : Origin) (raw : List Byte) (i : Instr) (g : Nat), postsState s src raw = true →
    (i, g) ∈ [(Instr.stepLinked src raw, 0), (.stepBuffered src raw, 1), (.stepEmitOnly src raw, 2)] → cmCmd raw = 3 → cmGmode raw = g →
    (cmdChecks raw).find? (fun k => !k.2) = none → (getTable s (cmTable raw)).st = .ready → tbDense (getTable s (cmTable raw)) = true →
    (g = 0 → matchedAlready s (cmGrad raw) = false) → (cmLinkOut raw = true → matchedAlready s (cmOut raw) = false) →
    exec i s = .next (queueCmd s { origin := src, raw := raw, start := none, late := false })) ∧
  (∀ (s : State) (src : Origin) (raw : List Byte), postsState s src raw = true → (cmdChecks raw).find? (fun k => !k.2) = none →
    let x := getTable s (cmTable raw)
    let c : Cmd := { origin := src, raw := raw, start := none, late := false }
    x.st = .ready → tbDense x = false → x.last < cmStep raw →
    (cmCmd raw = 4 → (cmStep raw = x.last + 1 → x.applying = none) → exec (.embGather src raw) s = .next (queueCmd s c)) ∧
    (cmCmd raw = 5 →
      let late := applyPosted x (srcBit src) (cmStep raw)
      (late = false ∨ cmStep raw ≠ x.last + 1 → exec (.embScatterAdd src raw) s = .next (queueCmd s { c with late := late })) ∧
      (late = true → cmStep raw = x.last + 1 → exec (.embScatterAdd src raw) s = .next (endCmd s c 5 0))) ∧
    (cmCmd raw = 6 → applyPosted x (srcBit src) (cmStep raw) = false →
      (x.last + 1 < cmStep raw → exec (.embApply src raw) s = .next (queueCmd s c)) ∧
      (x.last + 1 = cmStep raw → applyAgrees { x with applies := x.applies ++ [c] } = true →
        exec (.embApply src raw) s = .next (putTable s (cmTable raw) { x with applies := x.applies ++ [c] }))))

/-- The head of a queue starts, steps and applies end, and LAST_STEP rises. R199, R200, R201, R206, R213, R215, R220,
R222, R302, R343. While no completion ring makes the service wait: STATE_COMMAND_HEAD starts the step whose number is
next; STEP_END of a linked step whose elements and output are done, and whose hubs agree if it is sharded, ends it and
LAST_STEP is its number; STATE_COMMAND_COMPLETE takes the oldest command at work out of the queue; EMB_APPLY_BEGIN
marks a matched apply, EMB_APPLY_COMPLETE ends it and LAST_STEP rises by one. XH_STEP of a neighbour is kept, or spent
where its step has already failed here. The model's own: statuses and order of the state service (log 53, DEDUCED),
staging (log 113) and the wait for room (log 112), both DESIGN CHOICE. -/
def Obligations.StateCommandsAtWork : Prop :=
  (∀ (s : State) (t : Nat) (c : Cmd) (rest : List Cmd), t < 64 →
    let x := getTable s t
    x.st = .ready → tbDense x = true → tbKind x ≠ 0xF → tbSharded x = false → x.run = none → x.queue = c :: rest →
    cmStep c.raw = (if cmGmode c.raw = 2 then x.last else x.last + 1) → rangeRefused s x (stepRanges x c.raw) = none →
    (cmGmode c.raw ≠ 2 → cutHoldsTable s t = false) → svcWaits s 8 = false →
    ∃ u r, exec (.stateCommandHead t) s = .next u ∧
      getTable u t = { x with queue := rest, run := some r, outFail := x.outFail.filter fun e => e.1 != c.raw } ∧ r.cmd.raw = c.raw ∧
      r.cmd.start = some s.drum.count ∧ r.done = 0 ∧ r.nan = 0 ∧ u.mem = s.mem ∧ u.outbox = s.outbox) ∧
  (∀ (s : State) (t : Nat) (c : Cmd), svcWaits s 8 = false →
    (getTable s t).queue.find? (fun c => c.start.isSome) = some c →
    ∃ u, exec (.stateCommandComplete t) s = .next u ∧ getTable u t = { getTable s t with queue := (getTable s t).queue.erase c }) ∧
  (∀ (s : State) (t : Nat) (r : StepRun),
    let x := getTable s t
    x.run = some r → tbKind x ≠ 0xF → tbKind x ≠ 4 → cmGmode r.cmd.raw = 0 → r.reduced = true → localCount s x ≤ r.done →
    cmLinkOut r.cmd.raw = false ∨ r.outStatus.isSome = true → (tbSharded x = true → r.checked = true) → svcWaits s 8 = false →
    ∃ u, exec (.stepEnd t) s = .next u ∧ getTable u t = { x with run := none, last := cmStep r.cmd.raw }) ∧
  (∀ (s : State) (t : Nat) (c : Cmd) (l : List Cmd),
    let x := getTable s t
    x.applies = c :: l → x.st = .ready → x.applying = none → applyMatched x = true → cutHoldsTable s t = false →
    (x.queue.any fun e => cmCmd e.raw == 5 && !e.late && cmStep e.raw == x.last + 1 &&
      x.applies.any fun a => srcBit a.origin == srcBit e.origin) = false → svcWaits s 8 = false →
    ∃ u, exec (.embApplyBegin t) s = .next u ∧
      (x.overflow = false → (getTable u t).applying = some s.drum.count ∧ (getTable u t).applies = x.applies) ∧
      (x.overflow = true → (getTable u t).last = x.last + 1 ∧ (getTable u t).applies = [])) ∧
  (∀ (s : State) (t : Nat), svcWaits s 8 = false → (getTable s t).st = .ready → (getTable s t).applying.isSome = true →
    ∃ u, exec (.embApplyComplete t) s = .next u ∧ (getTable u t).last = (getTable s t).last + 1 ∧ (getTable u t).applies = [] ∧
      (getTable u t).applying = none ∧ (getTable u t).overflow = false) ∧
  (∀ (s u : State) (c : Ctl), takeCtl s c 0x51 (fromHub c) = (u, true) →
    ((field c.msg 1 1, field c.msg 2 2) ∉ u.colls.stale → (getTable u (field c.msg 1 1)).run = none →
      ∃ t p, exec (.xhStep c) s = .next t ∧ t.colls.steps = u.colls.steps ++ [p] ∧ p.table = field c.msg 1 1 ∧ p.origin = field c.msg 2 2 ∧
        p.grad = field c.msg 4 4 ∧ p.digest = field c.msg 8 8) ∧
    ((field c.msg 1 1, field c.msg 2 2) ∈ u.colls.stale →
      ∃ t, exec (.xhStep c) s = .next t ∧ t.colls.steps = u.colls.steps ∧
        t.colls.stale = u.colls.stale.erase (field c.msg 1 1, field c.msg 2 2)))

/-- A take goes from its command through manifests, cut, data, commit and resume; drains and imports. R24, R232, R234,
R235, R236, R237, R242, R243, R343. A TAKE that passes its checks is under way with the next generation; manifests,
data and SNAP_SENT of its members are kept; the deadline cancels it, the cut freezes it when the hub is quiet, the
commit ends it and sets the resume beat until which what it names stays held, and SNAP_RESUME lets it go. A DRAIN of
an intact local slot, or of the slot here that holds the generation named, whole or DAMAGED, is added; an IMPORT opens
the target slot and its check closes it. While a completion entry of the service waits for room, none of its commands,
commits and ends of restores goes on. -/
def Obligations.TakesAndImports : Prop :=
  (∀ (s : State) (r : Nat) (raw : List Byte), postsSnap s r raw = true → snCmd raw = 1 → s.host.job.isSome = true →
    snapMode s = 1 ∨ (snapMode s = 2 ∧ mirrorReady s = true ∧ (mirrorOwed s = false ∨ snFlag raw 0 = true)) → s.drum.count.toNat + 2500 ≤ snCut raw →
    snMembers raw ≠ 0 →
    ∃ t k, exec (.take (.ring r) raw) s = .next t ∧ t.snap.take = some k ∧ k.raw = raw ∧ k.gen = nextGen s ∧ k.slot = targetSlot s ∧
      k.cut = false ∧ k.fits = false ∧ t.snap.hold = s.snap.hold ∧ t.mem = s.mem) ∧
  (∀ (s : State) (r i : Nat) (raw : List Byte), postsSnap s r raw = true → snCmd raw = 3 →
    (let ok := (localSlots s).filter fun i => slotCommitted s i && slotIntact s i && (snGen raw == 0 || slotGen s i == snGen raw)
     ok = [i] ∨ (ok = [] ∧
      ((rangeFrom 0 (slotCount (snapMode s))).filter fun i => snGen raw != 0 && slotHolds s i (snGen raw)).head? = some i)) →
    ∃ t d, exec (.drain (.ring r) raw) s = .next t ∧ d ∈ t.snap.drains ∧ d.key = s.snap.nextDrain ∧ d.slot = i ∧ d.raw = raw ∧
      d.total = mirrorBytes s i ∧ t.snap.nextDrain = s.snap.nextDrain + 1 ∧ t.mem = s.mem) ∧
  (∀ (s : State) (r : Nat) (raw : List Byte), postsSnap s r raw = true → snCmd raw = 4 → s.host.job = none →
    (snFlag raw 0 = true → ∃ t, exec (.importOpen (.ring r) raw) s = .next t ∧ t.snap.importing = some (targetSlot s)) ∧
    (snFlag raw 0 = false → ∃ t, exec (.importCheck (.ring r) raw) s = .next t ∧ t.snap.importing = none)) ∧
  (∀ (s u : State) (c : Ctl) (k : Take), takeCtl s c 0x31 (fromPartner c) = (u, true) → u.snap.take = some k → u.host.heldEnd = none →
    nbit (snMembers k.raw) c.port = true → c.port ∉ k.last → field c.msg 1 1 = (kget [] k.parts c.port).length → field c.msg 1 1 < 31 →
    ∃ t, exec (.snapManifest c) s = .next t ∧ t.snap.take = some { k with
      parts := kput k.parts c.port (kget [] k.parts c.port ++ [(field c.msg 2 6 * 4096, field c.msg 8 6 * 4096)]) }) ∧
  (∀ (s : State) (k : Take), s.snap.take = some k → s.host.heldEnd = none →
    (k.fits = false → k.cut = false → snCut k.raw ≤ s.drum.count.toNat + 250 →
      ∃ t, exec .snapManifestDeadline s = .next t ∧ t.snap.take = none) ∧
    (k.fits = true → k.cut = false → snCut k.raw ≤ s.drum.count.toNat → cutQuiet s k = true →
      ∃ t q, exec .snapCut s = .next t ∧ t.snap.take = some q ∧ q.cut = true ∧ q.gen = k.gen ∧ q.slot = k.slot ∧ q.raw = k.raw) ∧
    (k.fits = true → k.cut = false → snCut k.raw ≤ s.drum.count.toNat → cutQuiet s k = false →
      ∃ t, exec .snapCut s = .next t ∧ t.snap.take = none) ∧
    (takeWhole k = true → svcWaits s 9 = false → ∃ t, exec .snapCommit s = .next t ∧ t.snap.take = none ∧
      t.snap.hold = some { members := snMembers k.raw, tables := snTables k.raw, resume := s.drum.count + 50 })) ∧
  (∀ (s : State), svcWaits s 9 = true →
    (∀ src raw, exec (.take src raw) s = .next s ∧ exec (.restore src raw) s = .next s ∧ exec (.drain src raw) s = .next s ∧
      exec (.importOpen src raw) s = .next s ∧ exec (.importCheck src raw) s = .next s) ∧
    exec .snapCommit s = .next s ∧ exec .restoreComplete s = .next s) ∧
  (∀ (s : State) (h : SnapHold), s.snap.hold = some h → h.resume.toNat ≤ s.drum.count.toNat →
    exec .snapResume s = .next (putSnap s { s.snap with hold := none })) ∧
  (∀ (s u : State) (f : Flit) (k : Take), f.port < 8 → nbits (flitHdr f) 5 0 = 0 → zeroFrom f.payload (nbits (flitHdr f) 17 10) = true →
    takeFlit s f 0xA 2 true = (u, true) → u.snap.take = some k → nbit (snMembers k.raw) f.port = true → k.cut = true →
    nbits (flitHdr f) 57 50 = k.gen % 256 → nbits (flitHdr f) 49 18 = kget 0 k.got f.port / 240 →
    nbits (flitHdr f) 17 10 = min 240 (partBytes k f.port - kget 0 k.got f.port) → nbits (flitHdr f) 17 10 ≠ 0 →
    kget 0 k.got f.port / 240 < kget 0 k.granted f.port →
    ∃ t, exec (.snapData f) s = .next t ∧
      t.snap.take = some { k with got := kset 0 k.got f.port (kget 0 k.got f.port + nbits (flitHdr f) 17 10) }) ∧
  (∀ (s u : State) (c : Ctl) (k : Take), takeCtl s c 0x34 (fromPartner c) = (u, true) → u.snap.take = some k →
    field c.msg 4 4 = k.gen % 2 ^ 32 → k.cut = true → nbit (snMembers k.raw) c.port = true → field c.msg 8 8 = partBytes k c.port →
    kget 0 k.got c.port = partBytes k c.port →
    ∃ t, exec (.snapSent c) s = .next t ∧ t.snap.take = some { k with sent := nadd k.sent c.port } ∧ t.mem = s.mem)

/-- Restores and the mirrors between hubs. R240, R241, R244, R245, R247, R301. A RESTORE that may use the mirror asks for
its record first (the model's choice, log 51), one that may not begins with the local candidates; credits of its
members for the generation being loaded, and their acknowledgements of it, are kept, and a whole restore completes. A
MIR_BEGIN that fits starts a transfer; MIR_END ends it; MIR_ACK settles the generation being sent, MIR_NAK starts it
again, MIR_CREDIT adds flits, or on P0 fetches the mirror held here, from its first byte where it names GEN 0 (log
51), and MIR_SLOTS keeps the neighbour's slot size. A MIR_NAK on P0 names the mirror held here that the neighbour
could not use: it is DAMAGED (log 51). -/
def Obligations.RestoresAndMirrors : Prop :=
  (∀ (s : State) (r : Nat) (raw : List Byte), postsSnap s r raw = true → snCmd raw = 2 → s.host.job = none →
    (snapMode s = 2 → snFlag raw 0 = false → portActive s 9 = true →
      ∃ t x, exec (.restore (.ring r) raw) s = .next t ∧ t.snap.restore = some x ∧ x.raw = raw ∧ x.begun = false ∧ x.want = 2 ^ 21 ∧
        x.fetched = [] ∧ t.mem = s.mem) ∧
    (snapMode s = 1 ∨ snFlag raw 0 = true ∨ portActive s 9 = false → exec (.restore (.ring r) raw) s =
        .next (restorePump (startLoad (putRestore s (some (newRestore r raw)))
          { newRestore r raw with cands := candidates s (newRestore r raw) })))) ∧
  (∀ (s u : State) (c : Ctl) (r : Restore), u.snap.restore = some r →
    (takeCtl s c 0x39 (fromPartner c) = (u, true) →
      (loadGen u r = some (field c.msg 4 4) → exec (.snapPcredit c) s =
        .next (restorePump (putRestore u (some { r with grants := kset 0 r.grants c.port (kget 0 r.grants c.port + field c.msg 8 4) })))) ∧
      (loadGen u r ≠ some (field c.msg 4 4) → exec (.snapPcredit c) s = .next u)) ∧
    (takeCtl s c 0x38 (fromPartner c) = (u, true) → loadGen u r ≠ some (field c.msg 4 4) → exec (.snapLoadedAck c) s = .next u) ∧
    (takeCtl s c 0x38 (fromPartner c) = (u, true) → loadGen u r = some (field c.msg 4 4) → c.port ∈ r.told →
      ∃ t, exec (.snapLoadedAck c) s = .next t ∧ t.snap.restore = some { r with acked := nadd r.acked c.port } ∧ t.mem = s.mem)) ∧
  (∀ (s : State) (r : Restore), s.snap.restore = some r → restoreWhole s r = true → svcWaits s 9 = false →
    ∃ t, exec .restoreComplete s = .next t ∧ t.snap.restore = none) ∧
  (∀ (s u : State) (c : Ctl), takeCtl s c 0x60 (fromHub c) = (u, true) → c.port = 8 → snapMode u = 2 →
    2 ^ 21 + field c.msg 8 8 ≤ slotUnits u * 2 ^ 21 → ∃ t, exec (.mirBegin c) s = .next t ∧
      t.snap.mirIn = some { gen := field c.msg 4 4, slot := mirrorTarget u, total := field c.msg 8 8, got := 0 }) ∧
  (∀ (s u : State) (c : Ctl) (m : MirrorIn), takeCtl s c 0x61 (fromHub c) = (u, true) → c.port = 8 → u.snap.mirIn = some m →
    field c.msg 4 4 = m.gen → ∃ t, exec (.mirEnd c) s = .next t ∧ t.snap.mirIn = none) ∧
  (∀ (s u : State) (c : Ctl) (m : MirrorOut), c.port = 9 → u.snap.mirOut = some m → field c.msg 4 4 = m.gen % 2 ^ 32 →
    (takeCtl s c 0x62 (fromHub c) = (u, true) → ∃ t, exec (.mirAck c) s = .next t ∧ t.snap.mirOut = none ∧ t.snap.acked = some m.gen ∧
      t.snap.peerGen = max u.snap.peerGen m.gen ∧ regBits t rSnapMirror 63 32 = 0) ∧
    (takeCtl s c 0x63 (fromHub c) = (u, true) → m.begun = true → ∃ t q, exec (.mirNak c) s = .next t ∧ t.snap.mirOut = some q ∧ q.gen = m.gen ∧
      (mirrorReady u = true → q.begun = true ∧ q.flits = 0) ∧ (mirrorReady u = false → q.begun = false)) ∧
    (takeCtl s c 0x64 (fromHub c) = (u, true) → ∃ t q, exec (.mirCredit c) s = .next t ∧ t.snap.mirOut = some q ∧ q.gen = m.gen ∧
      q.credits = m.credits + field c.msg 8 4)) ∧
  (∀ (s u : State) (c : Ctl), takeCtl s c 0x64 (fromHub c) = (u, true) → c.port = 8 →
    (∀ i, field c.msg 4 4 = 0 → newestMirror u = some i → exec (.mirCredit c) s = .next (servePump (openServe u i) (field c.msg 8 4))) ∧
    (field c.msg 4 4 = 0 → newestMirror u = none → exec (.mirCredit c) s = .next (sendCtl u 8 0x63 [(4, 0)])) ∧
    (∀ i n, field c.msg 4 4 ≠ 0 → u.snap.serve = some (i, n) → slotGen u i % 2 ^ 32 = field c.msg 4 4 →
      exec (.mirCredit c) s = .next (servePump u (field c.msg 8 4)))) ∧
  (∀ (s u : State) (c : Ctl), takeCtl s c 0x65 (fromHub c) = (u, true) → c.port = 9 →
    ∃ t, exec (.mirSlots c) s = .next t ∧ t.snap.peerUnits = some (field c.msg 8 8)) ∧
  (∀ (s u : State) (c : Ctl) (i : Nat), takeCtl s c 0x63 (fromHub c) = (u, true) → c.port = 8 →
    [1, 2].find? (fun i => snapMode u == 2 && slotState u i == 2 && slotGen u i % 2 ^ 32 == field c.msg 4 4) = some i →
    exec (.mirNak c) s = .next (setSlotState (putSnap u { u.snap with serve := none }) i 4))

/-- A register write changes each field by its access code, and no other register. R7, R8, R9, R10, R11, R14, R498, R499,
Table 0.3. A write by an initiator that passes the checks changes each bit of the register as the access code of its
field says, puts the RWS bits into the staged copy, and changes no other register, no memory and nothing else.
FLT_ACK, PSEQ_LOAD, SIDE_CTL and LANE_CTL do what their own descriptions say. A write that fails a check is answered
by an access error and changes no register but what the fault message it raises counts. -/
def Obligations.RegisterWrites : Prop :=
  (∀ (s : State) (src addr width : Nat) (v : W64) (secure : Bool) (d : RegDesc) (i p : Nat), regInitiator s src = some secure →
    regCheck s secure true addr width = .ok (d, i, p) →
    let a := addr - regSpace
    (¬ isCommit d → a ≠ 0x200020 → a ≠ rPseqLoad → a ≠ rSideCtl → ¬ (d.blk = 7 ∧ d.off = 8) →
      ∃ t, exec (.registerWrite src addr width v) s = .next t ∧
        (∀ f ∈ d.fields, ∀ k, f.lo ≤ k → k ≤ f.hi →
          (regGet t a).getLsbD k = bitAfter f.acc ((regGet s a).getLsbD k) ((clampVal a v).getLsbD k) (v.getLsbD k) ∧
          (f.acc = .rws → (stagedCopy t a).getLsbD k = v.getLsbD k)) ∧
        (∀ b, b ≠ a → regGet t b = regGet s b ∧ stagedCopy t b = stagedCopy s b) ∧
        t = { s with regs := t.regs, staged := t.staged }) ∧
    (a = 0x200020 → exec (.registerWrite src addr width v) s = .next (ackWrite s v)) ∧
    (a = rPseqLoad → exec (.registerWrite src addr width v) s = .next (pealLoadWrite s v)) ∧
    (a = rSideCtl → exec (.registerWrite src addr width v) s = .next (sideCtlWrite s v)) ∧
    (d.blk = 7 → d.off = 8 → ∃ u, exec (.registerWrite src addr width v) s = .next (if bits v 8 8 = 1 then retest u p else u) ∧
      regGet u a = regGet s a ∧ (∀ k, k < 8 → (stagedCopy u a).getLsbD k = v.getLsbD k) ∧
      (∀ b, b ≠ a → regGet u b = regGet s b) ∧ u = { s with regs := u.regs, staged := u.staged })) ∧
  (∀ (s : State) (src addr width : Nat) (v : W64) (secure : Bool), regInitiator s src = some secure →
    (regCheck s secure true addr width = .error .shape →
      exec (.registerWrite src addr width v) s = .next (emit (raise s src 0x01 1 addr) .regError [src, addr])) ∧
    (regCheck s secure true addr width = .error .domain → exec (.registerWrite src addr width v) s = .next (emit s .regError [src, addr])) ∧
    (regCheck s secure true addr width = .error .world →
      exec (.registerWrite src addr width v) s = .next (emit (raise s src 0x03 1 addr) .regError [src, addr])))

/-- An RWS field is written through its staged copy alone and read from its live copy alone. R11. "The live copy of an RWS
field cannot be written directly. Any write to the field's address goes to the staged copy." For every RWS field of
every register: what a read returns for it is the live copy and does not change with the staged copies; a write of the
register that passes the checks leaves the live copy as it was and puts the written value into the staged copy. -/
def Obligations.StagedCopies : Prop :=
  ∀ (s : State) (a i p : Nat) (d : RegDesc) (f : FieldDesc), regFind a = some (d, i, p) → f ∈ d.fields → f.acc = .rws →
    bits (readReg s a) f.hi f.lo = regBits s a f.hi f.lo ∧
    (∀ x, bits (readReg { s with staged := x } a) f.hi f.lo = bits (readReg s a) f.hi f.lo) ∧
    (∀ (src width : Nat) (v : W64) (secure : Bool), regInitiator s src = some secure →
      regCheck s secure true (regSpace + a) width = .ok (d, i, p) →
      ∃ t, exec (.registerWrite src (regSpace + a) width v) s = .next t ∧ regBits t a f.hi f.lo = regBits s a f.hi f.lo ∧
        bits (stagedCopy t a) f.hi f.lo = bits v f.hi f.lo)

/-- A commit takes every named group live or none of them. R51. "When any named group fails, no group of that write takes
effect." A commit write whose groups all pass their rules makes every staged field of the named groups live and
empties their staged copies; one of whose groups any fails takes no group live, sets ERR and REASON, leaves every
staged copy (PENDING follows from them) and raises COMMIT_REFUSED, class C, with the commit register's address. A
write that names no group only clears the W1C bits it names. -/
def Obligations.Commits : Prop :=
  ∀ (s : State) (src addr : Nat) (v : W64) (secure : Bool) (d : RegDesc) (i p : Nat) (c : Instr), regInitiator s src = some secure →
    regCheck s secure true addr 8 = .ok (d, i, p) → isCommit d → c ∈ [Instr.commit src addr v, .registerWrite src addr 8 v] →
    let creg := addr - regSpace
    let u := commitCleared s creg v
    let gs := groupsOf v
    let as := stagedIn s creg fun g => gs.contains g
    let r := commitReason u (takeStaged u as) creg gs
    (gs = [] → exec c s = .next u) ∧
    (gs ≠ [] → r ≠ 0 →
      let w := regPut (regPut u creg 38 38 1) creg 55 48 r
      exec c s = .next (raise w src 0x02 1 addr) ∧ regBits w creg 38 38 = 1 ∧ regBits w creg 55 48 = r ∧
      (raise w src 0x02 1 addr).staged = s.staged ∧ (∀ g, pendingGroups (raise w src 0x02 1 addr) g = pendingGroups s g) ∧
      ∀ a, stagedMask a ≠ 0 → regGet (raise w src 0x02 1 addr) a = regGet s a) ∧
    (gs ≠ [] → r = 0 →
      exec c s = .next (committed u (storeFlash (takeStaged u as) as) creg gs) ∧
      (∀ a ∈ as, regGet (takeStaged u as) a = (regGet u a &&& ~~~(stagedMask a)) ||| (stagedCopy s a &&& stagedMask a) ∧
        ∀ e ∈ (takeStaged u as).staged, e.1 ≠ a) ∧
      (∀ a, a ∉ as → regGet (takeStaged u as) a = regGet u a) ∧
      (creg / 0x100000 ≤ 3 → (creg / 0x100000 = 3 → 1 ∉ gs) → exec c s = .next (storeFlash (takeStaged u as) as)) ∧
      (creg / 0x100000 = 3 → 1 ∈ gs → exec c s = .next (rebucket (stepW u) (storeFlash (takeStaged u as) as))))

/-- While the main domain is down its registers answer access errors; standby registers stay accessible. R14, R498. While
the main domain is in reset or powered down, every access to a register of a domain other than the standby one is an
access error: a write of it by the standby controller is answered so and changes nothing, and a guard, which does not
run then, writes nothing; a register of the standby domain, once that domain is up, answers the standby controller
whatever the main domain does. That a write of a source that R498 does not list leaves the state as it is, is the
model's reading (log 15, DEDUCED). -/
def Obligations.AccessesWhileTheMainDomainIsDown : Prop :=
  ∀ (s : State) (addr i p : Nat) (d : RegDesc), regSpace ≤ addr → regFind (addr - regSpace) = some (d, i, p) →
    (d.dom ≠ .stby → s.mainDom ≠ .up →
      (∀ secure write width, ∃ e, regCheck s secure write addr width = .error e) ∧
      (∀ v : W64, exec (.registerWrite srcSctl addr (if d.w32 then 4 else 8) v) s = .next (emit s .regError [srcSctl, addr])) ∧
      ∀ (src : Nat) (v : W64), src ≠ srcSctl → exec (.registerWrite src addr (if d.w32 then 4 else 8) v) s = .next s) ∧
    (d.dom = .stby → s.stbyDom = .up →
      (∀ write, regCheck s true write addr (if d.w32 then 4 else 8) = .ok (d, i, p)) ∧
      ∀ v : W64, exec (.registerWrite srcSctl addr (if d.w32 then 4 else 8) v) s = .next (writeReg s srcSctl (addr - regSpace) d p v))

/-- What an accumulator lane holds depends only on the set of additions. R162. "The VALUE, ADDS, OVF and POI that a lane
or record holds after a set of additions depend only on that set of additions." Additions of elements into a zeroed
lane leave the same VALUE, ADDS, OVF and POI in whatever order they come; split among any number of partial lanes that
are then combined by lane additions, in registers or through the records that XST writes and XLDA adds, they leave the
same lane as one after another; the element read out is a function of that lane, FMT, RM, SAT and the draw. -/
def Obligations.AdditionsDependOnTheirSetAlone : Prop :=
  (∀ l m : List AddVal, (∀ v ∈ l, v = .poisoned ∨ ∃ x sub, v = addValOf x sub) → l.Perm m →
    l.foldl XLane.addVal XLane.zero = m.foldl XLane.addVal XLane.zero) ∧
  (∀ ps : List (List AddVal), (∀ l ∈ ps, ∀ v ∈ l, v = .poisoned ∨ ∃ x sub, v = addValOf x sub) →
    (ps.map fun l => l.foldl XLane.addVal XLane.zero).foldl XLane.addLane XLane.zero = ps.flatten.foldl XLane.addVal XLane.zero ∧
    (ps.map fun l => recordLane (recordBytes (l.foldl XLane.addVal XLane.zero))).foldl XLane.addLane XLane.zero =
      ps.flatten.foldl XLane.addVal XLane.zero ∧
    ∀ (f : Fmt) (rm : RMode) (sat : Bool) (r : Nat),
      readOut f rm sat r ((ps.map fun l => l.foldl XLane.addVal XLane.zero).foldl XLane.addLane XLane.zero) =
        readOut f rm sat r (ps.flatten.foldl XLane.addVal XLane.zero))

/-- A step runs the command at the front of the queue; an empty queue idles. R498, R504. A step with command c at the
front of the queue is exec of c on the state with the queue's rest. That an empty queue leaves the state as it is is
the model's choice (log 1). -/
def Obligations.StepRunsTheFrontCommand : Prop :=
  (∀ (s : State) (c : Instr) (rest : List Instr), s.pending = c :: rest → step s = exec c { s with pending := rest }) ∧
  (∀ s : State, s.pending = [] → step s = .next s)

/-- The state after reset: registers at their reset values, nothing staged, memory in canonical form. R12, R50, R478,
Table 0.4. After the standby-domain power-on reset every register holds its reset value, every staged copy equals its
live copy, the main domain is unpowered, nothing waits and memory, which lists nothing, has its canonical form. What
an unlisted byte reads as is the model's choice (log 2). -/
def Obligations.ResetIsSound : Prop :=
  State.reset.memSound ∧ (∀ a, regGet State.reset a = regReset a) ∧ (∀ a, stagedCopy State.reset a = regReset a &&& stagedMask a) ∧
    State.reset.mainDom = .off ∧ State.reset.pending = [] ∧ ∀ a, memByte State.reset a = 0

/-- Every step keeps memory in its canonical form. R77, R321. Whatever command stands at the front of the queue, and
whatever the state, a step from a state whose memory lists its non-zero bytes with addresses strictly rising gives a
state whose memory does so too. So equal memories are equal data, and every byte has one copy. -/
def Obligations.MemoryStaysCanonical : Prop :=
  ∀ s t : State, s.memSound → step s = .next t → t.memSound

/-- No command stops the hub: every command answers a next state. R7, R24, R97, R165, R308, R354, R499. Every command of
the table answers a next state in every state: an error is reported in the hub's own state (a fault message, a status,
an exception), and what does not apply leaves the state as it is. That the spec gives every wrong input a report, so
that exec is total, is the model's reading (log 14, DEDUCED). The statement says that a next state exists and names no
result of any command: the results are the other statements'. -/
def Obligations.EveryCommandAnswersNext : Prop :=
  ∀ (i : Instr) (s : State), ∃ t, exec i s = .next t
end

