-- ==== Sys2Proof/Laws/Maps.lean ====
section
/-! SUPPORT. The laws of the canonical maps: a read after a write, and the canonical form kept. -/

namespace Sys2Proof.Machine

theorem kget_kdel_same {α : Type} (d : α) (m : KMap α) (k : Nat) : kget d (kdel m k) k = d := by
  induction m with
  | nil => rfl
  | cons e m ih =>
    obtain ⟨j, v⟩ := e
    by_cases h : j = k <;> simp [kdel, kget, h, ih]

theorem kget_kdel_ne {α : Type} (d : α) (m : KMap α) {k k' : Nat} (h : k' ≠ k) : kget d (kdel m k) k' = kget d m k' := by
  induction m with
  | nil => rfl
  | cons e m ih =>
    obtain ⟨j, v⟩ := e
    by_cases hj : j = k
    · subst hj
      simp [kdel, kget, ih, Ne.symm h]
    · by_cases hk : j = k' <;> simp [kdel, kget, hj, hk, ih]
      simp [← hk, hj, kget]

theorem kget_kput_same {α : Type} (d : α) (m : KMap α) (k : Nat) (v : α) : kget d (kput m k v) k = v := by
  induction m with
  | nil => simp [kput, kget]
  | cons e m ih =>
    obtain ⟨j, w⟩ := e
    by_cases h : j = k
    · simp [kput, kget, h]
    · by_cases hl : k < j <;> simp [kput, kget, h, hl, ih]

theorem kget_kput_ne {α : Type} (d : α) (m : KMap α) {k k' : Nat} (v : α) (h : k' ≠ k) : kget d (kput m k v) k' = kget d m k' := by
  induction m with
  | nil => simp [kput, kget, Ne.symm h]
  | cons e m ih =>
    obtain ⟨j, w⟩ := e
    by_cases hj : j = k
    · subst hj
      simp [kput, kget, Ne.symm h]
    · by_cases hl : k < j <;> simp [kput, kget, hj, hl, ih, Ne.symm h]

/-- A read after a write to the same key. -/
@[simp] theorem kget_kset_same {α : Type} [DecidableEq α] (d : α) (m : KMap α) (k : Nat) (v : α) :
    kget d (kset d m k v) k = v := by
  by_cases h : v = d
  · simp [kset, h, kget_kdel_same]
  · simp [kset, h, kget_kput_same]

/-- A write leaves every other key alone. -/
theorem kget_kset_ne {α : Type} [DecidableEq α] (d : α) (m : KMap α) {k k' : Nat} (v : α) (h : k' ≠ k) :
    kget d (kset d m k v) k' = kget d m k' := by
  unfold kset
  split
  · exact kget_kdel_ne d m h
  · exact kget_kput_ne d m v h

/-- Both in one equation. -/
theorem kget_kset {α : Type} [DecidableEq α] (d : α) (m : KMap α) (k k' : Nat) (v : α) :
    kget d (kset d m k v) k' = if k' = k then v else kget d m k' := by
  split
  · rename_i h; subst h; simp
  · rename_i h; exact kget_kset_ne d m v h

theorem kwfFrom_mono {α : Type} [DecidableEq α] (d : α) {m : KMap α} {a b : Nat} (h : b ≤ a)
    (hm : kwfFrom d a m = true) : kwfFrom d b m = true := by
  cases m with
  | nil => rfl
  | cons e m =>
    obtain ⟨j, v⟩ := e
    simp only [kwfFrom, Bool.and_eq_true, decide_eq_true_eq] at hm ⊢
    exact ⟨⟨by omega, hm.1.2⟩, hm.2⟩

theorem kwfFrom_kdel {α : Type} [DecidableEq α] (d : α) (m : KMap α) (k : Nat) :
    ∀ a, kwfFrom d a m = true → kwfFrom d a (kdel m k) = true := by
  induction m with
  | nil => intro _ h; exact h
  | cons e m ih =>
    obtain ⟨j, v⟩ := e
    intro a h
    simp only [kwfFrom, Bool.and_eq_true, decide_eq_true_eq] at h
    by_cases hj : j = k
    · simp only [kdel, hj, if_true]
      exact kwfFrom_mono d (by omega) (ih _ h.2)
    · simp only [kdel, hj, if_false, kwfFrom, Bool.and_eq_true, decide_eq_true_eq]
      exact ⟨h.1, ih _ h.2⟩

theorem kwfFrom_kput {α : Type} [DecidableEq α] (d : α) (m : KMap α) (k : Nat) (v : α) (hv : v ≠ d) :
    ∀ a, a ≤ k → kwfFrom d a m = true → kwfFrom d a (kput m k v) = true := by
  induction m with
  | nil => intro a h _; simp [kput, kwfFrom, h, hv]
  | cons e m ih =>
    obtain ⟨j, w⟩ := e
    intro a ha h
    simp only [kwfFrom, Bool.and_eq_true, decide_eq_true_eq] at h
    by_cases hj : j = k
    · subst hj
      simp [kput, kwfFrom, h.1.1, hv, h.2]
    · by_cases hl : k < j
      · simp [kput, hj, hl, kwfFrom, ha, hv, h.1.2, h.2]
      · simp only [kput, hj, hl, if_false, kwfFrom, Bool.and_eq_true, decide_eq_true_eq]
        exact ⟨h.1, ih _ (by omega) h.2⟩

/-- A write keeps the canonical form. -/
theorem kwf_kset {α : Type} [DecidableEq α] (d : α) (m : KMap α) (k : Nat) (v : α) (h : kwf d m = true) :
    kwf d (kset d m k v) = true := by
  unfold kset kwf
  split
  · exact kwfFrom_kdel d m k 0 h
  · rename_i hv; exact kwfFrom_kput d m k v hv 0 (Nat.zero_le _) h

theorem kwfFrom_filter {α : Type} [DecidableEq α] (d : α) (p : Nat × α → Bool) (m : KMap α) :
    ∀ a, kwfFrom d a m = true → kwfFrom d a (m.filter p) = true := by
  induction m with
  | nil => intro _ h; exact h
  | cons e m ih =>
    obtain ⟨j, v⟩ := e
    intro a h
    simp only [kwfFrom, Bool.and_eq_true, decide_eq_true_eq] at h
    by_cases hp : p (j, v) = true
    · simp only [List.filter, hp, kwfFrom, Bool.and_eq_true, decide_eq_true_eq]
      exact ⟨h.1, ih _ h.2⟩
    · simp only [List.filter, hp]
      exact kwfFrom_mono d (by omega) (ih _ h.2)

/-- Taking entries out keeps the canonical form. -/
theorem kwf_filter {α : Type} [DecidableEq α] (d : α) (p : Nat × α → Bool) (m : KMap α) (h : kwf d m = true) :
    kwf d (m.filter p) = true := kwfFrom_filter d p m 0 h

end Sys2Proof.Machine
end

