-- ==== Sys2Proof/Laws/Coach.lean ====
section
/-! SUPPORT. What issue, the register writes of a seat and its advance do: the lemmas that every result of a coach instruction
goes through. -/

namespace Sys2Proof.Machine

@[simp] theorem getSeat_putSeat_same (s : State) (n : Nat) (t : Seat) : getSeat (putSeat s n t) n = t := by
  simp [getSeat, putSeat]

theorem getSeat_putSeat_ne (s : State) {m n : Nat} (t : Seat) (h : m ≠ n) : getSeat (putSeat s n t) m = getSeat s m :=
  kget_kset_ne _ _ _ h

/-- A seat that issues its word acts: nothing before the action stops it. -/
theorem issue_acts {s : State} {n : Nat} {w : Fields} {form : Form} (h : issuesWord s n w form = true) (body : Seat → Res) :
    issue s n w form true [] body = finish s n (body (getSeat s n)) := by
  simp only [issuesWord, Bool.and_eq_true, decide_eq_true_eq] at h
  obtain ⟨⟨⟨⟨h1, h2⟩, hw⟩, h3⟩, h4⟩ := h
  have h5 : ((wordRegs form w ++ []).any fun r => (getSeat s n).pend.contains r) = false := by
    simp only [List.append_nil]
    rw [List.any_eq_false]
    intro r hr
    simpa using List.all_eq_true.mp h4 r hr
  unfold issue
  simp only [h1, hw, ne_eq, not_true_eq_false, if_true, h3, Bool.and_self, Bool.not_true, h5, Nat.not_le.mpr h2, if_false, Bool.false_eq_true]

/-- The same with the opcode's own conditions and further registers. -/
theorem issue_acts_with {s : State} {n : Nat} {w : Fields} {form : Form} {extra : Bool} {regs : List Nat}
    (h : issuesWord s n w form = true) (he : extra = true) (hr : (regs.any fun r => (getSeat s n).pend.contains r) = false)
    (body : Seat → Res) : issue s n w form extra regs body = finish s n (body (getSeat s n)) := by
  subst he
  simp only [issuesWord, Bool.and_eq_true, decide_eq_true_eq] at h
  obtain ⟨⟨⟨⟨h1, h2⟩, hw⟩, h3⟩, h4⟩ := h
  have h5 : ((wordRegs form w ++ regs).any fun r => (getSeat s n).pend.contains r) = false := by
    rw [List.any_append, hr, Bool.or_false, List.any_eq_false]
    intro r hr
    simpa using List.all_eq_true.mp h4 r hr
  unfold issue
  simp only [h1, hw, ne_eq, not_true_eq_false, if_true, h3, Bool.and_self, Bool.not_true, h5, Nat.not_le.mpr h2, if_false, Bool.false_eq_true]

/-- The seat after it wrote `t` and went to `pc`. -/
theorem getSeat_advance (s : State) (n pc : Nat) (t : Seat) :
    getSeat (advance (putSeat s n t) n pc) n = { t with pc := pc, lastIssue := s.coaches.issues + 1 } := by
  simp [advance, putSeat, getSeat]

/-- Writing a seat back and advancing it touches that seat and the count of issues only. -/
theorem onlySeat_advance (s : State) (n pc : Nat) (t : Seat) : onlySeat s (advance (putSeat s n t) n pc) n := by
  refine ⟨fun m h => ?_, rfl⟩
  simp only [advance, getSeat, putSeat]
  rw [kget_kset_ne _ _ _ h, kget_kset_ne _ _ _ h]

/-- Advancing a seat touches it and the count of issues only. -/
theorem onlySeat_advance_self (s : State) (n pc : Nat) : onlySeat s (advance s n pc) n := by
  refine ⟨fun m h => ?_, rfl⟩
  simp only [advance, getSeat, putSeat]
  rw [kget_kset_ne _ _ _ h]

theorem getSeat_advance_self (s : State) (n pc : Nat) :
    getSeat (advance s n pc) n = { getSeat s n with pc := pc, lastIssue := s.coaches.issues + 1 } := by
  simp [advance, putSeat, getSeat]

/-! Register files: a read after a write. -/

@[simp] theorem sget_sset_same (t : Seat) (r : Nat) (v : W64) (p : Bool) : sget (sset t r v p) r = (v, p) := by
  simp [sget, sset]

theorem sget_sset_ne (t : Seat) {r q : Nat} (v : W64) (p : Bool) (h : q ≠ r) : sget (sset t r v p) q = sget t q :=
  kget_kset_ne _ _ _ h

@[simp] theorem mget_mset_same (t : Seat) (m : Nat) (v : W64) : mget (mset t m v) m = v := by simp [mget, mset]

theorem mget_mset_ne (t : Seat) {m q : Nat} (v : W64) (h : q ≠ m) : mget (mset t m v) q = mget t q := kget_kset_ne _ _ _ h

@[simp] theorem vget_vset_same (t : Seat) (v i : Nat) (x : W32) (p : Bool) : vget (vset t v i x p) v i = (x, p) := by
  simp [vget, vset]

theorem vget_vset_ne (t : Seat) {v i u j : Nat} (x : W32) (p : Bool) (hi : i < 64) (hj : j < 64) (h : ¬(u = v ∧ j = i)) :
    vget (vset t v i x p) u j = vget t u j :=
  kget_kset_ne _ _ _ (by intro e; exact h ⟨by omega, by omega⟩)

/-- A seat whose scalar register `d` was written has that one new value. -/
theorem wroteS_sset (s : State) (n pc d : Nat) (x : W64) (p : Bool) :
    wroteS s (advance (putSeat s n (sset (getSeat s n) d x p)) n pc) n pc d (x, p) := by
  refine ⟨onlySeat_advance _ _ _ _, ?_, ?_, ?_, ?_, ?_, ?_⟩ <;> rw [getSeat_advance]
  · simp [sget, sset]
  · intro r h; exact sget_sset_ne _ _ _ h
  · intro v i; rfl
  · intro m; rfl
  · exact ⟨rfl, rfl, rfl, rfl, rfl, rfl, rfl⟩

/-- A seat whose mask register `d` was written has that one new value. -/
theorem wroteM_mset (s : State) (n d : Nat) (x : W64) :
    wroteM s (advance (putSeat s n (mset (getSeat s n) d x)) n (nextPc (getSeat s n))) n d x := by
  refine ⟨onlySeat_advance _ _ _ _, ?_, ?_, ?_, ?_, ?_, ?_⟩ <;> rw [getSeat_advance]
  · simp [mget, mset]
  · intro r h; exact mget_mset_ne _ _ h
  · intro r; rfl
  · intro v i; rfl
  · exact ⟨rfl, rfl, rfl, rfl, rfl, rfl, rfl⟩

/-- Writing one lane changes no other kind of register. -/
theorem vmap_rest (t : Seat) (v : Nat) (sel : W64) (f : Nat → W32 × Bool) :
    vmap t v sel f = { t with vlane := (vmap t v sel f).vlane } := by
  unfold vmap
  generalize rangeFrom 0 64 = l
  induction l generalizing t with
  | nil => rfl
  | cons i l ih =>
    simp only [List.foldl_cons]
    split
    · rw [ih]; rfl
    · exact ih t

theorem mem_rangeFrom (a n i : Nat) : i ∈ rangeFrom a n ↔ a ≤ i ∧ i < a + n := by
  induction n generalizing a with
  | zero => simp [rangeFrom]
  | succ n ih => simp only [rangeFrom, List.mem_cons, ih]; omega

/-- The lanes after a masked write by a list of lanes. -/
theorem vget_vmap_aux (v : Nat) (sel : W64) (f : Nat → W32 × Bool) (u j : Nat) (hj : j < 64) :
    ∀ (l : List Nat) (t : Seat), (∀ i ∈ l, i < 64) →
      vget (l.foldl (fun t i => if sel.getLsbD i then (let x := f i; vset t v i x.1 x.2) else t) t) u j =
        if u = v ∧ j ∈ l ∧ sel.getLsbD j = true then f j else vget t u j := by
  intro l
  induction l with
  | nil => intro t _; simp
  | cons i l ih =>
    intro t h
    rw [List.foldl_cons, ih _ fun k hk => h k (List.mem_cons_of_mem _ hk)]
    by_cases hin : u = v ∧ j ∈ l ∧ sel.getLsbD j = true
    · simp [hin]
    · rw [if_neg hin]
      by_cases hc : u = v ∧ j = i
      · obtain ⟨rfl, rfl⟩ := hc
        by_cases hs : sel.getLsbD j = true <;> simp [hs, vget_vset_same]
      · have hne : ¬(u = v ∧ (j = i ∨ j ∈ l) ∧ sel.getLsbD j = true) := by
          rintro ⟨a, b | b, c⟩
          · exact hc ⟨a, b⟩
          · exact hin ⟨a, b, c⟩
        simp only [List.mem_cons, if_neg hne]
        split
        · exact vget_vset_ne _ _ _ (h i (by simp)) hj hc
        · rfl

/-- Each lane of a masked vector write. -/
theorem vget_vmap (t : Seat) (v : Nat) (sel : W64) (f : Nat → W32 × Bool) (u j : Nat) (hj : j < 64) :
    vget (vmap t v sel f) u j = if u = v ∧ sel.getLsbD j = true then f j else vget t u j := by
  unfold vmap
  rw [vget_vmap_aux v sel f u j hj _ t fun i hi => by have := (mem_rangeFrom 0 64 i).mp hi; omega]
  have : j ∈ rangeFrom 0 64 := (mem_rangeFrom 0 64 j).mpr ⟨by omega, by omega⟩
  simp [this]

/-- A seat whose selected lanes of a vector register were written. -/
theorem wroteV_vmap (s : State) (n d : Nat) (sel : W64) (f : Nat → W32 × Bool) :
    wroteV s (advance (putSeat s n (vmap (getSeat s n) d sel f)) n (nextPc (getSeat s n))) n d sel f := by
  refine ⟨onlySeat_advance _ _ _ _, ?_, ?_, ?_, ?_, ?_, ?_⟩ <;> rw [getSeat_advance]
  · intro i hi
    exact (vget_vmap (getSeat s n) d sel f d i hi).trans (by simp)
  · intro v i h hi
    exact (vget_vmap (getSeat s n) d sel f v i hi).trans (by simp [h])
  · rw [vmap_rest]; intro r; rfl
  · rw [vmap_rest]; intro m; rfl
  · rw [vmap_rest]; exact ⟨rfl, rfl, rfl, rfl, rfl, rfl, rfl⟩

/-- Nothing but the PC is new after an advance. -/
theorem wentTo_advance (s : State) (n pc : Nat) : wentTo s (advance s n pc) n pc := by
  refine ⟨onlySeat_advance_self _ _ _, ?_, ?_, ?_, ?_, ?_⟩ <;> rw [getSeat_advance_self]
  · intro r; rfl
  · intro v i; rfl
  · intro m; rfl
  · exact ⟨rfl, rfl, rfl, rfl, rfl, rfl, rfl⟩

end Sys2Proof.Machine
end

