-- ==== Sys2Proof/Laws/State.lean ====
section
/-! SUPPORT. What each named update of the state leaves as it was, field by field, and what it sets. -/

namespace Sys2Proof.Machine

/-! `regSet` -/
@[simp] theorem regSet_stbyDom (s : State) (a : Nat) (v : W64) : (regSet s a v).stbyDom = s.stbyDom := (rfl)
@[simp] theorem regSet_mainDom (s : State) (a : Nat) (v : W64) : (regSet s a v).mainDom = s.mainDom := (rfl)
@[simp] theorem regSet_mainPower (s : State) (a : Nat) (v : W64) : (regSet s a v).mainPower = s.mainPower := (rfl)
@[simp] theorem regSet_staged (s : State) (a : Nat) (v : W64) : (regSet s a v).staged = s.staged := (rfl)
@[simp] theorem regSet_flash (s : State) (a : Nat) (v : W64) : (regSet s a v).flash = s.flash := (rfl)
@[simp] theorem regSet_mem (s : State) (a : Nat) (v : W64) : (regSet s a v).mem = s.mem := (rfl)
@[simp] theorem regSet_poison (s : State) (a : Nat) (v : W64) : (regSet s a v).poison = s.poison := (rfl)
@[simp] theorem regSet_consist (s : State) (a : Nat) (v : W64) : (regSet s a v).consist = s.consist := (rfl)
@[simp] theorem regSet_coaches (s : State) (a : Nat) (v : W64) : (regSet s a v).coaches = s.coaches := (rfl)
@[simp] theorem regSet_drum (s : State) (a : Nat) (v : W64) : (regSet s a v).drum = s.drum := (rfl)
@[simp] theorem regSet_memctl (s : State) (a : Nat) (v : W64) : (regSet s a v).memctl = s.memctl := (rfl)
@[simp] theorem regSet_belfry (s : State) (a : Nat) (v : W64) : (regSet s a v).belfry = s.belfry := (rfl)
@[simp] theorem regSet_bist (s : State) (a : Nat) (v : W64) : (regSet s a v).bist = s.bist := (rfl)
@[simp] theorem regSet_ports (s : State) (a : Nat) (v : W64) : (regSet s a v).ports = s.ports := (rfl)
@[simp] theorem regSet_host (s : State) (a : Nat) (v : W64) : (regSet s a v).host = s.host := (rfl)
@[simp] theorem regSet_colls (s : State) (a : Nat) (v : W64) : (regSet s a v).colls = s.colls := (rfl)
@[simp] theorem regSet_tables (s : State) (a : Nat) (v : W64) : (regSet s a v).tables = s.tables := (rfl)
@[simp] theorem regSet_snap (s : State) (a : Nat) (v : W64) : (regSet s a v).snap = s.snap := (rfl)
@[simp] theorem regSet_trust (s : State) (a : Nat) (v : W64) : (regSet s a v).trust = s.trust := (rfl)
@[simp] theorem regSet_peal (s : State) (a : Nat) (v : W64) : (regSet s a v).peal = s.peal := (rfl)
@[simp] theorem regSet_power (s : State) (a : Nat) (v : W64) : (regSet s a v).power = s.power := (rfl)
@[simp] theorem regSet_board (s : State) (a : Nat) (v : W64) : (regSet s a v).board = s.board := (rfl)
@[simp] theorem regSet_outbox (s : State) (a : Nat) (v : W64) : (regSet s a v).outbox = s.outbox := (rfl)
@[simp] theorem regSet_free (s : State) (a : Nat) (v : W64) : (regSet s a v).free = s.free := (rfl)
@[simp] theorem regSet_pending (s : State) (a : Nat) (v : W64) : (regSet s a v).pending = s.pending := (rfl)

/-! `regPut` -/
@[simp] theorem regPut_stbyDom (s : State) (a hi lo x : Nat) : (regPut s a hi lo x).stbyDom = s.stbyDom := (rfl)
@[simp] theorem regPut_mainDom (s : State) (a hi lo x : Nat) : (regPut s a hi lo x).mainDom = s.mainDom := (rfl)
@[simp] theorem regPut_mainPower (s : State) (a hi lo x : Nat) : (regPut s a hi lo x).mainPower = s.mainPower := (rfl)
@[simp] theorem regPut_staged (s : State) (a hi lo x : Nat) : (regPut s a hi lo x).staged = s.staged := (rfl)
@[simp] theorem regPut_flash (s : State) (a hi lo x : Nat) : (regPut s a hi lo x).flash = s.flash := (rfl)
@[simp] theorem regPut_mem (s : State) (a hi lo x : Nat) : (regPut s a hi lo x).mem = s.mem := (rfl)
@[simp] theorem regPut_poison (s : State) (a hi lo x : Nat) : (regPut s a hi lo x).poison = s.poison := (rfl)
@[simp] theorem regPut_consist (s : State) (a hi lo x : Nat) : (regPut s a hi lo x).consist = s.consist := (rfl)
@[simp] theorem regPut_coaches (s : State) (a hi lo x : Nat) : (regPut s a hi lo x).coaches = s.coaches := (rfl)
@[simp] theorem regPut_drum (s : State) (a hi lo x : Nat) : (regPut s a hi lo x).drum = s.drum := (rfl)
@[simp] theorem regPut_memctl (s : State) (a hi lo x : Nat) : (regPut s a hi lo x).memctl = s.memctl := (rfl)
@[simp] theorem regPut_belfry (s : State) (a hi lo x : Nat) : (regPut s a hi lo x).belfry = s.belfry := (rfl)
@[simp] theorem regPut_bist (s : State) (a hi lo x : Nat) : (regPut s a hi lo x).bist = s.bist := (rfl)
@[simp] theorem regPut_ports (s : State) (a hi lo x : Nat) : (regPut s a hi lo x).ports = s.ports := (rfl)
@[simp] theorem regPut_host (s : State) (a hi lo x : Nat) : (regPut s a hi lo x).host = s.host := (rfl)
@[simp] theorem regPut_colls (s : State) (a hi lo x : Nat) : (regPut s a hi lo x).colls = s.colls := (rfl)
@[simp] theorem regPut_tables (s : State) (a hi lo x : Nat) : (regPut s a hi lo x).tables = s.tables := (rfl)
@[simp] theorem regPut_snap (s : State) (a hi lo x : Nat) : (regPut s a hi lo x).snap = s.snap := (rfl)
@[simp] theorem regPut_trust (s : State) (a hi lo x : Nat) : (regPut s a hi lo x).trust = s.trust := (rfl)
@[simp] theorem regPut_peal (s : State) (a hi lo x : Nat) : (regPut s a hi lo x).peal = s.peal := (rfl)
@[simp] theorem regPut_power (s : State) (a hi lo x : Nat) : (regPut s a hi lo x).power = s.power := (rfl)
@[simp] theorem regPut_board (s : State) (a hi lo x : Nat) : (regPut s a hi lo x).board = s.board := (rfl)
@[simp] theorem regPut_outbox (s : State) (a hi lo x : Nat) : (regPut s a hi lo x).outbox = s.outbox := (rfl)
@[simp] theorem regPut_free (s : State) (a hi lo x : Nat) : (regPut s a hi lo x).free = s.free := (rfl)
@[simp] theorem regPut_pending (s : State) (a hi lo x : Nat) : (regPut s a hi lo x).pending = s.pending := (rfl)

/-! `regAddSat` -/
@[simp] theorem regAddSat_stbyDom (s : State) (a hi lo n : Nat) : (regAddSat s a hi lo n).stbyDom = s.stbyDom := (rfl)
@[simp] theorem regAddSat_mainDom (s : State) (a hi lo n : Nat) : (regAddSat s a hi lo n).mainDom = s.mainDom := (rfl)
@[simp] theorem regAddSat_mainPower (s : State) (a hi lo n : Nat) : (regAddSat s a hi lo n).mainPower = s.mainPower := (rfl)
@[simp] theorem regAddSat_staged (s : State) (a hi lo n : Nat) : (regAddSat s a hi lo n).staged = s.staged := (rfl)
@[simp] theorem regAddSat_flash (s : State) (a hi lo n : Nat) : (regAddSat s a hi lo n).flash = s.flash := (rfl)
@[simp] theorem regAddSat_mem (s : State) (a hi lo n : Nat) : (regAddSat s a hi lo n).mem = s.mem := (rfl)
@[simp] theorem regAddSat_poison (s : State) (a hi lo n : Nat) : (regAddSat s a hi lo n).poison = s.poison := (rfl)
@[simp] theorem regAddSat_consist (s : State) (a hi lo n : Nat) : (regAddSat s a hi lo n).consist = s.consist := (rfl)
@[simp] theorem regAddSat_coaches (s : State) (a hi lo n : Nat) : (regAddSat s a hi lo n).coaches = s.coaches := (rfl)
@[simp] theorem regAddSat_drum (s : State) (a hi lo n : Nat) : (regAddSat s a hi lo n).drum = s.drum := (rfl)
@[simp] theorem regAddSat_memctl (s : State) (a hi lo n : Nat) : (regAddSat s a hi lo n).memctl = s.memctl := (rfl)
@[simp] theorem regAddSat_belfry (s : State) (a hi lo n : Nat) : (regAddSat s a hi lo n).belfry = s.belfry := (rfl)
@[simp] theorem regAddSat_bist (s : State) (a hi lo n : Nat) : (regAddSat s a hi lo n).bist = s.bist := (rfl)
@[simp] theorem regAddSat_ports (s : State) (a hi lo n : Nat) : (regAddSat s a hi lo n).ports = s.ports := (rfl)
@[simp] theorem regAddSat_host (s : State) (a hi lo n : Nat) : (regAddSat s a hi lo n).host = s.host := (rfl)
@[simp] theorem regAddSat_colls (s : State) (a hi lo n : Nat) : (regAddSat s a hi lo n).colls = s.colls := (rfl)
@[simp] theorem regAddSat_tables (s : State) (a hi lo n : Nat) : (regAddSat s a hi lo n).tables = s.tables := (rfl)
@[simp] theorem regAddSat_snap (s : State) (a hi lo n : Nat) : (regAddSat s a hi lo n).snap = s.snap := (rfl)
@[simp] theorem regAddSat_trust (s : State) (a hi lo n : Nat) : (regAddSat s a hi lo n).trust = s.trust := (rfl)
@[simp] theorem regAddSat_peal (s : State) (a hi lo n : Nat) : (regAddSat s a hi lo n).peal = s.peal := (rfl)
@[simp] theorem regAddSat_power (s : State) (a hi lo n : Nat) : (regAddSat s a hi lo n).power = s.power := (rfl)
@[simp] theorem regAddSat_board (s : State) (a hi lo n : Nat) : (regAddSat s a hi lo n).board = s.board := (rfl)
@[simp] theorem regAddSat_outbox (s : State) (a hi lo n : Nat) : (regAddSat s a hi lo n).outbox = s.outbox := (rfl)
@[simp] theorem regAddSat_free (s : State) (a hi lo n : Nat) : (regAddSat s a hi lo n).free = s.free := (rfl)
@[simp] theorem regAddSat_pending (s : State) (a hi lo n : Nat) : (regAddSat s a hi lo n).pending = s.pending := (rfl)

/-! `regInc` -/
@[simp] theorem regInc_stbyDom (s : State) (a hi lo : Nat) : (regInc s a hi lo).stbyDom = s.stbyDom := (rfl)
@[simp] theorem regInc_mainDom (s : State) (a hi lo : Nat) : (regInc s a hi lo).mainDom = s.mainDom := (rfl)
@[simp] theorem regInc_mainPower (s : State) (a hi lo : Nat) : (regInc s a hi lo).mainPower = s.mainPower := (rfl)
@[simp] theorem regInc_staged (s : State) (a hi lo : Nat) : (regInc s a hi lo).staged = s.staged := (rfl)
@[simp] theorem regInc_flash (s : State) (a hi lo : Nat) : (regInc s a hi lo).flash = s.flash := (rfl)
@[simp] theorem regInc_mem (s : State) (a hi lo : Nat) : (regInc s a hi lo).mem = s.mem := (rfl)
@[simp] theorem regInc_poison (s : State) (a hi lo : Nat) : (regInc s a hi lo).poison = s.poison := (rfl)
@[simp] theorem regInc_consist (s : State) (a hi lo : Nat) : (regInc s a hi lo).consist = s.consist := (rfl)
@[simp] theorem regInc_coaches (s : State) (a hi lo : Nat) : (regInc s a hi lo).coaches = s.coaches := (rfl)
@[simp] theorem regInc_drum (s : State) (a hi lo : Nat) : (regInc s a hi lo).drum = s.drum := (rfl)
@[simp] theorem regInc_memctl (s : State) (a hi lo : Nat) : (regInc s a hi lo).memctl = s.memctl := (rfl)
@[simp] theorem regInc_belfry (s : State) (a hi lo : Nat) : (regInc s a hi lo).belfry = s.belfry := (rfl)
@[simp] theorem regInc_bist (s : State) (a hi lo : Nat) : (regInc s a hi lo).bist = s.bist := (rfl)
@[simp] theorem regInc_ports (s : State) (a hi lo : Nat) : (regInc s a hi lo).ports = s.ports := (rfl)
@[simp] theorem regInc_host (s : State) (a hi lo : Nat) : (regInc s a hi lo).host = s.host := (rfl)
@[simp] theorem regInc_colls (s : State) (a hi lo : Nat) : (regInc s a hi lo).colls = s.colls := (rfl)
@[simp] theorem regInc_tables (s : State) (a hi lo : Nat) : (regInc s a hi lo).tables = s.tables := (rfl)
@[simp] theorem regInc_snap (s : State) (a hi lo : Nat) : (regInc s a hi lo).snap = s.snap := (rfl)
@[simp] theorem regInc_trust (s : State) (a hi lo : Nat) : (regInc s a hi lo).trust = s.trust := (rfl)
@[simp] theorem regInc_peal (s : State) (a hi lo : Nat) : (regInc s a hi lo).peal = s.peal := (rfl)
@[simp] theorem regInc_power (s : State) (a hi lo : Nat) : (regInc s a hi lo).power = s.power := (rfl)
@[simp] theorem regInc_board (s : State) (a hi lo : Nat) : (regInc s a hi lo).board = s.board := (rfl)
@[simp] theorem regInc_outbox (s : State) (a hi lo : Nat) : (regInc s a hi lo).outbox = s.outbox := (rfl)
@[simp] theorem regInc_free (s : State) (a hi lo : Nat) : (regInc s a hi lo).free = s.free := (rfl)
@[simp] theorem regInc_pending (s : State) (a hi lo : Nat) : (regInc s a hi lo).pending = s.pending := (rfl)

/-! `unstage` -/
@[simp] theorem unstage_stbyDom (s : State) (l : List Nat) : (unstage s l).stbyDom = s.stbyDom := rfl
@[simp] theorem unstage_mainDom (s : State) (l : List Nat) : (unstage s l).mainDom = s.mainDom := rfl
@[simp] theorem unstage_mainPower (s : State) (l : List Nat) : (unstage s l).mainPower = s.mainPower := rfl
@[simp] theorem unstage_regs (s : State) (l : List Nat) : (unstage s l).regs = s.regs := rfl
@[simp] theorem unstage_flash (s : State) (l : List Nat) : (unstage s l).flash = s.flash := rfl
@[simp] theorem unstage_mem (s : State) (l : List Nat) : (unstage s l).mem = s.mem := rfl
@[simp] theorem unstage_poison (s : State) (l : List Nat) : (unstage s l).poison = s.poison := rfl
@[simp] theorem unstage_consist (s : State) (l : List Nat) : (unstage s l).consist = s.consist := rfl
@[simp] theorem unstage_coaches (s : State) (l : List Nat) : (unstage s l).coaches = s.coaches := rfl
@[simp] theorem unstage_drum (s : State) (l : List Nat) : (unstage s l).drum = s.drum := rfl
@[simp] theorem unstage_memctl (s : State) (l : List Nat) : (unstage s l).memctl = s.memctl := rfl
@[simp] theorem unstage_belfry (s : State) (l : List Nat) : (unstage s l).belfry = s.belfry := rfl
@[simp] theorem unstage_bist (s : State) (l : List Nat) : (unstage s l).bist = s.bist := rfl
@[simp] theorem unstage_ports (s : State) (l : List Nat) : (unstage s l).ports = s.ports := rfl
@[simp] theorem unstage_host (s : State) (l : List Nat) : (unstage s l).host = s.host := rfl
@[simp] theorem unstage_colls (s : State) (l : List Nat) : (unstage s l).colls = s.colls := rfl
@[simp] theorem unstage_tables (s : State) (l : List Nat) : (unstage s l).tables = s.tables := rfl
@[simp] theorem unstage_snap (s : State) (l : List Nat) : (unstage s l).snap = s.snap := rfl
@[simp] theorem unstage_trust (s : State) (l : List Nat) : (unstage s l).trust = s.trust := rfl
@[simp] theorem unstage_peal (s : State) (l : List Nat) : (unstage s l).peal = s.peal := rfl
@[simp] theorem unstage_power (s : State) (l : List Nat) : (unstage s l).power = s.power := rfl
@[simp] theorem unstage_board (s : State) (l : List Nat) : (unstage s l).board = s.board := rfl
@[simp] theorem unstage_outbox (s : State) (l : List Nat) : (unstage s l).outbox = s.outbox := rfl
@[simp] theorem unstage_free (s : State) (l : List Nat) : (unstage s l).free = s.free := rfl
@[simp] theorem unstage_pending (s : State) (l : List Nat) : (unstage s l).pending = s.pending := rfl

/-! `emit` -/
@[simp] theorem emit_outbox (s : State) (k : OutKind) (l : List Nat) (d : List Byte) : (emit s k l d).outbox = s.outbox ++ [⟨k, l, d⟩] := rfl
@[simp] theorem emit_stbyDom (s : State) (k : OutKind) (l : List Nat) (d : List Byte) : (emit s k l d).stbyDom = s.stbyDom := rfl
@[simp] theorem emit_mainDom (s : State) (k : OutKind) (l : List Nat) (d : List Byte) : (emit s k l d).mainDom = s.mainDom := rfl
@[simp] theorem emit_mainPower (s : State) (k : OutKind) (l : List Nat) (d : List Byte) : (emit s k l d).mainPower = s.mainPower := rfl
@[simp] theorem emit_regs (s : State) (k : OutKind) (l : List Nat) (d : List Byte) : (emit s k l d).regs = s.regs := rfl
@[simp] theorem emit_staged (s : State) (k : OutKind) (l : List Nat) (d : List Byte) : (emit s k l d).staged = s.staged := rfl
@[simp] theorem emit_flash (s : State) (k : OutKind) (l : List Nat) (d : List Byte) : (emit s k l d).flash = s.flash := rfl
@[simp] theorem emit_mem (s : State) (k : OutKind) (l : List Nat) (d : List Byte) : (emit s k l d).mem = s.mem := rfl
@[simp] theorem emit_poison (s : State) (k : OutKind) (l : List Nat) (d : List Byte) : (emit s k l d).poison = s.poison := rfl
@[simp] theorem emit_consist (s : State) (k : OutKind) (l : List Nat) (d : List Byte) : (emit s k l d).consist = s.consist := rfl
@[simp] theorem emit_coaches (s : State) (k : OutKind) (l : List Nat) (d : List Byte) : (emit s k l d).coaches = s.coaches := rfl
@[simp] theorem emit_drum (s : State) (k : OutKind) (l : List Nat) (d : List Byte) : (emit s k l d).drum = s.drum := rfl
@[simp] theorem emit_memctl (s : State) (k : OutKind) (l : List Nat) (d : List Byte) : (emit s k l d).memctl = s.memctl := rfl
@[simp] theorem emit_belfry (s : State) (k : OutKind) (l : List Nat) (d : List Byte) : (emit s k l d).belfry = s.belfry := rfl
@[simp] theorem emit_bist (s : State) (k : OutKind) (l : List Nat) (d : List Byte) : (emit s k l d).bist = s.bist := rfl
@[simp] theorem emit_ports (s : State) (k : OutKind) (l : List Nat) (d : List Byte) : (emit s k l d).ports = s.ports := rfl
@[simp] theorem emit_host (s : State) (k : OutKind) (l : List Nat) (d : List Byte) : (emit s k l d).host = s.host := rfl
@[simp] theorem emit_colls (s : State) (k : OutKind) (l : List Nat) (d : List Byte) : (emit s k l d).colls = s.colls := rfl
@[simp] theorem emit_tables (s : State) (k : OutKind) (l : List Nat) (d : List Byte) : (emit s k l d).tables = s.tables := rfl
@[simp] theorem emit_snap (s : State) (k : OutKind) (l : List Nat) (d : List Byte) : (emit s k l d).snap = s.snap := rfl
@[simp] theorem emit_trust (s : State) (k : OutKind) (l : List Nat) (d : List Byte) : (emit s k l d).trust = s.trust := rfl
@[simp] theorem emit_peal (s : State) (k : OutKind) (l : List Nat) (d : List Byte) : (emit s k l d).peal = s.peal := rfl
@[simp] theorem emit_power (s : State) (k : OutKind) (l : List Nat) (d : List Byte) : (emit s k l d).power = s.power := rfl
@[simp] theorem emit_board (s : State) (k : OutKind) (l : List Nat) (d : List Byte) : (emit s k l d).board = s.board := rfl
@[simp] theorem emit_free (s : State) (k : OutKind) (l : List Nat) (d : List Byte) : (emit s k l d).free = s.free := rfl
@[simp] theorem emit_pending (s : State) (k : OutKind) (l : List Nat) (d : List Byte) : (emit s k l d).pending = s.pending := rfl

/-! `storeCells` -/
@[simp] theorem storeCells_mem (s : State) (l : List (Nat × Byte)) (p : List Nat) : (storeCells s l p).mem = putCells s.mem l := rfl
@[simp] theorem storeCells_stbyDom (s : State) (l : List (Nat × Byte)) (p : List Nat) : (storeCells s l p).stbyDom = s.stbyDom := rfl
@[simp] theorem storeCells_mainDom (s : State) (l : List (Nat × Byte)) (p : List Nat) : (storeCells s l p).mainDom = s.mainDom := rfl
@[simp] theorem storeCells_mainPower (s : State) (l : List (Nat × Byte)) (p : List Nat) : (storeCells s l p).mainPower = s.mainPower := rfl
@[simp] theorem storeCells_regs (s : State) (l : List (Nat × Byte)) (p : List Nat) : (storeCells s l p).regs = s.regs := rfl
@[simp] theorem storeCells_staged (s : State) (l : List (Nat × Byte)) (p : List Nat) : (storeCells s l p).staged = s.staged := rfl
@[simp] theorem storeCells_flash (s : State) (l : List (Nat × Byte)) (p : List Nat) : (storeCells s l p).flash = s.flash := rfl
@[simp] theorem storeCells_consist (s : State) (l : List (Nat × Byte)) (p : List Nat) : (storeCells s l p).consist = s.consist := rfl
@[simp] theorem storeCells_coaches (s : State) (l : List (Nat × Byte)) (p : List Nat) : (storeCells s l p).coaches = s.coaches := rfl
@[simp] theorem storeCells_drum (s : State) (l : List (Nat × Byte)) (p : List Nat) : (storeCells s l p).drum = s.drum := rfl
@[simp] theorem storeCells_memctl (s : State) (l : List (Nat × Byte)) (p : List Nat) : (storeCells s l p).memctl = s.memctl := rfl
@[simp] theorem storeCells_belfry (s : State) (l : List (Nat × Byte)) (p : List Nat) : (storeCells s l p).belfry = s.belfry := rfl
@[simp] theorem storeCells_bist (s : State) (l : List (Nat × Byte)) (p : List Nat) : (storeCells s l p).bist = s.bist := rfl
@[simp] theorem storeCells_ports (s : State) (l : List (Nat × Byte)) (p : List Nat) : (storeCells s l p).ports = s.ports := rfl
@[simp] theorem storeCells_host (s : State) (l : List (Nat × Byte)) (p : List Nat) : (storeCells s l p).host = s.host := rfl
@[simp] theorem storeCells_colls (s : State) (l : List (Nat × Byte)) (p : List Nat) : (storeCells s l p).colls = s.colls := rfl
@[simp] theorem storeCells_tables (s : State) (l : List (Nat × Byte)) (p : List Nat) : (storeCells s l p).tables = s.tables := rfl
@[simp] theorem storeCells_snap (s : State) (l : List (Nat × Byte)) (p : List Nat) : (storeCells s l p).snap = s.snap := rfl
@[simp] theorem storeCells_trust (s : State) (l : List (Nat × Byte)) (p : List Nat) : (storeCells s l p).trust = s.trust := rfl
@[simp] theorem storeCells_peal (s : State) (l : List (Nat × Byte)) (p : List Nat) : (storeCells s l p).peal = s.peal := rfl
@[simp] theorem storeCells_power (s : State) (l : List (Nat × Byte)) (p : List Nat) : (storeCells s l p).power = s.power := rfl
@[simp] theorem storeCells_board (s : State) (l : List (Nat × Byte)) (p : List Nat) : (storeCells s l p).board = s.board := rfl
@[simp] theorem storeCells_outbox (s : State) (l : List (Nat × Byte)) (p : List Nat) : (storeCells s l p).outbox = s.outbox := rfl
@[simp] theorem storeCells_free (s : State) (l : List (Nat × Byte)) (p : List Nat) : (storeCells s l p).free = s.free := rfl
@[simp] theorem storeCells_pending (s : State) (l : List (Nat × Byte)) (p : List Nat) : (storeCells s l p).pending = s.pending := rfl

/-! `storeBytes` -/
@[simp] theorem storeBytes_mem (s : State) (a : Nat) (l : List Byte) (p : Bool) : (storeBytes s a l p).mem = putCells s.mem (cellsAt a l) := rfl
@[simp] theorem storeBytes_stbyDom (s : State) (a : Nat) (l : List Byte) (p : Bool) : (storeBytes s a l p).stbyDom = s.stbyDom := rfl
@[simp] theorem storeBytes_mainDom (s : State) (a : Nat) (l : List Byte) (p : Bool) : (storeBytes s a l p).mainDom = s.mainDom := rfl
@[simp] theorem storeBytes_mainPower (s : State) (a : Nat) (l : List Byte) (p : Bool) : (storeBytes s a l p).mainPower = s.mainPower := rfl
@[simp] theorem storeBytes_regs (s : State) (a : Nat) (l : List Byte) (p : Bool) : (storeBytes s a l p).regs = s.regs := rfl
@[simp] theorem storeBytes_staged (s : State) (a : Nat) (l : List Byte) (p : Bool) : (storeBytes s a l p).staged = s.staged := rfl
@[simp] theorem storeBytes_flash (s : State) (a : Nat) (l : List Byte) (p : Bool) : (storeBytes s a l p).flash = s.flash := rfl
@[simp] theorem storeBytes_consist (s : State) (a : Nat) (l : List Byte) (p : Bool) : (storeBytes s a l p).consist = s.consist := rfl
@[simp] theorem storeBytes_coaches (s : State) (a : Nat) (l : List Byte) (p : Bool) : (storeBytes s a l p).coaches = s.coaches := rfl
@[simp] theorem storeBytes_drum (s : State) (a : Nat) (l : List Byte) (p : Bool) : (storeBytes s a l p).drum = s.drum := rfl
@[simp] theorem storeBytes_memctl (s : State) (a : Nat) (l : List Byte) (p : Bool) : (storeBytes s a l p).memctl = s.memctl := rfl
@[simp] theorem storeBytes_belfry (s : State) (a : Nat) (l : List Byte) (p : Bool) : (storeBytes s a l p).belfry = s.belfry := rfl
@[simp] theorem storeBytes_bist (s : State) (a : Nat) (l : List Byte) (p : Bool) : (storeBytes s a l p).bist = s.bist := rfl
@[simp] theorem storeBytes_ports (s : State) (a : Nat) (l : List Byte) (p : Bool) : (storeBytes s a l p).ports = s.ports := rfl
@[simp] theorem storeBytes_host (s : State) (a : Nat) (l : List Byte) (p : Bool) : (storeBytes s a l p).host = s.host := rfl
@[simp] theorem storeBytes_colls (s : State) (a : Nat) (l : List Byte) (p : Bool) : (storeBytes s a l p).colls = s.colls := rfl
@[simp] theorem storeBytes_tables (s : State) (a : Nat) (l : List Byte) (p : Bool) : (storeBytes s a l p).tables = s.tables := rfl
@[simp] theorem storeBytes_snap (s : State) (a : Nat) (l : List Byte) (p : Bool) : (storeBytes s a l p).snap = s.snap := rfl
@[simp] theorem storeBytes_trust (s : State) (a : Nat) (l : List Byte) (p : Bool) : (storeBytes s a l p).trust = s.trust := rfl
@[simp] theorem storeBytes_peal (s : State) (a : Nat) (l : List Byte) (p : Bool) : (storeBytes s a l p).peal = s.peal := rfl
@[simp] theorem storeBytes_power (s : State) (a : Nat) (l : List Byte) (p : Bool) : (storeBytes s a l p).power = s.power := rfl
@[simp] theorem storeBytes_board (s : State) (a : Nat) (l : List Byte) (p : Bool) : (storeBytes s a l p).board = s.board := rfl
@[simp] theorem storeBytes_outbox (s : State) (a : Nat) (l : List Byte) (p : Bool) : (storeBytes s a l p).outbox = s.outbox := rfl
@[simp] theorem storeBytes_free (s : State) (a : Nat) (l : List Byte) (p : Bool) : (storeBytes s a l p).free = s.free := rfl
@[simp] theorem storeBytes_pending (s : State) (a : Nat) (l : List Byte) (p : Bool) : (storeBytes s a l p).pending = s.pending := rfl

/-! `memZero` -/
@[simp] theorem memZero_stbyDom (s : State) (lo hi : Nat) : (memZero s lo hi).stbyDom = s.stbyDom := rfl
@[simp] theorem memZero_mainDom (s : State) (lo hi : Nat) : (memZero s lo hi).mainDom = s.mainDom := rfl
@[simp] theorem memZero_mainPower (s : State) (lo hi : Nat) : (memZero s lo hi).mainPower = s.mainPower := rfl
@[simp] theorem memZero_regs (s : State) (lo hi : Nat) : (memZero s lo hi).regs = s.regs := rfl
@[simp] theorem memZero_staged (s : State) (lo hi : Nat) : (memZero s lo hi).staged = s.staged := rfl
@[simp] theorem memZero_flash (s : State) (lo hi : Nat) : (memZero s lo hi).flash = s.flash := rfl
@[simp] theorem memZero_consist (s : State) (lo hi : Nat) : (memZero s lo hi).consist = s.consist := rfl
@[simp] theorem memZero_coaches (s : State) (lo hi : Nat) : (memZero s lo hi).coaches = s.coaches := rfl
@[simp] theorem memZero_drum (s : State) (lo hi : Nat) : (memZero s lo hi).drum = s.drum := rfl
@[simp] theorem memZero_memctl (s : State) (lo hi : Nat) : (memZero s lo hi).memctl = s.memctl := rfl
@[simp] theorem memZero_belfry (s : State) (lo hi : Nat) : (memZero s lo hi).belfry = s.belfry := rfl
@[simp] theorem memZero_bist (s : State) (lo hi : Nat) : (memZero s lo hi).bist = s.bist := rfl
@[simp] theorem memZero_ports (s : State) (lo hi : Nat) : (memZero s lo hi).ports = s.ports := rfl
@[simp] theorem memZero_host (s : State) (lo hi : Nat) : (memZero s lo hi).host = s.host := rfl
@[simp] theorem memZero_colls (s : State) (lo hi : Nat) : (memZero s lo hi).colls = s.colls := rfl
@[simp] theorem memZero_tables (s : State) (lo hi : Nat) : (memZero s lo hi).tables = s.tables := rfl
@[simp] theorem memZero_snap (s : State) (lo hi : Nat) : (memZero s lo hi).snap = s.snap := rfl
@[simp] theorem memZero_trust (s : State) (lo hi : Nat) : (memZero s lo hi).trust = s.trust := rfl
@[simp] theorem memZero_peal (s : State) (lo hi : Nat) : (memZero s lo hi).peal = s.peal := rfl
@[simp] theorem memZero_power (s : State) (lo hi : Nat) : (memZero s lo hi).power = s.power := rfl
@[simp] theorem memZero_board (s : State) (lo hi : Nat) : (memZero s lo hi).board = s.board := rfl
@[simp] theorem memZero_outbox (s : State) (lo hi : Nat) : (memZero s lo hi).outbox = s.outbox := rfl
@[simp] theorem memZero_free (s : State) (lo hi : Nat) : (memZero s lo hi).free = s.free := rfl
@[simp] theorem memZero_pending (s : State) (lo hi : Nat) : (memZero s lo hi).pending = s.pending := rfl

/-! `putSeat` -/
@[simp] theorem putSeat_stbyDom (s : State) (n : Nat) (t : Seat) : (putSeat s n t).stbyDom = s.stbyDom := rfl
@[simp] theorem putSeat_mainDom (s : State) (n : Nat) (t : Seat) : (putSeat s n t).mainDom = s.mainDom := rfl
@[simp] theorem putSeat_mainPower (s : State) (n : Nat) (t : Seat) : (putSeat s n t).mainPower = s.mainPower := rfl
@[simp] theorem putSeat_regs (s : State) (n : Nat) (t : Seat) : (putSeat s n t).regs = s.regs := rfl
@[simp] theorem putSeat_staged (s : State) (n : Nat) (t : Seat) : (putSeat s n t).staged = s.staged := rfl
@[simp] theorem putSeat_flash (s : State) (n : Nat) (t : Seat) : (putSeat s n t).flash = s.flash := rfl
@[simp] theorem putSeat_mem (s : State) (n : Nat) (t : Seat) : (putSeat s n t).mem = s.mem := rfl
@[simp] theorem putSeat_poison (s : State) (n : Nat) (t : Seat) : (putSeat s n t).poison = s.poison := rfl
@[simp] theorem putSeat_consist (s : State) (n : Nat) (t : Seat) : (putSeat s n t).consist = s.consist := rfl
@[simp] theorem putSeat_drum (s : State) (n : Nat) (t : Seat) : (putSeat s n t).drum = s.drum := rfl
@[simp] theorem putSeat_memctl (s : State) (n : Nat) (t : Seat) : (putSeat s n t).memctl = s.memctl := rfl
@[simp] theorem putSeat_belfry (s : State) (n : Nat) (t : Seat) : (putSeat s n t).belfry = s.belfry := rfl
@[simp] theorem putSeat_bist (s : State) (n : Nat) (t : Seat) : (putSeat s n t).bist = s.bist := rfl
@[simp] theorem putSeat_ports (s : State) (n : Nat) (t : Seat) : (putSeat s n t).ports = s.ports := rfl
@[simp] theorem putSeat_host (s : State) (n : Nat) (t : Seat) : (putSeat s n t).host = s.host := rfl
@[simp] theorem putSeat_colls (s : State) (n : Nat) (t : Seat) : (putSeat s n t).colls = s.colls := rfl
@[simp] theorem putSeat_tables (s : State) (n : Nat) (t : Seat) : (putSeat s n t).tables = s.tables := rfl
@[simp] theorem putSeat_snap (s : State) (n : Nat) (t : Seat) : (putSeat s n t).snap = s.snap := rfl
@[simp] theorem putSeat_trust (s : State) (n : Nat) (t : Seat) : (putSeat s n t).trust = s.trust := rfl
@[simp] theorem putSeat_peal (s : State) (n : Nat) (t : Seat) : (putSeat s n t).peal = s.peal := rfl
@[simp] theorem putSeat_power (s : State) (n : Nat) (t : Seat) : (putSeat s n t).power = s.power := rfl
@[simp] theorem putSeat_board (s : State) (n : Nat) (t : Seat) : (putSeat s n t).board = s.board := rfl
@[simp] theorem putSeat_outbox (s : State) (n : Nat) (t : Seat) : (putSeat s n t).outbox = s.outbox := rfl
@[simp] theorem putSeat_free (s : State) (n : Nat) (t : Seat) : (putSeat s n t).free = s.free := rfl
@[simp] theorem putSeat_pending (s : State) (n : Nat) (t : Seat) : (putSeat s n t).pending = s.pending := rfl

/-! `putCoach` -/
@[simp] theorem putCoach_stbyDom (s : State) (n : Nat) (t : Coach) : (putCoach s n t).stbyDom = s.stbyDom := rfl
@[simp] theorem putCoach_mainDom (s : State) (n : Nat) (t : Coach) : (putCoach s n t).mainDom = s.mainDom := rfl
@[simp] theorem putCoach_mainPower (s : State) (n : Nat) (t : Coach) : (putCoach s n t).mainPower = s.mainPower := rfl
@[simp] theorem putCoach_regs (s : State) (n : Nat) (t : Coach) : (putCoach s n t).regs = s.regs := rfl
@[simp] theorem putCoach_staged (s : State) (n : Nat) (t : Coach) : (putCoach s n t).staged = s.staged := rfl
@[simp] theorem putCoach_flash (s : State) (n : Nat) (t : Coach) : (putCoach s n t).flash = s.flash := rfl
@[simp] theorem putCoach_mem (s : State) (n : Nat) (t : Coach) : (putCoach s n t).mem = s.mem := rfl
@[simp] theorem putCoach_poison (s : State) (n : Nat) (t : Coach) : (putCoach s n t).poison = s.poison := rfl
@[simp] theorem putCoach_consist (s : State) (n : Nat) (t : Coach) : (putCoach s n t).consist = s.consist := rfl
@[simp] theorem putCoach_drum (s : State) (n : Nat) (t : Coach) : (putCoach s n t).drum = s.drum := rfl
@[simp] theorem putCoach_memctl (s : State) (n : Nat) (t : Coach) : (putCoach s n t).memctl = s.memctl := rfl
@[simp] theorem putCoach_belfry (s : State) (n : Nat) (t : Coach) : (putCoach s n t).belfry = s.belfry := rfl
@[simp] theorem putCoach_bist (s : State) (n : Nat) (t : Coach) : (putCoach s n t).bist = s.bist := rfl
@[simp] theorem putCoach_ports (s : State) (n : Nat) (t : Coach) : (putCoach s n t).ports = s.ports := rfl
@[simp] theorem putCoach_host (s : State) (n : Nat) (t : Coach) : (putCoach s n t).host = s.host := rfl
@[simp] theorem putCoach_colls (s : State) (n : Nat) (t : Coach) : (putCoach s n t).colls = s.colls := rfl
@[simp] theorem putCoach_tables (s : State) (n : Nat) (t : Coach) : (putCoach s n t).tables = s.tables := rfl
@[simp] theorem putCoach_snap (s : State) (n : Nat) (t : Coach) : (putCoach s n t).snap = s.snap := rfl
@[simp] theorem putCoach_trust (s : State) (n : Nat) (t : Coach) : (putCoach s n t).trust = s.trust := rfl
@[simp] theorem putCoach_peal (s : State) (n : Nat) (t : Coach) : (putCoach s n t).peal = s.peal := rfl
@[simp] theorem putCoach_power (s : State) (n : Nat) (t : Coach) : (putCoach s n t).power = s.power := rfl
@[simp] theorem putCoach_board (s : State) (n : Nat) (t : Coach) : (putCoach s n t).board = s.board := rfl
@[simp] theorem putCoach_outbox (s : State) (n : Nat) (t : Coach) : (putCoach s n t).outbox = s.outbox := rfl
@[simp] theorem putCoach_free (s : State) (n : Nat) (t : Coach) : (putCoach s n t).free = s.free := rfl
@[simp] theorem putCoach_pending (s : State) (n : Nat) (t : Coach) : (putCoach s n t).pending = s.pending := rfl

/-! `putTrain` -/
@[simp] theorem putTrain_stbyDom (s : State) (n : Nat) (t : TrainUnit) : (putTrain s n t).stbyDom = s.stbyDom := rfl
@[simp] theorem putTrain_mainDom (s : State) (n : Nat) (t : TrainUnit) : (putTrain s n t).mainDom = s.mainDom := rfl
@[simp] theorem putTrain_mainPower (s : State) (n : Nat) (t : TrainUnit) : (putTrain s n t).mainPower = s.mainPower := rfl
@[simp] theorem putTrain_regs (s : State) (n : Nat) (t : TrainUnit) : (putTrain s n t).regs = s.regs := rfl
@[simp] theorem putTrain_staged (s : State) (n : Nat) (t : TrainUnit) : (putTrain s n t).staged = s.staged := rfl
@[simp] theorem putTrain_flash (s : State) (n : Nat) (t : TrainUnit) : (putTrain s n t).flash = s.flash := rfl
@[simp] theorem putTrain_mem (s : State) (n : Nat) (t : TrainUnit) : (putTrain s n t).mem = s.mem := rfl
@[simp] theorem putTrain_poison (s : State) (n : Nat) (t : TrainUnit) : (putTrain s n t).poison = s.poison := rfl
@[simp] theorem putTrain_consist (s : State) (n : Nat) (t : TrainUnit) : (putTrain s n t).consist = s.consist := rfl
@[simp] theorem putTrain_drum (s : State) (n : Nat) (t : TrainUnit) : (putTrain s n t).drum = s.drum := rfl
@[simp] theorem putTrain_memctl (s : State) (n : Nat) (t : TrainUnit) : (putTrain s n t).memctl = s.memctl := rfl
@[simp] theorem putTrain_belfry (s : State) (n : Nat) (t : TrainUnit) : (putTrain s n t).belfry = s.belfry := rfl
@[simp] theorem putTrain_bist (s : State) (n : Nat) (t : TrainUnit) : (putTrain s n t).bist = s.bist := rfl
@[simp] theorem putTrain_ports (s : State) (n : Nat) (t : TrainUnit) : (putTrain s n t).ports = s.ports := rfl
@[simp] theorem putTrain_host (s : State) (n : Nat) (t : TrainUnit) : (putTrain s n t).host = s.host := rfl
@[simp] theorem putTrain_colls (s : State) (n : Nat) (t : TrainUnit) : (putTrain s n t).colls = s.colls := rfl
@[simp] theorem putTrain_tables (s : State) (n : Nat) (t : TrainUnit) : (putTrain s n t).tables = s.tables := rfl
@[simp] theorem putTrain_snap (s : State) (n : Nat) (t : TrainUnit) : (putTrain s n t).snap = s.snap := rfl
@[simp] theorem putTrain_trust (s : State) (n : Nat) (t : TrainUnit) : (putTrain s n t).trust = s.trust := rfl
@[simp] theorem putTrain_peal (s : State) (n : Nat) (t : TrainUnit) : (putTrain s n t).peal = s.peal := rfl
@[simp] theorem putTrain_power (s : State) (n : Nat) (t : TrainUnit) : (putTrain s n t).power = s.power := rfl
@[simp] theorem putTrain_board (s : State) (n : Nat) (t : TrainUnit) : (putTrain s n t).board = s.board := rfl
@[simp] theorem putTrain_outbox (s : State) (n : Nat) (t : TrainUnit) : (putTrain s n t).outbox = s.outbox := rfl
@[simp] theorem putTrain_free (s : State) (n : Nat) (t : TrainUnit) : (putTrain s n t).free = s.free := rfl
@[simp] theorem putTrain_pending (s : State) (n : Nat) (t : TrainUnit) : (putTrain s n t).pending = s.pending := rfl

/-! `putConsist` -/
@[simp] theorem putConsist_consist (s : State) (c : ConsistSt) : (putConsist s c).consist = c := rfl
@[simp] theorem putConsist_stbyDom (s : State) (c : ConsistSt) : (putConsist s c).stbyDom = s.stbyDom := rfl
@[simp] theorem putConsist_mainDom (s : State) (c : ConsistSt) : (putConsist s c).mainDom = s.mainDom := rfl
@[simp] theorem putConsist_mainPower (s : State) (c : ConsistSt) : (putConsist s c).mainPower = s.mainPower := rfl
@[simp] theorem putConsist_regs (s : State) (c : ConsistSt) : (putConsist s c).regs = s.regs := rfl
@[simp] theorem putConsist_staged (s : State) (c : ConsistSt) : (putConsist s c).staged = s.staged := rfl
@[simp] theorem putConsist_flash (s : State) (c : ConsistSt) : (putConsist s c).flash = s.flash := rfl
@[simp] theorem putConsist_mem (s : State) (c : ConsistSt) : (putConsist s c).mem = s.mem := rfl
@[simp] theorem putConsist_poison (s : State) (c : ConsistSt) : (putConsist s c).poison = s.poison := rfl
@[simp] theorem putConsist_coaches (s : State) (c : ConsistSt) : (putConsist s c).coaches = s.coaches := rfl
@[simp] theorem putConsist_drum (s : State) (c : ConsistSt) : (putConsist s c).drum = s.drum := rfl
@[simp] theorem putConsist_memctl (s : State) (c : ConsistSt) : (putConsist s c).memctl = s.memctl := rfl
@[simp] theorem putConsist_belfry (s : State) (c : ConsistSt) : (putConsist s c).belfry = s.belfry := rfl
@[simp] theorem putConsist_bist (s : State) (c : ConsistSt) : (putConsist s c).bist = s.bist := rfl
@[simp] theorem putConsist_ports (s : State) (c : ConsistSt) : (putConsist s c).ports = s.ports := rfl
@[simp] theorem putConsist_host (s : State) (c : ConsistSt) : (putConsist s c).host = s.host := rfl
@[simp] theorem putConsist_colls (s : State) (c : ConsistSt) : (putConsist s c).colls = s.colls := rfl
@[simp] theorem putConsist_tables (s : State) (c : ConsistSt) : (putConsist s c).tables = s.tables := rfl
@[simp] theorem putConsist_snap (s : State) (c : ConsistSt) : (putConsist s c).snap = s.snap := rfl
@[simp] theorem putConsist_trust (s : State) (c : ConsistSt) : (putConsist s c).trust = s.trust := rfl
@[simp] theorem putConsist_peal (s : State) (c : ConsistSt) : (putConsist s c).peal = s.peal := rfl
@[simp] theorem putConsist_power (s : State) (c : ConsistSt) : (putConsist s c).power = s.power := rfl
@[simp] theorem putConsist_board (s : State) (c : ConsistSt) : (putConsist s c).board = s.board := rfl
@[simp] theorem putConsist_outbox (s : State) (c : ConsistSt) : (putConsist s c).outbox = s.outbox := rfl
@[simp] theorem putConsist_free (s : State) (c : ConsistSt) : (putConsist s c).free = s.free := rfl
@[simp] theorem putConsist_pending (s : State) (c : ConsistSt) : (putConsist s c).pending = s.pending := rfl

/-! `putPort` -/
@[simp] theorem putPort_stbyDom (s : State) (n : Nat) (p : Port) : (putPort s n p).stbyDom = s.stbyDom := rfl
@[simp] theorem putPort_mainDom (s : State) (n : Nat) (p : Port) : (putPort s n p).mainDom = s.mainDom := rfl
@[simp] theorem putPort_mainPower (s : State) (n : Nat) (p : Port) : (putPort s n p).mainPower = s.mainPower := rfl
@[simp] theorem putPort_regs (s : State) (n : Nat) (p : Port) : (putPort s n p).regs = s.regs := rfl
@[simp] theorem putPort_staged (s : State) (n : Nat) (p : Port) : (putPort s n p).staged = s.staged := rfl
@[simp] theorem putPort_flash (s : State) (n : Nat) (p : Port) : (putPort s n p).flash = s.flash := rfl
@[simp] theorem putPort_mem (s : State) (n : Nat) (p : Port) : (putPort s n p).mem = s.mem := rfl
@[simp] theorem putPort_poison (s : State) (n : Nat) (p : Port) : (putPort s n p).poison = s.poison := rfl
@[simp] theorem putPort_consist (s : State) (n : Nat) (p : Port) : (putPort s n p).consist = s.consist := rfl
@[simp] theorem putPort_coaches (s : State) (n : Nat) (p : Port) : (putPort s n p).coaches = s.coaches := rfl
@[simp] theorem putPort_drum (s : State) (n : Nat) (p : Port) : (putPort s n p).drum = s.drum := rfl
@[simp] theorem putPort_memctl (s : State) (n : Nat) (p : Port) : (putPort s n p).memctl = s.memctl := rfl
@[simp] theorem putPort_belfry (s : State) (n : Nat) (p : Port) : (putPort s n p).belfry = s.belfry := rfl
@[simp] theorem putPort_bist (s : State) (n : Nat) (p : Port) : (putPort s n p).bist = s.bist := rfl
@[simp] theorem putPort_host (s : State) (n : Nat) (p : Port) : (putPort s n p).host = s.host := rfl
@[simp] theorem putPort_colls (s : State) (n : Nat) (p : Port) : (putPort s n p).colls = s.colls := rfl
@[simp] theorem putPort_tables (s : State) (n : Nat) (p : Port) : (putPort s n p).tables = s.tables := rfl
@[simp] theorem putPort_snap (s : State) (n : Nat) (p : Port) : (putPort s n p).snap = s.snap := rfl
@[simp] theorem putPort_trust (s : State) (n : Nat) (p : Port) : (putPort s n p).trust = s.trust := rfl
@[simp] theorem putPort_peal (s : State) (n : Nat) (p : Port) : (putPort s n p).peal = s.peal := rfl
@[simp] theorem putPort_power (s : State) (n : Nat) (p : Port) : (putPort s n p).power = s.power := rfl
@[simp] theorem putPort_board (s : State) (n : Nat) (p : Port) : (putPort s n p).board = s.board := rfl
@[simp] theorem putPort_outbox (s : State) (n : Nat) (p : Port) : (putPort s n p).outbox = s.outbox := rfl
@[simp] theorem putPort_free (s : State) (n : Nat) (p : Port) : (putPort s n p).free = s.free := rfl
@[simp] theorem putPort_pending (s : State) (n : Nat) (p : Port) : (putPort s n p).pending = s.pending := rfl

/-! `putLink` -/
@[simp] theorem putLink_stbyDom (s : State) (n : Nat) (l : Link) : (putLink s n l).stbyDom = s.stbyDom := rfl
@[simp] theorem putLink_mainDom (s : State) (n : Nat) (l : Link) : (putLink s n l).mainDom = s.mainDom := rfl
@[simp] theorem putLink_mainPower (s : State) (n : Nat) (l : Link) : (putLink s n l).mainPower = s.mainPower := rfl
@[simp] theorem putLink_regs (s : State) (n : Nat) (l : Link) : (putLink s n l).regs = s.regs := rfl
@[simp] theorem putLink_staged (s : State) (n : Nat) (l : Link) : (putLink s n l).staged = s.staged := rfl
@[simp] theorem putLink_flash (s : State) (n : Nat) (l : Link) : (putLink s n l).flash = s.flash := rfl
@[simp] theorem putLink_mem (s : State) (n : Nat) (l : Link) : (putLink s n l).mem = s.mem := rfl
@[simp] theorem putLink_poison (s : State) (n : Nat) (l : Link) : (putLink s n l).poison = s.poison := rfl
@[simp] theorem putLink_consist (s : State) (n : Nat) (l : Link) : (putLink s n l).consist = s.consist := rfl
@[simp] theorem putLink_coaches (s : State) (n : Nat) (l : Link) : (putLink s n l).coaches = s.coaches := rfl
@[simp] theorem putLink_drum (s : State) (n : Nat) (l : Link) : (putLink s n l).drum = s.drum := rfl
@[simp] theorem putLink_memctl (s : State) (n : Nat) (l : Link) : (putLink s n l).memctl = s.memctl := rfl
@[simp] theorem putLink_belfry (s : State) (n : Nat) (l : Link) : (putLink s n l).belfry = s.belfry := rfl
@[simp] theorem putLink_bist (s : State) (n : Nat) (l : Link) : (putLink s n l).bist = s.bist := rfl
@[simp] theorem putLink_host (s : State) (n : Nat) (l : Link) : (putLink s n l).host = s.host := rfl
@[simp] theorem putLink_colls (s : State) (n : Nat) (l : Link) : (putLink s n l).colls = s.colls := rfl
@[simp] theorem putLink_tables (s : State) (n : Nat) (l : Link) : (putLink s n l).tables = s.tables := rfl
@[simp] theorem putLink_snap (s : State) (n : Nat) (l : Link) : (putLink s n l).snap = s.snap := rfl
@[simp] theorem putLink_trust (s : State) (n : Nat) (l : Link) : (putLink s n l).trust = s.trust := rfl
@[simp] theorem putLink_peal (s : State) (n : Nat) (l : Link) : (putLink s n l).peal = s.peal := rfl
@[simp] theorem putLink_power (s : State) (n : Nat) (l : Link) : (putLink s n l).power = s.power := rfl
@[simp] theorem putLink_board (s : State) (n : Nat) (l : Link) : (putLink s n l).board = s.board := rfl
@[simp] theorem putLink_outbox (s : State) (n : Nat) (l : Link) : (putLink s n l).outbox = s.outbox := rfl
@[simp] theorem putLink_free (s : State) (n : Nat) (l : Link) : (putLink s n l).free = s.free := rfl
@[simp] theorem putLink_pending (s : State) (n : Nat) (l : Link) : (putLink s n l).pending = s.pending := rfl

/-! `putTraining` -/
@[simp] theorem putTraining_stbyDom (s : State) (n : Nat) (t : Training) : (putTraining s n t).stbyDom = s.stbyDom := rfl
@[simp] theorem putTraining_mainDom (s : State) (n : Nat) (t : Training) : (putTraining s n t).mainDom = s.mainDom := rfl
@[simp] theorem putTraining_mainPower (s : State) (n : Nat) (t : Training) : (putTraining s n t).mainPower = s.mainPower := rfl
@[simp] theorem putTraining_regs (s : State) (n : Nat) (t : Training) : (putTraining s n t).regs = s.regs := rfl
@[simp] theorem putTraining_staged (s : State) (n : Nat) (t : Training) : (putTraining s n t).staged = s.staged := rfl
@[simp] theorem putTraining_flash (s : State) (n : Nat) (t : Training) : (putTraining s n t).flash = s.flash := rfl
@[simp] theorem putTraining_mem (s : State) (n : Nat) (t : Training) : (putTraining s n t).mem = s.mem := rfl
@[simp] theorem putTraining_poison (s : State) (n : Nat) (t : Training) : (putTraining s n t).poison = s.poison := rfl
@[simp] theorem putTraining_consist (s : State) (n : Nat) (t : Training) : (putTraining s n t).consist = s.consist := rfl
@[simp] theorem putTraining_coaches (s : State) (n : Nat) (t : Training) : (putTraining s n t).coaches = s.coaches := rfl
@[simp] theorem putTraining_drum (s : State) (n : Nat) (t : Training) : (putTraining s n t).drum = s.drum := rfl
@[simp] theorem putTraining_memctl (s : State) (n : Nat) (t : Training) : (putTraining s n t).memctl = s.memctl := rfl
@[simp] theorem putTraining_belfry (s : State) (n : Nat) (t : Training) : (putTraining s n t).belfry = s.belfry := rfl
@[simp] theorem putTraining_bist (s : State) (n : Nat) (t : Training) : (putTraining s n t).bist = s.bist := rfl
@[simp] theorem putTraining_host (s : State) (n : Nat) (t : Training) : (putTraining s n t).host = s.host := rfl
@[simp] theorem putTraining_colls (s : State) (n : Nat) (t : Training) : (putTraining s n t).colls = s.colls := rfl
@[simp] theorem putTraining_tables (s : State) (n : Nat) (t : Training) : (putTraining s n t).tables = s.tables := rfl
@[simp] theorem putTraining_snap (s : State) (n : Nat) (t : Training) : (putTraining s n t).snap = s.snap := rfl
@[simp] theorem putTraining_trust (s : State) (n : Nat) (t : Training) : (putTraining s n t).trust = s.trust := rfl
@[simp] theorem putTraining_peal (s : State) (n : Nat) (t : Training) : (putTraining s n t).peal = s.peal := rfl
@[simp] theorem putTraining_power (s : State) (n : Nat) (t : Training) : (putTraining s n t).power = s.power := rfl
@[simp] theorem putTraining_board (s : State) (n : Nat) (t : Training) : (putTraining s n t).board = s.board := rfl
@[simp] theorem putTraining_outbox (s : State) (n : Nat) (t : Training) : (putTraining s n t).outbox = s.outbox := rfl
@[simp] theorem putTraining_free (s : State) (n : Nat) (t : Training) : (putTraining s n t).free = s.free := rfl
@[simp] theorem putTraining_pending (s : State) (n : Nat) (t : Training) : (putTraining s n t).pending = s.pending := rfl

/-! `putLine` -/
@[simp] theorem putLine_stbyDom (s : State) (n : Nat) (l : Line) : (putLine s n l).stbyDom = s.stbyDom := rfl
@[simp] theorem putLine_mainDom (s : State) (n : Nat) (l : Line) : (putLine s n l).mainDom = s.mainDom := rfl
@[simp] theorem putLine_mainPower (s : State) (n : Nat) (l : Line) : (putLine s n l).mainPower = s.mainPower := rfl
@[simp] theorem putLine_regs (s : State) (n : Nat) (l : Line) : (putLine s n l).regs = s.regs := rfl
@[simp] theorem putLine_staged (s : State) (n : Nat) (l : Line) : (putLine s n l).staged = s.staged := rfl
@[simp] theorem putLine_flash (s : State) (n : Nat) (l : Line) : (putLine s n l).flash = s.flash := rfl
@[simp] theorem putLine_mem (s : State) (n : Nat) (l : Line) : (putLine s n l).mem = s.mem := rfl
@[simp] theorem putLine_poison (s : State) (n : Nat) (l : Line) : (putLine s n l).poison = s.poison := rfl
@[simp] theorem putLine_consist (s : State) (n : Nat) (l : Line) : (putLine s n l).consist = s.consist := rfl
@[simp] theorem putLine_coaches (s : State) (n : Nat) (l : Line) : (putLine s n l).coaches = s.coaches := rfl
@[simp] theorem putLine_drum (s : State) (n : Nat) (l : Line) : (putLine s n l).drum = s.drum := rfl
@[simp] theorem putLine_memctl (s : State) (n : Nat) (l : Line) : (putLine s n l).memctl = s.memctl := rfl
@[simp] theorem putLine_belfry (s : State) (n : Nat) (l : Line) : (putLine s n l).belfry = s.belfry := rfl
@[simp] theorem putLine_bist (s : State) (n : Nat) (l : Line) : (putLine s n l).bist = s.bist := rfl
@[simp] theorem putLine_host (s : State) (n : Nat) (l : Line) : (putLine s n l).host = s.host := rfl
@[simp] theorem putLine_colls (s : State) (n : Nat) (l : Line) : (putLine s n l).colls = s.colls := rfl
@[simp] theorem putLine_tables (s : State) (n : Nat) (l : Line) : (putLine s n l).tables = s.tables := rfl
@[simp] theorem putLine_snap (s : State) (n : Nat) (l : Line) : (putLine s n l).snap = s.snap := rfl
@[simp] theorem putLine_trust (s : State) (n : Nat) (l : Line) : (putLine s n l).trust = s.trust := rfl
@[simp] theorem putLine_peal (s : State) (n : Nat) (l : Line) : (putLine s n l).peal = s.peal := rfl
@[simp] theorem putLine_power (s : State) (n : Nat) (l : Line) : (putLine s n l).power = s.power := rfl
@[simp] theorem putLine_board (s : State) (n : Nat) (l : Line) : (putLine s n l).board = s.board := rfl
@[simp] theorem putLine_outbox (s : State) (n : Nat) (l : Line) : (putLine s n l).outbox = s.outbox := rfl
@[simp] theorem putLine_free (s : State) (n : Nat) (l : Line) : (putLine s n l).free = s.free := rfl
@[simp] theorem putLine_pending (s : State) (n : Nat) (l : Line) : (putLine s n l).pending = s.pending := rfl

/-! `putHost` -/
@[simp] theorem putHost_host (s : State) (h : HostSt) : (putHost s h).host = h := rfl
@[simp] theorem putHost_stbyDom (s : State) (h : HostSt) : (putHost s h).stbyDom = s.stbyDom := rfl
@[simp] theorem putHost_mainDom (s : State) (h : HostSt) : (putHost s h).mainDom = s.mainDom := rfl
@[simp] theorem putHost_mainPower (s : State) (h : HostSt) : (putHost s h).mainPower = s.mainPower := rfl
@[simp] theorem putHost_regs (s : State) (h : HostSt) : (putHost s h).regs = s.regs := rfl
@[simp] theorem putHost_staged (s : State) (h : HostSt) : (putHost s h).staged = s.staged := rfl
@[simp] theorem putHost_flash (s : State) (h : HostSt) : (putHost s h).flash = s.flash := rfl
@[simp] theorem putHost_mem (s : State) (h : HostSt) : (putHost s h).mem = s.mem := rfl
@[simp] theorem putHost_poison (s : State) (h : HostSt) : (putHost s h).poison = s.poison := rfl
@[simp] theorem putHost_consist (s : State) (h : HostSt) : (putHost s h).consist = s.consist := rfl
@[simp] theorem putHost_coaches (s : State) (h : HostSt) : (putHost s h).coaches = s.coaches := rfl
@[simp] theorem putHost_drum (s : State) (h : HostSt) : (putHost s h).drum = s.drum := rfl
@[simp] theorem putHost_memctl (s : State) (h : HostSt) : (putHost s h).memctl = s.memctl := rfl
@[simp] theorem putHost_belfry (s : State) (h : HostSt) : (putHost s h).belfry = s.belfry := rfl
@[simp] theorem putHost_bist (s : State) (h : HostSt) : (putHost s h).bist = s.bist := rfl
@[simp] theorem putHost_ports (s : State) (h : HostSt) : (putHost s h).ports = s.ports := rfl
@[simp] theorem putHost_colls (s : State) (h : HostSt) : (putHost s h).colls = s.colls := rfl
@[simp] theorem putHost_tables (s : State) (h : HostSt) : (putHost s h).tables = s.tables := rfl
@[simp] theorem putHost_snap (s : State) (h : HostSt) : (putHost s h).snap = s.snap := rfl
@[simp] theorem putHost_trust (s : State) (h : HostSt) : (putHost s h).trust = s.trust := rfl
@[simp] theorem putHost_peal (s : State) (h : HostSt) : (putHost s h).peal = s.peal := rfl
@[simp] theorem putHost_power (s : State) (h : HostSt) : (putHost s h).power = s.power := rfl
@[simp] theorem putHost_board (s : State) (h : HostSt) : (putHost s h).board = s.board := rfl
@[simp] theorem putHost_outbox (s : State) (h : HostSt) : (putHost s h).outbox = s.outbox := rfl
@[simp] theorem putHost_free (s : State) (h : HostSt) : (putHost s h).free = s.free := rfl
@[simp] theorem putHost_pending (s : State) (h : HostSt) : (putHost s h).pending = s.pending := rfl

/-! `setProd` -/
@[simp] theorem setProd_stbyDom (s : State) (q : Nat) (v : W32) : (setProd s q v).stbyDom = s.stbyDom := rfl
@[simp] theorem setProd_mainDom (s : State) (q : Nat) (v : W32) : (setProd s q v).mainDom = s.mainDom := rfl
@[simp] theorem setProd_mainPower (s : State) (q : Nat) (v : W32) : (setProd s q v).mainPower = s.mainPower := rfl
@[simp] theorem setProd_regs (s : State) (q : Nat) (v : W32) : (setProd s q v).regs = s.regs := rfl
@[simp] theorem setProd_staged (s : State) (q : Nat) (v : W32) : (setProd s q v).staged = s.staged := rfl
@[simp] theorem setProd_flash (s : State) (q : Nat) (v : W32) : (setProd s q v).flash = s.flash := rfl
@[simp] theorem setProd_mem (s : State) (q : Nat) (v : W32) : (setProd s q v).mem = s.mem := rfl
@[simp] theorem setProd_poison (s : State) (q : Nat) (v : W32) : (setProd s q v).poison = s.poison := rfl
@[simp] theorem setProd_consist (s : State) (q : Nat) (v : W32) : (setProd s q v).consist = s.consist := rfl
@[simp] theorem setProd_coaches (s : State) (q : Nat) (v : W32) : (setProd s q v).coaches = s.coaches := rfl
@[simp] theorem setProd_drum (s : State) (q : Nat) (v : W32) : (setProd s q v).drum = s.drum := rfl
@[simp] theorem setProd_memctl (s : State) (q : Nat) (v : W32) : (setProd s q v).memctl = s.memctl := rfl
@[simp] theorem setProd_belfry (s : State) (q : Nat) (v : W32) : (setProd s q v).belfry = s.belfry := rfl
@[simp] theorem setProd_bist (s : State) (q : Nat) (v : W32) : (setProd s q v).bist = s.bist := rfl
@[simp] theorem setProd_ports (s : State) (q : Nat) (v : W32) : (setProd s q v).ports = s.ports := rfl
@[simp] theorem setProd_colls (s : State) (q : Nat) (v : W32) : (setProd s q v).colls = s.colls := rfl
@[simp] theorem setProd_tables (s : State) (q : Nat) (v : W32) : (setProd s q v).tables = s.tables := rfl
@[simp] theorem setProd_snap (s : State) (q : Nat) (v : W32) : (setProd s q v).snap = s.snap := rfl
@[simp] theorem setProd_trust (s : State) (q : Nat) (v : W32) : (setProd s q v).trust = s.trust := rfl
@[simp] theorem setProd_peal (s : State) (q : Nat) (v : W32) : (setProd s q v).peal = s.peal := rfl
@[simp] theorem setProd_power (s : State) (q : Nat) (v : W32) : (setProd s q v).power = s.power := rfl
@[simp] theorem setProd_board (s : State) (q : Nat) (v : W32) : (setProd s q v).board = s.board := rfl
@[simp] theorem setProd_outbox (s : State) (q : Nat) (v : W32) : (setProd s q v).outbox = s.outbox := rfl
@[simp] theorem setProd_free (s : State) (q : Nat) (v : W32) : (setProd s q v).free = s.free := rfl
@[simp] theorem setProd_pending (s : State) (q : Nat) (v : W32) : (setProd s q v).pending = s.pending := rfl

/-! `setCons` -/
@[simp] theorem setCons_stbyDom (s : State) (q : Nat) (v : W32) : (setCons s q v).stbyDom = s.stbyDom := rfl
@[simp] theorem setCons_mainDom (s : State) (q : Nat) (v : W32) : (setCons s q v).mainDom = s.mainDom := rfl
@[simp] theorem setCons_mainPower (s : State) (q : Nat) (v : W32) : (setCons s q v).mainPower = s.mainPower := rfl
@[simp] theorem setCons_regs (s : State) (q : Nat) (v : W32) : (setCons s q v).regs = s.regs := rfl
@[simp] theorem setCons_staged (s : State) (q : Nat) (v : W32) : (setCons s q v).staged = s.staged := rfl
@[simp] theorem setCons_flash (s : State) (q : Nat) (v : W32) : (setCons s q v).flash = s.flash := rfl
@[simp] theorem setCons_mem (s : State) (q : Nat) (v : W32) : (setCons s q v).mem = s.mem := rfl
@[simp] theorem setCons_poison (s : State) (q : Nat) (v : W32) : (setCons s q v).poison = s.poison := rfl
@[simp] theorem setCons_consist (s : State) (q : Nat) (v : W32) : (setCons s q v).consist = s.consist := rfl
@[simp] theorem setCons_coaches (s : State) (q : Nat) (v : W32) : (setCons s q v).coaches = s.coaches := rfl
@[simp] theorem setCons_drum (s : State) (q : Nat) (v : W32) : (setCons s q v).drum = s.drum := rfl
@[simp] theorem setCons_memctl (s : State) (q : Nat) (v : W32) : (setCons s q v).memctl = s.memctl := rfl
@[simp] theorem setCons_belfry (s : State) (q : Nat) (v : W32) : (setCons s q v).belfry = s.belfry := rfl
@[simp] theorem setCons_bist (s : State) (q : Nat) (v : W32) : (setCons s q v).bist = s.bist := rfl
@[simp] theorem setCons_ports (s : State) (q : Nat) (v : W32) : (setCons s q v).ports = s.ports := rfl
@[simp] theorem setCons_colls (s : State) (q : Nat) (v : W32) : (setCons s q v).colls = s.colls := rfl
@[simp] theorem setCons_tables (s : State) (q : Nat) (v : W32) : (setCons s q v).tables = s.tables := rfl
@[simp] theorem setCons_snap (s : State) (q : Nat) (v : W32) : (setCons s q v).snap = s.snap := rfl
@[simp] theorem setCons_trust (s : State) (q : Nat) (v : W32) : (setCons s q v).trust = s.trust := rfl
@[simp] theorem setCons_peal (s : State) (q : Nat) (v : W32) : (setCons s q v).peal = s.peal := rfl
@[simp] theorem setCons_power (s : State) (q : Nat) (v : W32) : (setCons s q v).power = s.power := rfl
@[simp] theorem setCons_board (s : State) (q : Nat) (v : W32) : (setCons s q v).board = s.board := rfl
@[simp] theorem setCons_outbox (s : State) (q : Nat) (v : W32) : (setCons s q v).outbox = s.outbox := rfl
@[simp] theorem setCons_free (s : State) (q : Nat) (v : W32) : (setCons s q v).free = s.free := rfl
@[simp] theorem setCons_pending (s : State) (q : Nat) (v : W32) : (setCons s q v).pending = s.pending := rfl

/-! `putPower` -/
@[simp] theorem putPower_power (s : State) (p : Power) : (putPower s p).power = p := rfl
@[simp] theorem putPower_stbyDom (s : State) (p : Power) : (putPower s p).stbyDom = s.stbyDom := rfl
@[simp] theorem putPower_mainDom (s : State) (p : Power) : (putPower s p).mainDom = s.mainDom := rfl
@[simp] theorem putPower_mainPower (s : State) (p : Power) : (putPower s p).mainPower = s.mainPower := rfl
@[simp] theorem putPower_regs (s : State) (p : Power) : (putPower s p).regs = s.regs := rfl
@[simp] theorem putPower_staged (s : State) (p : Power) : (putPower s p).staged = s.staged := rfl
@[simp] theorem putPower_flash (s : State) (p : Power) : (putPower s p).flash = s.flash := rfl
@[simp] theorem putPower_mem (s : State) (p : Power) : (putPower s p).mem = s.mem := rfl
@[simp] theorem putPower_poison (s : State) (p : Power) : (putPower s p).poison = s.poison := rfl
@[simp] theorem putPower_consist (s : State) (p : Power) : (putPower s p).consist = s.consist := rfl
@[simp] theorem putPower_coaches (s : State) (p : Power) : (putPower s p).coaches = s.coaches := rfl
@[simp] theorem putPower_drum (s : State) (p : Power) : (putPower s p).drum = s.drum := rfl
@[simp] theorem putPower_memctl (s : State) (p : Power) : (putPower s p).memctl = s.memctl := rfl
@[simp] theorem putPower_belfry (s : State) (p : Power) : (putPower s p).belfry = s.belfry := rfl
@[simp] theorem putPower_bist (s : State) (p : Power) : (putPower s p).bist = s.bist := rfl
@[simp] theorem putPower_ports (s : State) (p : Power) : (putPower s p).ports = s.ports := rfl
@[simp] theorem putPower_host (s : State) (p : Power) : (putPower s p).host = s.host := rfl
@[simp] theorem putPower_colls (s : State) (p : Power) : (putPower s p).colls = s.colls := rfl
@[simp] theorem putPower_tables (s : State) (p : Power) : (putPower s p).tables = s.tables := rfl
@[simp] theorem putPower_snap (s : State) (p : Power) : (putPower s p).snap = s.snap := rfl
@[simp] theorem putPower_trust (s : State) (p : Power) : (putPower s p).trust = s.trust := rfl
@[simp] theorem putPower_peal (s : State) (p : Power) : (putPower s p).peal = s.peal := rfl
@[simp] theorem putPower_board (s : State) (p : Power) : (putPower s p).board = s.board := rfl
@[simp] theorem putPower_outbox (s : State) (p : Power) : (putPower s p).outbox = s.outbox := rfl
@[simp] theorem putPower_free (s : State) (p : Power) : (putPower s p).free = s.free := rfl
@[simp] theorem putPower_pending (s : State) (p : Power) : (putPower s p).pending = s.pending := rfl

/-! `putPeal` -/
@[simp] theorem putPeal_peal (s : State) (p : Peal) : (putPeal s p).peal = p := rfl
@[simp] theorem putPeal_stbyDom (s : State) (p : Peal) : (putPeal s p).stbyDom = s.stbyDom := rfl
@[simp] theorem putPeal_mainDom (s : State) (p : Peal) : (putPeal s p).mainDom = s.mainDom := rfl
@[simp] theorem putPeal_mainPower (s : State) (p : Peal) : (putPeal s p).mainPower = s.mainPower := rfl
@[simp] theorem putPeal_regs (s : State) (p : Peal) : (putPeal s p).regs = s.regs := rfl
@[simp] theorem putPeal_staged (s : State) (p : Peal) : (putPeal s p).staged = s.staged := rfl
@[simp] theorem putPeal_flash (s : State) (p : Peal) : (putPeal s p).flash = s.flash := rfl
@[simp] theorem putPeal_mem (s : State) (p : Peal) : (putPeal s p).mem = s.mem := rfl
@[simp] theorem putPeal_poison (s : State) (p : Peal) : (putPeal s p).poison = s.poison := rfl
@[simp] theorem putPeal_consist (s : State) (p : Peal) : (putPeal s p).consist = s.consist := rfl
@[simp] theorem putPeal_coaches (s : State) (p : Peal) : (putPeal s p).coaches = s.coaches := rfl
@[simp] theorem putPeal_drum (s : State) (p : Peal) : (putPeal s p).drum = s.drum := rfl
@[simp] theorem putPeal_memctl (s : State) (p : Peal) : (putPeal s p).memctl = s.memctl := rfl
@[simp] theorem putPeal_belfry (s : State) (p : Peal) : (putPeal s p).belfry = s.belfry := rfl
@[simp] theorem putPeal_bist (s : State) (p : Peal) : (putPeal s p).bist = s.bist := rfl
@[simp] theorem putPeal_ports (s : State) (p : Peal) : (putPeal s p).ports = s.ports := rfl
@[simp] theorem putPeal_host (s : State) (p : Peal) : (putPeal s p).host = s.host := rfl
@[simp] theorem putPeal_colls (s : State) (p : Peal) : (putPeal s p).colls = s.colls := rfl
@[simp] theorem putPeal_tables (s : State) (p : Peal) : (putPeal s p).tables = s.tables := rfl
@[simp] theorem putPeal_snap (s : State) (p : Peal) : (putPeal s p).snap = s.snap := rfl
@[simp] theorem putPeal_trust (s : State) (p : Peal) : (putPeal s p).trust = s.trust := rfl
@[simp] theorem putPeal_power (s : State) (p : Peal) : (putPeal s p).power = s.power := rfl
@[simp] theorem putPeal_board (s : State) (p : Peal) : (putPeal s p).board = s.board := rfl
@[simp] theorem putPeal_outbox (s : State) (p : Peal) : (putPeal s p).outbox = s.outbox := rfl
@[simp] theorem putPeal_free (s : State) (p : Peal) : (putPeal s p).free = s.free := rfl
@[simp] theorem putPeal_pending (s : State) (p : Peal) : (putPeal s p).pending = s.pending := rfl

/-! `putTrust` -/
@[simp] theorem putTrust_trust (s : State) (t : Trust) : (putTrust s t).trust = t := rfl
@[simp] theorem putTrust_stbyDom (s : State) (t : Trust) : (putTrust s t).stbyDom = s.stbyDom := rfl
@[simp] theorem putTrust_mainDom (s : State) (t : Trust) : (putTrust s t).mainDom = s.mainDom := rfl
@[simp] theorem putTrust_mainPower (s : State) (t : Trust) : (putTrust s t).mainPower = s.mainPower := rfl
@[simp] theorem putTrust_regs (s : State) (t : Trust) : (putTrust s t).regs = s.regs := rfl
@[simp] theorem putTrust_staged (s : State) (t : Trust) : (putTrust s t).staged = s.staged := rfl
@[simp] theorem putTrust_flash (s : State) (t : Trust) : (putTrust s t).flash = s.flash := rfl
@[simp] theorem putTrust_mem (s : State) (t : Trust) : (putTrust s t).mem = s.mem := rfl
@[simp] theorem putTrust_poison (s : State) (t : Trust) : (putTrust s t).poison = s.poison := rfl
@[simp] theorem putTrust_consist (s : State) (t : Trust) : (putTrust s t).consist = s.consist := rfl
@[simp] theorem putTrust_coaches (s : State) (t : Trust) : (putTrust s t).coaches = s.coaches := rfl
@[simp] theorem putTrust_drum (s : State) (t : Trust) : (putTrust s t).drum = s.drum := rfl
@[simp] theorem putTrust_memctl (s : State) (t : Trust) : (putTrust s t).memctl = s.memctl := rfl
@[simp] theorem putTrust_belfry (s : State) (t : Trust) : (putTrust s t).belfry = s.belfry := rfl
@[simp] theorem putTrust_bist (s : State) (t : Trust) : (putTrust s t).bist = s.bist := rfl
@[simp] theorem putTrust_ports (s : State) (t : Trust) : (putTrust s t).ports = s.ports := rfl
@[simp] theorem putTrust_host (s : State) (t : Trust) : (putTrust s t).host = s.host := rfl
@[simp] theorem putTrust_colls (s : State) (t : Trust) : (putTrust s t).colls = s.colls := rfl
@[simp] theorem putTrust_tables (s : State) (t : Trust) : (putTrust s t).tables = s.tables := rfl
@[simp] theorem putTrust_snap (s : State) (t : Trust) : (putTrust s t).snap = s.snap := rfl
@[simp] theorem putTrust_peal (s : State) (t : Trust) : (putTrust s t).peal = s.peal := rfl
@[simp] theorem putTrust_power (s : State) (t : Trust) : (putTrust s t).power = s.power := rfl
@[simp] theorem putTrust_board (s : State) (t : Trust) : (putTrust s t).board = s.board := rfl
@[simp] theorem putTrust_outbox (s : State) (t : Trust) : (putTrust s t).outbox = s.outbox := rfl
@[simp] theorem putTrust_free (s : State) (t : Trust) : (putTrust s t).free = s.free := rfl
@[simp] theorem putTrust_pending (s : State) (t : Trust) : (putTrust s t).pending = s.pending := rfl

/-! `putColl` -/
@[simp] theorem putColl_stbyDom (s : State) (c : Coll) : (putColl s c).stbyDom = s.stbyDom := rfl
@[simp] theorem putColl_mainDom (s : State) (c : Coll) : (putColl s c).mainDom = s.mainDom := rfl
@[simp] theorem putColl_mainPower (s : State) (c : Coll) : (putColl s c).mainPower = s.mainPower := rfl
@[simp] theorem putColl_regs (s : State) (c : Coll) : (putColl s c).regs = s.regs := rfl
@[simp] theorem putColl_staged (s : State) (c : Coll) : (putColl s c).staged = s.staged := rfl
@[simp] theorem putColl_flash (s : State) (c : Coll) : (putColl s c).flash = s.flash := rfl
@[simp] theorem putColl_mem (s : State) (c : Coll) : (putColl s c).mem = s.mem := rfl
@[simp] theorem putColl_poison (s : State) (c : Coll) : (putColl s c).poison = s.poison := rfl
@[simp] theorem putColl_consist (s : State) (c : Coll) : (putColl s c).consist = s.consist := rfl
@[simp] theorem putColl_coaches (s : State) (c : Coll) : (putColl s c).coaches = s.coaches := rfl
@[simp] theorem putColl_drum (s : State) (c : Coll) : (putColl s c).drum = s.drum := rfl
@[simp] theorem putColl_memctl (s : State) (c : Coll) : (putColl s c).memctl = s.memctl := rfl
@[simp] theorem putColl_belfry (s : State) (c : Coll) : (putColl s c).belfry = s.belfry := rfl
@[simp] theorem putColl_bist (s : State) (c : Coll) : (putColl s c).bist = s.bist := rfl
@[simp] theorem putColl_ports (s : State) (c : Coll) : (putColl s c).ports = s.ports := rfl
@[simp] theorem putColl_host (s : State) (c : Coll) : (putColl s c).host = s.host := rfl
@[simp] theorem putColl_tables (s : State) (c : Coll) : (putColl s c).tables = s.tables := rfl
@[simp] theorem putColl_snap (s : State) (c : Coll) : (putColl s c).snap = s.snap := rfl
@[simp] theorem putColl_trust (s : State) (c : Coll) : (putColl s c).trust = s.trust := rfl
@[simp] theorem putColl_peal (s : State) (c : Coll) : (putColl s c).peal = s.peal := rfl
@[simp] theorem putColl_power (s : State) (c : Coll) : (putColl s c).power = s.power := rfl
@[simp] theorem putColl_board (s : State) (c : Coll) : (putColl s c).board = s.board := rfl
@[simp] theorem putColl_outbox (s : State) (c : Coll) : (putColl s c).outbox = s.outbox := rfl
@[simp] theorem putColl_free (s : State) (c : Coll) : (putColl s c).free = s.free := rfl
@[simp] theorem putColl_pending (s : State) (c : Coll) : (putColl s c).pending = s.pending := rfl

/-! `putColls` -/
@[simp] theorem putColls_colls (s : State) (x : Colls) : (putColls s x).colls = x := by simp only [putColls, regPut_colls]
@[simp] theorem putColls_stbyDom (s : State) (x : Colls) : (putColls s x).stbyDom = s.stbyDom := by simp only [putColls, regPut_stbyDom]
@[simp] theorem putColls_mainDom (s : State) (x : Colls) : (putColls s x).mainDom = s.mainDom := by simp only [putColls, regPut_mainDom]
@[simp] theorem putColls_mainPower (s : State) (x : Colls) : (putColls s x).mainPower = s.mainPower := by simp only [putColls, regPut_mainPower]
@[simp] theorem putColls_staged (s : State) (x : Colls) : (putColls s x).staged = s.staged := by simp only [putColls, regPut_staged]
@[simp] theorem putColls_flash (s : State) (x : Colls) : (putColls s x).flash = s.flash := by simp only [putColls, regPut_flash]
@[simp] theorem putColls_mem (s : State) (x : Colls) : (putColls s x).mem = s.mem := by simp only [putColls, regPut_mem]
@[simp] theorem putColls_poison (s : State) (x : Colls) : (putColls s x).poison = s.poison := by simp only [putColls, regPut_poison]
@[simp] theorem putColls_consist (s : State) (x : Colls) : (putColls s x).consist = s.consist := by simp only [putColls, regPut_consist]
@[simp] theorem putColls_coaches (s : State) (x : Colls) : (putColls s x).coaches = s.coaches := by simp only [putColls, regPut_coaches]
@[simp] theorem putColls_drum (s : State) (x : Colls) : (putColls s x).drum = s.drum := by simp only [putColls, regPut_drum]
@[simp] theorem putColls_memctl (s : State) (x : Colls) : (putColls s x).memctl = s.memctl := by simp only [putColls, regPut_memctl]
@[simp] theorem putColls_belfry (s : State) (x : Colls) : (putColls s x).belfry = s.belfry := by simp only [putColls, regPut_belfry]
@[simp] theorem putColls_bist (s : State) (x : Colls) : (putColls s x).bist = s.bist := by simp only [putColls, regPut_bist]
@[simp] theorem putColls_ports (s : State) (x : Colls) : (putColls s x).ports = s.ports := by simp only [putColls, regPut_ports]
@[simp] theorem putColls_host (s : State) (x : Colls) : (putColls s x).host = s.host := by simp only [putColls, regPut_host]
@[simp] theorem putColls_tables (s : State) (x : Colls) : (putColls s x).tables = s.tables := by simp only [putColls, regPut_tables]
@[simp] theorem putColls_snap (s : State) (x : Colls) : (putColls s x).snap = s.snap := by simp only [putColls, regPut_snap]
@[simp] theorem putColls_trust (s : State) (x : Colls) : (putColls s x).trust = s.trust := by simp only [putColls, regPut_trust]
@[simp] theorem putColls_peal (s : State) (x : Colls) : (putColls s x).peal = s.peal := by simp only [putColls, regPut_peal]
@[simp] theorem putColls_power (s : State) (x : Colls) : (putColls s x).power = s.power := by simp only [putColls, regPut_power]
@[simp] theorem putColls_board (s : State) (x : Colls) : (putColls s x).board = s.board := by simp only [putColls, regPut_board]
@[simp] theorem putColls_outbox (s : State) (x : Colls) : (putColls s x).outbox = s.outbox := by simp only [putColls, regPut_outbox]
@[simp] theorem putColls_free (s : State) (x : Colls) : (putColls s x).free = s.free := by simp only [putColls, regPut_free]
@[simp] theorem putColls_pending (s : State) (x : Colls) : (putColls s x).pending = s.pending := by simp only [putColls, regPut_pending]

/-! `putTable` -/
@[simp] theorem putTable_stbyDom (s : State) (t : Nat) (x : Table) : (putTable s t x).stbyDom = s.stbyDom := by simp only [putTable, regSet_stbyDom]
@[simp] theorem putTable_mainDom (s : State) (t : Nat) (x : Table) : (putTable s t x).mainDom = s.mainDom := by simp only [putTable, regSet_mainDom]
@[simp] theorem putTable_mainPower (s : State) (t : Nat) (x : Table) : (putTable s t x).mainPower = s.mainPower := by simp only [putTable, regSet_mainPower]
@[simp] theorem putTable_staged (s : State) (t : Nat) (x : Table) : (putTable s t x).staged = s.staged := by simp only [putTable, regSet_staged]
@[simp] theorem putTable_flash (s : State) (t : Nat) (x : Table) : (putTable s t x).flash = s.flash := by simp only [putTable, regSet_flash]
@[simp] theorem putTable_mem (s : State) (t : Nat) (x : Table) : (putTable s t x).mem = s.mem := by simp only [putTable, regSet_mem]
@[simp] theorem putTable_poison (s : State) (t : Nat) (x : Table) : (putTable s t x).poison = s.poison := by simp only [putTable, regSet_poison]
@[simp] theorem putTable_consist (s : State) (t : Nat) (x : Table) : (putTable s t x).consist = s.consist := by simp only [putTable, regSet_consist]
@[simp] theorem putTable_coaches (s : State) (t : Nat) (x : Table) : (putTable s t x).coaches = s.coaches := by simp only [putTable, regSet_coaches]
@[simp] theorem putTable_drum (s : State) (t : Nat) (x : Table) : (putTable s t x).drum = s.drum := by simp only [putTable, regSet_drum]
@[simp] theorem putTable_memctl (s : State) (t : Nat) (x : Table) : (putTable s t x).memctl = s.memctl := by simp only [putTable, regSet_memctl]
@[simp] theorem putTable_belfry (s : State) (t : Nat) (x : Table) : (putTable s t x).belfry = s.belfry := by simp only [putTable, regSet_belfry]
@[simp] theorem putTable_bist (s : State) (t : Nat) (x : Table) : (putTable s t x).bist = s.bist := by simp only [putTable, regSet_bist]
@[simp] theorem putTable_ports (s : State) (t : Nat) (x : Table) : (putTable s t x).ports = s.ports := by simp only [putTable, regSet_ports]
@[simp] theorem putTable_host (s : State) (t : Nat) (x : Table) : (putTable s t x).host = s.host := by simp only [putTable, regSet_host]
@[simp] theorem putTable_colls (s : State) (t : Nat) (x : Table) : (putTable s t x).colls = s.colls := by simp only [putTable, regSet_colls]
@[simp] theorem putTable_snap (s : State) (t : Nat) (x : Table) : (putTable s t x).snap = s.snap := by simp only [putTable, regSet_snap]
@[simp] theorem putTable_trust (s : State) (t : Nat) (x : Table) : (putTable s t x).trust = s.trust := by simp only [putTable, regSet_trust]
@[simp] theorem putTable_peal (s : State) (t : Nat) (x : Table) : (putTable s t x).peal = s.peal := by simp only [putTable, regSet_peal]
@[simp] theorem putTable_power (s : State) (t : Nat) (x : Table) : (putTable s t x).power = s.power := by simp only [putTable, regSet_power]
@[simp] theorem putTable_board (s : State) (t : Nat) (x : Table) : (putTable s t x).board = s.board := by simp only [putTable, regSet_board]
@[simp] theorem putTable_outbox (s : State) (t : Nat) (x : Table) : (putTable s t x).outbox = s.outbox := by simp only [putTable, regSet_outbox]
@[simp] theorem putTable_free (s : State) (t : Nat) (x : Table) : (putTable s t x).free = s.free := by simp only [putTable, regSet_free]
@[simp] theorem putTable_pending (s : State) (t : Nat) (x : Table) : (putTable s t x).pending = s.pending := by simp only [putTable, regSet_pending]

/-! `putChunks` -/
@[simp] theorem putChunks_stbyDom (s : State) (t : Nat) (l : List (List Byte)) : (putChunks s t l).stbyDom = s.stbyDom := rfl
@[simp] theorem putChunks_mainDom (s : State) (t : Nat) (l : List (List Byte)) : (putChunks s t l).mainDom = s.mainDom := rfl
@[simp] theorem putChunks_mainPower (s : State) (t : Nat) (l : List (List Byte)) : (putChunks s t l).mainPower = s.mainPower := rfl
@[simp] theorem putChunks_regs (s : State) (t : Nat) (l : List (List Byte)) : (putChunks s t l).regs = s.regs := rfl
@[simp] theorem putChunks_staged (s : State) (t : Nat) (l : List (List Byte)) : (putChunks s t l).staged = s.staged := rfl
@[simp] theorem putChunks_flash (s : State) (t : Nat) (l : List (List Byte)) : (putChunks s t l).flash = s.flash := rfl
@[simp] theorem putChunks_mem (s : State) (t : Nat) (l : List (List Byte)) : (putChunks s t l).mem = s.mem := rfl
@[simp] theorem putChunks_poison (s : State) (t : Nat) (l : List (List Byte)) : (putChunks s t l).poison = s.poison := rfl
@[simp] theorem putChunks_consist (s : State) (t : Nat) (l : List (List Byte)) : (putChunks s t l).consist = s.consist := rfl
@[simp] theorem putChunks_coaches (s : State) (t : Nat) (l : List (List Byte)) : (putChunks s t l).coaches = s.coaches := rfl
@[simp] theorem putChunks_drum (s : State) (t : Nat) (l : List (List Byte)) : (putChunks s t l).drum = s.drum := rfl
@[simp] theorem putChunks_memctl (s : State) (t : Nat) (l : List (List Byte)) : (putChunks s t l).memctl = s.memctl := rfl
@[simp] theorem putChunks_belfry (s : State) (t : Nat) (l : List (List Byte)) : (putChunks s t l).belfry = s.belfry := rfl
@[simp] theorem putChunks_bist (s : State) (t : Nat) (l : List (List Byte)) : (putChunks s t l).bist = s.bist := rfl
@[simp] theorem putChunks_ports (s : State) (t : Nat) (l : List (List Byte)) : (putChunks s t l).ports = s.ports := rfl
@[simp] theorem putChunks_host (s : State) (t : Nat) (l : List (List Byte)) : (putChunks s t l).host = s.host := rfl
@[simp] theorem putChunks_colls (s : State) (t : Nat) (l : List (List Byte)) : (putChunks s t l).colls = s.colls := rfl
@[simp] theorem putChunks_snap (s : State) (t : Nat) (l : List (List Byte)) : (putChunks s t l).snap = s.snap := rfl
@[simp] theorem putChunks_trust (s : State) (t : Nat) (l : List (List Byte)) : (putChunks s t l).trust = s.trust := rfl
@[simp] theorem putChunks_peal (s : State) (t : Nat) (l : List (List Byte)) : (putChunks s t l).peal = s.peal := rfl
@[simp] theorem putChunks_power (s : State) (t : Nat) (l : List (List Byte)) : (putChunks s t l).power = s.power := rfl
@[simp] theorem putChunks_board (s : State) (t : Nat) (l : List (List Byte)) : (putChunks s t l).board = s.board := rfl
@[simp] theorem putChunks_outbox (s : State) (t : Nat) (l : List (List Byte)) : (putChunks s t l).outbox = s.outbox := rfl
@[simp] theorem putChunks_free (s : State) (t : Nat) (l : List (List Byte)) : (putChunks s t l).free = s.free := rfl
@[simp] theorem putChunks_pending (s : State) (t : Nat) (l : List (List Byte)) : (putChunks s t l).pending = s.pending := rfl

/-! `putSnap` -/
@[simp] theorem putSnap_snap (s : State) (x : Snap) : (putSnap s x).snap = x := by simp only [putSnap, snapFlags, regPut_snap]
@[simp] theorem putSnap_stbyDom (s : State) (x : Snap) : (putSnap s x).stbyDom = s.stbyDom := by simp only [putSnap, snapFlags, regPut_stbyDom]
@[simp] theorem putSnap_mainDom (s : State) (x : Snap) : (putSnap s x).mainDom = s.mainDom := by simp only [putSnap, snapFlags, regPut_mainDom]
@[simp] theorem putSnap_mainPower (s : State) (x : Snap) : (putSnap s x).mainPower = s.mainPower := by simp only [putSnap, snapFlags, regPut_mainPower]
@[simp] theorem putSnap_staged (s : State) (x : Snap) : (putSnap s x).staged = s.staged := by simp only [putSnap, snapFlags, regPut_staged]
@[simp] theorem putSnap_flash (s : State) (x : Snap) : (putSnap s x).flash = s.flash := by simp only [putSnap, snapFlags, regPut_flash]
@[simp] theorem putSnap_mem (s : State) (x : Snap) : (putSnap s x).mem = s.mem := by simp only [putSnap, snapFlags, regPut_mem]
@[simp] theorem putSnap_poison (s : State) (x : Snap) : (putSnap s x).poison = s.poison := by simp only [putSnap, snapFlags, regPut_poison]
@[simp] theorem putSnap_consist (s : State) (x : Snap) : (putSnap s x).consist = s.consist := by simp only [putSnap, snapFlags, regPut_consist]
@[simp] theorem putSnap_coaches (s : State) (x : Snap) : (putSnap s x).coaches = s.coaches := by simp only [putSnap, snapFlags, regPut_coaches]
@[simp] theorem putSnap_drum (s : State) (x : Snap) : (putSnap s x).drum = s.drum := by simp only [putSnap, snapFlags, regPut_drum]
@[simp] theorem putSnap_memctl (s : State) (x : Snap) : (putSnap s x).memctl = s.memctl := by simp only [putSnap, snapFlags, regPut_memctl]
@[simp] theorem putSnap_belfry (s : State) (x : Snap) : (putSnap s x).belfry = s.belfry := by simp only [putSnap, snapFlags, regPut_belfry]
@[simp] theorem putSnap_bist (s : State) (x : Snap) : (putSnap s x).bist = s.bist := by simp only [putSnap, snapFlags, regPut_bist]
@[simp] theorem putSnap_ports (s : State) (x : Snap) : (putSnap s x).ports = s.ports := by simp only [putSnap, snapFlags, regPut_ports]
@[simp] theorem putSnap_host (s : State) (x : Snap) : (putSnap s x).host = s.host := by simp only [putSnap, snapFlags, regPut_host]
@[simp] theorem putSnap_colls (s : State) (x : Snap) : (putSnap s x).colls = s.colls := by simp only [putSnap, snapFlags, regPut_colls]
@[simp] theorem putSnap_tables (s : State) (x : Snap) : (putSnap s x).tables = s.tables := by simp only [putSnap, snapFlags, regPut_tables]
@[simp] theorem putSnap_trust (s : State) (x : Snap) : (putSnap s x).trust = s.trust := by simp only [putSnap, snapFlags, regPut_trust]
@[simp] theorem putSnap_peal (s : State) (x : Snap) : (putSnap s x).peal = s.peal := by simp only [putSnap, snapFlags, regPut_peal]
@[simp] theorem putSnap_power (s : State) (x : Snap) : (putSnap s x).power = s.power := by simp only [putSnap, snapFlags, regPut_power]
@[simp] theorem putSnap_board (s : State) (x : Snap) : (putSnap s x).board = s.board := by simp only [putSnap, snapFlags, regPut_board]
@[simp] theorem putSnap_outbox (s : State) (x : Snap) : (putSnap s x).outbox = s.outbox := by simp only [putSnap, snapFlags, regPut_outbox]
@[simp] theorem putSnap_free (s : State) (x : Snap) : (putSnap s x).free = s.free := by simp only [putSnap, snapFlags, regPut_free]
@[simp] theorem putSnap_pending (s : State) (x : Snap) : (putSnap s x).pending = s.pending := by simp only [putSnap, snapFlags, regPut_pending]

end Sys2Proof.Machine
end

