-- ==== Sys2Proof/Laws/Memory.lean ====
section
/-! SUPPORT. The laws of memory: what a byte reads after each memory operation, and that each keeps the canonical form. -/

namespace Sys2Proof.Machine

/-! ### Lists of bytes -/

@[simp] theorem cellsAt_nil (a : Nat) : cellsAt a [] = [] := rfl
@[simp] theorem cellsAt_cons (a : Nat) (b : Byte) (bs : List Byte) : cellsAt a (b :: bs) = (a, b) :: cellsAt (a + 1) bs := rfl

theorem putCells_cellsAt (m : List Host.Cell) (bs : List Byte) : ∀ a, putCells m (cellsAt a bs) = putBytes m a bs := by
  induction bs generalizing m with
  | nil => intro a; rfl
  | cons b bs ih => intro a; simp only [cellsAt_cons, putCells, putBytes]; exact ih _ _

/-- A byte after bytes were written one after another. -/
theorem kget_putBytes (bs : List Byte) : ∀ (m : List Host.Cell) (a x : Nat),
    kget 0 (putBytes m a bs) x = if a ≤ x ∧ x < a + bs.length then lget 0 bs (x - a) else kget 0 m x := by
  induction bs with
  | nil => intro m a x; simp [putBytes]
  | cons b bs ih =>
    intro m a x
    simp only [putBytes, ih, List.length_cons]
    by_cases h : x = a
    · subst h
      simp [lget]
    · rw [kget_kset_ne 0 m b h]
      by_cases h2 : a + 1 ≤ x ∧ x < a + 1 + bs.length
      · have h3 : x - a = (x - (a + 1)) + 1 := by omega
        rw [if_pos h2, if_pos (by omega), h3, lget]
      · rw [if_neg h2, if_neg (by omega)]

/-- A byte after scattered bytes were written in order: the last that names it. -/
theorem kget_putCells (l : List (Nat × Byte)) : ∀ (m : List Host.Cell) (x : Nat),
    kget 0 (putCells m l) x = match l.reverse.find? (fun e => e.1 == x) with | some e => e.2 | none => kget 0 m x := by
  induction l with
  | nil => intro m x; rfl
  | cons e l ih =>
    intro m x
    obtain ⟨a, b⟩ := e
    simp only [putCells, ih, List.reverse_cons, List.find?_append]
    cases l.reverse.find? (fun e => e.1 == x) with
    | some e => rfl
    | none =>
      by_cases h : x = a
      · subst h; simp
      · have : ¬ a = x := fun h' => h h'.symm
        simp only [List.find?_cons, List.find?_nil, Option.none_or, beq_eq_false_iff_ne.2 this]
        exact kget_kset_ne 0 m b h

/-! ### Reads -/

@[simp] theorem length_memBytes (s : State) (n : Nat) : ∀ a, (memBytes s a n).length = n := by
  induction n with
  | zero => intro a; rfl
  | succ n ih => intro a; simp [memBytes, ih]

theorem lget_memBytes (s : State) (n : Nat) : ∀ a i, i < n → lget 0 (memBytes s a n) i = memByte s (a + i) := by
  induction n with
  | zero => intro a i h; omega
  | succ n ih =>
    intro a i h
    cases i with
    | zero => rfl
    | succ i => simp only [memBytes, lget]; rw [ih _ _ (by omega)]; congr 1; omega

/-- What is read depends on the bytes alone. -/
theorem memBytes_congr {s t : State} {a n : Nat} (h : ∀ x, a ≤ x → x < a + n → memByte t x = memByte s x) :
    memBytes t a n = memBytes s a n := by
  induction n generalizing a with
  | zero => rfl
  | succ n ih => simp only [memBytes]; rw [h a (by omega) (by omega), ih fun x h1 h2 => h x (by omega) (by omega)]

theorem memVal_congr {s t : State} {a n : Nat} (h : ∀ x, a ≤ x → x < a + n → memByte t x = memByte s x) :
    memVal t a n = memVal s a n := by rw [memVal, memVal, memBytes_congr h]

/-! ### Writes -/

/-- A byte after scattered bytes were stored. -/
theorem memByte_storeCells (s : State) (cells : List (Nat × Byte)) (pois : List Nat) (x : Nat) :
    memByte (storeCells s cells pois) x = match cells.reverse.find? (fun e => e.1 == x) with | some e => e.2 | none => memByte s x :=
  kget_putCells cells s.mem x

/-- A byte after contiguous bytes were stored. -/
theorem memByte_storeBytes (s : State) (a : Nat) (bs : List Byte) (p : Bool) (x : Nat) :
    memByte (storeBytes s a bs p) x = if a ≤ x ∧ x < a + bs.length then lget 0 bs (x - a) else memByte s x := by
  simp only [memByte, storeBytes, storeCells, putCells_cellsAt, kget_putBytes]

/-- What was stored reads back. -/
theorem memBytes_storeBytes_same (s : State) (a : Nat) (bs : List Byte) (p : Bool) :
    memBytes (storeBytes s a bs p) a bs.length = bs := by
  have h : ∀ (l : List Byte) (t : State) (a : Nat), (∀ i, i < l.length → memByte t (a + i) = lget 0 l i) → memBytes t a l.length = l := by
    intro l
    induction l with
    | nil => intros; rfl
    | cons b l ih =>
      intro t a h
      simp only [List.length_cons, memBytes]
      rw [show memByte t a = b from h 0 (by simp), ih t (a + 1) fun i hi => by
        have := h (i + 1) (by simpa using hi)
        rw [show a + 1 + i = a + (i + 1) by omega, this]; rfl]
  refine h bs _ a fun i hi => ?_
  rw [memByte_storeBytes, if_pos ⟨by omega, by omega⟩, show a + i - a = i by omega]

theorem kget_filter_keep {p : Nat × Byte → Bool} {x : Nat} (h : ∀ v, p (x, v) = true) : ∀ m : List Host.Cell,
    kget 0 (m.filter p) x = kget 0 m x := by
  intro m
  induction m with
  | nil => rfl
  | cons e m ih =>
    obtain ⟨a, b⟩ := e
    by_cases ha : a = x
    · subst ha; simp [List.filter, h, kget]
    · by_cases hp : p (a, b) = true <;> simp only [List.filter, hp, kget, ha, if_false] <;> exact ih

theorem kget_filter_drop {p : Nat × Byte → Bool} {x : Nat} (h : ∀ v, p (x, v) = false) : ∀ m : List Host.Cell,
    kget 0 (m.filter p) x = 0 := by
  intro m
  induction m with
  | nil => rfl
  | cons e m ih =>
    obtain ⟨a, b⟩ := e
    by_cases ha : a = x
    · subst ha; simp only [List.filter, h]; exact ih
    · by_cases hp : p (a, b) = true <;> simp only [List.filter, hp, kget, ha, if_false] <;> exact ih

/-- A byte after a range was zeroed. -/
theorem memByte_memZero (s : State) (lo hi x : Nat) : memByte (memZero s lo hi) x = if lo ≤ x ∧ x < hi then 0 else memByte s x := by
  simp only [memByte, memZero]
  split
  · exact kget_filter_drop (fun v => by simp; omega) _
  · exact kget_filter_keep (fun v => by simp; omega) _

/-! ### The canonical form -/

theorem wf_putCells (l : List (Nat × Byte)) : ∀ m : List Host.Cell, Memory.wf m = true → Memory.wf (putCells m l) = true := by
  induction l with
  | nil => intro m h; exact h
  | cons e l ih => intro m h; exact ih _ (kwf_kset 0 m e.1 e.2 h)

theorem wf_putBytes (bs : List Byte) : ∀ (m : List Host.Cell) (a : Nat), Memory.wf m = true → Memory.wf (putBytes m a bs) = true := by
  induction bs with
  | nil => intro m _ h; exact h
  | cons b bs ih => intro m a h; exact ih _ _ (kwf_kset 0 m a b h)

theorem memSound_storeCells (s : State) (cells : List (Nat × Byte)) (pois : List Nat) (h : s.memSound) : (storeCells s cells pois).memSound :=
  wf_putCells cells s.mem h

theorem memSound_storeBytes (s : State) (a : Nat) (bs : List Byte) (p : Bool) (h : s.memSound) : (storeBytes s a bs p).memSound :=
  memSound_storeCells s _ _ h

theorem memSound_memZero (s : State) (lo hi : Nat) (h : s.memSound) : (memZero s lo hi).memSound :=
  kwf_filter 0 _ s.mem h

/-- Empty memory is in canonical form. -/
theorem memSound_of_nil {s : State} (h : s.mem = []) : s.memSound := by simp [State.memSound, h, Memory.wf, kwf, kwfFrom]

theorem reset_memSound : State.reset.memSound := memSound_of_nil rfl

/-- Memory in canonical form is determined by its bytes. -/
theorem wf_ext : ∀ (m k : List Host.Cell) (lo : Nat), kwfFrom 0 lo m = true → kwfFrom 0 lo k = true → (∀ x, kget 0 m x = kget 0 k x) → m = k := by
  have low : ∀ (m : List Host.Cell) (lo x : Nat), kwfFrom 0 lo m = true → x < lo → kget 0 m x = 0 := by
    intro m
    induction m with
    | nil => intros; rfl
    | cons e m ih =>
      obtain ⟨a, b⟩ := e
      intro lo x h hx
      simp only [kwfFrom, Bool.and_eq_true, decide_eq_true_eq] at h
      simp only [kget, if_neg (show ¬ a = x by omega)]
      exact ih _ _ h.2 (by omega)
  intro m
  induction m with
  | nil =>
    intro k lo _ hk h
    cases k with
    | nil => rfl
    | cons e k =>
      obtain ⟨a, b⟩ := e
      simp only [kwfFrom, Bool.and_eq_true, decide_eq_true_eq] at hk
      have := h a
      simp [kget] at this
      exact absurd this.symm hk.1.2
  | cons e m ih =>
    obtain ⟨a, b⟩ := e
    intro k lo hm hk h
    simp only [kwfFrom, Bool.and_eq_true, decide_eq_true_eq] at hm
    cases k with
    | nil =>
      have := h a
      simp [kget] at this
      exact absurd this hm.1.2
    | cons f k =>
      obtain ⟨c, d⟩ := f
      simp only [kwfFrom, Bool.and_eq_true, decide_eq_true_eq] at hk
      have hac : a = c := by
        rcases Nat.lt_trichotomy a c with hl | he | hg
        · have := h a
          simp only [kget, if_true, if_neg (show ¬ c = a by omega)] at this
          rw [low k (c + 1) a hk.2 (by omega)] at this
          exact absurd this hm.1.2
        · exact he
        · have := h c
          simp only [kget, if_true, if_neg (show ¬ a = c by omega)] at this
          rw [low m (a + 1) c hm.2 (by omega)] at this
          exact absurd this.symm hk.1.2
      subst hac
      have hbd : b = d := by have := h a; simpa [kget] using this
      subst hbd
      congr 1
      refine ih k (a + 1) hm.2 hk.2 fun x => ?_
      by_cases hx : a = x
      · subst hx; rw [low m (a + 1) a hm.2 (by omega), low k (a + 1) a hk.2 (by omega)]
      · have := h x
        simpa [kget, hx] using this

/-- Equal memories are equal data. -/
theorem mem_ext {s t : State} (hs : s.memSound) (ht : t.memSound) (h : ∀ x, memByte t x = memByte s x) : t.mem = s.mem :=
  wf_ext t.mem s.mem 0 ht hs h

end Sys2Proof.Machine
end

