-- ==== Sys2Proof/Laws/Registers.lean ====
section
/-! SUPPORT. The laws of register fields: what a field reads after a field was written, and what a register reads after another was. -/

namespace Sys2Proof.Machine

/-! ### Bit fields -/

theorem testBit_bits (v : W64) (hi lo j : Nat) : (bits v hi lo).testBit j = (decide (j < hi + 1 - lo) && v.toNat.testBit (lo + j)) := by
  simp only [bits, Nat.testBit_mod_two_pow, Nat.testBit_div_two_pow, Nat.add_comm]

/-- The number that `setBits` gives. -/
theorem toNat_setBits (v : W64) {hi lo : Nat} (x : Nat) (h : lo ≤ hi) (h64 : hi < 64) :
    (setBits v hi lo x).toNat = 2 ^ (hi + 1) * (v.toNat / 2 ^ (hi + 1)) + (2 ^ lo * (x % 2 ^ (hi + 1 - lo)) + v.toNat % 2 ^ lo) := by
  have e : 2 ^ (hi + 1) = 2 ^ lo * 2 ^ (hi + 1 - lo) := by rw [← Nat.pow_add]; congr 1; omega
  have hv : v.toNat = 2 ^ (hi + 1) * (v.toNat / 2 ^ (hi + 1)) + (2 ^ lo * bits v hi lo + v.toNat % 2 ^ lo) := by
    have h1 := Nat.div_add_mod v.toNat (2 ^ lo)
    have h2 := Nat.div_add_mod (v.toNat / 2 ^ lo) (2 ^ (hi + 1 - lo))
    rw [Nat.div_div_eq_div_mul, ← e] at h2
    rw [bits]
    rw [e, Nat.mul_assoc, ← Nat.add_assoc, ← Nat.mul_add, ← e, h2, h1]
  have hlt : 2 ^ (hi + 1) * (v.toNat / 2 ^ (hi + 1)) + (2 ^ lo * (x % 2 ^ (hi + 1 - lo)) + v.toNat % 2 ^ lo) < 2 ^ 64 := by
    have hy : x % 2 ^ (hi + 1 - lo) < 2 ^ (hi + 1 - lo) := Nat.mod_lt _ (Nat.two_pow_pos _)
    have hl : v.toNat % 2 ^ lo < 2 ^ lo := Nat.mod_lt _ (Nat.two_pow_pos _)
    have hb : 2 ^ lo * (x % 2 ^ (hi + 1 - lo)) + v.toNat % 2 ^ lo < 2 ^ (hi + 1) := by
      rw [e]
      calc _ < 2 ^ lo * (x % 2 ^ (hi + 1 - lo)) + 2 ^ lo := by omega
        _ = 2 ^ lo * (x % 2 ^ (hi + 1 - lo) + 1) := by rw [Nat.mul_succ]
        _ ≤ _ := Nat.mul_le_mul_left _ hy
    have ha : v.toNat / 2 ^ (hi + 1) < 2 ^ (64 - (hi + 1)) := by
      rw [Nat.div_lt_iff_lt_mul (Nat.two_pow_pos _), ← Nat.pow_add, show 64 - (hi + 1) + (hi + 1) = 64 by omega]
      exact v.isLt
    calc _ < 2 ^ (hi + 1) * (v.toNat / 2 ^ (hi + 1)) + 2 ^ (hi + 1) := by omega
      _ = 2 ^ (hi + 1) * (v.toNat / 2 ^ (hi + 1) + 1) := by rw [Nat.mul_succ]
      _ ≤ 2 ^ (hi + 1) * 2 ^ (64 - (hi + 1)) := Nat.mul_le_mul_left _ ha
      _ = 2 ^ 64 := by rw [← Nat.pow_add]; congr 1; omega
  rw [setBits, BitVec.toNat_ofNat, Nat.mul_comm (bits v hi lo), Nat.mul_comm (x % _)]
  rw [show v.toNat - 2 ^ lo * bits v hi lo + 2 ^ lo * (x % 2 ^ (hi + 1 - lo)) =
      2 ^ (hi + 1) * (v.toNat / 2 ^ (hi + 1)) + (2 ^ lo * (x % 2 ^ (hi + 1 - lo)) + v.toNat % 2 ^ lo) by omega]
  exact Nat.mod_eq_of_lt hlt

/-- Each bit after a field was replaced. -/
theorem testBit_setBits (v : W64) {hi lo : Nat} (x k : Nat) (h : lo ≤ hi) (h64 : hi < 64) :
    (setBits v hi lo x).toNat.testBit k = if lo ≤ k ∧ k ≤ hi then x.testBit (k - lo) else v.toNat.testBit k := by
  have hl : v.toNat % 2 ^ lo < 2 ^ lo := Nat.mod_lt _ (Nat.two_pow_pos _)
  have hb : 2 ^ lo * (x % 2 ^ (hi + 1 - lo)) + v.toNat % 2 ^ lo < 2 ^ (hi + 1) := by
    have hy : x % 2 ^ (hi + 1 - lo) < 2 ^ (hi + 1 - lo) := Nat.mod_lt _ (Nat.two_pow_pos _)
    rw [show 2 ^ (hi + 1) = 2 ^ lo * 2 ^ (hi + 1 - lo) by rw [← Nat.pow_add]; congr 1; omega]
    calc _ < 2 ^ lo * (x % 2 ^ (hi + 1 - lo)) + 2 ^ lo := by omega
      _ = 2 ^ lo * (x % 2 ^ (hi + 1 - lo) + 1) := by rw [Nat.mul_succ]
      _ ≤ _ := Nat.mul_le_mul_left _ hy
  rw [toNat_setBits v x h h64, Nat.testBit_two_pow_mul_add _ hb, Nat.testBit_two_pow_mul_add _ hl]
  by_cases h1 : k < hi + 1
  · by_cases h2 : k < lo
    · simp only [h1, h2, if_true, Nat.testBit_mod_two_pow, decide_true, Bool.true_and]
      rw [if_neg (by omega)]
    · simp only [h1, h2, if_true, if_false, Nat.testBit_mod_two_pow]
      rw [if_pos (by omega), decide_eq_true (by omega), Bool.true_and]
  · simp only [h1, if_false, Nat.testBit_div_two_pow]
    rw [if_neg (by omega), show k - (hi + 1) + (hi + 1) = k by omega]

theorem getLsbD_setBits (v : W64) {hi lo : Nat} (x k : Nat) (h : lo ≤ hi) (h64 : hi < 64) :
    (setBits v hi lo x).getLsbD k = if lo ≤ k ∧ k ≤ hi then x.testBit (k - lo) else v.getLsbD k :=
  testBit_setBits v x k h h64

/-- A field just replaced. -/
theorem bits_setBits_same (v : W64) {hi lo : Nat} (x : Nat) (h : lo ≤ hi) (h64 : hi < 64) :
    bits (setBits v hi lo x) hi lo = x % 2 ^ (hi + 1 - lo) := by
  apply Nat.eq_of_testBit_eq
  intro j
  rw [testBit_bits, Nat.testBit_mod_two_pow, testBit_setBits v x _ h h64]
  by_cases hj : j < hi + 1 - lo
  · rw [if_pos (by omega), show lo + j - lo = j by omega]
  · simp [hj]

/-- A field apart from the one replaced. -/
theorem bits_setBits_ne (v : W64) {hi lo h2 l2 : Nat} (x : Nat) (h : lo ≤ hi) (h64 : hi < 64) (hd : h2 < lo ∨ hi < l2) :
    bits (setBits v hi lo x) h2 l2 = bits v h2 l2 := by
  apply Nat.eq_of_testBit_eq
  intro j
  rw [testBit_bits, testBit_bits, testBit_setBits v x _ h h64]
  by_cases hj : j < h2 + 1 - l2
  · rw [if_neg (by omega)]
  · simp [hj]

theorem bits_lt (v : W64) (hi lo : Nat) : bits v hi lo < 2 ^ (hi + 1 - lo) := Nat.mod_lt _ (Nat.two_pow_pos _)

/-! ### Registers -/

/-- A register just written. -/
@[simp] theorem regGet_regSet_same (s : State) (a : Nat) (v : W64) : regGet (regSet s a v) a = v := kget_kset_same _ _ _ _

/-- A register other than the one written: its default is its own reset value, so the map is read with that. -/
theorem regGet_regSet_ne (s : State) {a b : Nat} (v : W64) (h : b ≠ a) : regGet (regSet s a v) b = regGet s b := by
  simp only [regGet, regSet, kset]
  split
  · exact kget_kdel_ne _ _ h
  · exact kget_kput_ne _ _ _ h

@[simp] theorem regGet_regPut_same (s : State) (a hi lo x : Nat) : regGet (regPut s a hi lo x) a = setBits (regGet s a) hi lo x :=
  regGet_regSet_same _ _ _

theorem regGet_regPut_ne (s : State) {a b : Nat} (hi lo x : Nat) (h : b ≠ a) : regGet (regPut s a hi lo x) b = regGet s b :=
  regGet_regSet_ne s _ h

/-- A field just put. -/
theorem regBits_regPut_same (s : State) (a : Nat) {hi lo : Nat} (x : Nat) (h : lo ≤ hi) (h64 : hi < 64) :
    regBits (regPut s a hi lo x) a hi lo = x % 2 ^ (hi + 1 - lo) := by
  rw [regBits, regGet_regPut_same, bits_setBits_same _ _ h h64]

/-- Another field of the register put. -/
theorem regBits_regPut_apart (s : State) (a : Nat) {hi lo h2 l2 : Nat} (x : Nat) (h : lo ≤ hi) (h64 : hi < 64) (hd : h2 < lo ∨ hi < l2) :
    regBits (regPut s a hi lo x) a h2 l2 = regBits s a h2 l2 := by
  rw [regBits, regGet_regPut_same, bits_setBits_ne _ _ h h64 hd, regBits]

/-- A field of another register. -/
theorem regBits_regPut_ne (s : State) {a b : Nat} (hi lo x h2 l2 : Nat) (h : b ≠ a) :
    regBits (regPut s a hi lo x) b h2 l2 = regBits s b h2 l2 := by
  rw [regBits, regGet_regPut_ne s _ _ _ h, regBits]

/-- A register of a state with the same registers. -/
theorem regGet_congr {s t : State} (h : t.regs = s.regs) (a : Nat) : regGet t a = regGet s a := by rw [regGet, regGet, h]

theorem regBits_congr {s t : State} (h : t.regs = s.regs) (a hi lo : Nat) : regBits t a hi lo = regBits s a hi lo := by
  rw [regBits, regBits, regGet_congr h]

/-- A saturating counter: its field holds the sum, or all ones. -/
theorem regBits_regAddSat_same (s : State) (a : Nat) {hi lo : Nat} (n : Nat) (h : lo ≤ hi) (h64 : hi < 64) :
    regBits (regAddSat s a hi lo n) a hi lo = min (2 ^ (hi + 1 - lo) - 1) (regBits s a hi lo + n) := by
  rw [regAddSat, regBits_regPut_same _ _ _ h h64]
  exact Nat.mod_eq_of_lt (by have := Nat.two_pow_pos (hi + 1 - lo); omega)

theorem regGet_regAddSat_ne (s : State) {a b : Nat} (hi lo n : Nat) (h : b ≠ a) : regGet (regAddSat s a hi lo n) b = regGet s b :=
  regGet_regPut_ne s _ _ _ h

theorem regBits_regAddSat_apart (s : State) (a : Nat) {hi lo h2 l2 : Nat} (n : Nat) (h : lo ≤ hi) (h64 : hi < 64) (hd : h2 < lo ∨ hi < l2) :
    regBits (regAddSat s a hi lo n) a h2 l2 = regBits s a h2 l2 := regBits_regPut_apart s a _ h h64 hd

/-- Right after reset every register holds its reset value. -/
@[simp] theorem regGet_reset (a : Nat) : regGet State.reset a = regReset a := rfl

end Sys2Proof.Machine
end

