-- ==== Sys2Proof/WellFormed.lean ====
section
/-! DEFINITION. Well-formed commands: every operand in the range that the spec's numbering gives it. Bytes and words that a
sender chooses are not judged here: what the spec says of a bad one is the command's own meaning. -/

namespace Sys2Proof

namespace WellFormed

/-- 512 coaches of 16 seats, numbered hub-wide. -/
def seatOk (n : Nat) : Bool := decide (n < 8192)

/-- 512 coaches. -/
def coachOk (n : Nat) : Bool := decide (n < 512)

/-- At most eight trains. -/
def trainOk (n : Nat) : Bool := decide (n < 8)

/-- R6: A ports 0 to 7 and P ports 8 and 9. -/
def portOk (n : Nat) : Bool := decide (n < 10)

/-- At most eight lanes of a port. -/
def laneOk (n : Nat) : Bool := decide (n < 8)

/-- Eight partners, and as many leak inputs. -/
def partnerOk (n : Nat) : Bool := decide (n < 8)

/-- Guards G0 to G5. -/
def guardOk (n : Nat) : Bool := decide (n < 6)

/-- The six guards and the standby controller. -/
def coreOk (n : Nat) : Bool := decide (n < 7)

/-- R196: 64 tables. -/
def tableOk (n : Nat) : Bool := decide (n < 64)

/-- Two roles, two Ethernet ports, two supply inputs (R331, R476). -/
def roleOk (n : Nat) : Bool := decide (n < 2)

/-- R67, R126: two dray engines, two barrier scopes. -/
def engineOk (n : Nat) : Bool := decide (n < 2)

/-- R437: twelve cooling outputs. -/
def outputOk (n : Nat) : Bool := decide (n < 12)

/-- 384 memory channels. -/
def channelOk (n : Nat) : Bool := decide (n < 384)

/-- Table 16.2: ten-bit sources. -/
def sourceOk (n : Nat) : Bool := decide (n < 1024)

/-- R446: the classes C, U and F. -/
def clsOk (n : Nat) : Bool := decide (1 ≤ n) && decide (n ≤ 3)

/-- An eight-bit code. -/
def byteOk (n : Nat) : Bool := decide (n < 256)

/-- A sixteen-bit code. -/
def halfOk (n : Nat) : Bool := decide (n < 65536)

/-- R298: a six-bit SLOT. -/
def collSlotOk (n : Nat) : Bool := decide (n < 64)

/-- Slots 0 to 63 of the Peal program. -/
def railOk (n : Nat) : Bool := decide (n < 64)

/-- R339: 64 connections. -/
def connOk (n : Nat) : Bool := decide (n < 64)

/-- RING_BASE0 to RING_BASE255: 256 host rings. -/
def ringOk (n : Nat) : Bool := decide (n < 256)

/-- The consumers that take ring entries: trains, services, partners. -/
def consumerOk (n : Nat) : Bool := decide (n < 64)

/-- A 24-bit packet sequence number. -/
def psnOk (n : Nat) : Bool := decide (n < 16777216)

/-- A twelve-bit VLAN identifier, or 0x1000. -/
def vlanOk (n : Nat) : Bool := decide (n ≤ 4096)

/-- Eight priorities. -/
def priorityOk (n : Nat) : Bool := decide (n < 8)

/-- BIST_REQ.SLICE: a ten-bit slice number. -/
def sliceOk (n : Nat) : Bool := decide (n < 1024)

/-- RING_SVC.OPEN: services 0 to 6. -/
def serviceOk (n : Nat) : Bool := decide (n < 7)

/-- FLT_DOMAIN: 64 domains. -/
def domainOk (n : Nat) : Bool := decide (n < 64)

/-- R77: a 64-bit address. -/
def addrOk (n : Nat) : Bool := decide (n < 18446744073709551616)

/-- The byte lanes of a 64-bit bus. -/
def widthOk (n : Nat) : Bool := decide (n ≤ 8)

/-- An offset inside a 64-byte block. -/
def blockOffOk (n : Nat) : Bool := decide (n < 64)

/-- R341: a ring entry is 64 bytes. -/
def rawOk (bs : List Byte) : Bool := bs.length == 64

/-- R355: a body whose length a 32-bit LENGTH can give. -/
def bodyOk (bs : List Byte) : Bool := decide (bs.length < 4294967296)

/-- A flit's payload is 240 bytes (bytes 8 to 247). -/
def pageOk (bs : List Byte) : Bool := bs.length == 240

/-- One temperature for each of the 16 rakes. -/
def sweepOk (ts : List Nat) : Bool := ts.length == 16

/-- A flit: its port and its payload of 240 bytes. -/
def flitOk (f : Flit) : Bool := portOk f.port && pageOk f.payload

/-- R297: a control message, one of the fifteen of a flit. -/
def ctlOk (c : Ctl) : Bool := flitOk c.flit && decide (c.index < 15)

/-- R273, R274: a flit, or the five flits of a pair of codewords of 544 symbols. -/
def faultOk (kinds : List Nat) : FlitFault → Bool
  | .crc f => flitOk f
  | .codeword _ symbols => decide (symbols ≤ 544) && kinds.length == 5

/-- A packet of one of the 64 connections. -/
def packetOk (k : Packet) : Bool := connOk k.conn && vlanOk k.vlan

/-- A PTP message on an Ethernet port. -/
def ptpOk (p : PtpIn) : Bool := roleOk p.port

/-- R319: errors of a codeword's 68 symbols, rising, none without a difference. -/
def errorsOk : MemErrors → Bool
  | [] => true
  | [e] => decide (e.1 < 68) && e.2 != 0
  | e :: d :: l => decide (e.1 < d.1) && e.2 != 0 && errorsOk (d :: l)

/-- One of the two Ethernet ports and a VLAN tag, where a datagram carries the message. -/
def viaOk : Via → Bool
  | .ring => true
  | .udp port vlan _ => roleOk port && vlanOk vlan

/-- A request of one of the two roles with a 32-bit SEQ. -/
def reqOk (q : Req) : Bool := roleOk q.role && decide (q.seq < 4294967296) && viaOk q.via

end WellFormed

open WellFormed in
/-- Whether every operand of a command is in range. -/
def Instr.wellFormed : Instr → Bool
  | .registerWrite src addr width _ => sourceOk src && addrOk addr && widthOk width
  | .commit src addr _ => sourceOk src && addrOk addr
  | .standbyPowerOnReset => true
  | .standbyResetExit _ _ _ _ _ _ => true
  | .mainDomainReset => true
  | .mainResetRelease _ => true
  | .supplyOutOfRange input _ => roleOk input
  | .supplyInRange input _ => roleOk input
  | .wakeAssert _ => true
  | .consistBootApply => true
  | .consistData q body => reqOk q && bodyOk body
  | .consistLoad q body => reqOk q && bodyOk body
  | .consistSlotWritten => true
  | .consistApply q body => reqOk q && bodyOk body
  | .applyComplete => true
  | .applyBeat => true
  | .add seat _ => seatOk seat
  | .sub seat _ => seatOk seat
  | .and seat _ => seatOk seat
  | .or seat _ => seatOk seat
  | .xor seat _ => seatOk seat
  | .shl seat _ => seatOk seat
  | .shr seat _ => seatOk seat
  | .sra seat _ => seatOk seat
  | .addi seat _ => seatOk seat
  | .andi seat _ => seatOk seat
  | .ori seat _ => seatOk seat
  | .xori seat _ => seatOk seat
  | .shli seat _ => seatOk seat
  | .shri seat _ => seatOk seat
  | .srai seat _ => seatOk seat
  | .movi seat _ => seatOk seat
  | .movk seat _ => seatOk seat
  | .slt seat _ => seatOk seat
  | .sltu seat _ => seatOk seat
  | .sel seat _ => seatOk seat
  | .min seat _ => seatOk seat
  | .max seat _ => seatOk seat
  | .minu seat _ => seatOk seat
  | .maxu seat _ => seatOk seat
  | .mul seat _ => seatOk seat
  | .mulh seat _ => seatOk seat
  | .mulhu seat _ => seatOk seat
  | .div seat _ => seatOk seat
  | .divu seat _ => seatOk seat
  | .rem seat _ => seatOk seat
  | .remu seat _ => seatOk seat
  | .beq seat _ => seatOk seat
  | .bne seat _ => seatOk seat
  | .blt seat _ => seatOk seat
  | .bge seat _ => seatOk seat
  | .bltu seat _ => seatOk seat
  | .bgeu seat _ => seatOk seat
  | .bmany seat _ => seatOk seat
  | .bmnone seat _ => seatOk seat
  | .jal seat _ => seatOk seat
  | .jalr seat _ => seatOk seat
  | .loop seat _ => seatOk seat
  | .vadd seat _ => seatOk seat
  | .vsub seat _ => seatOk seat
  | .vmul seat _ => seatOk seat
  | .vfma seat _ => seatOk seat
  | .vfnma seat _ => seatOk seat
  | .vdot seat _ => seatOk seat
  | .vmin seat _ => seatOk seat
  | .vmax seat _ => seatOk seat
  | .vabs seat _ => seatOk seat
  | .vneg seat _ => seatOk seat
  | .vdiv seat _ => seatOk seat
  | .vsqrt seat _ => seatOk seat
  | .vcmp seat _ => seatOk seat
  | .viadd seat _ => seatOk seat
  | .visub seat _ => seatOk seat
  | .vimul seat _ => seatOk seat
  | .vidot seat _ => seatOk seat
  | .vand seat _ => seatOk seat
  | .vor seat _ => seatOk seat
  | .vxor seat _ => seatOk seat
  | .vshl seat _ => seatOk seat
  | .vshr seat _ => seatOk seat
  | .vsra seat _ => seatOk seat
  | .vicmp seat _ => seatOk seat
  | .vsel seat _ => seatOk seat
  | .vmovs seat _ => seatOk seat
  | .smovv seat _ => seatOk seat
  | .viota seat _ => seatOk seat
  | .vperm seat _ => seatOk seat
  | .mand seat _ => seatOk seat
  | .mor seat _ => seatOk seat
  | .mxor seat _ => seatOk seat
  | .mnot seat _ => seatOk seat
  | .mset seat _ => seatOk seat
  | .mget seat _ => seatOk seat
  | .mcnt seat _ => seatOk seat
  | .mfirst seat _ => seatOk seat
  | .cvt seat _ => seatOk seat
  | .xalloc seat _ => seatOk seat
  | .xallocGrant coach => coachOk coach
  | .xfree seat _ => seatOk seat
  | .xacc seat _ => seatOk seat
  | .xzero seat _ => seatOk seat
  | .xrd seat _ => seatOk seat
  | .xadd seat _ => seatOk seat
  | .xlda seat _ => seatOk seat
  | .xst seat _ => seatOk seat
  | .ld seat _ => seatOk seat
  | .st seat _ => seatOk seat
  | .vld seat _ => seatOk seat
  | .vst seat _ => seatOk seat
  | .aadd seat _ => seatOk seat
  | .amin seat _ => seatOk seat
  | .amax seat _ => seatOk seat
  | .aswap seat _ => seatOk seat
  | .acas seat _ => seatOk seat
  | .ald seat _ => seatOk seat
  | .loadReturn coach _ => coachOk coach
  | .transactionPerformed coach _ _ => coachOk coach
  | .dsub seat _ => seatOk seat
  | .dwait seat _ => seatOk seat
  | .dcnt seat _ => seatOk seat
  | .drayTransaction coach engine => coachOk coach && engineOk engine
  | .drayDescriptorComplete coach engine => coachOk coach && engineOk engine
  | .vgather seat _ => seatOk seat
  | .vscatter seat _ => seatOk seat
  | .xscadd seat _ => seatOk seat
  | .fence seat _ => seatOk seat
  | .fenceComplete seat => seatOk seat
  | .bar seat _ => seatOk seat
  | .barrierRelease coach scope => coachOk coach && engineOk scope
  | .launch seat _ => seatOk seat
  | .bwait seat _ => seatOk seat
  | .bread seat _ => seatOk seat
  | .rpop seat _ => seatOk seat
  | .rpush seat _ => seatOk seat
  | .rctx seat _ => seatOk seat
  | .rand seat _ => seatOk seat
  | .nop seat _ => seatOk seat
  | .halt seat _ => seatOk seat
  | .trap seat _ => seatOk seat
  | .launchBlockStart train => trainOk train
  | .kernelCodeLoaded train => trainOk train
  | .kernelComplete train => trainOk train
  | .kernelTimeout train => trainOk train
  | .kernelsStopped => true
  | .reduce _ raw => rawOk raw
  | .allReduce _ raw => rawOk raw
  | .reduceScatter _ raw => rawOk raw
  | .allGather _ raw => rawOk raw
  | .broadcast _ raw => rawOk raw
  | .allToAll _ raw => rawOk raw
  | .collUnmatched _ => true
  | .collWindowOpen slot => collSlotOk slot
  | .collChunkReduce slot => collSlotOk slot
  | .collComplete slot => collSlotOk slot
  | .collStall slot => collSlotOk slot
  | .collData f => flitOk f
  | .dispatch f => flitOk f
  | .dispatchEnd f => flitOk f
  | .dispatchCredit src dst => partnerOk src && partnerOk dst
  | .xhPost c => ctlOk c
  | .xhStep c => ctlOk c
  | .collCredit c => ctlOk c
  | .tableDefine _ raw => rawOk raw
  | .tableRelease _ raw => rawOk raw
  | .stepLinked _ raw => rawOk raw
  | .stepBuffered _ raw => rawOk raw
  | .stepEmitOnly _ raw => rawOk raw
  | .embGather _ raw => rawOk raw
  | .embScatterAdd _ raw => rawOk raw
  | .embApply _ raw => rawOk raw
  | .embApplyBegin table => tableOk table
  | .stateCommandHead table => tableOk table
  | .stepEnd table => tableOk table
  | .stateCommandComplete table => tableOk table
  | .take _ raw => rawOk raw
  | .restore _ raw => rawOk raw
  | .drain _ raw => rawOk raw
  | .importOpen _ raw => rawOk raw
  | .importCheck _ raw => rawOk raw
  | .snapManifest c => ctlOk c
  | .snapManifestDeadline => true
  | .snapCut => true
  | .snapData f => flitOk f
  | .snapSent c => ctlOk c
  | .snapCommit => true
  | .snapResume => true
  | .snapPcredit c => ctlOk c
  | .snapLoadedAck c => ctlOk c
  | .mirBegin c => ctlOk c
  | .mirEnd c => ctlOk c
  | .mirAck c => ctlOk c
  | .mirNak c => ctlOk c
  | .mirCredit c => ctlOk c
  | .mirSlots c => ctlOk c
  | .drumBeat => true
  | .beatSync port _ _ _ _ _ _ _ _ rest _ _ => portOk port && rest.length == 208
  | .ptpSync p _ _ _ _ => ptpOk p
  | .ptpFollowUp p _ _ => ptpOk p
  | .ptpDelayResp p _ _ _ => ptpOk p
  | .ptpAnnounce p _ _ => ptpOk p
  | .drumSourceLost => true
  | .drumReport c => ctlOk c
  | .portEnable port => portOk port
  | .trainingFrame port lane _ _ _ _ => portOk port && laneOk lane
  | .trainingTimeout port => portOk port
  | .laneTestEnd port _ _ closing => portOk port && closing.all fun e => laneOk e.1
  | .align f _ => flitOk f
  | .config port _ rest => portOk port && rest.length == 248
  | .portFailedRetry port => portOk port
  | .cplLaneLost port lane => portOk port && laneOk lane
  | .linkWord port _ _ => portOk port
  | .cplLinkDown port => portOk port
  | .compensationFrame port => portOk port
  | .write f => flitOk f
  | .readReq f => flitOk f
  | .ringSub f => flitOk f
  | .ringFree c => ctlOk c
  | .jobAbort c => ctlOk c
  | .jobAbortAck c => ctlOk c
  | .linkStatePoll n _ => partnerOk n
  | .inBandInterrupt n _ => partnerOk n
  | .cplRetest port => portOk port
  | .memoryRead addr found _ => addrOk addr && errorsOk found
  | .memoryWrite addr off data _ found => addrOk addr && blockOffOk off && bodyOk data && errorsOk found
  | .mr4Poll _ => true
  | .scrubRead addr found => addrOk addr && errorsOk found
  | .memoryTrainingComplete _ _ _ => true
  | .memoryFillComplete => true
  | .memErrorRateSecond channel => channelOk channel
  | .ethLinkChange port _ => roleOk port
  | .arpRequest port vlan _ _ _ => roleOk port && vlanOk vlan
  | .icmpEchoRequest port vlan _ _ _ data => roleOk port && vlanOk vlan && bodyOk data
  | .neighborSolicitation port vlan _ _ => roleOk port && vlanOk vlan
  | .routerAdvertisement port vlan _ _ => roleOk port && vlanOk vlan
  | .pfcPause port priority _ => roleOk port && priorityOk priority
  | .rdmaWrite k psn _ addr _ data _ => packetOk k && psnOk psn && addrOk addr && bodyOk data
  | .rdmaRead k psn addr _ len _ => packetOk k && psnOk psn && addrOk addr && addrOk len
  | .rdmaAck k psn => packetOk k.toPacket && psnOk psn
  | .cnp k => packetOk k
  | .rdmaAckTimeout conn => connOk conn
  | .rdmaRateRecovery conn => connOk conn
  | .doorbell k ring _ => packetOk k.toPacket && ringOk ring
  | .ringEntryTake consumer => consumerOk consumer
  | .statusGet q body => reqOk q && bodyOk body
  | .identityGet q body => reqOk q && bodyOk body
  | .regRead q body => reqOk q && bodyOk body
  | .regWrite q body => reqOk q && bodyOk body
  | .ringSetup q body => reqOk q && bodyOk body
  | .notifySet q body => reqOk q && bodyOk body
  | .connOpen q body => reqOk q && bodyOk body
  | .connClose q body => reqOk q && bodyOk body
  | .addrSet q body => reqOk q && bodyOk body
  | .heartbeat q body => reqOk q && bodyOk body
  | .roleSilent role => roleOk role
  | .jobStart q body => reqOk q && bodyOk body
  | .jobEnd q body => reqOk q && bodyOk body
  | .powerSetOn q body => reqOk q && bodyOk body
  | .powerSetOff q body => reqOk q && bodyOk body
  | .capSet q body => reqOk q && bodyOk body
  | .energyGet q body => reqOk q && bodyOk body
  | .telemetryGet q body => reqOk q && bodyOk body
  | .enrol q body => reqOk q && bodyOk body
  | .updBegin q body => reqOk q && bodyOk body
  | .updData q body => reqOk q && bodyOk body
  | .updDataProgrammed _ addr => addrOk addr
  | .updEnd q body => reqOk q && bodyOk body
  | .updVerifyComplete _ => true
  | .updActivate q body => reqOk q && bodyOk body
  | .updAbort q body => reqOk q && bodyOk body
  | .updSessionTimeout => true
  | .updDeferralEnd => true
  | .trialTimeout => true
  | .standbyTrialConfirm => true
  | .getVersion q body => reqOk q && bodyOk body
  | .getCapabilities q body => reqOk q && bodyOk body
  | .negotiateAlgorithms q body => reqOk q && bodyOk body
  | .getDigests q body => reqOk q && bodyOk body
  | .getCertificate q body => reqOk q && bodyOk body
  | .challenge q body => reqOk q && bodyOk body
  | .getMeasurements q body => reqOk q && bodyOk body
  | .faultRead q body => reqOk q && bodyOk body
  | .faultAck q body => reqOk q && bodyOk body
  | .logRead q body => reqOk q && bodyOk body
  | .serviceOpen svc => serviceOk svc
  | .compartmentFault guard _ _ => coreOk guard
  | .compartmentWatchdogExpiry guard _ _ => coreOk guard
  | .guardWatchdogExpiry guard => guardOk guard
  | .guardKernelFault guard => guardOk guard
  | .sctlWatchdogExpiry => true
  | .pseqLoadGo _ => true
  | .pealLoadComplete => true
  | .pealUpperRunStart => true
  | .pealEnd => true
  | .pealEn => true
  | .pealDis => true
  | .pealWait => true
  | .pealChk => true
  | .pealJmp => true
  | .pealJfail => true
  | .pealStagger => true
  | .pealStepTimeout _ => true
  | .pealWaitExpiry => true
  | .powerGoodQualified slot _ _ => railOk slot
  | .pealRailFault slot => railOk slot
  | .dischargeDone slot _ => railOk slot
  | .dischargeTimeout => true
  | .retryWaitExpiry => true
  | .attemptCountReset => true
  | .hubCapPeriod _ _ _ => true
  | .trayScan _ _ _ => true
  | .opEvaluation => true
  | .opStepComplete => true
  | .droopDetect _ _ => true
  | .slopeRequest n _ => partnerOk n
  | .tempSweep rakes => sweepOk rakes
  | .railStatusPoll slot _ _ => railOk slot
  | .leakSample input _ => partnerOk input
  | .emergencyClear code => byteOk code
  | .ageingTrim _ _ => true
  | .coolingUpdate => true
  | .fanPulseSeen k _ _ => outputOk k
  | .fanSpinupTimeout k => outputOk k
  | .fanStallDetect k => outputOk k
  | .fanKickStart k => outputOk k
  | .fanKickEnd k => outputOk k
  | .flowOkLow => true
  | .tripClear _ => true
  | .faultMessage source kind cls addr => sourceOk source && byteOk kind && clsOk cls && addrOk addr
  | .blockReset source => sourceOk source
  | .domainQuietExpiry domain => domainOk domain
  | .fltAck _ => true
  | .fltQpopHi => true
  | .fltGfifoHi guard => guardOk guard
  | .bistSliceStart => true
  | .bistBudgetExpiry => true
  | .bistSliceEnd rs _ _ => decide (rs.length ≤ 8192)
  | .bistReqGo slice => sliceOk slice
  | .partnerResetRelease n => partnerOk n
  | .sideCtlHold n => partnerOk n
  | .sideCtlPulse n => partnerOk n
  | .accFaultAssert n _ => partnerOk n
  | .i3cAddressAssign n _ => partnerOk n
  | .hotJoin n => partnerOk n
  | .partnerWatchPoll n _ _ => partnerOk n
  | .sideNoresp n => partnerOk n
  | .failedFlit port fault kinds => portOk port && faultOk kinds fault
  | .fecRateSecond port _ => portOk port
  | .railLostDown slot => railOk slot
  | .embApplyComplete table => tableOk table
  | .restoreComplete => true
  | .unknownCode q code body => reqOk q && halfOk code && bodyOk body
  | .unsupportedRequest q body => reqOk q && bodyOk body

end Sys2Proof
end

