-- ==== Sys2Proof/Tests/Slice0.lean ====
section
/-! SUPPORT. Tests: an ill-formed term for each check, states and operands that meet the hypotheses of the statements, and results
worked out by hand from the spec's own tables. -/

namespace Sys2Proof.Tests
open Sys2Proof.Machine

set_option Elab.async false

/-! ### Helpers -/

/-- A word with these fields. -/
def wd (d a b : Nat) (imm : Nat := 0) (fmt : Nat := 0) (rf : Nat := 0) (c : Nat := 0) : Fields :=
  { d := BitVec.ofNat 6 d, a := BitVec.ofNat 6 a, b := BitVec.ofNat 6 b, c := BitVec.ofNat 6 c, fmt := BitVec.ofNat 4 fmt,
    rf := BitVec.ofNat 4 rf, imm := BitVec.ofNat 24 imm }

/-- The word of an opcode where seat 0 fetches next. -/
def code (op : Nat) (w : Fields) (s : State) : State := { s with mem := putBytes s.mem (codeAddr s 0) (leBytes 8 (wordBits op w)) }

/-- Seat 0 issues the word for each of these opcodes. -/
def iss (ops : List Nat) (s : State) (w : Fields) (form : Nat → Form) : Bool :=
  ops.all fun op => issuesWord (code op w s) 0 w (form op)

/-- What holds of the next state of an outcome. -/
def after (o : Host.Outcome State Fault Refusal) (p : State → Bool) : Bool := match o with | .next t => p t | _ => false

/-- Both domains up, a Consist of preset 6 in effect, 168 GiB of memory. -/
def up : State :=
  regPut { State.reset with stbyDom := .up, mainDom := .up, mainPower := true, consist := { ConsistSt.init with applied := true, booted := true } }
    rMemStatus 63 0 0x60000001000002A0

/-- A kernel of 64 KiB of code and 16 seats on coach 0. -/
def kern : Kernel :=
  { launch := { raw := List.replicate 8 0 ++ [16, 16] ++ List.replicate 54 0, src := .seat 0 }, coaches := [0], phase := .running,
    startAt := 0, startBeat := 0, status := 0, cause := 0, seat := 0, faulted := [], image := [], pc := 0, est := 0, late := 0 }

/-- Seat 0 of coach 0 ready in a running kernel, with coach `c`. -/
def runC (t : Seat) (c : Coach) : State :=
  putSeat (putCoach (putTrain up 0 { TrainUnit.init with kernel := some kern }) 0 { c with cond := .running }) 0 { t with st := .ready }

def run (t : Seat) : State := runC t Coach.init

/-- A seat with values in S registers. -/
def seatS (l : List (Nat × Nat)) : Seat := l.foldl (fun t e => sset t e.1 (BitVec.ofNat 64 e.2) false) Seat.init

/-- S2 = 7, S3 = 2. -/
def s27 : State := run (seatS [(2, 7), (3, 2)])

/-- V0 lane 0 holds x, V1 lane 0 holds y. -/
def sV (x y : Nat) : State := run (vset (vset (seatS [(2, 7)]) 0 0 (BitVec.ofNat 32 x) false) 1 0 (BitVec.ofNat 32 y) false)

/-- Seat 0 with X registers 0 and 1 granted. -/
def coachX : Coach := { Coach.init with xowner := [(0, 0), (1, 0)] }
def seatX : Seat := { vset (seatS [(2, 0)]) 0 0 0x3F800000 false with grant := [0, 1] }
def sX : State := runC seatX coachX

/-! ### Well-formedness: each check refuses an ill-formed term -/

def req0 : Req := { role := 0, seq := 0, via := .ring, wellFormed := true }
def flit0 : Flit := { port := 0, header := 0, payload := List.replicate 240 0, crc := 0 }
def ctl0 : Ctl := { flit := flit0, index := 0 }

theorem test_wf_seat : (Instr.nop 8192 (wd 0 0 0)).wellFormed = false := by decide
theorem test_wf_coach : (Instr.xallocGrant 512).wellFormed = false := by decide
theorem test_wf_train : (Instr.kernelComplete 8).wellFormed = false := by decide
theorem test_wf_port : (Instr.portEnable 10).wellFormed = false := by decide
theorem test_wf_lane : (Instr.cplLaneLost 0 8).wellFormed = false := by decide
theorem test_wf_partner : (Instr.dispatchCredit 8 0).wellFormed = false := by decide
theorem test_wf_guard : (Instr.guardKernelFault 6).wellFormed = false := by decide
theorem test_wf_table : (Instr.stepEnd 64).wellFormed = false := by decide
theorem test_wf_role : (Instr.roleSilent 2).wellFormed = false := by decide
theorem test_wf_engine : (Instr.drayTransaction 0 2).wellFormed = false := by decide
theorem test_wf_output : (Instr.fanKickEnd 12).wellFormed = false := by decide
theorem test_wf_channel : (Instr.memErrorRateSecond 384).wellFormed = false := by decide
theorem test_wf_source : (Instr.faultMessage 1024 1 1 0).wellFormed = false := by decide
theorem test_wf_cls : (Instr.faultMessage 0 1 0 0).wellFormed = false := by decide
theorem test_wf_collSlot : (Instr.collStall 64).wellFormed = false := by decide
theorem test_wf_rail : (Instr.pealRailFault 64).wellFormed = false := by decide
theorem test_wf_conn : (Instr.cnp ⟨64, 0⟩).wellFormed = false := by decide
theorem test_wf_ring : (Instr.doorbell ⟨⟨0, 0⟩, false⟩ 256 0).wellFormed = false := by decide +kernel
theorem test_wf_consumer : (Instr.ringEntryTake 64).wellFormed = false := by decide
theorem test_wf_psn : (Instr.rdmaAck ⟨⟨0, 0⟩, false⟩ 16777216).wellFormed = false := by decide +kernel
theorem test_wf_vlan : (Instr.arpRequest 0 4097 0 0 0).wellFormed = false := by decide
theorem test_wf_priority : (Instr.pfcPause 0 8 0).wellFormed = false := by decide
theorem test_wf_slice : (Instr.bistReqGo 1024).wellFormed = false := by decide
theorem test_wf_service : (Instr.serviceOpen 7).wellFormed = false := by decide
theorem test_wf_domain : (Instr.domainQuietExpiry 64).wellFormed = false := by decide
theorem test_wf_addr : (Instr.memoryRead (2 ^ 64) [] false).wellFormed = false := by decide
theorem test_wf_width : (Instr.registerWrite 0x276 0 9 0).wellFormed = false := by decide
theorem test_wf_off : (Instr.memoryWrite 0 64 [] false []).wellFormed = false := by decide
theorem test_wf_raw : (Instr.reduce (.port 0) []).wellFormed = false := by decide
theorem test_wf_page : (Instr.config 0 0 []).wellFormed = false := by decide
theorem test_wf_sweep : (Instr.tempSweep []).wellFormed = false := by decide
theorem test_wf_flit : (Instr.collData { flit0 with payload := [] }).wellFormed = false := by decide
theorem test_wf_ctl : (Instr.xhPost { ctl0 with index := 15 }).wellFormed = false := by decide +kernel
theorem test_wf_req : (Instr.statusGet { req0 with role := 2 } []).wellFormed = false := by decide
theorem test_wf_errors : (Instr.memoryRead 0 [(5, 0x3C), (5, 1)] false).wellFormed = false ∧ (Instr.scrubRead 0 [(68, 1)]).wellFormed = false := by decide
theorem test_wf_fault : (Instr.failedFlit 0 (.codeword false 545) [0, 0, 0, 0, 0]).wellFormed = false := by decide
theorem test_wf_ptp : (Instr.ptpFollowUp { port := 2, udp := none, domain := 0 } 0 0).wellFormed = false := by decide
theorem test_wf_good : (Instr.statusGet req0 []).wellFormed = true ∧ (Instr.xhPost ctl0).wellFormed = true := by decide +kernel

/-! ### Coaches: words that issue, and results -/

theorem test_issues_sss : iss [0x01, 0x02, 0x03, 0x04, 0x05, 0x06, 0x07, 0x08, 0x12, 0x13, 0x15, 0x16, 0x17, 0x18, 0x19, 0x1A, 0x1B, 0x1C, 0x1D, 0x1E, 0x1F] s27 (wd 1 2 3) formSSS = true := by decide
theorem test_word_bits : wordBits 0x09 (wd 1 2 0 0xFFFFFF) = 0x0904200000FFFFFF ∧ wordBits 0x33 (wd 34 32 33 0 1 4 0x23) = 0x338A086314000000 := by
  decide +kernel
theorem test_other_word : after (exec (.add 0 (wd 1 2 3)) (code 0x02 (wd 1 2 3) s27)) (fun t => (getSeat t 0).pc == 0) = true := by decide +kernel
theorem test_add : after (exec (.add 0 (wd 1 2 3)) (code 0x01 (wd 1 2 3) s27)) (fun t => sget (getSeat t 0) 1 == (9, false) && (getSeat t 0).pc == 8) = true := by decide
theorem test_sub_wraps : after (exec (.sub 0 (wd 1 3 2)) (code 0x02 (wd 1 3 2) s27)) (fun t => sget (getSeat t 0) 1 == (0xFFFFFFFFFFFFFFFB, false)) = true := by
  decide
theorem test_shl_mod64 : after (exec (.shl 0 (wd 1 2 3)) (code 0x06 (wd 1 2 3) (run (seatS [(2, 1), (3, 65)])))) (fun t => sget (getSeat t 0) 1 == (2, false)) = true := by
  decide
theorem test_sra_sign : after (exec (.sra 0 (wd 1 2 3)) (code 0x08 (wd 1 2 3) (run (seatS [(2, 2 ^ 63), (3, 63)]))))
    (fun t => sget (getSeat t 0) 1 == (BitVec.allOnes 64, false)) = true := by decide
theorem test_mulh : after (exec (.mulh 0 (wd 1 2 2)) (code 0x1A (wd 1 2 2) (run (seatS [(2, 2 ^ 64 - 1)])))) (fun t => sget (getSeat t 0) 1 == (0, false)) = true := by
  decide
theorem test_div_zero : after (exec (.div 0 (wd 1 2 4)) (code 0x1C (wd 1 2 4) s27)) (fun t => sget (getSeat t 0) 1 == (BitVec.allOnes 64, false)) = true := by decide
theorem test_rem_zero : after (exec (.rem 0 (wd 1 2 4)) (code 0x1E (wd 1 2 4) s27)) (fun t => sget (getSeat t 0) 1 == (7, false)) = true := by decide
theorem test_div_corner : after (exec (.div 0 (wd 1 2 3)) (code 0x1C (wd 1 2 3) (run (seatS [(2, 2 ^ 63), (3, 2 ^ 64 - 1)]))))
    (fun t => sget (getSeat t 0) 1 == (0x8000000000000000, false)) = true := by decide
theorem test_divu : after (exec (.divu 0 (wd 1 2 3)) (code 0x1D (wd 1 2 3) s27)) (fun t => sget (getSeat t 0) 1 == (3, false)) = true := by decide
theorem test_issues_ssi : iss [0x09, 0x0A, 0x0B, 0x0C] s27 (wd 1 2 0 0xFFFFFF) formSSI = true ∧ iss [0x0D, 0x0E, 0x0F] s27 (wd 1 2 0 63) formShift = true ∧
    iss [0x10] s27 (wd 1 0 0 0xFFFFFF) (fun op => { op := op, d := .s, imm := 0xFFFFFF }) = true ∧
    iss [0x11] s27 (wd 1 0 0 0xC0FFFF) (fun op => { op := op, d := .s, imm := 0xC0FFFF }) = true ∧
    iss [0x14] s27 (wd 1 2 3 0 0 0 4) (fun op => { op := op, d := .s, a := .s, b := .s, c := .s }) = true := by decide
theorem test_addi_negative : after (exec (.addi 0 (wd 1 2 0 0xFFFFFF)) (code 0x09 (wd 1 2 0 0xFFFFFF) s27)) (fun t => sget (getSeat t 0) 1 == (6, false)) = true := by decide
theorem test_movk : after (exec (.movk 0 (wd 2 0 0 0x80ABCD)) (code 0x11 (wd 2 0 0 0x80ABCD) s27)) (fun t => sget (getSeat t 0) 2 == (0xABCD00000007, false)) = true := by
  decide
theorem test_issues_branch : iss [0x20, 0x21, 0x22, 0x23, 0x24, 0x25] s27 (wd 0 2 3 4) (fun op => { op := op, a := .s, b := .s, imm := 0xFFFFFF }) = true ∧
    iss [0x26, 0x27] s27 (wd 0 1 0 4) (fun op => { op := op, a := .m, imm := 0xFFFFFF }) = true ∧
    iss [0x28, 0x2A] s27 (wd 1 0 0 4) (fun op => { op := op, d := .s, imm := 0xFFFFFF }) = true := by decide
theorem test_jalr_hyp : iss [0x29] s27 (wd 1 4 0 2) (fun op => { op := op, d := .s, a := .s, imm := 0xFFFFFF }) = true ∧
    ((sget (getSeat s27 0) 4).1 + (2 : BitVec 24).signExtend 64 * 8).toNat % 8 = 0 := by decide
theorem test_bne_taken : after (exec (.bne 0 (wd 0 2 3 4)) (code 0x21 (wd 0 2 3 4) s27)) (fun t => (getSeat t 0).pc == 32) = true := by decide
theorem test_beq_falls : after (exec (.beq 0 (wd 0 2 3 4)) (code 0x20 (wd 0 2 3 4) s27)) (fun t => (getSeat t 0).pc == 8) = true := by decide
theorem test_loop_ends : after (exec (.loop 0 (wd 2 0 0 0xFFFFFF)) (code 0x2A (wd 2 0 0 0xFFFFFF) (run (seatS [(2, 1)]))))
    (fun t => (getSeat t 0).pc == 8 && sget (getSeat t 0) 2 == (0, false)) = true := by decide

theorem test_issues_v : iss [0x30, 0x31, 0x32, 0x33, 0x34] (sV 0 0) (wd 34 32 33) (fun op => formVfp op true false) = true ∧
    iss [0x40, 0x41] (sV 0 0) (wd 34 32 33 0 11) (fun op => formVint op [10, 11]) = true ∧ iss [0x42, 0x44, 0x45, 0x46, 0x47, 0x48, 0x49] (sV 0 0) (wd 34 32 33 0 11) (fun op => formVint op [11]) = true ∧
    iss [0x36, 0x37] (sV 0 0) (wd 34 32 33) (fun op => formVfp op false true) = true ∧ iss [0x38, 0x39] (sV 0 0) (wd 34 32 0) (fun op => formVfp1 op [0, 1, 2] false) = true ∧
    iss [0x3A] (sV 0 0) (wd 34 32 33) (fun op => { op := op, d := .v, a := .sv, b := .sv, c := .mask, rounds := true }) = true ∧
    iss [0x3B] (sV 0 0) (wd 34 32 0) (fun op => formVfp1 op [0] true) = true := by decide
theorem test_vadd : after (exec (.vadd 0 (wd 34 32 33)) (code 0x30 (wd 34 32 33) (sV 0x3F800000 0x40000000))) (fun t => vget (getSeat t 0) 2 0 == (0x40400000, false)) = true := by
  decide
theorem test_vdiv_zero : after (exec (.vdiv 0 (wd 34 32 33)) (code 0x3A (wd 34 32 33) (sV 0x3F800000 0))) (fun t => vget (getSeat t 0) 2 0 == (0x7F800000, false)) = true := by
  decide
theorem test_vneg : after (exec (.vneg 0 (wd 34 32 0)) (code 0x39 (wd 34 32 0) (sV 0x3F800000 0))) (fun t => vget (getSeat t 0) 2 0 == (0xBF800000, false)) = true := by
  decide
theorem test_vimul_wraps : after (exec (.vimul 0 (wd 34 32 33 0 11)) (code 0x42 (wd 34 32 33 0 11) (sV 0xFFFFFFFF 2))) (fun t => vget (getSeat t 0) 2 0 == (0xFFFFFFFE, false)) = true := by
  decide
theorem test_issues_dot : issuesDot (code 0x35 (wd 34 32 33) (sV 0 0)) 0 (wd 34 32 33) = true ∧
    iss [0x43] (sV 0 0) (wd 34 32 33 0 10) (fun op => { op := op, d := .v, a := .v, b := .v, c := .mask, fmts := [10] }) = true ∧
    iss [0x4B] (sV 0 0) (wd 34 32 33 0 11 0 32) (fun op => { op := op, d := .v, a := .sv, b := .sv, c := .maskOn, fmts := [11] }) = true ∧
    iss [0x4C] (sV 0 0) (wd 34 2 0 63) (fun op => { op := op, d := .v, a := .s, imm := 0x3F }) = true ∧
    iss [0x4D] (sV 0 0) (wd 2 34 0 63) (fun op => { op := op, d := .s, a := .v, imm := 0x3F }) = true ∧
    iss [0x4F] (sV 0 0) (wd 34 32 33) (fun op => { op := op, d := .v, a := .v, b := .v }) = true ∧
    iss [0x4E] (sV 0 0) (wd 34 2 0) (fun op => { op := op, d := .v, a := .s }) = true := by decide
theorem test_viota : after (exec (.viota 0 (wd 34 2 0)) (code 0x4E (wd 34 2 0) (sV 0 0))) (fun t => vget (getSeat t 0) 2 63 == (70, false)) = true := by decide
theorem test_vidot : after (exec (.vidot 0 (wd 34 32 33 0 10)) (code 0x43 (wd 34 32 33 0 10) (sV 0x01FF0203 0x01010101))) (fun t => vget (getSeat t 0) 2 0 == (5, false)) = true := by
  decide
theorem test_compares : comparesWord 0x3C (code 0x3C (wd 1 32 33) (sV 1 2)) 0 (wd 1 32 33) [0] = true ∧ comparesWord 0x4A (code 0x4A (wd 1 32 33 6 11) (sV 1 2)) 0 (wd 1 32 33 6 11) [11] = true ∧
    iss [0x58, 0x59, 0x5A] s27 (wd 1 2 3) (fun op => { op := op, d := .m, a := .m, b := .m }) = true ∧ iss [0x5B] s27 (wd 1 2 0) (fun op => { op := op, d := .m, a := .m }) = true ∧
    iss [0x5C, 0x5F] s27 (wd 1 2 0) (fun op => { op := op, d := .m, a := .s }) = true ∧ iss [0x5D, 0x5E] s27 (wd 1 2 0) (fun op => { op := op, d := .s, a := .m }) = true := by decide
theorem test_mfirst : after (exec (.mfirst 0 (wd 1 2 0)) (code 0x5F (wd 1 2 0) s27)) (fun t => mget (getSeat t 0) 1 == 0x7F) = true := by decide
theorem test_vicmp_unsigned : after (exec (.vicmp 0 (wd 1 32 33 6 11)) (code 0x4A (wd 1 32 33 6 11) (sV 1 0xFFFFFFFF))) (fun t => mget (getSeat t 0) 1 == 1) = true := by decide
theorem test_issues_cvt : issuesCvt (code 0x50 (wd 34 32 0 0 1) (sV 0 0)) 0 (wd 34 32 0 0 1) = true := by decide

theorem test_xalloc_hyp : iss [0x60] s27 (wd 0 0 0 8) (fun op => { op := op, imm := 0xF }) = true ∧ (getSeat s27 0).grant = [] := by decide
theorem test_xallocGrant_hyp : (getCoach (runC Seat.init { coachX with xwait := [(3, 6)] }) 0).xwait = [(3, 6)] ∧
    6 ≤ ((List.range 8).filter fun x => !((getCoach (runC Seat.init { coachX with xwait := [(3, 6)] }) 0).xowner.map Prod.fst).contains x).length := by
  decide
theorem test_xallocGrant : after (exec (.xallocGrant 0) (runC Seat.init { coachX with xwait := [(3, 6)] }))
    (fun t => (getSeat t 3).grant == [2, 3, 4, 5, 6, 7]) = true := by decide
theorem test_xfree_hyp : iss [0x61] sX (wd 0 0 0) (fun op => { op := op }) = true ∧ noneAwaits sX 0 [64, 65, 66, 67, 68, 69, 70, 71] = true := by decide
theorem test_xzero_hyp : iss [0x63] sX (wd 1 0 0) (fun op => { op := op, d := .x }) = true ∧ 1 < (getSeat sX 0).grant.length := by decide
theorem test_xacc_hyp : iss [0x62] sX (wd 0 32 0) (fun op => { op := op, d := .x, a := .v, c := .mask, fmts := [0, 1, 2, 3, 4, 5, 6, 7, 8, 9, 10, 11], flag := true, imm := 0x3E0 }) = true ∧
    scaleOk (wFmt (wd 0 32 0)) 0 = true ∧ noneAwaits sX 0 (scaleRegs (wFmt (wd 0 32 0)) 0 ++ rangeFrom 64 1) = true ∧
    (getSeat sX 0).grant.Nodup := by decide
theorem test_xacc : after (exec (.xacc 0 (wd 0 32 0)) (code 0x62 (wd 0 32 0) sX))
    (fun t => (xget (getCoach t 0) 0 0).value == BitVec.ofNat 320 (2 ^ 149) && (xget (getCoach t 0) 0 63).adds == 1) = true := by decide +kernel
theorem test_xadd_hyp : iss [0x65] sX (wd 0 1 0) (fun op => { op := op, d := .x, a := .x }) = true := by decide
theorem test_xrd_hyp : iss [0x64] sX (wd 33 1 0) (fun op => { op := op, d := .v, a := .x, c := .mask, fmts := [0, 1, 2, 3, 4, 11], rounds := true, imm := 7 }) = true := by
  decide
theorem test_own_hyp : iss [0x70] s27 (wd 1 4 0 512 3) (fun op => { op := op, d := .s, a := .s, fmts := [0, 1, 2, 3], flag := true, imm := 0xFFFFFF }) = true ∧
    iss [0x71] s27 (wd 0 2 4 0x20000 3) (fun op => { op := op, a := .s, b := .s, fmts := [0, 1, 2, 3], imm := 0xFFFFFF }) = true ∧
    iss [0x72] s27 (wd 33 4 0 0x20000) (fun op => { op := op, d := .v, a := .s, c := .mask, imm := 0xFFFFFF }) = true ∧
    iss [0x73] s27 (wd 0 33 4 0x20000) (fun op => { op := op, a := .v, b := .s, c := .mask, imm := 0xFFFFFF }) = true ∧
    iss [0x67] sX (wd 0 1 4 0x20000) (fun op => { op := op, a := .x, b := .s, imm := 0xFFFFFF }) = true ∧
    iss [0x66] sX (wd 1 4 0 0x20000) (fun op => { op := op, d := .x, a := .s, imm := 0xFFFFFF }) = true := by decide

/-! ### Coach memory, transactions, dray, synchronisation -/

/-- S4 at the seat's own coach memory, S5 at module memory, S6 at the yard. -/
def seatW : Seat := seatS [(4, 0xFD0000000000), (5, 0x1000), (6, 0xFD0001000000), (2, 7)]
def sW : State := run seatW
def sWX : State := runC { seatW with grant := [0, 1] } coachX

/-- The window that a register names. -/
def winOf (s : State) (r len : Nat) : Option Win := seatWin s 0 (codeLimit s 0) (sget (getSeat s 0) r).1.toNat len

theorem test_own_reach : ([1, 2, 4, 8].all fun k => reachesWin sW 0 (wd 1 4 4 (0x7FFF8 - 0x10000)) 4 k k (.own (coachMemAddr 0 (0x7FFF8 - 0x10000)))) = true ∧
    reachesVec sW 0 (wd 33 4 4 0) 4 (selMask (getSeat sW 0) 0) (.own (coachMemAddr 0 0)) = true ∧
    reachesWin sWX 0 (wd 1 4 4 0) 4 4096 64 (.own (coachMemAddr 0 0)) = true ∧ 1 < (getSeat sWX 0).grant.length := by decide +kernel
theorem test_st_own : after (exec (.st 0 (wd 0 2 4 0 3)) (code 0x71 (wd 0 2 4 0 3) sW)) (fun t => memByte t (coachMemAddr 0 0) == 7 && memByte t (coachMemAddr 0 1) == 0) = true := by
  decide +kernel
theorem test_outside_reach : reachesWin sW 0 (wd 1 5 5 0) 5 8 8 (.mem 0x1000) = true ∧ reachesWin sW 0 (wd 1 6 6 0) 6 1 1 (.yard (yardAddr 0 0)) = true ∧
    reachesVec sW 0 (wd 33 5 5 0) 5 (selMask (getSeat sW 0) 0) (.mem 0x1000) = true ∧ reachesWin sWX 0 (wd 1 5 5 0) 5 4096 64 (.mem 0x1000) = true ∧
    64 ≤ entriesFree (getCoach sWX 0) := by decide +kernel
theorem test_atomic_issues : iss [0x74, 0x77] sW (wd 1 5 2 0 2) (fun op => formAtomic op false) = true ∧ iss [0x75, 0x76] sW (wd 1 5 2 0 3) (fun op => formAtomic op true) = true ∧
    iss [0x78] sW (wd 1 5 2 0 3 0 2) (fun op => { op := op, d := .s, a := .s, b := .s, c := .s, fmts := [2, 3], imm := 0xFFFFFF }) = true ∧
    iss [0x79] sW (wd 1 5 0 0 3) (fun op => { op := op, d := .s, a := .s, fmts := [2, 3], imm := 0xFFFFFF }) = true := by decide +kernel
theorem test_ld_queued : after (exec (.ld 0 (wd 1 5 0 0 3)) (code 0x70 (wd 1 5 0 0 3) sW)) (fun t => (getCoach t 0).acc.length == 1 && (getSeat t 0).pend == [1]) = true := by
  decide +kernel

/-- Coach 0 with one access of seat 0 to block 0x40. -/
def accS (k : AccKind) : State :=
  run seatW |> fun s => putCoach s 0 { getCoach s 0 with acc := [{ id := 3, seat := 0, pc := 0, kind := k, blocks := [0x40], got := [] }] }
def accOf (k : AccKind) : Access := { id := 3, seat := 0, pc := 0, kind := k, blocks := [0x40], got := [] }

theorem test_performs : performs (accS (.store [(0x1000, 5)] [])) 0 3 0x40 (accOf (.store [(0x1000, 5)] [])) = true ∧
    performs (accS (.atomic .add 1 8 0x1000 2 0 false)) 0 3 0x40 (accOf (.atomic .add 1 8 0x1000 2 0 false)) = true ∧
    performs (accS (.scadd [(0x1000, .units 1)] false)) 0 3 0x40 (accOf (.scadd [(0x1000, .units 1)] false)) = true ∧
    blockPoisoned (accS (.scadd [(0x1000, .units 1)] false)) 0x40 = false := by decide +kernel
theorem test_load_returns : findAcc (getCoach (accS (.load 1 8 false 0x1000)) 0) 3 = some (accOf (.load 1 8 false 0x1000)) ∧
    (accOf (.load 1 8 false 0x1000)).blocks = blocksOf 0x1000 8 ∧
    inOrder (getCoach (accS (.load 1 8 false 0x1000)) 0) (accOf (.load 1 8 false 0x1000)) 0x40 = true ∧
    (getCoach (accS (.load 1 8 false 0x1000)) 0).cond ≠ .drained ∧ coachMay (accS (.load 1 8 false 0x1000)) 0 (64 * 0x40) false = true := by decide +kernel
theorem test_atomic_adds : after (exec (.transactionPerformed 0 3 0x40) (accS (.atomic .add 1 8 0x1000 2 0 false)))
    (fun t => memByte t 0x1000 == 2 && (getCoach t 0).acc == []) = true := by decide +kernel

/-- All lanes of V0 are zero, so every lane names the base. -/
theorem test_lanes_reach : lanesReach sW 0 (selMask (getSeat sW 0) 0) 4 32 2 4 4 (fun _ => .own (coachMemAddr 0 0)) ∧
    lanesReach sW 0 (selMask (getSeat sW 0) 0) 5 32 2 4 4 (fun _ => .mem 0x1000) ∧
    iss [0x90] sW (wd 33 4 32 2) (fun op => { op := op, d := .v, a := .s, b := .v, c := .mask, imm := 3 }) = true ∧
    iss [0x91] sW (wd 0 33 4 2 0 0 32) (fun op => { op := op, d := .mask, a := .v, b := .s, c := .v, imm := 3 }) = true ∧
    dedup ((selLanes (selMask (getSeat sW 0) 0)).map fun _ => 0x1000 / 64) = [0x40] := by
  refine ⟨⟨by decide +kernel, by decide +kernel⟩, ⟨by decide +kernel, by decide +kernel⟩, by decide +kernel, by decide +kernel, by decide +kernel⟩
theorem test_scatter_highest : after (exec (.vscatter 0 (wd 0 33 4 0 0 0 32)) (code 0x91 (wd 0 33 4 0 0 0 32) (run { vset (vset seatW 1 0 5 false) 1 63 9 false with pc := 0 }))) (fun t => memByte t (coachMemAddr 0 0) == 9) = true := by decide +kernel

/-- Memory with these bytes. -/
def withBytes (s : State) (a : Nat) (l : List Byte) : State := { s with mem := putBytes s.mem a l }

/-- A descriptor of one row of 64 bytes from module memory 0x1000 to coach memory 0x100, INC. -/
def drayRaw : List Byte := leBytes 8 0x1000 ++ leBytes 8 0xFD0000000100 ++ leBytes 4 64 ++ leBytes 2 1 ++ leBytes 2 1 ++ leBytes 8 0
def drayD : DrayDesc := (drayParse drayRaw).getD
  { id := 0, seat := 0, pc := 0, src := 0, dst := 0, length := 64, rows := 1, inc := true, waitPrev := false, zero := false, srcStride := 0,
    dstStride := 0, issued := 0, accBound := 0, descBound := 0 }
def sDray (issued : Nat) : State := putCoach sW 0 { getCoach sW 0 with q0 := [{ drayD with issued := issued }] }

theorem test_dsub_hyp : (drayParse (memBytes (withBytes sW (coachMemAddr 0 0) drayRaw) (coachMemAddr 0 0) 32)).isSome = true ∧
    iss [0x80, 0x81] sW (wd 0 4 0 1) (fun op => { op := op, a := .s, imm := 1 }) = true ∧ (sget (getSeat sW 0) 4).1.toNat % 32 = 0 ∧
    winOf sW 4 32 = some (.own (coachMemAddr 0 0)) := by decide +kernel
theorem test_dray_hyp : drayRuns (sDray 0) 0 0 { drayD with issued := 0 } = true ∧
    drayTarget (sDray 0) 0 (draySrc drayD 0) false = some (0x1000, false) ∧
    drayTarget (sDray 0) 0 (drayDst drayD 0) true = some (coachMemAddr 0 0x100, false) ∧
    drayQ (getCoach (sDray 1) 0) 0 = { drayD with issued := 1 } :: [] ∧ drayAllDone (getCoach (sDray 1) 0) { drayD with issued := 1 } = true ∧
    iss [0x82] sW (wd 1 0 0 1) (fun op => { op := op, d := .s, imm := 1 }) = true := by decide +kernel
theorem test_dray_starts : after (exec (.drayTransaction 0 0) (sDray 0)) (fun t => entriesUsed (getCoach t 0) == 1) = true := by decide +kernel
/-- The dray transaction of `drayD` is in flight. -/
def drayAcc : Access := { id := 3, seat := 0, pc := 0, kind := .dray 0 drayD 0, blocks := [coachMemAddr 0 0x100 / 64], got := [] }
def sDrayAcc : State := putCoach (sDray 1) 0 { getCoach (sDray 1) 0 with acc := [drayAcc] }
theorem test_dray_performs : findAcc (getCoach sDrayAcc 0) 3 = some drayAcc ∧ after (exec (.transactionPerformed 0 3 (coachMemAddr 0 0x100 / 64))
    (withBytes sDrayAcc 0x1000 [9])) (fun t => memByte t (coachMemAddr 0 0x100) == 9 && (getCoach t 0).acc == []) = true := by decide +kernel
theorem test_dray_counts : after (exec (.drayDescriptorComplete 0 0) (sDray 1)) (fun t => (getCoach t 0).dc0 == 1) = true := by decide +kernel

def sFence : State := run { seatW with bar0 := 1 } |> fun s => putSeat s 0 { getSeat s 0 with st := .parked (.fence 7 9 9) }
def sBar : State := (rangeFrom 0 16).foldl (fun s n => putSeat s n { Seat.init with st := .parked (.barrier 0 0 0), bar0 := 1 }) (run seatW)

theorem test_fence_hyp : iss [0xA0] sW (wd 0 0 0 7) (fun op => { op := op, imm := 7 }) = true ∧ (getSeat sFence 0).st = .parked (.fence 7 9 9) ∧
    loadsDone (getCoach sFence 0) 0 9 = true ∧ storesDone (getCoach sFence 0) 0 9 = true ∧ descsDone (getCoach sFence 0) 0 9 = true ∧
    iss [0xA1] sW (wd 0 0 0 1) (fun op => { op := op, imm := 1 }) = true := by decide +kernel
theorem test_barrier_hyp : (∀ n ∈ barSeats sBar 0 0, arrived sBar 0 n = true) ∧ (barSeats sBar 0 0).length = 16 := by decide +kernel
theorem test_barrier_releases : after (exec (.barrierRelease 0 0) sBar) (fun t => (getSeat t 15).st == .ready) = true := by decide +kernel
theorem test_system_hyp : iss [0xB1] sW (wd 1 0 0) (fun op => { op := op, d := .s }) = true ∧ iss [0xB0] sW (wd 0 2 0 0xFFFFFF) (fun op => { op := op, a := .s, imm := 0xFFFFFF }) = true ∧
    iss [0xD0] sW (wd 0 2 4) (fun op => { op := op, a := .s, b := .s }) = true ∧ iss [0xE0, 0xE1, 0xE2] sW (wd 0 0 0) (fun op => { op := op }) = true := by decide +kernel
theorem test_bwait_parks : after (exec (.bwait 0 (wd 0 2 0)) (code 0xB0 (wd 0 2 0) sW)) (fun t => (getSeat t 0).st == .parked (.beat 7)) = true := by decide +kernel
theorem test_fetch_hyp : mayIssue (run { seatW with pc := 65536 }) 0 = true ∧ codeLimit sW 0 = 65536 ∧
    wordOk (formSSS 0x01) (wd 1 2 3 1) = false ∧ fetchWord (code 0x01 (wd 1 2 3 1) sW) 0 = wordBits 0x01 (wd 1 2 3 1) ∧ mayIssue sW 0 = true ∧ (getSeat sW 0).pc < codeLimit sW 0 := by decide +kernel
theorem test_unassigned : opAssigned (fetchWord sW 0 / 2 ^ 56) = false ∧
    after (exec (.nop 0 (wd 0 0 0)) sW) (fun t => (getCoach t 0).cause == 1) = true := by decide +kernel
theorem test_illegal : after (exec (.add 0 (wd 1 2 3 1)) (code 0x01 (wd 1 2 3 1) sW)) (fun t => (getCoach t 0).cause == 1 && (getCoach t 0).cond == .stopped) = true := by
  decide +kernel

/-! ### Launches, rings of seats, kernels -/

/-- Host ring `q` of type `ty` for train 0, 16 entries, at 1 MiB + 64 KiB × q. -/
def withRing (s : State) (q ty : Nat) : State :=
  regPut (regPut s (rRingBase q) 47 12 (256 + 16 * q)) (rRingCfg q) 63 0 (2 ^ 63 + ty * 2 ^ 60 + 4 * 2 ^ 49)

def launchRaw : List Byte := leBytes 8 0x10000 ++ [1, 16, 0, 0, 0, 0, 0, 0] ++ List.replicate 16 0 ++ leBytes 8 0x2000 ++ leBytes 4 5 ++
  List.replicate 20 0
def seatR : Seat := seatS [(2, 4), (4, 0xFD0000000000), (5, 0x1000), (7, 5), (8, 0xFF00)]
def sRing : State := withRing (withRing (run seatR) 4 4) 5 4

theorem test_launch_hyp : launchReady (run seatR) 0 (wd 1 5 0) 0 = true ∧ iss [0xA2] (run seatR) (wd 1 5 0) formSSS = true := by decide +kernel
theorem test_launch_full : launchReady (putTrain (run seatR) 0 { getTrain (run seatR) 0 with queue := List.replicate 64 kern.launch }) 0 (wd 1 5 0) 0 = true ∧
    after (exec (.launch 0 (wd 1 5 0)) (code 0xA2 (wd 1 5 0) (putTrain (run seatR) 0 { getTrain (run seatR) 0 with queue := List.replicate 64 kern.launch })))
      (fun t => sget (getSeat t 0) 1 == (1, false)) = true := by decide +kernel
theorem test_rpop_hyp : ringReady (setProd sRing 4 1) 0 (wd 1 2 4) 0 (coachMemAddr 0 0) 4 false = true ∧ ringFill (setProd sRing 4 1) 4 ≠ 0 := by
  decide +kernel
theorem test_rpush_hyp : ringReady sRing 0 (wd 1 7 4) 0 (coachMemAddr 0 0) 5 true = true ∧ kget [] sRing.host.waiting 5 = [] ∧
    canPost sRing 5 (memBytes sRing (coachMemAddr 0 0) 64) = true ∧ sRing.coaches.pushes = [] ∧ pushRoom sRing 5 = true ∧ storesDone (getCoach sRing 0) 0 0 = true ∧ descsDone (getCoach sRing 0) 0 0 = true := by decide +kernel

/-- The seat has a store on the way. -/
def sBehind : State := putCoach { sRing with coaches := { sRing.coaches with nextAcc := 4 } } 0
  { getCoach sRing 0 with acc := [accOf (.store [(0x1000, 5)] [])] }
def push5 : RingPush := { seat := 0, ring := 5, entry := List.replicate 64 1, accBound := 0, descBound := 0 }
theorem test_rpush_waits : ringReady sBehind 0 (wd 1 7 4) 0 (coachMemAddr 0 0) 5 true = true ∧ pushRoom sBehind 5 = true ∧
    storesDone (getCoach sBehind 0) 0 sBehind.coaches.nextAcc = false ∧ sBehind.coaches.pushes = [] ∧ pushReady sRing push5 = true := by decide +kernel
theorem test_rpush_full : after (exec (.rpush 0 (wd 1 7 4)) (code 0xC1 (wd 1 7 4) (setProd sRing 5 16))) (fun t => sget (getSeat t 0) 1 == (1, false)) = true := by
  decide +kernel
/-- Table 0 is a user program of train 0. -/
def sUser : State := { run seatR with tables := { Tables.init with table := [(0, { Table.init with st := .ready, raw := [0xF] ++ List.replicate 255 0 })] } }
theorem test_rpop_step_hyp : ringReady sUser 0 (wd 1 8 4) 0 (coachMemAddr 0 0) 0xFF00 false = true ∧ iss [0xC0, 0xC1] sUser (wd 1 8 4) formSSS = true := by
  decide +kernel

def lb : Launch := { raw := launchRaw, src := .seat 0 }
def sLaunch : State := putTrain up 0 { TrainUnit.init with queue := [lb] }
def sKern (p : KPhase) : State := putTrain up 0 { TrainUnit.init with kernel := some { kern with launch := lb, phase := p } }

theorem test_launch_ok : launchOk sLaunch 0 lb = true ∧ (getTrain sLaunch 0).kernel = none ∧ sLaunch.host.ending = none ∧ svcWaits sLaunch 0 = false := by
  decide +kernel
theorem test_firmware_runs : after (exec (.launchBlockStart 0) (putTrain up 0 { TrainUnit.init with queue := [{ lb with src := .firmware }] }))
    (fun t => (getTrain t 0).service.isSome && (getTrain t 0).kernel.isNone) = true := by decide +kernel
theorem test_loaded_hyp : lbFlags lb % 2 = 0 ∧ lbSeats lb = 16 ∧ up.consist.cfg.drum.g4cMode = false ∧
    (getTrain (sKern .loading) 0).kernel = some { kern with launch := lb, phase := .loading } := by decide +kernel
theorem test_timeout_hyp : lbTimeout lb = 5 ∧ kern.startBeat.toNat + 5 ≤ ({ sKern .running with drum := { up.drum with count := 5 } }).drum.count.toNat := by
  decide +kernel
theorem test_complete_hyp : kernelHalted ((rangeFrom 0 16).foldl (fun s n => putSeat s n { Seat.init with st := .halted }) (sKern .running))
      { kern with launch := lb } = true ∧ kernelQuiet (sKern .running) { kern with launch := lb } = true ∧
    lbCompl lb = 0x2000 ∧ complOk (sKern .running) 0 lb = true := by decide +kernel
theorem test_stopped_hyp : ({ up with host := { up.host with ending := some ⟨false⟩ } }).host.ending = some ⟨false⟩ := by decide

/-! ### Faults and self test -/

theorem test_raise_hyp : up.mainDom = .up ∧ State.reset.mainDom ≠ .up ∧ (up.belfry.raised.filter fun x => x.source == 0x240).length < 4 := by decide
theorem test_faults_hyp : isSource 0x25F = true ∧ isSource 0x248 = true ∧ domainOf 0x248 = some 40 ∧ touches up 0x248 = false ∧
    unacked up 0x25F 1 = false ∧ reactionOf up 0x25F 1 = 0 ∧ unacked up 0x248 2 = false ∧ underTest up 0x25F = false := by decide +kernel
theorem test_under_test : underTest { up with bist := { up.bist with
    run := some { slice := 2, set := 0, start := 0, saved := some .idle, restore := true, stopped := false } } } 1 = true ∧
    (up.belfry.raised.all fun m => m.source != 1) = true := by decide
theorem test_fault_seq : after (exec (.faultMessage 0x25F 3 1 0x40) up) (fun t => t.belfry.queue.length == 1 &&
    regBits t (rSticky 9) 31 31 == 1) = true := by decide +kernel
theorem test_reaction_none : reactionOf (regPut up (rReact 0x248) 7 4 0) 0x248 2 = 0 := by decide +kernel
theorem test_block_reset_hyp : (5 ∈ ({ up with belfry := { up.belfry with resets := [5] } }).belfry.resets) ∧ up.host.job = none := by decide
theorem test_domain_hyp : nbit (regGet (regPut up rDomain 47 47 1) rDomain).toNat 47 = true := by decide +kernel

def sBist : State := regPut up rBistCtl 63 63 1
theorem test_bist_hyp : sBist.bist.run = none ∧ sBist.bist.urgent = [] ∧ regBits sBist rBistReq 63 63 = 0 ∧ regBits sBist rBistStatus 63 54 = 2 * 0 ∧
    coachInService sBist 0 = true ∧ sliceWaits sBist 0 = false := by decide +kernel
def slice0 : Slice := { slice := 0, set := 0, start := 0, saved := some .idle, restore := true, stopped := false }
theorem test_drained_hyp : sliceDrained { sBist with bist := { sBist.bist with run := some slice0 } } slice0 = true ∧
    sliceDrained (putCoach { sBist with bist := { sBist.bist with run := some slice0 } } 0 { getCoach sBist 0 with acc := [accOf (.store [] [])] }) slice0 =
      false := by decide +kernel
theorem test_bist_start : after (exec .bistSliceStart sBist) (fun t => t.bist.run.isSome && (getCoach t 0).cond == .drained) = true := by
  decide +kernel
theorem test_slice_end_hyp : regBits sBist rBistStatus 63 54 = 2 * 0 ∧ after (exec .bistSliceStart sBist) (fun t =>
    match t.bist.run with | some sl => sl.slice == 0 && !sl.stopped && sl.saved.isSome | none => false) = true := by decide +kernel
theorem test_slice_passes : after (exec (.bistSliceEnd [] 3 3) { sBist with bist := { sBist.bist with
    run := some { slice := 1, set := 0, start := 0, saved := none, restore := false, stopped := false } } })
    (fun t => regBits t rBistLast 63 62 == 1 && t.bist.run.isNone) = true := by decide +kernel

/-! ### Drum, power, Peal -/

def sPort (n : Nat) : State := regPut up (rCplStatus n) 63 60 6
def sPtp : State :=
  { up with drum := { up.drum with ptp := { up.drum.ptp with master := some 5, t1 := some 10, t2 := some 20, needFollowUp := true } } }

theorem test_beat_hyp : up.stbyDom = .up ∧ ({ up with drum := { up.drum with running := true, step := some 700 } }).drum.step = some 700 ∧
    up.host.job = none ∧ up.drum.running = false := by decide +kernel
/-- A flit with its CRC. -/
def mkF (n h : Nat) (pay : List Byte) : Flit := { port := n, header := BitVec.ofNat 64 h, payload := pay, crc := BitVec.ofNat 64 (flitCrc h pay) }
def flitB : Flit := mkF 8 (0xC * 2 ^ 60 + 3 * 2 ^ 58) (leBytes 2 7 ++ leBytes 2 0xFFFF ++ List.replicate 236 0)
theorem test_sync_flit : syncFlit 8 flitB.header 7 0xFFFF 0 0 0 0 0 (List.replicate 208 0) flitB.crc = flitB := by decide +kernel
theorem test_beat_flit : crcOk flitB = true ∧ flitKind flitB = 0xC ∧ syncOk flitB = true ∧ crcOk { flitB with crc := 0 } = false := by decide +kernel
theorem test_sync_hyp : portActive (sPort 8) (8 + 0) = true ∧
    ({ sPort 8 with consist := { up.consist with cfg := { up.consist.cfg with drum := { up.consist.cfg.drum with beatSync := 3 } } } }).consist.cfg.drum.beatSync.getLsbD 1 = true := by
  decide +kernel
def ptpIn (k : Nat) : PtpIn := { port := (ptpPort sPtp).getD 0, udp := some k, domain := sPtp.consist.cfg.drum.ptpDomain }
theorem test_ptp_hyp : ptpAccepts sPtp (ptpIn 319) 319 = true ∧ ptpAccepts sPtp (ptpIn 320) 320 = true ∧ sPtp.drum.ptp.master = some 5 ∧ sPtp.drum.ptp.t1 = some 10 ∧
    up.drum.ptp.master = none ∧ drumSource (regPut up rDrumStatus 59 58 1) = 1 := by decide +kernel

/-- Slot 24 + 0 enabled, nothing asked for. -/
theorem test_power_hyp : up.power.step = none ∧ up.drum.count.toNat % 25000 = 0 ∧ opPoint up < capLoop (regPut up rPcapLoop 31 28 3) 31 28 ∧
    capLoop up 31 28 ≤ 5 ∧ capUnattainable up = false := by decide +kernel
theorem test_slow_hyp : opPoint (regPut up rPcapStatus 63 60 5) = 5 := by decide +kernel
theorem test_slope_hyp : (rangeFrom 0 8).any (fun n => !slopeOk up n 0) = true := by decide +kernel
theorem test_droop : after (exec (.droopDetect 64 3) up) (fun t => regBits t rDroop 31 0 == 64 && regBits t rDroop 63 32 == 3) = true := by decide +kernel
theorem test_temps_hyp : ((List.replicate 15 30 ++ [99]).foldl max 0 < 100) ∧ 100 ≤ (List.replicate 16 100).foldl max 0 ∧
    up.power.hotSince = false ∧ guardRuns (regPut up (rCfgGuard 4) 63 60 2) 4 = true := by decide +kernel
theorem test_leak_hyp : leakMv (regPut up (rLeakMv 1) 63 48 1000) 7 = 1000 ∧ 2 * 499 < 1000 ∧ 1000 ≤ 2 * 500 := by decide +kernel
theorem test_emergency_hyp : emergClear { up with power := { up.power with emerg := [0, 2], hot := 94 } } 0 = true ∧
    emergClear { up with power := { up.power with emerg := [0, 2], hot := 94 } } 2 = true := by decide +kernel
theorem test_trip_hyp : regBits up rTrip 63 63 = 0 ∧ regBits (regPut up rTrip 63 63 1) rTrip 63 63 = 1 ∧ up.power.leakWarn = [] ∧
    (recentTrips up).length < 3 := by decide +kernel
theorem test_flow_trips : after (exec .flowOkLow up) (fun t => t.mainDom == .off && regBits t rTrip 63 63 == 1) = true := by decide +kernel
theorem test_cooling_hyp : (regPut (regPut up (rCoolCfg 11) 31 24 3) (rCoolStatus 11) 63 60 2 |> fun s =>
      coolRole s 11 == 3 && coolState s 11 == 2) = true ∧
    coolState (regPut up (rCoolStatus 11) 63 60 3) 11 = 3 ∧ coolDuty (regPut up (rCoolStatus 11) 55 48 10) 11 = 10 := by decide +kernel
/-- The standby image runs. -/
def booted (s : State) : State := { s with board := { s.board with stbyBoot := true } }
theorem test_fan_runs : after (exec (.fanPulseSeen 11 10000 true) (booted (regPut (regPut up (rCoolCfg 11) 31 24 3) (rCoolStatus 11) 63 60 4)))
    (fun t => coolState t 11 == 1 && regBits t (rCoolStatus 11) 31 16 == 3000) = true := by decide +kernel

/-- A program of this word 0 and word 1, with a slot table in which slot 40 is the board's. -/
def progOf (w v : Nat) : List Byte := List.replicate (0x100 + 8 * 40) 0 ++ [1, 0x20, 0] ++ List.replicate (0x380 - 0x100 - 323) 0 ++ leBytes 4 w ++ leBytes 4 v
def run0 : PealRun := { mode := 0, fail := false, wait := none, steps := 0, stagger := false, stop := false, first := none }
/-- A run at word 0. -/
def pealAt (w v : Nat) (r : PealRun) : State :=
  { up with peal := { up.peal with prog := some (progOf w v), copyA := progOf w v, run := some r } }

theorem test_peal_words : ((rangeFrom 0 8).all fun op => (currentWord (pealAt (op * 2 ^ 28 + 40 * 2 ^ 22) 0 run0) op).isSome) = true ∧
    mayGoOn run0 = true ∧ mayGoOn { run0 with steps := 65534 } = true := by decide +kernel
theorem test_en_hyp : slotSkipped (pealAt (2 ^ 28 + 40 * 2 ^ 22) 0 run0) 40 = false ∧
    waitOver (pealAt (2 ^ 28 + 40 * 2 ^ 22) 0 run0) (.en 40 0) = true ∧ waitOver (pealAt (4 * 2 ^ 28 + 40 * 2 ^ 22) 0 run0) (.chk 40 0) = false := by
  decide +kernel
theorem test_upper_hyp : upperMay { regPut up rPins 63 63 1 with board := { up.board with stbyBoot := true, bad54 := false, bad12 := false } } = true ∧
    pealState (setPealState up 7) = 7 ∧ pealState (setPealState up 5) = 5 := by decide +kernel
theorem test_timeout_words : (waitSlots (pealAt 0 (6 * 2 ^ 28) run0) (.chk 40 0)).filter (fun k => !slotSatisfied (pealAt 0 (6 * 2 ^ 28) run0) k) = [40] ∧
    nbits (progWord (pealAt 0 (6 * 2 ^ 28) run0) (pealPc (pealAt 0 (6 * 2 ^ 28) run0) + 1)) 31 28 = 6 ∧
    nbits (progWord (pealAt 0 0 run0) (pealPc (pealAt 0 0 run0) + 1)) 31 28 ≠ 6 := by decide +kernel
theorem test_jfail : after (exec .pealJfail (pealAt (6 * 2 ^ 28 + 77) 0 { run0 with fail := true })) (fun t => pealPc t == 77) = true := by
  decide +kernel
theorem test_rail_hyp : slotRunning { up with peal := { up.peal with running := BitVec.ofNat 64 (2 ^ 40) } } 40 = true ∧
    slotOwner (regPut (pealAt 0 0 run0) rPseq 59 58 1) 40 = 0x20 ∨ slotOwner (pealAt 0 0 run0) 40 = 0x20 := by decide +kernel
theorem test_load_hyp : up.mainDom = .up ∧ regBits up rPseqLoad 63 63 = 0 ∧ pealCheck { up with trust := { up.trust with owner := none } } [] [] = some 0x0E := by
  decide +kernel

/-! ### Ports, partners, requests -/

/-- Partners and P ports present. -/
def full : State :=
  { up with consist := { up.consist with cfg := { up.consist.cfg with topology := { up.consist.cfg.topology with aPresent := 0xFF, pPresent := 3 } } } }
def port (n st : Nat) : State := regPut full (rCplStatus n) 63 60 st
def openPart (n : Nat) : State := regPut (port n 6) (rSidePart n) 63 0 (2 * 2 ^ 60 + 9 * 2 ^ 53 + 2 ^ 50)

def flitW : Flit := mkF 7 (2 ^ 60 + 5 * 2 ^ 55) (leBytes 8 0x1000 ++ List.replicate 232 0)
def flitR : Flit := mkF 7 (2 * 2 ^ 60) (leBytes 8 0x1000 ++ List.replicate 232 0)
def flitS : Flit := mkF 7 (4 * 2 ^ 60 + 1 * 2 ^ 52 + 6 * 2 ^ 54) (List.replicate 240 0)
def portQ (q : Nat) : State := regPut (port 7 6) (rCplRingCfg 7 (ringK q)) 63 0 (2 ^ 63 + 4 * 2 ^ 48)

theorem test_write_hyp : (takeFlit (port 7 6) flitW 1 0 true).2 = true ∧ nbits (flitHdr flitW) 51 0 = 0 ∧ gapZero flitW 8 48 = true ∧
    (nbit (nbits (flitHdr flitW) 57 55) 0 && !nbit (nbits (flitHdr flitW) 57 55) 1) = true ∧ partnerMay (port 7 6) 7 (0x1000 + 128) true = true ∧
    partnerMay (port 7 6) 7 (2 ^ 47) true = false := by decide +kernel
theorem test_read_hyp : (takeFlit (port 7 6) flitR 2 0 true).2 = true ∧ zeroFrom flitR.payload 8 = true ∧ nbits (flitHdr flitR) 39 0 = 0 ∧
    tagBusy (takeFlit (port 7 6) flitR 2 0 true).1 7 0 = false ∧ (readUnit (takeFlit (port 7 6) flitR 2 0 true).1 7 0x1000).isSome = true := by decide +kernel
theorem test_ringsub_hyp : (takeFlit (portQ (partnerRing 7 6)) flitS 4 0 true).2 = true ∧ ringEnabled (portQ (partnerRing 7 6)) (partnerRing 7 6) = true ∧
    ringFill (portQ (partnerRing 7 6)) (partnerRing 7 6) + 1 ≤ ringDepth (portQ (partnerRing 7 6)) (partnerRing 7 6) ∧
    nbits (flitHdr flitS) 57 54 = 6 ∧ zeroFrom flitS.payload (64 * 1) = true := by decide +kernel
def ctlM (n code vc : Nat) (rest : List Nat) : Ctl := 
  { flit := mkF n (6 * 2 ^ 60 + vc * 2 ^ 58 + 2 ^ 54) ((code :: rest).map (BitVec.ofNat 8) ++ List.replicate (239 - rest.length) 0), index := 0 }
theorem test_control_hyp : (takeCtl (port 7 6) (ctlM 7 0x01 (ctlVc 0x01) []) 0x01 true).2 = true ∧ (takeCtl (port 9 6) (ctlM 9 0x01 (ctlVc 0x01) []) 0x01 true).2 = true ∧
    (takeCtl (port 7 6) (ctlM 7 0x02 (ctlVc 0x02) []) 0x02 true).2 = true ∧ (takeCtl (port 7 6) (ctlM 7 0x40 (ctlVc 0x40) []) 0x40 true).2 = true ∧
    (takeCtl (portQ (partnerRing 7 7)) (ctlM 7 0x21 (ctlVc 0x21) [7]) 0x21 true).2 = true ∧ ringEnabled (portQ (partnerRing 7 7)) (partnerRing 7 7) = true := by decide +kernel
theorem test_side_hyp : watchOpen (openPart 7) 7 = true ∧ portActive (openPart 7) 7 = true ∧ resetReleased (openPart 7) 7 = true ∧
    (7 ∈ ({ openPart 7 with board := { up.board with linkBad := [7] } }).board.linkBad) ∧ watchOpen up 7 = false ∧
    nbit (regBits up rPseq 47 40) 7 = false ∧ watchOpen (regPut (openPart 7) (rSidePart 7) 63 60 1) 7 = false ∧ i3cAddrOf up 7 < 128 ∧
    resetReleased up 7 = false ∧ holdBit up 7 = false ∧ partnersBit (regPut up rPseq 47 40 128) 7 = true ∧ pealState (setPealState up 2) = 2 := by decide +kernel

theorem test_port_hyp : portMayRun (port 9 0) 9 = true ∧ portSt (port 9 0) 9 = 0 ∧ portMayRun (port 9 8) 9 = true ∧ portSt (port 9 8) 9 = 8 ∧
    portActive (port 9 6) 9 = true ∧ nbit (regBits (regPut (port 9 6) (rCplStatus 9) 55 48 8) (rCplStatus 9) 55 48) 3 = true ∧
    portSt (port 0 3) 0 = 3 ∧ nbit (lanesUsable (port 9 1) 9) 3 = true := by decide +kernel
theorem test_frame_hyp : nbits (frameCrc 0x5A5A0000) 15 0 = frameCrc 0x5A5A0000 ∧
    nbits (0x5A5A0000 + frameCrc 0x5A5A0000) 15 0 = frameCrc (0x5A5A0000 + frameCrc 0x5A5A0000) := by decide +kernel
theorem test_lanes_fail : after (exec (.trainingTimeout 9) (port 9 1)) (fun t => portSt t 9 == 8 && regBits t (rCplStatus 9) 15 8 == 1) = true := by
  decide +kernel
theorem test_config_hyp : kget [] (getTraining (port 7 5) 7).parts 0 = [] ∧ part0Ok (port 7 5) 7 [1] = false := by decide +kernel
theorem test_words_hyp : nbits 0 7 0 ≠ lcrc (0 - nbits 0 7 0) ∧ nbits (lcrc 0) 7 0 = lcrc (lcrc 0 - nbits (lcrc 0) 7 0) ∧
    (creditsOf (getLink (port 7 6) 7) (lcrc 0)).isSome = true ∧ creditsOf (getLink (port 7 6) 7) (2 ^ 34) = none := by decide +kernel
theorem test_replay_hyp : let l := { getLink (port 7 6) 7 with replay := [(1, ⟨.dataFlit, [7], []⟩)] }
    (getLink (putLink (port 7 6) 7 l) 7).replay ≠ [] ∧ (ackLink l 0).replay ≠ [] ∧ (ackLink l 0).resent ≠ some 0 ∧ (ackLink l 0).resends < 8 := by decide +kernel
theorem test_failed_flit : after (exec (.failedFlit 9 (.codeword false 16) [1, 0, 0, 0, 0]) (port 9 6)) (fun t => (getLink t 9).nak && regBits t (rCplErr 9) 31 16 == 1) = true := by
  decide +kernel

/-- Guards running, every service open, a Consist in effect. -/
def serv : State := (rangeFrom 0 6).foldl (fun s g => regPut s (rCfgGuard g) 63 60 2) (regPut (regPut up rRingSvc 6 0 0x7F) rConsist 23 20 1)
def rq (role : Nat) : Req := { role := role, seq := 1, via := .udp role 0 7, wellFormed := true }
def ok (s : State) (code : Nat) (body : List Byte) : Bool := accepts s (rq 0) code body && decide (consistState s ≠ 0)
def h0 (s : State) : State := heardFrom s (rq 0)
def regOk (w : Bool) (a k : Nat) : Bool := match regCheck (h0 serv) (ethSecure (h0 serv)) w a k with | .ok _ => true | .error _ => false

theorem test_accepts : ok serv 0x01 [] = true ∧ accepts serv (rq 1) 0x02 [] = true ∧ accepts serv { rq 0 with via := .udp 0 0 9 } 0xFF [] = true := by decide +kernel
theorem test_reg_hyp : ok serv 0x03 (leBytes 8 0xFF0000C00000 ++ [4]) = true ∧ field (leBytes 8 0xFF0000C00000 ++ [4]) 8 1 = 4 ∧
    regOk false 0xFF0000C00000 4 = true ∧ regOk true (0xFF0000000000 + rTrim) 8 = true := by decide +kernel
theorem test_report_hyp : (telemetryPage 0).isSome = true ∧ ok serv 0x33 [0, 0] = true ∧ field [64, 0] 0 2 = 64 ∧
    (h0 { serv with belfry := { serv.belfry with queue := [newMsg serv 0x240 3 1 0] } }).belfry.queue ≠ [] ∧ ok serv 0x71 [0x40, 2, 3] = true ∧
    ok serv 0x60 [0x12, 0x7F, 0, 0] = true ∧ (0x7F ∉ spdmCodes) := by decide +kernel
theorem test_status_get : after (exec (.statusGet (rq 0) []) serv) (fun t => t.outbox.length == 1) = true := by decide +kernel
theorem test_ringsetup_hyp : ok serv 0x10 ([0, 0, 0, 1, 4, 0, 0, 0] ++ leBytes 8 0x10000) = true ∧ svcOpen serv 1 = true ∧
    pairRule (h0 serv) (ringSetup (unstage (h0 serv) []) 0 ([2, 0, 1, 1, 4, 0, 15, 0] ++ leBytes 8 0x10000)) 2 = true := by decide +kernel
def connected : State := putConn serv 0
  { role := 0, port := 0, qpn := 5, gid := [], mtu := 1024, expect := 3, psn := 0, sent := [⟨9, none, 0, ⟨.rdma, [0, 10, 9], []⟩⟩],
    hubQpn := 1, rkey := 77, rate := 5000, retries := 0, write := none, cnpAt := 0, held := [], reads := 0 }
theorem test_conn_hyp : ownConn (h0 connected) 0 0 = true ∧ ok connected 0x11 (leBytes 16 0) = true ∧ ok connected 0x13 [0] = true ∧
    (rangeFrom 0 64).find? (fun k => (getConn (h0 connected) k).isNone) = some 1 := by decide +kernel
theorem test_heartbeat_hyp : ok serv 0x15 (leBytes 4 60000 ++ [1]) = true ∧ field (leBytes 4 60000 ++ [1]) 0 4 = 60000 ∧ field (leBytes 4 60000 ++ [1]) 4 1 = 1 := by decide +kernel
theorem test_power_set_hyp : ok serv 0x30 [0, 1] = true ∧ svcOpen serv 6 = true ∧ ok serv 0x31 (leBytes 8 (2 ^ 32 * 0xFFFFFFFF)) = true ∧
    serv.consist.cfg.limits.hubMin ≤ 0xFFFFFFFF := by decide +kernel
theorem test_addr_hyp : ok serv 0x14 (leBytes 32 0) = true ∧ ethRule (h0 serv) 0 = 0 := by decide +kernel

theorem test_job_hyp : ok serv 0x20 (leBytes 24 7) = true ∧ svcOpen serv 5 = true ∧ serv.host.job = none ∧ serv.consist.unitFailed = none ∧
    jobForbidden (h0 serv) = false ∧ drumForbids (h0 serv) = false ∧ serv.snap.take = none ∧ ok serv 0x21 (leBytes 8 7) = true := by decide +kernel
theorem test_load_consist_hyp : ok serv 0x41 (leBytes 4 0) = true ∧ consistBusy (h0 serv) = none ∧ kget [] (h0 serv).host.buffers 0 = [] ∧
    (match checkImage (checkCtx (clearBuffer (h0 serv) 0 0) true) [] 0 with | .error _ => true | .ok _ => false) = true := by decide +kernel
theorem test_piece_hyp : (appendPiece (h0 serv) (rq 0) 0 (leBytes 4 0 ++ [1, 2])).isSome = true ∧
    (appendPiece (h0 serv) (rq 0) 2 (leBytes 4 0 ++ List.replicate 256 0)).isSome = true ∧
    tokenReason (clearBuffer (h0 serv) 0 2) (List.replicate 256 0) ≠ none := by decide +kernel

/-! ### Consist, updates, attestation, networks -/

def cm (st bd bj : Bool) : ConsistApply :=
  { role := 1, betweenJobs := bj, boot := false, fallback := false, slotB := true, image := [], merged := up.consist.cfg, exclCoach := 0, exclRake := 0,
    structureDone := st, beatDone := bd, applyBeat := 0, was := 1, clamps := [] }
def applying (a : ConsistApply) : State := { serv with consist := { serv.consist with apply := some a } }
def pendingC : State := { serv with consist := { serv.consist with pendingImg := true } }

/-- The authenticated region is there. -/
def sealed (s : State) : State := { s with trust := { s.trust with puf := true } }
theorem test_apply_hyp : ok serv 0x42 [] = true ∧ consistBusy (h0 serv) = none ∧ (h0 serv).consist.pendingImg = false ∧
    (h0 pendingC).consist.pendingImg = true ∧ (h0 pendingC).host.job = none ∧ serv.host.ending = none := by decide +kernel
theorem test_apply_completes : after (exec .applyComplete (applying (cm true true true))) (fun t =>
    t.consist.apply.isNone && consistState t == 1 && t.consist.activeSlot == some true) = true := by decide +kernel
theorem test_boot_hyp : ({ serv with consist := { serv.consist with booted := false } }).consist.apply = none ∧ guardRuns serv 5 = true ∧
    (ownerKey { serv with trust := { serv.trust with puf := true, owner := some [1] } }).isSome = true ∧
    regBits (regPut serv rMemStatus 63 60 3) rMemStatus 63 60 = 3 := by decide +kernel

def sess (kind st : Nat) (piece : Option (List Byte)) : Session :=
  { state := st, kind := kind, role := 0, holder := 0, header := List.replicate 0x10 0 ++ [2, 0, 0, 0] ++ List.replicate 492 0, body := [1, 2], mark := 0,
    piece := piece, mode := 0 }
def updating (x : Session) : State := { regPut serv rPins 63 63 1 with trust := { serv.trust with session := some x } }
theorem test_update_hyp : ok serv 0x51 (List.replicate 512 0) = true ∧ serv.trust.session = none ∧
    headerReason (h0 serv) (List.replicate 512 0) ≠ none := by decide +kernel
theorem test_data_hyp : ok (updating { sess 1 1 none with body := [] }) 0x52 [0, 0, 0, 0, 9, 9] = true ∧
    (h0 (updating (sess 1 1 none))).trust.session.isSome = true ∧ isHolder (h0 (updating (sess 1 1 none))) (rq 0) (sess 1 1 none) = true ∧
    imBodySize (sess 1 1 none).header = 2 := by decide +kernel
theorem test_activate_hyp : ok (updating (sess 2 3 none)) 0x54 [0] = true ∧ quietEnough (h0 (updating (sess 2 3 none))) = true ∧ serv.trust.restart = none ∧
    quietEnough (regPut (h0 (updating (sess 2 3 none))) rPins 63 63 0) = false := by decide +kernel
theorem test_activated : after (exec (.updActivate (rq 0) [0]) (updating (sess 3 3 none))) (fun t => t.trust.session.isNone && t.trust.staged.isSome) = true := by
  decide +kernel
theorem test_trial_hyp : onTrial (putSelector (sealed up) 1 5) 1 = true ∧ svcOpen up 5 = false ∧ up.mainDom = .up := by decide +kernel

/-- Role 0 as far as NEGOTIATE_ALGORITHMS, with an identity. -/
def attest (n : Nat) : State := { serv with trust := { serv.trust with puf := true, spdm := [(0, n)] } }
theorem test_spdm_hyp : spdmReady (attest 0) (rq 0) [0x10, 0x84, 0, 0] 0x84 0 = true ∧ spdmReady (attest 1) (rq 0) [0x12, 0xE1, 0, 0] 0xE1 1 = true ∧
    spdmReady (attest 2) (rq 0) [0x12, 0xE3, 0, 0] 0xE3 2 = true ∧ spdmReady (attest 3) (rq 0) [0x12, 0x81, 0, 0] 0x81 3 = true ∧
    spdmReady (attest 3) (rq 0) [0x12, 0x82, 0, 0, 0, 0, 0, 4] 0x82 3 = true ∧
    spdmReady (attest 3) (rq 0) ([0x12, 0x83] ++ List.replicate 34 0) 0x83 3 = true ∧
    spdmReady (attest 3) (rq 0) ([0x12, 0xE0, 1, 7] ++ List.replicate 33 0) 0xE0 3 = true := by decide +kernel

/-- Port 1 up, VLAN and addresses at their reset values, flow control on. -/
def eth : State := regPut (regPut (regPut up (rEthStatus 1) 63 0 (2 ^ 64 - 1)) (rEthCtl 1) 48 48 1) (rEthCtl 1) 63 63 1
theorem test_eth_hyp : ethLink eth 1 = true ∧ vlanOk eth 1 0 = true ∧ vlanOk eth 1 4095 = false ∧
    regBits eth (rEthCtl 1) 48 48 = 1 ∧ isIp4 (regPut eth (rEthIp4 1) 63 32 0x0A000001) 1 0x0A000001 = true ∧
    isIp6 eth 1 (linkLocal eth 1) = true := by decide +kernel
theorem test_silent_hyp : roleInterval { serv with host := { serv.host with interval := [(0, 100)] } } 0 = 100 ∧ roleSilent serv 0 = false := by decide +kernel
def conn0 : Conn := (getConn connected 0).getD
  { role := 1, port := 0, qpn := 0, gid := [], mtu := 0, expect := 0, psn := 0, sent := [], hubQpn := 0, rkey := 0, rate := 0, retries := 0, write := none, cnpAt := 0, held := [], reads := 0 }
def linked : State := regPut connected (rEthStatus 0) 63 0 (2 ^ 64 - 1)
theorem test_rdma_hyp : getConn linked 0 = some conn0 ∧ ethLink linked conn0.port = true ∧ 3 = conn0.expect ∧ 77 = conn0.rkey ∧
    0x1000 + 1024 ≤ doorbellPage ∧ roleMay linked 0 0x1000 1024 true = true ∧ (readWindow linked conn0 0x1000 2048).isSome = true ∧
    linked.snap.drains = [] ∧ conn0.sent ≠ [] ∧ conn0.retries < 7 := by decide +kernel
theorem test_rdma_write : after (exec (.rdmaWrite ⟨0, 0⟩ 3 0 0x1000 77 [5] false) linked) (fun t => memByte t 0x1000 == 5 && t.outbox.length == 1) = true := by
  decide +kernel
def ringed : State := withRing serv 2 3 |> fun s => putConn s 0 conn0
theorem test_doorbell_hyp : ringEnabled ringed 2 = true ∧ pairOpen ringed 2 = true ∧ ringRole ringed 2 = conn0.role ∧
    (BitVec.ofNat 32 16 - getCons ringed 2).toNat ≤ ringDepth ringed 2 ∧ (nextRing (setProd ringed 2 1) 9).isSome = true ∧ nextRing ringed 9 = none := by decide +kernel

/-! ### Memory, resets, collectives, state tables, snapshots -/

theorem test_memory_hyp : 64 * (0x1000 / 64) + 64 ≤ memTop up ∧ memTop up - 1 < memTop up ∧
    regBits (regPut up rMemStatus 63 60 1) rMemStatus 63 60 = 1 ∧ regBits (regPut up rMemStatus 63 60 2) rMemStatus 63 60 = 2 ∧
    up.memctl.filled = false ∧ (47 ∉ up.memctl.mr4Hot) ∧
    65536 < kget 0 ({ up with memctl := { up.memctl with second := [(383, 65537)] } }).memctl.second 383 := by decide +kernel
theorem test_memory_write : after (exec (.memoryWrite 0x1040 4 [7, 8] false []) up) (fun t => memByte t 0x1044 == 7 && memByte t 0x1046 == 0) = true := by
  decide +kernel
theorem test_starts_hyp : State.reset.stbyDom ≠ .up ∧ State.reset.mainDom = .off ∧
    ({ up with mainDom := .inReset }).belfry.retained = [] ∧ up.belfry.carried = none ∧ up.stbyDom = .up ∧
    mayOpen up 0 = true ∧ mayOpen up 6 = false ∧ (restartsIn up (kget [] up.trust.cRestarts 5) 150000000).length < 4 ∧ guardRuns serv 5 = true ∧
    guardHeld serv 5 = false := by decide +kernel
theorem test_supply_hyp : orderOn up = true ∧ pealState (setPealState up 2) = 2 := by decide +kernel
theorem test_service_hyp : mayOpen { regPut serv rRingSvc 6 0 3 with consist := { serv.consist with booted := true } } 6 = true := by decide +kernel

/-- A job over every partner. -/
def job0 : Job := { id := 7, seed := 1, firstBeat := 0, ports := 0xFF }
def jobS (n : Nat) : State := { port n 6 with host := { up.host with job := some job0 } }
/-- An ALL_REDUCE of 64 FP32 sums over ports 0 and 7. -/
def descA : List Byte := leBytes 4 9 ++ [2, 0, 0x81, 0, 0, 0, 0, 0] ++ leBytes 4 0 ++ leBytes 8 64 ++ leBytes 8 0 ++ leBytes 8 0 ++ leBytes 8 0 ++
  leBytes 8 0 ++ [0, 0, 14, 0, 0, 0, 0, 0]
def descOf (op : Nat) : List Byte := descA.set 4 (BitVec.ofNat 8 op)
def collA (op : Nat) (p : CollPhase) : Coll := { newColl 1 9 7 (descOf op) 0 with phase := p, slot := 3, posts := [(0, descOf op), (7, descOf op)] }
def withColl (c : Coll) : State := { jobS 7 with colls := { up.colls with list := [c] } }

theorem test_post_hyp : collTakes (jobS 7) 7 = true ∧ (descChecks (jobS 7) 7 descA).find? (fun k => !k.2) = none ∧ dPorts descA ≠ [7] ∧ dOp descA = 2 ∧
    ((rangeFrom 1 6).all fun op => dOp (descOf op) == op && ((descChecks (jobS 7) 7 ((descOf op).set 0x3B 1)).find? (fun k => !k.2)).isSome) = true := by
  decide +kernel
theorem test_match_hyp : (withColl (collA 2 .posted)).colls.list.find? (fun e => e.phase == .posted && e.id == 9) = some (collA 2 .posted) ∧
    collOf (withColl (collA 2 .matched)) 3 = some (collA 2 .matched) ∧ cutHolds (withColl (collA 2 .matched)) (collPorts (collA 2 .matched)) = false ∧
    changeHolds (withColl (collA 2 .matched)) (collPorts (collA 2 .matched)) = false ∧ dPorts (descOf 2) = [0, 7] := by decide +kernel
theorem test_window_opens : after (exec (.collWindowOpen 3) (withColl (collA 2 .matched))) (fun t => t.colls.opens == 1) = true := by decide +kernel

def flitC (k vc rest : Nat) (pay : List Byte) : Flit := mkF 7 (k * 2 ^ 60 + vc * 2 ^ 58 + rest) pay
def openA : Coll := { collA 2 .opened with granted := [(7, 1)] }
theorem test_data_flit_hyp : let f := flitC 7 2 (3 * 2 ^ 52 + 240 * 2 ^ 11) (List.replicate 240 1)
    (takeFlit (withColl openA) f 7 2 true).2 = true ∧ zeroFrom f.payload 240 = true ∧ nbits (flitHdr f) 5 0 = 0 ∧ nbits (flitHdr f) 18 11 = 240 ∧
    (7 ∈ senders (withColl openA) openA) ∧ kget (0, 0) openA.next 7 = (0, 0) ∧ nbit (flitHdr f) 6 = false ∧
    min 240 (min (dChunk (collDesc openA)) (sendBytes openA - 0) - 240 * 0) = 240 := by decide +kernel
def full7 (op : Nat) : Coll := { collA op .opened with stage := [⟨0, 0, List.replicate 256 0, []⟩, ⟨7, 0, List.replicate 256 0, []⟩], link := none }
theorem test_chunk_hyp : chunkStaged (withColl (full7 2)) (full7 2) 0 = true ∧ (full7 2).served < memberChunks (full7 2) ∧
    chunkStaged (withColl (full7 4)) (full7 4) 0 = true ∧ dOp (collDesc (full7 5)) = 5 := by decide +kernel
theorem test_copy_hyp : let c := { collA 5 .opened with posts := [(0, (descOf 5).set 7 8)] }
    dRoot (collDesc c) = 8 ∧ dCross (collDesc c) = false ∧ c.served < chunksOf c (dCount (collDesc c)) := by decide +kernel
def disp : Coll := { collA 6 .opened with posts := [(0, (descOf 6).set 9 16)] }
theorem test_dispatch_hyp : let f := flitC 8 2 (3 * 2 ^ 52 + 1 * 2 ^ 49 + 240 * 2 ^ 18) (List.replicate 240 1)
    let e := flitC 9 2 (3 * 2 ^ 52 + 1 * 2 ^ 49) (List.replicate 240 0)
    (takeFlit (withColl disp) f 8 2 true).2 = true ∧ (collPorts disp)[nbits (flitHdr f) 51 49]? = some 7 ∧
    (collPorts disp)[nbits (flitHdr f) 48 46]? = some 0 ∧ poolUsed (withColl disp) 7 0 < 64 ∧ (takeFlit (withColl disp) e 9 2 true).2 = true ∧
    zeroFrom e.payload 8 = true ∧ dVariable (collDesc disp) = true ∧ nbits (flitHdr e) 45 0 = 0 := by decide +kernel
theorem test_done_hyp : collDone (withColl { collA 2 .opened with served := 1, sent := [(0, 1), (7, 1)] }) { collA 2 .opened with served := 1, sent := [(0, 1), (7, 1)] } = true ∧
    missingMember (withColl openA) openA = some 0 ∧ openA.stalled = false := by decide +kernel
theorem test_neighbour_hyp : (takeCtl (jobS 9) (ctlM 9 0x50 (ctlVc 0x50) []) 0x50 true).2 = true ∧
    (takeCtl { withColl openA with ports := (jobS 9).ports } (ctlM 7 0x11 (ctlVc 0x11) [3]) 0x11 true).2 = true ∧
    (takeCtl (jobS 9) (ctlM 9 0x51 (ctlVc 0x51) []) 0x51 true).2 = true := by decide +kernel

/-- Train 1 serves state; module memory from 1 GiB is its own. -/
def stateS : State :=
  { jobS 7 with consist := { full.consist with cfg := { full.consist.cfg with
      trains := [{ rakes := 1, service := 1 }, { rakes := 2, service := 2 }],
      regionsGiven := true
      regions := [{ base := 0, size := 512, secure := false, owner := 0, access := 0xFF, snapArea := false, rakeLocal := false, rake := 0 },
                  { base := 512, size := 512, secure := false, owner := 0x21, access := 0xFF, snapArea := false, rakeLocal := false, rake := 0 }] } } }
def guardsOn (s : State) : State := (rangeFrom 0 6).foldl (fun s g => regPut s (rCfgGuard g) 63 60 2) s
/-- A table block of 64 parameters of kind 1 of train 1. -/
def block1 : List Byte := [1, 0, 0, 1] ++ leBytes 4 0 ++ leBytes 8 (2 ^ 30) ++ leBytes 8 64 ++ leBytes 8 0 ++ List.replicate 224 0
def cmdRaw (c t : Nat) (fl step : Nat) : List Byte := leBytes 4 5 ++ [BitVec.ofNat 8 c, BitVec.ofNat 8 t, BitVec.ofNat 8 fl, 0] ++ leBytes 8 step ++ List.replicate 48 0
def embRaw (c step : Nat) : List Byte := leBytes 4 5 ++ [BitVec.ofNat 8 c, 63, 0, 0] ++ leBytes 8 step ++ leBytes 4 (if c = 6 then 0 else 1) ++ leBytes 8 0 ++
  leBytes 4 (if c = 6 then 1 else 0) ++ List.replicate 32 0
def defS : State := withBytes (guardsOn { stateS with tables := Tables.init }) 0x1000 block1
def defX : Table := { Table.init with st := .ready, raw := memBytes defS 0x1000 256, last := memVal defS (0x1000 + 4) 4 }

theorem test_define_hyp : postsState defS (.port 7) (cmdRaw 1 63 0 0x1000) = true ∧ (cmdChecks (cmdRaw 1 63 0 0x1000)).find? (fun k => !k.2) = none ∧
    guardRuns defS 3 = true ∧ tableBusy (getTable defS 63) = false ∧
    mayAccessRange defS (.guard 3) (defS.consist.cfg.worlds.guardSecure.getLsbD 3) 0x1000 256 false = true ∧
    (rangeFrom 0 4).find? (fun k => blockPoisoned defS (0x1000 / 64 + k)) = none ∧
    (tableChecks defS 63 defX).find? (fun k => !k.2) = none ∧ postsState defS (.port 7) (cmdRaw 2 63 0 0) = true := by decide +kernel
theorem test_defines : after (exec (.tableDefine (.port 7) (cmdRaw 1 63 0 0x1000)) defS) (fun t => (getTable t 63).st == .ready && tbCount (getTable t 63) == 64) = true := by
  decide +kernel

def tabS (x : Table) : State := { stateS with tables := { Tables.init with table := [(63, x)] } }
def dense : Table := { Table.init with st := .ready, raw := block1 }
def emb : Table := { Table.init with st := .ready, raw := block1.set 0 0x20 }
theorem test_step_hyp : ([0, 1, 2].all fun g => postsState (tabS dense) (.ring 2) (cmdRaw 3 63 g 1) && cmGmode (cmdRaw 3 63 g 1) == g &&
      ((cmdChecks (cmdRaw 3 63 g 1)).find? (fun k => !k.2)).isNone) = true ∧ tbDense (getTable (tabS dense) 63) = true ∧
    matchedAlready (tabS dense) (cmGrad (cmdRaw 3 63 0 1)) = false := by decide +kernel
theorem test_embed_hyp : ([4, 5, 6].all fun c => postsState (tabS emb) (.port 0) (embRaw c 1) &&
      ((cmdChecks (embRaw c 1)).find? (fun k => !k.2)).isNone) = true ∧ tbDense emb = false ∧ emb.applying = none ∧
    applyPosted emb (srcBit (.port 0)) 1 = false ∧ applyAgrees { emb with applies := emb.applies ++ [⟨.port 0, embRaw 6 1, none, false⟩] } = true := by decide +kernel
def cmd3 (g n : Nat) : Cmd := { origin := .port 7, raw := cmdRaw 3 63 g n, start := none, late := false }
theorem test_head_hyp : let x := { dense with queue := [cmd3 0 1] }
    tbDense x = true ∧ tbKind x ≠ 0xF ∧ tbSharded x = false ∧ rangeRefused (tabS x) x (stepRanges x (cmd3 0 1).raw) = none ∧
    cutHoldsTable (tabS x) 63 = false ∧ cmStep (cmd3 0 1).raw = x.last + 1 := by decide +kernel
theorem test_head_starts : after (exec (.stateCommandHead 63) (tabS { dense with queue := [cmd3 0 1] })) (fun t => (getTable t 63).run.isSome) = true := by
  decide +kernel
theorem test_work_hyp : localCount (tabS dense) dense ≤ 64 ∧ cmLinkOut (cmdRaw 3 63 0 1) = false ∧ cmGmode (cmdRaw 3 63 0 1) = 0 ∧ tbKind dense ≠ 4 := by
  decide +kernel
theorem test_matched_hyp : applyMatched { emb with applies := [⟨.ring 2, (embRaw 6 1).set 0x1D 1 |>.set 0x1C 0, none, false⟩] } = true := by decide +kernel

/-- A LOCAL store, slots empty. -/
def snapS (mode : Nat) : State := regPut (guardsOn (jobS 7)) rSnapStat 63 0 (mode * 2 ^ 60 + 64)
def snRaw (c fl members cut : Nat) : List Byte := leBytes 4 5 ++ [BitVec.ofNat 8 c, BitVec.ofNat 8 fl, BitVec.ofNat 8 members, 0] ++ leBytes 8 0 ++ leBytes 8 cut ++
  List.replicate 40 0
def tk : Take :=
  { origin := .ring 2, raw := snRaw 1 0 0x80 2500, gen := 1, slot := 0, parts := [], last := [], fits := true, cut := false, got := [], sent := [],
    granted := [] }
def taking (t : Take) : State := { snapS 1 with snap := { (snapS 1).snap with take := some t } }
theorem test_take_hyp : postsSnap (snapS 1) 2 (snRaw 1 0 0x80 2500) = true ∧ snapMode (snapS 1) = 1 ∧ 2500 ≤ snCut (snRaw 1 0 0x80 2500) ∧
    snMembers (snRaw 1 0 0x80 2500) ≠ 0 := by decide +kernel
theorem test_import_hyp : let s := { snapS 1 with host := { up.host with job := none } }
    postsSnap s 2 (snRaw 4 1 0 0) = true ∧ snFlag (snRaw 4 1 0 0) 0 = true ∧ postsSnap s 2 (snRaw 4 0 0 0) = true ∧ postsSnap s 2 (snRaw 2 0 0 0) = true := by decide +kernel
theorem test_manifest_hyp : (takeCtl (taking tk) (ctlM 7 0x31 (ctlVc 0x31) [0]) 0x31 true).2 = true ∧ nbit (snMembers tk.raw) 7 = true ∧
    (7 ∉ tk.last) ∧ kget [] tk.parts 7 = [] := by decide +kernel
theorem test_cut_hyp : cutQuiet (taking tk) tk = true ∧ snCut tk.raw ≤ ({ taking tk with drum := { up.drum with count := 2500 } }).drum.count.toNat ∧
    takeWhole { tk with cut := true, sent := [7] } = true := by decide +kernel
def held0 : SnapHold := { members := 0x80, tables := 0, resume := 0 }
theorem test_resumes : after (exec .snapResume { snapS 1 with snap := { (snapS 1).snap with hold := some held0 } }) (fun t => t.snap.hold.isNone) = true := by
  decide +kernel
def part1 : Take := { tk with cut := true, parts := [(7, [(0, 4096)])], granted := [(7, 99)] }
theorem test_snap_data_hyp : let f := flitC 0xA 2 (1 * 2 ^ 50 + 240 * 2 ^ 10) (List.replicate 240 1)
    (takeFlit (taking part1) f 0xA 2 true).2 = true ∧ partBytes part1 7 = 4096 ∧ nbits (flitHdr f) 57 50 = part1.gen % 256 ∧
    nbits (flitHdr f) 17 10 = min 240 (partBytes part1 7 - 0) ∧ zeroFrom f.payload 240 = true := by decide +kernel
theorem test_sent_hyp : (takeCtl (taking tk) (ctlM 7 0x34 (ctlVc 0x34) []) 0x34 true).2 = true ∧ partBytes { tk with cut := true } 7 = 0 ∧ tk.gen % 2 ^ 32 = 1 := by
  decide +kernel

def res : Restore := newRestore 2 (snRaw 2 0 0 0)
def restoring : State := { snapS 1 with snap := { (snapS 1).snap with restore := some { res with told := [7] } } }
theorem test_restore_hyp : portActive (regPut (snapS 2) (rCplStatus 9) 63 60 6) 9 = true ∧ snapMode (snapS 2) = 2 ∧
    (takeCtl restoring (ctlM 7 0x39 (ctlVc 0x39) []) 0x39 true).2 = true ∧ (takeCtl restoring (ctlM 7 0x38 (ctlVc 0x38) []) 0x38 true).2 = true ∧
    restoreWhole restoring { res with begun := true, cands := [some 0] } = true := by decide +kernel
def p8 (n : Nat) : State := regPut (snapS 2) (rCplStatus n) 63 60 6
theorem test_mirror_hyp : (takeCtl (p8 8) (ctlM 8 0x60 (ctlVc 0x60) []) 0x60 true).2 = true ∧ 2 ^ 21 + 0 ≤ slotUnits (p8 8) * 2 ^ 21 ∧
    (takeCtl (p8 8) (ctlM 8 0x61 (ctlVc 0x61) []) 0x61 true).2 = true ∧
    ([0x62, 0x63, 0x64, 0x65].all fun k => (takeCtl (p8 9) (ctlM 9 k (ctlVc k) []) k true).2) = true := by decide +kernel

/-! ### Registers -/

/-- G5 names a register of the power block, and one of its own. -/
theorem test_write_hyps : (match regCheck serv true true (regSpace + rTrim) 8 with | .ok _ => true | .error _ => false) = true ∧
    (match regCheck serv false true (regSpace + 0xFFFFF8) 8 with | .ok _ => false | .error _ => true) = true ∧
    regInitiator serv 0x275 ≠ none := by decide +kernel
/-- Writing a staged field, committing its group, reading a main register while the domain is down. -/
theorem test_stage_hyps : (match regFind (rEthCtl 1) with | some (d, _, _) => d.fields.any fun f => f.acc == .rws | none => false) = true ∧
    (match regCheck serv true true (regSpace + rEthCtl 1) 8 with | .ok _ => true | .error _ => false) = true ∧
    (match regCheck serv true true (regSpace + 0xDFFF00) 8 with | .ok x => x.1.off == 0xFFF00 | .error _ => false) = true ∧
    (groupsOf 2 = [1]) ∧ groupsOf (2 ^ 39) = [] := by decide +kernel
theorem test_down_hyps : (match regFind rTrim with | some (d, _, _) => d.dom != .stby | none => false) = true ∧
    (match regFind rPseq with | some (d, _, _) => d.dom == .stby | none => false) = true ∧ State.reset.mainDom ≠ .up := by decide +kernel
theorem test_staged_write : after (exec (.registerWrite srcSctl (regSpace + rEthCtl 1) 8 (2 ^ 63)) serv)
    (fun t => regGet t (rEthCtl 1) == regGet serv (rEthCtl 1) && (stagedCopy t (rEthCtl 1)).getLsbD 63) = true := by decide +kernel
theorem test_additions : [AddVal.units 3, .poisoned, .special].foldl XLane.addVal XLane.zero =
    [AddVal.special, .units 3, .poisoned].foldl XLane.addVal XLane.zero := by decide +kernel
theorem test_step_front : step { up with pending := [.wakeAssert false, .pealWait] } = exec (.wakeAssert false) { up with pending := [.pealWait] } := rfl
theorem test_reset_sound : Memory.wf State.reset.mem = true ∧ State.reset.pending = [] := by decide +kernel

/-! ### States that meet the other clauses -/

/-- A kernel whose seats have all halted, with nothing left. -/
def sHalted : State := (rangeFrom 0 16).foldl (fun s n => putSeat s n { Seat.init with st := .halted }) (sKern .running)
theorem test_complete_all : (getTrain sHalted 0).kernel = some { kern with launch := lb } ∧ kernelHalted sHalted { kern with launch := lb } = true ∧
    kernelQuiet sHalted { kern with launch := lb } = true ∧ complOk sHalted 0 lb = true ∧ lbCompl lb ≠ 0 := by decide +kernel
theorem test_ending_waits : ({ sLaunch with host := { up.host with ending := some ⟨true⟩ } }).host.ending.isSome = true := rfl

def sPtp2 : State := { sPtp with drum := { sPtp.drum with ptp := { sPtp.drum.ptp with t3 := some 30 } } }
def sNoMaster : State := { sPtp with drum := { sPtp.drum with ptp := { sPtp.drum.ptp with master := none } } }
theorem test_ptp_more : ptpAccepts sPtp2 (ptpIn 320) 320 = true ∧ sPtp2.drum.ptp.t1 = some 10 ∧ sPtp2.drum.ptp.t2 = some 20 ∧ sPtp2.drum.ptp.t3 = some 30 ∧
    ptpAccepts sNoMaster (ptpIn 320) 320 = true ∧ sNoMaster.drum.ptp.master = none ∧ sPtp.drum.ptp.master.isSome = true ∧ drumSource sPtp ≠ 2 ∧
    drumSource (regPut sPtp rDrumStatus 59 58 2) = 2 ∧ (p0Receiving up && portActive up 8) = false ∧
    (takeCtl (port 7 6) (ctlM 7 0x40 (ctlVc 0x40) []) 0x40 (fromPartner (ctlM 7 0x40 (ctlVc 0x40) []))).2 = true := by decide +kernel

def slowest : State := let s := regPut up rPcapStatus 63 60 5
  { s with power := { s.power with winB := 1, winN := 1, winMax := 1 } }
theorem test_slowest_hyp : opPoint slowest = 5 ∧ capLoop slowest 31 28 ≤ 5 ∧ slowest.power.step = none ∧ slowest.drum.count.toNat % 25000 = 0 ∧
    slowest.power.winB ≠ 0 ∧ 0 < slowest.power.winN ∧ slowest.power.winMax = slowest.power.winN ∧ capUnattainable slowest = false ∧
    ({ up with power := { up.power with step := some 3 } }).power.step = some 3 := by decide +kernel
theorem test_slope_ok : slopeOk up 0 (bucketGain up 0) = false ∨ slopeOk up 0 (bucketGain up 0) = true := by decide +kernel
theorem test_rail_poll_hyp : slotUsed up 5 = true ∧ slotMon up 5 ≠ 2 ∧
    (let s := { up with peal := { up.peal with prog := some (List.replicate (0x100 + 8 * 40) 0 ++ [1, 0x20, 2] ++ List.replicate 200 0) } }
     slotUsed s 40 = true ∧ slotMon s 40 = 2) := by decide +kernel
def leaking : State := let s := regPut up (rLeakMv 1) 63 48 1000
  { s with power := { s.power with leakWarn := [(7, 9)] } }
theorem test_leak_warn : leakMv leaking 7 ≤ 2 * 600 ∧ 600 < leakMv leaking 7 ∧ 9 ≤ kget 0 leaking.power.leakWarn 7 := by decide +kernel
theorem test_trim_hyp : guardRuns serv 4 = true ∧ guardRuns serv 5 = true ∧ serv.power.trimSteps < 20 ∧
    guardRuns (regPut serv (rCfgGuard 5) 63 60 0) 4 = true ∧ guardRuns (regPut serv (rCfgGuard 5) 63 60 0) 5 = false ∧
    20 ≤ ({ serv with power := { serv.power with trimSteps := 20 } }).power.trimSteps := by decide +kernel

/-! Training -/

/-- A control word of this phase on a lane, from the far end's role. -/
def frameW (phase lane role good : Nat) : Nat := controlWord phase lane role false 0 0 0 good
theorem test_frame_ok : frameOk 9 3 (frameW 1 3 3 0) = true ∧ frameOk 7 2 (frameW 3 2 2 0xFF) = true ∧ nbits (frameW 3 2 2 0xFF) 63 60 = 3 ∧
    nbits (frameW 3 2 2 0xFF) 46 39 = 0xFF ∧ frameOk 7 2 (frameW 3 2 3 0xFF) = false ∧ frameOk 7 2 (frameW 3 1 2 0xFF) = false ∧
    frameOk 7 2 (frameW 3 2 2 0xFF + 1) = false := by decide +kernel
/-- Port 7 in LANE_TEST, its own test ended with every lane good. -/
def closing (g p : Option Nat) : State := putTraining (port 7 3) 7 { getTraining (port 7 3) 7 with good := g, peerGood := p }
theorem test_closing_hyp : portSt (closing (some 0xFF) none) 7 = 3 ∧ nbit (lanesUsable (closing (some 0xFF) none) 7) 2 = true ∧
    (getTraining (closing (some 0xFF) none) 7).good = some 0xFF ∧ (getTraining (closing none none) 7).peerGood = none ∧
    (getTraining (closing none (some 0xFF)) 7).good = none ∧ (getTraining (closing none (some 0xFF)) 7).peerGood = some 0xFF := by decide +kernel
theorem test_closing_frame : after (exec (.trainingFrame 7 2 (BitVec.ofNat 64 (frameW 3 2 2 0xFF)) false 0 0) (closing (some 0xFF) none))
    (fun t => portSt t 7 == 4 && regBits t (rCplStatus 7) 59 56 == 8) = true := by decide +kernel
theorem test_test_end : after (exec (.laneTestEnd 7 (List.replicate 8 0) [] [(2, BitVec.ofNat 64 (frameW 3 2 2 0xFF))]) (closing none none))
    (fun t => (getTraining t 7).peerGood == some 0xFF && portSt t 7 != 3) = true := by decide +kernel
def alignF (slot : Nat) : Flit := mkF 7 (0xE * 2 ^ 60 + 3 * 2 ^ 58 + slot) (List.replicate 240 0)
theorem test_align_hyp : isAlign (alignF 39) = true ∧ alignZero (alignF 39) = true ∧ alignSlot (alignF 39) = 39 ∧ isAlign { alignF 39 with crc := 0 } = false ∧
    alignZero (mkF 7 (0xE * 2 ^ 60 + 3 * 2 ^ 58 + 2 ^ 20) (List.replicate 240 0)) = false ∧
    isAlign (mkF 7 (0xE * 2 ^ 60 + 3 * 2 ^ 58 + 2 ^ 20) (List.replicate 240 0)) = true ∧ portSt (port 7 4) 7 = 4 := by decide +kernel
/-- PART 0 of an accelerator that offers these command credits, over eight lanes. -/
def configF (cmd : Nat) : Flit := mkF 7 (0xD * 2 ^ 60 + 3 * 2 ^ 58)
  (leBytes 2 1 ++ leBytes 2 2 ++ leBytes 2 cmd ++ leBytes 2 64 ++ leBytes 2 512 ++ leBytes 2 16 ++ [0, 0, 8] ++ List.replicate 225 0)
def configS : State := regPut (port 7 5) (rCplStatus 7) 59 56 8
theorem test_config_parts : portSt configS 7 = 5 ∧ crcOk (configF 16) = true ∧ flitKind (configF 16) = 0xD ∧ flitVc (configF 16) = 3 ∧
    nbits (flitHdr (configF 16)) 57 56 = 0 ∧ configZero 0 (configF 16) = true ∧ kget [] (getTraining configS 7).parts 0 = [] ∧
    part0Ok configS 7 (configF 16).payload = true ∧ part0Ok configS 7 (configF 15).payload = false ∧ (configF 16).payload.length = 240 := by decide +kernel
theorem test_flit_of : flitOf 7 (configF 16).header ((configF 16).payload ++ leBytes 8 (configF 16).crc.toNat) = configF 16 := by decide +kernel
theorem test_compensation_hyp : portActive (port 8 6) 8 = true ∧ nbit (getLink (port 8 6) 8).last 53 = false ∧
    nbit (getLink (putLink (port 8 6) 8 { getLink (port 8 6) 8 with last := 2 ^ 53 }) 8).last 53 = true := by decide +kernel
theorem test_crc_fault : crcOk { flitB with crc := 0 } = false ∧ flitKind { flitB with crc := 0 } = 0xC ∧ portActive (port 8 6) 8 = true ∧
    crcOk { flitW with crc := 0 } = false ∧ sequenced (flitKind { flitW with crc := 0 }) = true := by decide +kernel
theorem test_codeword_hyp : (getLink (port 9 6) 9).bad + 1 < 64 ∧ ¬ (getLink (putLink (port 9 6) 9 { getLink (port 9 6) 9 with bad := 63 }) 9).bad + 1 < 64 := by
  decide +kernel
/-- A link word that covers flit 0 and asks again, with the replay buffer holding flits 0 and 1. -/
def replayL : Link := { getLink (port 7 6) 7 with replay := [(0, ⟨.dataFlit, [7], []⟩), (1, ⟨.dataFlit, [7], []⟩)] }
def wordN : Nat := let w := 2 ^ 42; w + lcrc w
theorem test_resend_hyp : let s := putLink (port 7 6) 7 replayL
    nbits wordN 7 0 = lcrc (wordN - nbits wordN 7 0) ∧ (creditsOf (getLink s 7) wordN).isSome = true ∧ nbit wordN 42 = true ∧ nbits wordN 52 43 = 0 ∧
    (ackLink (getLink s 7) 0).replay ≠ [] ∧ (ackLink (getLink s 7) 0).resent ≠ some 0 ∧ (ackLink (getLink s 7) 0).resends < 8 ∧
    ¬ (ackLink { getLink s 7 with replay := [(1, ⟨.dataFlit, [7], []⟩)], resends := 8 } 0).resends < 8 := by decide +kernel
theorem test_ring_free_hyp : field (ctlM 7 0x21 (ctlVc 0x21) [7]).msg 1 1 = 7 ∧
    ((BitVec.ofNat 32 (field (ctlM 7 0x21 (ctlVc 0x21) [7]).msg 4 4)) - getCons (portQ (partnerRing 7 7)) (partnerRing 7 7)).toNat ≤
      ringFill (portQ (partnerRing 7 7)) (partnerRing 7 7) := by decide +kernel
theorem test_unknown_hyp : 0xFF ∉ sentCodes ∧ 0x80 ∉ sentCodes ∧ accepts serv (rq 0) 0xFF [] = true ∧ accepts serv (rq 0) 0x80 [] = true := by decide +kernel
theorem test_hub_only_denied : after (exec (.unknownCode (rq 0) 0x80 []) serv) (fun t => t.outbox.length == 1) = true := by decide +kernel

/-! Connections -/

theorem test_rdma_vlan : vlanOk linked 0 0 = true ∧ vlanOk linked 0 4095 = false ∧ roleMay linked (connRole linked conn0) 0x1000 1024 true = true ∧
    linked.host.paused.contains conn0.port = false ∧ ({ linked with host := { linked.host with paused := [0] } }).host.paused.contains conn0.port = true := by
  decide +kernel
theorem test_paused_write : after (exec (.rdmaWrite ⟨0, 0⟩ 3 0 0x1000 77 [5] false) { linked with host := { linked.host with paused := [0] } })
    (fun t => memByte t 0x1000 == 5 && t.outbox.length == 0) = true := by decide +kernel
def ringedL : State := regPut ringed (rEthStatus 0) 63 0 (2 ^ 64 - 1)
theorem test_doorbell_all : getConn ringedL 0 = some conn0 ∧ ethLink ringedL conn0.port = true ∧ vlanOk ringedL conn0.port 0 = true ∧
    ringEnabled ringedL 2 = true ∧ pairOpen ringedL 2 = true ∧ ringRole ringedL 2 = connRole ringedL conn0 := by decide +kernel

/-! Memory -/

theorem test_decode_hyp : decodeErrors [(5, 0x3C)] = some [(5, 0x3C)] ∧ decodeErrors [(5, 0x3C), (9, 0x3C)] = none := by decide +kernel
theorem test_scrub_hyp : 0 < memTop up ∧ 0 / 64 = up.memctl.scrub ∧ 64 / 64 ≠ up.memctl.scrub ∧ ¬ memTop up ≤ 64 * (0 / 64) + 64 := by decide +kernel
theorem test_uncorrectable : after (exec (.memoryRead 0x1000 [(5, 0x3C), (9, 0x3C)] false) up)
    (fun t => memByte t 0x1005 == 0x3C && t.poison == [0x40]) = true := by decide +kernel
theorem test_scrub_in_turn : after (exec (.scrubRead 64 []) up) (fun t => t.memctl.scrub == 0) = true ∧
    after (exec (.scrubRead 0 []) up) (fun t => t.memctl.scrub == 1) = true := by decide +kernel

/-! Collectives, state, snapshots -/

/-- The completion rings of partners 0 and 7. -/
def roomy (s : State) : State := [0, 7].foldl (fun s n => regPut (regPut s (rCplRingCfg n (ringK (partnerRing n 1))) 63 0 (2 ^ 63 + 4 * 2 ^ 48)) (rCplStatus n) 63 60 6) s
theorem test_unmatched_hyp : let c := collA 2 .posted
    let s := { withColl c with drum := { up.drum with beats := 2 ^ 40 } }
    s.colls.list.find? (fun e => e.phase == .posted && e.id == c.id) = some c ∧ s.colls.list.find? (fun e => e.uid == c.uid) = some c ∧
    c.since + max 2500 (regBits s rCollCtl 31 0) ≤ s.drum.beats ∧ entryRoom (setProd (roomy s) (partnerRing 7 1) 16) 7 = false ∧ entryRoom (roomy s) 7 = true ∧ entryRoom (roomy s) 0 = true := by
  decide +kernel
theorem test_served_hyp : nextServed (withColl (full7 2)) = some (full7 2) ∧ nextServed (withColl (full7 4)) = some (full7 4) ∧
    collWaits (withColl (full7 2)) = false ∧ collOf (withColl (full7 4)) 3 = some (full7 4) ∧ (full7 4).link = none ∧ nextServed up = none := by decide +kernel
def descX : List Byte := descA.set 9 8
def collX : Coll := { collA 2 .opened with posts := [(0, descX), (7, descX)] }
theorem test_credit_hyp : collCross (withColl collX) collX = true ∧
    ((withColl collX).colls.list.find? (fun e => e.slot == 3 && collCross (withColl collX) e)).isSome = true ∧
    up.colls.list.find? (fun e => e.slot == 3 && collCross up e) = none := by decide +kernel
theorem test_unsent_hyp : let s := { up with colls := { up.colls with pools := [(8 * 7 + 0, 1)] } }
    unsentFrom s 7 0 = 0 ∧ poolUsed up 7 0 ≤ unsentFrom up 7 0 ∧ (poolUsed s 7 0 = 1 ∨ poolUsed s 0 7 = 1) := by decide +kernel
def doneC : Coll := { collA 2 .opened with served := 1, sent := [(0, 1), (7, 1)] }
def fullRing : State := setProd (roomy (withColl doneC)) (partnerRing 7 1) 16
theorem test_complete_room : collOf (withColl doneC) 3 = some doneC ∧ (withColl doneC).colls.list.find? (fun e => e.uid == doneC.uid) = some doneC ∧
    collDone (roomy (withColl doneC)) doneC = true ∧ entryRoom (roomy (withColl doneC)) 0 = true ∧ collOf fullRing 3 = some doneC ∧ collDone fullRing doneC = true ∧ entryRoom fullRing 7 = false := by decide +kernel
theorem test_complete_waits : after (exec (.collComplete 3) fullRing) (fun t => t.colls.list.any fun c => c.phase == .posting) = true := by
  decide +kernel

def sharded : Table := { Table.init with st := .ready, raw := block1.set 2 4 }
def run3 (chk : Bool) : StepRun :=
  { cmd := cmd3 0 1, done := 64, began := true, norm := 0, normBad := false, nan := 0, rowSum := [], skipped := [], pass2 := false,
    reduced := true, outStatus := none, checked := chk, kernel := none, pushed := [] }
theorem test_step_end_hyp : svcWaits (tabS dense) 8 = false ∧ tbSharded sharded = true ∧ tbSharded dense = false ∧
    (tbSharded { sharded with run := some (run3 true) } = true → (run3 true).checked = true) ∧ (run3 false).checked = false ∧
    localCount (tabS dense) dense ≤ (run3 true).done := by decide +kernel
theorem test_stale_hyp : ((3, 1) ∉ up.colls.stale) ∧ ((3, 1) ∈ ({ up with colls := { up.colls with stale := [(3, 1)] } }).colls.stale) ∧
    (getTable up 3).run = none := by decide +kernel

def storeR : Region := { base := 1024, size := 256, secure := false, owner := 0x21, access := 0xFF, snapArea := true, rakeLocal := false, rake := 0 }
/-- A store of 256 units from unit 1024 on, slot 0 committed with an empty image. -/
def storeS (mode : Nat) : State := let s := snapS mode
  { s with consist := { s.consist with cfg := { s.consist.cfg with regionsGiven := true, regions := [storeR] } } }
theorem test_owed_hyp : mirrorOwed (storeS 2) = false ∧ mirrorReady { p8 9 with snap := { up.snap with peerUnits := some 64 } } = true ∧
    snCut (snRaw 1 0 0x80 2500) = 2500 := by decide +kernel
theorem test_load_gen : loadGen (storeS 1) { res with begun := true, cands := [some 0] } = some 0 ∧ loadGen (storeS 1) res = none := by decide +kernel
theorem test_mir_nak_hyp : let s := setSlotState (storeS 2) 1 2
    [1, 2].find? (fun i => snapMode s == 2 && slotState s i == 2 && slotGen s i % 2 ^ 32 == 0) = some 1 ∧
    (takeCtl (p8 8) (ctlM 8 0x63 (ctlVc 0x63) []) 0x63 true).2 = true := by decide +kernel
theorem test_resume_hyp : held0.resume.toNat ≤ (snapS 1).drum.count.toNat := by decide +kernel

/-! A slot whose empty image is committed: its record is zero but for GEN, STATE and RECORD_CODE. -/

/-- The running code after 146, 292, …, 4088 bytes of such a record with STATE read as zero. -/
def crcHead : Nat := 0x2CC97F0308B654D2
def crcSeq : List Nat := [0x90007472EF6EFB7B, 0x800FB7D740869897, 0x6D40004817A99643, 0xFEF8A35426CC8042, 0x4AA7259DE4405ED3, 0xB89CCED7CC9296BF, 0xA8288BA896BA7652,
  0xA133C593AAD714E8, 0x194D7990483C986C, 0xC444128B6094941B, 0x36E7130BE3D6A442, 0xFB0CE909C3498389, 0x25FC15B61B15CB33, 0xAA1287B6EE111806,
  0x52E78EA044C0097E, 0xA293AEDA6AB45D23, 0x242E2417EA68C2FF, 0xFC1D364BE5FE48B6, 0xA64C52632D91204C, 0x4A2016058E274205, 0x56E4FDF2751C1D89,
  0x70D7C21C05DDFB10, 0x3F382FAB2DB03DD2, 0xDE9C4C504DD7B1D4, 0x347195AF4F24A150, 0x315D19F2839CF54B, 0xA4747F7BA2B621F4]
def crcChain : Nat → List Nat → Bool
  | _, [] => true
  | a, b :: l => crcBytes a (List.replicate 146 0) == b && crcChain b l
theorem crcBytes_append (c : Nat) (l m : List Byte) : crcBytes c (l ++ m) = crcBytes (crcBytes c l) m := List.foldl_append
theorem crcChain_zeros : ∀ (l : List Nat) (a : Nat), crcChain a l = true → crcBytes a (List.replicate (146 * l.length) 0) = l.getLastD a
  | [], a, _ => rfl
  | b :: l, a, h => by
    rw [crcChain, Bool.and_eq_true, beq_iff_eq] at h
    rw [List.length_cons, Nat.mul_succ, Nat.add_comm, ← List.replicate_append_replicate, crcBytes_append, h.1, crcChain_zeros l b h.2]
    cases l <;> rfl
def recCode : List Byte := [0x0B, 0xDE, 0x49, 0x5D, 0x84, 0x80, 0x8B, 0x5B]
def recCells (b : Nat) : List Host.Cell := (b + 8, 1) :: (b + 16, 2) :: (rangeFrom 0 8).map fun k => (b + 4088 + k, lget 0 recCode k)
def committedS (mode b : Nat) : State := let s := storeS mode
  { s with mem := recCells b, host := { s.host with conns := [(0, conn0)] } }

theorem read_committed (mode i u n : Nat) (h : storeUnit (snapRegions (committedS mode u)) (i * slotUnits (committedS mode u)) = u) :
    ∀ o, o + n ≤ 2 ^ 21 → slotRead (committedS mode (u * 2 ^ 21)) i o n = (rangeFrom o n).map fun o => kget 0 (recCells (u * 2 ^ 21)) (u * 2 ^ 21 + o) := by
  intro o ho
  refine List.map_congr_left fun x hx => ?_
  have hx' := (mem_rangeFrom _ _ _).1 hx
  have h1 : x / 2 ^ 21 = 0 := Nat.div_eq_of_lt (by omega)
  have h2 : x % 2 ^ 21 = x := Nat.mod_eq_of_lt (by omega)
  have h' : storeUnit (snapRegions (committedS mode (u * 2 ^ 21))) (i * slotUnits (committedS mode (u * 2 ^ 21))) = u := h
  show kget 0 (recCells _) _ = _
  rw [slotAddr, h1, h2, Nat.add_zero, h']

theorem rangeFrom_append (a m n : Nat) : rangeFrom a (m + n) = rangeFrom a m ++ rangeFrom (a + m) n := by
  induction m generalizing a with
  | zero => simp [rangeFrom]
  | succ m ih => rw [Nat.succ_add, rangeFrom, ih, rangeFrom, List.cons_append, Nat.add_right_comm, Nat.add_assoc]
theorem length_rangeFrom (n : Nat) : ∀ a, (rangeFrom a n).length = n := by
  induction n with | zero => exact fun _ => rfl | succ n ih => exact fun a => by rw [rangeFrom, List.length_cons, ih]
/-- The record as it reads. -/
def recHead : List Byte := [0, 0, 0, 0, 0, 0, 0, 0, 1, 0, 0, 0, 0, 0, 0, 0]
theorem rec_bytes (b : Nat) : (rangeFrom 0 4096).map (fun o => kget 0 (recCells b) (b + o)) =
    recHead ++ 2 :: (List.replicate 4071 0 ++ recCode) := by
  have z : (rangeFrom 17 4071).map (fun o => kget 0 (recCells b) (b + o)) = List.replicate 4071 0 := by
    rw [List.eq_replicate_iff, List.length_map, length_rangeFrom]
    refine ⟨rfl, fun x hx => ?_⟩
    obtain ⟨o, ho, rfl⟩ := List.mem_map.1 hx
    have := (mem_rangeFrom _ _ _).1 ho
    simp only [recCells, kget, rangeFrom, List.map]
    repeat rw [if_neg (by omega)]
  rw [show 4096 = 17 + (4071 + 8) from rfl, rangeFrom_append 0 17, List.map_append, rangeFrom_append _ 4071, List.map_append, z]
  generalize List.replicate 4071 (0 : Byte) = l
  simp [rangeFrom, recCells, kget, lget, recCode, recHead]
  repeat rw [if_neg (by omega)]
theorem record_code (b : Nat) : recordCode ((rangeFrom 0 4096).map fun o => kget 0 (recCells b) (b + o)) =
    field ((rangeFrom 0 4096).map fun o => kget 0 (recCells b) (b + o)) 0xFF8 8 := by
  have h := crcChain_zeros crcSeq crcHead (by decide +kernel)
  have f : field (recHead ++ 2 :: (List.replicate 4071 0 ++ recCode)) 0xFF8 8 = leVal recCode := by
    rw [field, show 0xFF8 = 16 + (1 + 4071) from rfl, ← List.drop_drop, List.drop_left' (show recHead.length = 16 from rfl), ← List.drop_drop, List.drop_succ_cons, List.drop_zero,
      List.drop_left' List.length_replicate]
    rfl
  have g : (lset (recHead ++ 2 :: (List.replicate 4071 0 ++ recCode)) 0x10 0).take 0xFF8 =
      (recHead ++ List.replicate 130 0) ++ List.replicate (146 * crcSeq.length) 0 := by
    show (recHead ++ 0 :: (List.replicate 4071 0 ++ recCode)).take 0xFF8 = _
    rw [List.append_assoc, List.replicate_append_replicate, ← List.cons_append, ← List.append_assoc, ← List.replicate_succ]
    exact List.take_left' (by rw [List.length_append, List.length_replicate]; rfl)
  rw [rec_bytes, recordCode, crc64, f, g, crcBytes_append, show crcBytes (2 ^ 64 - 1) (recHead ++ List.replicate 130 0) = crcHead by decide +kernel, h]
  decide +kernel
theorem committed_intact (mode i u : Nat) (h : storeUnit (snapRegions (committedS mode u)) (i * slotUnits (committedS mode u)) = u) :
    recordOk (committedS mode (u * 2 ^ 21)) i = true := by
  rw [recordOk, read_committed mode i u 4096 h 0 (by decide), beq_iff_eq]
  exact record_code _
/-- Slot 0 of a LOCAL store, and mirror slot 1 of a MIRRORED one. -/
def localD : State := committedS 1 (1024 * 2 ^ 21)
def mirrorD : State := committedS 2 (1088 * 2 ^ 21)
def rawG : List Byte := leBytes 4 5 ++ [3, 0, 0, 0] ++ leBytes 8 1 ++ List.replicate 48 0
theorem test_drain_hyp : slotIntact localD 0 = true ∧ slotIntact localD 1 = false ∧ localSlots localD = [0, 1] ∧
    slotIntact mirrorD 1 = true ∧ slotIntact mirrorD 0 = false ∧ localSlots mirrorD = [0] ∧ snFlag (snRaw 3 0 0 0) 0 = false ∧
    postsSnap localD 2 (snRaw 3 0 0 0) = true ∧ postsSnap mirrorD 2 rawG = true ∧ slotGen mirrorD 1 = snGen rawG ∧ snGen rawG = 1 := by
  have a : recordOk localD 0 = true := committed_intact 1 0 1024 (by decide +kernel)
  have b : recordOk mirrorD 1 = true := committed_intact 2 1 1088 (by decide +kernel)
  have c : ∀ s i, recTotal s i = 0 → copyOk s i = recordOk s i := fun s i h => by rw [copyOk, h]; simp [imgChunks, rangeFrom]
  refine ⟨?_, by rw [slotIntact]; exact Bool.and_eq_false_imp.2 (fun h => absurd h (by decide +kernel)), by decide +kernel, ?_,
    by rw [slotIntact]; exact Bool.and_eq_false_imp.2 (fun h => absurd h (by decide +kernel)), by decide +kernel, by decide +kernel, by decide +kernel, by decide +kernel, by decide +kernel, by decide +kernel⟩
  · rw [slotIntact, c _ _ (by decide +kernel), a]; decide +kernel
  · rw [slotIntact, c _ _ (by decide +kernel), b]; decide +kernel

/-! ### Witnesses of the other clauses -/

/-- The signature register can hold any value: each step of it has an inverse. -/
theorem misrStep_onto (x v : W64) : ∃ r, misrStep r x = v := by
  refine ⟨(v ^^^ x ^^^ (if (v ^^^ x).getLsbD 0 then 0x1B else 0)) >>> 1 ||| (if (v ^^^ x).getLsbD 0 then 1 <<< 63 else 0), ?_⟩
  generalize ht : v ^^^ x = t
  have hv : v = t ^^^ x := by rw [← ht, BitVec.xor_assoc, BitVec.xor_self, BitVec.xor_zero]
  subst hv
  unfold misrStep
  congr 1
  cases h : t.getLsbD 0
  · simp
    apply BitVec.eq_of_getLsbD_eq
    intro i hi
    simp [BitVec.getLsbD_shiftLeft, BitVec.getLsbD_ushiftRight]
    rcases i with _ | i
    · simpa using h.symm
    · simp [hi, Nat.add_comm 1 i]
  · apply BitVec.eq_of_getLsbD_eq
    intro i hi
    rcases i with _ | i
    · simp [h]
    · have z : Nat.testBit 9223372036854775808 i = false := by
        rw [show 9223372036854775808 = 2 ^ 63 from rfl, Nat.testBit_two_pow_of_ne (by omega)]
      simp [BitVec.getLsbD_ofNat, z]
      rw [Nat.add_comm 1 i]
      cases t.getLsbD (i + 1) <;> cases Nat.testBit 27 (i + 1) <;> simp [hi]
theorem misrCount_onto (f : Nat → W64) (l : List Nat) : ∀ v, ∃ r, l.foldl (fun r i => misrStep r (f i)) r = v := by
  induction l with
  | nil => exact fun v => ⟨v, rfl⟩
  | cons a l ih =>
    intro v
    obtain ⟨u, h⟩ := ih v
    obtain ⟨r, rfl⟩ := misrStep_onto (f a) u
    exact ⟨r, h⟩
theorem misr_zeros (n : Nat) : (List.replicate n (0 : W64)).foldl misrStep 0 = 0 := by
  induction n with
  | zero => rfl
  | succ n ih => rw [List.replicate_succ, List.foldl_cons]; exact ih
/-- Responses of set 0 whose signature is the one expected. -/
theorem test_slice_signature : ∃ l : List W64, l.length = 1024 * 2 ^ 0 ∧ misrCount (misrRun l) l.length = Config.bistExpect 0 := by
  obtain ⟨y, h⟩ := misrCount_onto (fun i => BitVec.ofNat 64 (bits (BitVec.ofNat 64 1024) (31 - i) (31 - i))) (rangeFrom 0 32) (Config.bistExpect 0)
  refine ⟨List.replicate 1023 0 ++ [y], by rw [List.length_append, List.length_replicate]; rfl, ?_⟩
  have e : misrRun (List.replicate 1023 0 ++ [y]) = y := by
    rw [misrRun, List.foldl_append, misr_zeros]; exact BitVec.zero_xor
  have n : (List.replicate 1023 (0 : W64) ++ [y]).length = 1024 := by rw [List.length_append, List.length_replicate]; rfl
  rw [e, n]
  exact h
def sSlice (st : Bool) (k : Nat) : State := { sBist with bist := { sBist.bist with run := some { slice0 with stopped := st, slice := k } } }
theorem test_slice_conditions : (sSlice false 0).bist.run = some slice0 ∧ slice0.slice = 2 * 0 ∧ slice0.saved.isSome = true ∧ slice0.restore = true ∧
    sliceDrained (sSlice false 0) slice0 = true ∧ slice0.slice = regBits (sSlice false 0) rBistStatus 63 54 ∧ slice0.set = 0 ∧
    sliceDrained (sSlice true 0) { slice0 with stopped := true } = true ∧ ([] : List W64).length < 1024 * 2 ^ slice0.set := by decide +kernel
theorem test_slice_stopped : after (exec (.bistSliceEnd [] 0 0) (sSlice true 0)) (fun t => regBits t rBistLast 63 62 == 3 && t.bist.run.isNone) = true ∧
    after (exec (.bistSliceEnd [1] 0 0) (sSlice false 0)) (fun t => regBits t rBistLast 63 62 == 3) = true ∧
    after (exec (.bistSliceEnd [] 3 4) (sSlice false 1)) (fun t => regBits t rBistLast 63 62 == 2) = true := by decide +kernel
/-- The x⁶⁴ term feeds back x⁴ + x³ + x + 1. -/
theorem test_misr : misrStep (2 ^ 63) 0 = 0x1B ∧ misrStep 5 1 = 0xB := by decide +kernel

/-! Coaches -/

theorem test_bank_free : bankTested sRing 0x1000 = false ∧ bankTested (sSlice false 1) (yardAddr 0 0) = true ∧ bankTested (sSlice false 1) (yardAddr 0 64) = false ∧
    bankTested (sSlice false 0) (yardAddr 0 0) = false := by decide +kernel
/-- A store to yard block 0 of rake 0 while its bank is under test. -/
def accY : Access := { accOf (.store [(yardAddr 0 0, 5)] []) with blocks := [yardAddr 0 0 / 64] }
def sYard : State := { putCoach sRing 0 { getCoach sRing 0 with acc := [accY] } with bist := { up.bist with run := some { slice0 with slice := 1 } } }
theorem test_bank_waits : bankWaits sYard 0 accY (yardAddr 0 0 / 64) = true ∧
    after (exec (.transactionPerformed 0 3 (yardAddr 0 0 / 64)) sYard) (fun t => t == sYard) = true := by decide +kernel
def sFirm : State := putTrain sLaunch 0 { getTrain sLaunch 0 with service := some lb }
theorem test_service_alone : (getTrain sFirm 0).service.isSome = true ∧ ((getTrain sFirm 0).queue.all fun l => !l.ofStep) = true ∧
    (getTrain sLaunch 0).service = none ∧ after (exec (.launchBlockStart 0) sFirm) (fun t => t == sFirm) = true := by decide +kernel

/-! Faults -/

theorem test_kinds : kindClass 3 = 1 ∧ kindFrom 3 0x25F = true ∧ fatalLatch up 0x25F = false ∧ (up.belfry.raised.all fun m => m.source != 0x25F) = true ∧
    up.belfry.queue.length < 4032 ∧ kindClass 0x10 = 1 ∧ kindClass 0x15 = 2 ∧ kindFrom 0x15 0x248 = true ∧ kindFrom 4 0x248 = false ∧
    kindClass 4 ≠ 3 := by decide +kernel
/-- Four messages of port 7 wait. -/
def fourWait : State := [1, 2, 3, 4].foldl (fun s a => raise s 0x247 0x11 1 a) up
theorem test_fifth : (waitingOf fourWait 0x247).length = 4 ∧
    (fourWait.belfry.raised.all fun m => !(m.source == 0x247 && m.kind == 0x11 && m.addr == 9)) = true ∧ isSource 0x247 = true ∧
    kindClass 0x11 = 1 ∧ kindFrom 0x11 0x247 = true ∧
    after (exec (.faultMessage 0x247 0x11 1 9) fourWait) (fun t => t.belfry.raised.length == 4 && t.belfry.queue.length == 0) = true := by decide +kernel
theorem test_wrong_class : after (exec (.faultMessage 0 4 3 0) up) (fun t => t == up) = true := by decide +kernel

/-! Drum, power, cooling -/

theorem test_source_gone : drumSource (regPut sPtp rDrumStatus 59 58 2) = 2 ∧ (p0Receiving sPtp && portActive sPtp 8) = false ∧
    after (exec .drumSourceLost (regPut (regPut sPtp rDrumStatus 59 58 2) rDrumStatus 63 60 2)) (fun t => drumSource t == 1 && drumState t == 3) = true := by
  decide +kernel
theorem test_step_made : after (exec .opStepComplete { up with power := { up.power with step := some 3 } }) (fun t => opPoint t == 3 && t.power.volt == 3 &&
    t.outbox == [⟨.pmbus, [64, 4, 3, regBits up rTrim 63 59], []⟩]) = true := by decide +kernel
def mon1 : State := { up with peal := { up.peal with prog := some (List.replicate (0x100 + 8 * 40) 0 ++ [1, 0x20, 1] ++ List.replicate 200 0) } }
theorem test_mon1 : slotUsed mon1 40 = true ∧ slotMon mon1 40 = 1 ∧
    after (exec (.railStatusPoll 40 0 777) mon1) (fun t => kget 0 t.peal.mv 40 == 778) = true := by decide +kernel
theorem test_trim_sealed : (sealed serv).trust.puf = true ∧ guardRuns (sealed serv) 5 = true ∧ guardRuns (sealed serv) 4 = true ∧
    after (exec (.ageingTrim 0 true) (sealed serv)) (fun t => t.power.trimSteps == 1 && regBits t rTrim 63 59 == 0 &&
      regBits (applyTrim t) rTrim 63 59 == 1) = true ∧ serv.trust.puf = false := by decide +kernel
theorem test_trip_more : regBits (regPut up rTrip 62 62 1) rTrip 62 62 = 1 ∧ ({ up with power := { up.power with offLeak := true } }).power.offLeak = true ∧
    regBits (regPut up rTrip 61 61 1) rTrip 61 61 = 1 ∧ up.power.third = false ∧ ({ up with power := { up.power with offTherm := true } }).power.offTherm = true := by
  decide +kernel
theorem test_cool_trip : let s := booted (regPut (regPut (regPut up rTrip 63 63 1) (rCoolCfg 11) 31 24 1) (rCoolStatus 11) 63 60 0)
    tripStands s = true ∧ coolRole s 11 = 1 ∧ coolState s 11 = 0 ∧
    after (exec .coolingUpdate s) (fun t => coolState t 11 == 5 && coolDuty t 11 == tripDuty s 1) = true := by decide +kernel
theorem test_cool_more : (let s := booted (regPut (regPut (regPut up (rCoolCfg 11) 31 24 3) (rCoolStatus 11) 63 60 1) (rCoolStatus 11) 55 48 10)
      coolState s 11 = 1 ∧ 10 ≤ coolDuty s 11 ∧ coolRole s 11 = 3) ∧
    (let s := booted (regPut (regPut up (rCoolCfg 11) 31 24 1) (rCoolStatus 11) 63 60 3)
     coolState s 11 = 3 ∧ (11 ∉ s.power.kicking) ∧
     after (exec (.fanKickStart 11) s) (fun t => coolDuty t 11 == 100 && t.power.kicking.contains 11) = true) := by decide +kernel

/-! Peal -/

theorem test_end_upper : (currentWord (pealAt 0 0 run0) 0).isSome = true ∧ run0.mode = 0 ∧ run0.stop = false ∧ nbit 0 0 = false ∧
    after (exec .pealEnd (pealAt 0 0 run0)) (fun t => pealState t == 2) = true := by decide +kernel
/-- A lower run at END, brought by attempt `n`. -/
def retryAt (n : Nat) : State := let s := pealAt 0 0 { run0 with mode := 1 }
  { s with peal := { s.peal with next := .retry, failed := n } }
theorem test_retry_end : (currentWord (retryAt 1) 0).isSome = true ∧ (retryAt 1).peal.next = .retry ∧
    after (exec .pealEnd (retryAt 1)) (fun t => pealState t == (if (retryAt 1).peal.eff.ref.retries < 1 then 6 else 5)) = true ∧
    after (exec .pealEnd (retryAt 99)) (fun t => pealState t == 6) = true ∧
    after (exec .pealEnd { retryAt 0 with host := { up.host with offHost := true } }) (fun t => pealState t == 0) = true := by decide +kernel
def lostAt : State := let s := pealAt 0 0 { run0 with mode := 1 }
  { s with peal := { s.peal with running := BitVec.ofNat 64 (2 ^ 40) } }
theorem test_rail_lost : slotOwner lostAt 40 = 0x20 ∧ slotRunning lostAt 40 = true ∧
    after (exec (.railLostDown 40) lostAt) (fun t => !slotRunning t 40 && regBits t rPseqFirst 63 63 == 1) = true := by decide +kernel
def goodIdle : State := regPut up (rPseqGood) 40 40 1
theorem test_good_falls : slotGood goodIdle 40 = true ∧ slotRunning goodIdle 40 = false ∧
    after (exec (.pealRailFault 40) goodIdle) (fun t => !slotGood t 40) = true := by decide +kernel
theorem test_load_g5 : guardRuns up 5 = false ∧ guardRuns serv 5 = true ∧ regBits serv rPseqLoad 63 63 = 0 ∧
    after (exec (.pseqLoadGo 0x1FFF) up) (fun t => regBits t rPseqLoad 47 12 == 1 && regBits t rPseqLoad 63 60 == 0) = true := by decide +kernel
theorem test_discharge_hyp : (let r := { run0 with wait := some (.discharge 40) }
    let s := pealAt 0 0 r
    s.peal.run = some r ∧ slotMon s 40 = 0 ∧ slotOwner s 40 = 0x20 ∧ mayGoOn r = true ∧
      after (exec (.dischargeDone 40 0) s) (fun t => !slotGood t 40 && pealPc t == 1) = true) := by decide +kernel

/-! Ports -/

def ringC (n : Nat) : State := let q := partnerRing 7 6
  let s := portQ q
  { s with host := { s.host with subCredit := [(q, n)] } }
theorem test_sub_credit : (takeFlit (ringC 2) flitS 4 0 true).2 = true ∧ ringEnabled (ringC 2) (partnerRing 7 6) = true ∧
    1 ≤ kget 0 (ringC 2).host.subCredit (partnerRing 7 6) ∧ 1 ≤ ringDepth (ringC 2) (partnerRing 7 6) ∧
    kget 0 (ringC 0).host.subCredit (partnerRing 7 6) < 1 ∧ flitS.payload.length = 240 ∧
    after (exec (.ringSub flitS) (ringC 2)) (fun t => getProd t (partnerRing 7 6) == 1 && kget 0 t.host.subCredit (partnerRing 7 6) == 1) = true ∧
    after (exec (.ringSub flitS) (ringC 0)) (fun t => portSt t 7 == 1) = true := by decide +kernel
theorem test_no_partners : noPartners { up with consist := { up.consist with applied := false } } = true ∧ noPartners up = false ∧
    noPartners (regPut up (rCfgGuard 5) 63 60 5) = true ∧ portActive (openPart 7) 7 = true ∧
    (7 ∈ ({ regPut (openPart 7) (rSidePart 7) 63 60 1 with board := { up.board with daaSent := [7] } }).board.daaSent) := by decide +kernel
theorem test_assign_again : let s := { regPut (openPart 7) (rSidePart 7) 63 60 1 with board := { up.board with daaSent := [7] } }
    resetReleased s 7 = true ∧ watchOpen s 7 = false ∧ after (exec (.i3cAddressAssign 7 false) s) (fun t => t == (emit s .i3c [7, 3, i3cAddrOf s 7])) = true := by decide +kernel
theorem test_frames_in : frameOk 9 3 (frameW 1 3 3 0) = true ∧ portSt (port 9 1) 9 = 1 ∧ nbit (lanesUsable (port 9 1) 9) 3 = true ∧ portActive (port 9 6) 9 = true ∧
    after (exec (.trainingFrame 9 3 (BitVec.ofNat 64 (frameW 1 3 3 0)) false 0 0) (port 9 1)) (fun t => (getTraining t 9).seen == 8 && portSt t 9 == 1) = true ∧
    after (exec (.trainingFrame 9 3 (BitVec.ofNat 64 (frameW 1 3 3 0)) false 0 0) (port 9 6)) (fun t => portSt t 9 == 1) = true := by decide +kernel
theorem test_latched_retest : (let s := regPut (port 9 8) (rFatal 9) 9 9 1
    portSt s 9 = 8 ∧ nbit (regGet s (rFatal 9)).toNat 9 = true ∧ after (exec (.cplRetest 9) s) (fun t => portSt t 9 == 8) = true) ∧
    after (exec (.cplRetest 9) (port 9 8)) (fun t => portSt t 9 == 1) = true := by decide +kernel
theorem test_align_runs : after (exec (.align (alignF 39) true) (port 7 4)) (fun t => portSt t 7 == 5 && (getTraining t 7).rxSlot == some 39) = true ∧
    after (exec (.align (mkF 7 (0xE * 2 ^ 60 + 3 * 2 ^ 58 + 2 ^ 20) (List.replicate 240 0)) true) (port 7 4)) (fun t => portSt t 7 == 1) = true ∧
    after (exec (.align { alignF 39 with crc := 0 } true) (port 7 4)) (fun t => portSt t 7 == 4) = true := by decide +kernel
theorem test_pattern : let s := putTraining (port 7 2) 7 { getTraining (port 7 2) 7 with rxHub := 0xFF, rxPeer := 0xFF }
    portSt s 7 = 2 ∧ nbit (lanesUsable s 7) 5 = true ∧
    after (exec (.trainingTimeout 7) s) (fun t => portSt t 7 == 3 && t.outbox.contains ⟨.pattern, [7, 5, 2 ^ 28], []⟩) = true := by decide +kernel

/-! Requests, updates, attestation -/

theorem test_boot_plain : modPlain up = true ∧ ({ serv with consist := { serv.consist with booted := false } }).consist.activeSlot = none := by decide +kernel
/-- A kind 0x02 session of two bytes whose header carries the digest of its body. -/
def hashed : Session := { sess 1 2 none with header := List.replicate 0x80 0 ++ Config.sha512 [1, 2] ++ List.replicate 320 0 }
theorem test_digest_hyp : (updating hashed).trust.session = some hashed ∧ hashed.state = 2 ∧
    Config.sha512 hashed.body = (hashed.header.drop 0x80).take 64 ∧ hashed.header ≠ [] := by
  have l : (Config.sha512 [1, 2]).length = 64 := by simp [Config.sha512, Config.bytes]
  refine ⟨rfl, rfl, ?_, by simp [hashed]⟩
  show Config.sha512 [1, 2] = ((List.replicate 0x80 (0 : Byte) ++ Config.sha512 [1, 2] ++ List.replicate 320 0).drop 0x80).take 64
  rw [List.append_assoc, List.drop_left' List.length_replicate, List.take_left' l]
theorem test_piece_address : (updating (sess 1 1 (some [7, 8]))).trust.session = some (sess 1 1 (some [7, 8])) ∧
    (let s := updating (sess 1 1 (some [7, 8]))
     pieceAddr s (sess 1 1 none) 2 0 = partBase (updTarget s 1) + 514 ∧
     pieceAddr s (sess 1 1 none) 2 (2 ^ 40) = partBase (updTarget s 1) + 515) := by decide +kernel
def deferred (m : Nat) (j : Option Job) : State := let s := sealed (updating { sess 2 4 none with mode := m })
  { s with host := { s.host with job := j } }
theorem test_deferral : (deferred 0 none).trust.session = some { sess 2 4 none with mode := 0 } ∧ quietEnough (deferred 0 none) = true ∧
    (deferred 1 (some job0)).host.job.isSome = true ∧ quietEnough (deferred 1 (some job0)) = true ∧ (deferred 0 none).trust.restart = none ∧
    after (exec .updDeferralEnd (deferred 1 (some job0))) (fun t => t.trust.session.isNone && t.trust.restart.isNone && selectorOf t 2 == 13) = true := by
  decide +kernel
theorem test_activates_sealed : (sealed (updating (sess 2 3 none))).trust.puf = true ∧ quietEnough (h0 (sealed (updating (sess 2 3 none)))) = true := by decide +kernel
/-- The firmware of slot A on trial, with this many failures counted. -/
def trialS (n : Nat) : State := let s := putSelector (sealed up) 1 4
  { s with trust := { s.trust with trialFails := n, images := [(2, List.replicate 512 0), (3, List.replicate 512 0)] } }
theorem test_trials : onTrial (trialS 0) 1 = true ∧ svcOpen (trialS 0) 5 = false ∧ (trialS 0).mainDom = .up ∧ (trialS 3).trust.puf = true ∧
    after (exec .trialTimeout (trialS 0)) (fun t => t.trust.trialFails == 1 && t.mainDom == .inReset && selectorOf t 1 == 4) = true ∧
    after (exec .trialTimeout (trialS 2)) (fun t => t == (trialS 2)) = true ∧
    after (exec .trialTimeout (trialS 3)) (fun t => t.trust.trialFails == 0 && !onTrial t 1) = true := by decide +kernel
theorem test_boot_previous : onTrial (trialS 2) 1 = true ∧ (trialS 2).trust.trialFails = 2 ∧ partOk (trialS 2) [] (2 * 1 + (1 - selectorOf (trialS 2) 1 % 2)) = true ∧
    bootSlot (trialS 2) [] 1 = some 1 := by decide +kernel
theorem test_standby_trial : (booted (sealed serv)).board.stbyBoot = true ∧ guardRuns (booted (sealed serv)) 5 = true ∧ guardRuns (booted (sealed up)) 5 = false ∧
    after (exec .standbyTrialConfirm (booted (sealed up))) (fun t => t == (booted (sealed up))) = true := by decide +kernel
theorem test_spdm_refused : accepts serv (rq 0) 0x60 ([0x12, 0x83, 0, 0] ++ List.replicate 32 0) = true ∧ serv.trust.puf = false ∧
    field ([0x12, 0x83, 0, 0] ++ List.replicate 32 0) 1 1 = 0x83 ∧
    (let s := { serv with trust := { serv.trust with spdmLost := [0] } }
     accepts s (rq 0) 0x60 [0x12, 0xE1, 0, 0] = true ∧ consistState s ≠ 0 ∧ (0 ∈ s.trust.spdmLost) ∧
     after (exec (.getCapabilities (rq 0) [0x12, 0xE1, 0, 0]) s) (fun t => t.trust.spdmLost.isEmpty && t.outbox.length == 1) = true) := by decide +kernel

/-! Connections, memory, start -/

def backlog : State := putConn { linked with host := { linked.host with paused := [0] } } 0 { conn0 with reads := 16 }
theorem test_reads : readsFull linked conn0 = false ∧ getConn backlog 0 = some { conn0 with reads := 16 } ∧ readsFull backlog { conn0 with reads := 16 } = true ∧
    ethLink backlog conn0.port = true ∧ vlanOk backlog conn0.port 0 = true ∧ readsFull backlog { conn0 with reads := 15 } = false := by decide +kernel
theorem test_ce : conn0.cnpAt = 0 ∧ (let s := putConn linked 0 { conn0 with cnpAt := 1 }
    getConn s 0 = some { conn0 with cnpAt := 1 } ∧ s.drum.beats < 1 + 124) ∧
    after (exec (.rdmaAck ⟨⟨0, 0⟩, true⟩ 3) linked) (fun t => t.outbox == [⟨.rdma, [0, 129], []⟩]) = true ∧
    after (exec (.rdmaAck ⟨⟨0, 0⟩, true⟩ 3) (putConn linked 0 { conn0 with cnpAt := 1 })) (fun t => t.outbox == []) = true := by decide +kernel
theorem test_train_hyp : (let s := regPut (sealed serv) rMemStatus 63 60 1
    regBits s rMemStatus 63 60 = 1 ∧ s.memctl.filled = false ∧ storedValid s [] = false ∧ s.trust.puf = true ∧ guardRuns s 5 = true ∧
    storedValid { s with memctl := { s.memctl with savedVals := List.replicate 48 (0, 0) } } [] = true) := by decide +kernel
/-- Every firmware slot holds an image of zeros. -/
def imaged : State := { State.reset with trust := { State.reset.trust with images := (rangeFrom 0 6).map fun k => (k, List.replicate 512 0) } }
theorem test_rom_alone : after (exec (.standbyResetExit true true true true 0 [0, 1]) imaged) (fun t => t.belfry.errBoot && !t.board.stbyBoot &&
    t.board.bootLog.length == 2) = true := by decide +kernel
theorem test_orders_lost : after (exec (.standbyResetExit true true true true 0 [25]) { imaged with host := { imaged.host with storedOffHost := true } })
      (fun t => !t.host.offHost) = true ∧
    after (exec (.standbyResetExit true true true true 0 []) { imaged with host := { imaged.host with storedOffHost := true } })
      (fun t => t.host.offHost) = true := by decide +kernel
theorem test_release_hyp : (let s := { up with mainDom := .inReset }
    s.mainPower = true ∧ s.belfry.retained = [] ∧ s.belfry.carried = none ∧ modPlain s = true) := by decide +kernel
/-- All but the last service open. -/
def before5 (trimmed : Bool) : State := { regPut serv rRingSvc 6 0 0x5F with power := { serv.power with trimmed := trimmed } }
theorem test_trim_first : mayOpen (before5 true) 5 = true ∧ mayOpen (before5 false) 5 = false ∧ guardRuns (before5 false) 4 = true ∧
    after (exec (.serviceOpen 5) (before5 false)) (fun t => t == (before5 false)) = true := by decide +kernel
theorem test_sctl_compartment : (booted serv).board.stbyBoot = true ∧
    after (exec (.compartmentFault 6 2 0) (booted serv)) (fun t => t == (raise (booted serv) srcSctl 0x24 1 2)) = true := by decide +kernel

/-! Snapshots and registers -/

def snapWaits : State := let s := withRing (snapS 1) 2 3
  { s with host := { s.host with waiting := [(3, [List.replicate 64 0])] } }
theorem test_snap_waits : svcWaits snapWaits 9 = true ∧ svcWaits (withRing (snapS 1) 2 3) 9 = false := by decide +kernel
theorem test_loaded_other : loadGen restoring { res with told := [7] } ≠ some (field (ctlM 7 0x38 (ctlVc 0x38) []).msg 4 4) := by decide +kernel
def mirror2 : State := setSlotState (p8 8) 1 2
theorem test_serve : newestMirror mirror2 = some 1 ∧ newestMirror (p8 8) = none ∧ (takeCtl mirror2 (ctlM 8 0x64 (ctlVc 0x64) []) 0x64 true).2 = true ∧
    field (ctlM 8 0x64 (ctlVc 0x64) []).msg 4 4 = 0 ∧ (takeCtl (p8 8) (ctlM 8 0x64 (ctlVc 0x64) []) 0x64 true).2 = true := by decide +kernel
theorem test_drain_named : slotHolds mirrorD 1 1 = true := by
  have b : recordOk mirrorD 1 = true := committed_intact 2 1 1088 (by decide +kernel)
  rw [slotHolds, b]; decide +kernel
theorem test_commit_power : (match regCheck serv true true (regSpace + 0x3FFF00) 8 with | .ok _ => true | .error _ => false) = true ∧ groupsOf 2 = [1] ∧
    0x3FFF00 / 0x100000 = 3 ∧ serv.stbyDom = .up ∧ regInitiator serv srcSctl = some true := by decide +kernel
end Sys2Proof.Tests
end

/-! PROOFS. The scope family: every command answers a next state (R7, R24, R499). -/

namespace Sys2Proof.Machine

/-- The outcome is a next state. -/
def Answers (o : Host.Outcome State Fault Refusal) : Prop := ∃ t, o = .next t

theorem answers_next (t : State) : Answers (.next t) := ⟨t, rfl⟩

/-- A guarded outcome answers where both of its branches do. -/
theorem answers_ite {c : Prop} [Decidable c] {o p : Host.Outcome State Fault Refusal} (ho : Answers o) (hp : Answers p) :
    Answers (if c then o else p) := by
  split
  · exact ho
  · exact hp

/-- R334, R337: a packet of a connection answers, whether it is taken, dropped or of no connection. -/
theorem takePacket_answers (s : State) (k : Packet) (act : Conn → State) : Answers (takePacket s k act) := by
  unfold takePacket
  repeat' split
  all_goals exact answers_next _

/-- Every command answers. The commands whose meaning looks into an option or a list are split along that look; the packets go
through `takePacket`; the others answer at once or under conditions. -/
theorem exec_answers (i : Instr) (s : State) : Answers (exec i s) := by
  cases i
  -- The Consist, coaches and kernels.
  case consistBootApply | consistSlotWritten | applyComplete | applyBeat | xallocGrant | loadReturn | drayTransaction
      | fenceComplete | launchBlockStart | kernelCodeLoaded | kernelComplete | kernelTimeout | kernelsStopped =>
    simp only [exec, execConsistBootApply, execConsistSlotWritten, execApplyComplete, execApplyBeat, execXallocGrant,
      execLoadReturn, execDrayTransaction, execFenceComplete, execLaunchBlockStart, execKernelCodeLoaded,
      execKernelComplete, execKernelTimeout, execKernelsStopped]
    repeat' split
    all_goals exact answers_next _
  -- Collectives and tables.
  case collUnmatched | collWindowOpen | collChunkReduce | collComplete | collStall | collData | dispatch | dispatchEnd
      | xhPost | collCredit | embApplyBegin | stepEnd | stateCommandComplete =>
    simp only [exec, execCollUnmatched, execCollWindowOpen, execCollChunkReduce, execCollComplete, execCollStall,
      execCollData, execDispatch, execDispatchEnd, execXhPost, execCollCredit, execEmbApplyBegin, execStepEnd,
      execStateCommandComplete]
    repeat' split
    all_goals exact answers_next _
  -- Snapshots and mirrors.
  case snapManifest | snapManifestDeadline | snapCut | snapData | snapSent | snapCommit | snapResume | snapPcredit |
      snapLoadedAck | mirEnd | mirAck | mirNak | mirCredit =>
    simp only [exec, execSnapManifest, execSnapManifestDeadline, execSnapCut, execSnapData, execSnapSent,
      execSnapCommit, execSnapResume, execSnapPcredit, execSnapLoadedAck, execMirEnd, execMirAck, execMirNak,
      execMirCredit]
    repeat' split
    all_goals exact answers_next _
  -- The Drum, links, rings and images.
  case ptpDelayResp | drumReport | linkWord | write | readReq | ringSub | ringFree | jobAbort | rdmaAckTimeout |
      rdmaRateRecovery | ringEntryTake | updDataProgrammed | updVerifyComplete | updSessionTimeout | updDeferralEnd =>
    simp only [exec, execPtpDelayResp, execDrumReport, execLinkWord, execWrite, execReadReq, execRingSub,
      execRingFree, execJobAbort, execRdmaAckTimeout, execRdmaRateRecovery, execRingEntryTake, execUpdDataProgrammed,
      execUpdVerifyComplete, execUpdSessionTimeout, execUpdDeferralEnd]
    repeat' split
    all_goals exact answers_next _
  -- Peal, power, the Belfry and self-test.
  case pealLoadComplete | pealEnd | pealEn | pealDis | pealWait | pealChk | pealJmp | pealJfail | pealStagger |
      pealStepTimeout | pealWaitExpiry | dischargeDone | dischargeTimeout | opStepComplete | faultMessage |
      bistBudgetExpiry | bistSliceEnd | failedFlit | railLostDown | restoreComplete =>
    simp only [exec, execPealLoadComplete, execPealEnd, execPealEn, execPealDis, execPealWait, execPealChk,
      execPealJmp, execPealJfail, execPealStagger, execPealStepTimeout, execPealWaitExpiry, execDischargeDone,
      execDischargeTimeout, execOpStepComplete, execFaultMessage, execBistBudgetExpiry, execBistSliceEnd,
      execFailedFlit, execRailLostDown, execRestoreComplete]
    repeat' split
    all_goals exact answers_next _
  case rdmaWrite | rdmaRead | rdmaAck | cnp | doorbell => exact takePacket_answers _ _ _
  all_goals repeat' apply answers_ite
  all_goals exact answers_next _

/-- Settles O60, by the split of `exec_answers` along the commands. -/
theorem everyCommandAnswersNext : Obligations.EveryCommandAnswersNext := exec_answers

end Sys2Proof.Machine

/-! PROOFS. Registers: the table's rows, fields and masks, and what a write of a register stores (R6 to R11, Table 0.3). -/

namespace Sys2Proof.Machine

/-! ### The register table -/

/-- R6: the offset of a register within its block, or within its window of the CPL block. -/
def regOff (a : Nat) : Nat := if a / 0x100000 = 7 then a % 0x10000 else a % 0x100000

/-- What `regFind` says of the row, the number within it and the window that it answers. -/
theorem regFind_some {a i p : Nat} {d : RegDesc} (h : regFind a = some (d, i, p)) :
    d ∈ regTable ∧ d.blk = a / 0x100000 ∧ d.off ≤ regOff a ∧ (regOff a - d.off) % d.stride = 0 ∧
      (regOff a - d.off) / d.stride < d.count ∧ p = (if a / 0x100000 = 7 then a % 0x100000 / 0x10000 else 0) ∧ p < 10 := by
  by_cases hw : a / 0x100000 = 7 ∧ (if a / 0x100000 = 7 then a % 0x100000 / 0x10000 else 0) ≥ 10
  · simp only [regFind, if_pos hw, reduceCtorEq] at h
  · simp only [regFind, if_neg hw] at h
    split at h
    · next e hfind =>
      obtain ⟨rfl, rfl, rfl⟩ := by simpa only [Option.some.injEq, Prod.mk.injEq] using h
      have hrow := List.find?_some hfind
      simp only [Bool.and_eq_true, beq_iff_eq, decide_eq_true_eq] at hrow
      obtain ⟨⟨⟨hblk, hoff⟩, hmod⟩, hcount⟩ := hrow
      exact ⟨List.mem_of_find?_eq_some hfind, hblk, hoff, hmod, hcount, rfl, by split at hw <;> simp_all⟩
    · cases h

/-- The fields of a row: each from `lo` up to `hi` within the register, no two sharing a bit. -/
def FieldsOk (fs : List FieldDesc) : Prop :=
  (∀ f ∈ fs, f.lo ≤ f.hi ∧ f.hi < 64) ∧ ∀ f ∈ fs, ∀ g ∈ fs, f = g ∨ f.hi < g.lo ∨ g.hi < f.lo

theorem fieldsOk_of_mem : ∀ d ∈ regTable, FieldsOk d.fields := by
  unfold FieldsOk
  decide +kernel

/-- The mask of a list of fields has their bits. -/
theorem getLsbD_fieldMask (k : Nat) : ∀ (fs : List FieldDesc) (m : W64), (∀ f ∈ fs, f.lo ≤ f.hi ∧ f.hi < 64) →
    (fs.foldl (fun m f => setBits m f.hi f.lo (2 ^ (f.hi + 1 - f.lo) - 1)) m).getLsbD k =
      (m.getLsbD k || fs.any fun f => decide (f.lo ≤ k ∧ k ≤ f.hi))
  | [], m, _ => by simp
  | f :: fs, m, h => by
    obtain ⟨hle, h64⟩ := h f List.mem_cons_self
    rw [List.foldl_cons, getLsbD_fieldMask k fs _ fun g hg => h g (List.mem_cons_of_mem _ hg), getLsbD_setBits _ _ _ hle h64,
      List.any_cons]
    by_cases hk : f.lo ≤ k ∧ k ≤ f.hi
    · have : k - f.lo < f.hi + 1 - f.lo := by omega
      simp [hk, this]
    · simp [hk]

/-- Within a field, the mask of an access code is set where the field has that code. -/
theorem getLsbD_accMask {fs : List FieldDesc} (hfs : FieldsOk fs) {f : FieldDesc} (hf : f ∈ fs) {k : Nat} (hlo : f.lo ≤ k) (hhi : k ≤ f.hi)
    (acc : Acc) : (accMask fs acc).getLsbD k = decide (f.acc = acc) := by
  obtain ⟨hrange, hapart⟩ := hfs
  have hmask := getLsbD_fieldMask k (fs.filter fun f => f.acc == acc) 0 fun g hg => hrange g (List.mem_of_mem_filter hg)
  rw [accMask, hmask, show BitVec.getLsbD (0 : W64) k = false from BitVec.getLsbD_zero, Bool.false_or]
  by_cases hacc : f.acc = acc
  · rw [decide_eq_true hacc, List.any_eq_true]
    exact ⟨f, List.mem_filter.mpr ⟨hf, beq_iff_eq.mpr hacc⟩, decide_eq_true ⟨hlo, hhi⟩⟩
  · rw [decide_eq_false hacc, List.any_eq_false]
    intro g hg hcov
    obtain ⟨hmem, hgacc⟩ := List.mem_filter.mp hg
    have hcov := of_decide_eq_true hcov
    rcases hapart f hf g hmem with rfl | hdis
    · exact hacc (beq_iff_eq.mp hgacc)
    · omega

theorem stagedMask_of_regFind {a i p : Nat} {d : RegDesc} (h : regFind a = some (d, i, p)) : stagedMask a = accMask d.fields .rws := by
  rw [stagedMask, h]

/-- A row whose offset lies below the commit register's, outside the CPL block, is no commit register. -/
theorem not_isCommit {a i p : Nat} {d : RegDesc} (h : regFind a = some (d, i, p)) (h7 : a / 0x100000 ≠ 7) (hoff : a % 0x100000 < 0xFFF00) :
    ¬ isCommit d := by
  obtain ⟨-, hblk, hle, -⟩ := regFind_some h
  rw [regOff, if_neg h7] at hle
  rintro (hc | ⟨hc, -⟩) <;> omega

/-! ### Field by field -/

@[simp] theorem regGet_setStaged (s : State) (x : KMap W64) (a : Nat) : regGet { s with staged := x } a = regGet s a := rfl

/-- Table 0.3: what is stored of a register after a write. -/
def written (d : RegDesc) (old c v : W64) : W64 :=
  ((old &&& ~~~(accMask d.fields .rw)) ||| (c &&& accMask d.fields .rw)) &&& ~~~(v &&& accMask d.fields .w1c) |||
    (v &&& accMask d.fields .w1s)

/-- A write of the fields stores the register and stages its RWS bits. -/
theorem writeFields_eq (s : State) (a : Nat) (d : RegDesc) (v : W64) :
    writeFields s a d v =
      { regSet s a (written d (regGet s a) (clampVal a v) v) with
        staged := if accMask d.fields .rws = 0 then s.staged
          else kset (written d (regGet s a) (clampVal a v) v &&& accMask d.fields .rws) s.staged a (v &&& accMask d.fields .rws) } := by
  simp only [writeFields, regGet_regSet_same]
  split <;> rfl

theorem regGet_writeFields_same (s : State) (a : Nat) (d : RegDesc) (v : W64) :
    regGet (writeFields s a d v) a = written d (regGet s a) (clampVal a v) v := by
  rw [writeFields_eq, regGet_setStaged, regGet_regSet_same]

theorem regGet_writeFields_ne (s : State) {a b : Nat} (d : RegDesc) (v : W64) (h : b ≠ a) : regGet (writeFields s a d v) b = regGet s b := by
  rw [writeFields_eq, regGet_setStaged, regGet_regSet_ne s _ h]

/-- A write of the fields changes registers and staged copies alone. -/
theorem writeFields_frame (s : State) (a : Nat) (d : RegDesc) (v : W64) :
    writeFields s a d v = { s with regs := (writeFields s a d v).regs, staged := (writeFields s a d v).staged } := by
  rw [writeFields_eq]; rfl

/-- The staged copy of a register just written that has RWS bits. -/
theorem stagedCopy_writeFields_same (s : State) {a : Nat} {d : RegDesc} (v : W64) (hm : stagedMask a = accMask d.fields .rws)
    (h0 : accMask d.fields .rws ≠ 0) : stagedCopy (writeFields s a d v) a = v &&& accMask d.fields .rws := by
  rw [stagedCopy, regGet_writeFields_same, hm, writeFields_eq]
  simp only [if_neg h0, kget_kset_same]

theorem stagedCopy_writeFields_ne (s : State) {a b : Nat} (d : RegDesc) (v : W64) (h : b ≠ a) :
    stagedCopy (writeFields s a d v) b = stagedCopy s b := by
  rw [stagedCopy, stagedCopy, regGet_writeFields_ne s d v h, writeFields_eq]
  by_cases h0 : accMask d.fields .rws = 0
  · simp only [if_pos h0]
  · simp only [if_neg h0, kset]
    split
    · exact kget_kdel_ne _ _ h
    · exact kget_kput_ne _ _ _ h

section
variable {d : RegDesc} {f : FieldDesc} {k : Nat} (hd : d ∈ regTable) (hf : f ∈ d.fields) (hlo : f.lo ≤ k) (hhi : k ≤ f.hi)
include hd hf hlo hhi

/-- Table 0.3: each bit of a field after a write, by the field's access code. -/
theorem getLsbD_written (old c v : W64) :
    (written d old c v).getLsbD k = bitAfter f.acc (old.getLsbD k) (c.getLsbD k) (v.getLsbD k) := by
  have hmask := getLsbD_accMask (fieldsOk_of_mem d hd) hf hlo hhi
  have h64 : k < 64 := by have := ((fieldsOk_of_mem d hd).1 f hf).2; omega
  simp only [written, BitVec.getLsbD_or, BitVec.getLsbD_and, BitVec.getLsbD_not, hmask, h64, decide_true, Bool.true_and]
  cases f.acc <;> simp [bitAfter]

/-- A register with an RWS field has RWS bits. -/
theorem accMask_rws_ne_zero (hacc : f.acc = .rws) : accMask d.fields .rws ≠ 0 := by
  intro h0
  have := getLsbD_accMask (fieldsOk_of_mem d hd) hf hlo hhi .rws
  simp [h0, hacc] at this

/-- R11: an RWS bit is written to the staged copy. -/
theorem getLsbD_stagedCopy_writeFields (s : State) {a : Nat} (v : W64) (hm : stagedMask a = accMask d.fields .rws) (hacc : f.acc = .rws) :
    (stagedCopy (writeFields s a d v) a).getLsbD k = v.getLsbD k := by
  rw [stagedCopy_writeFields_same s v hm (accMask_rws_ne_zero hd hf hlo hhi hacc), BitVec.getLsbD_and,
    getLsbD_accMask (fieldsOk_of_mem d hd) hf hlo hhi, hacc, decide_eq_true rfl, Bool.and_true]
end

/-! ### Writes of register space -/

/-- REGISTER_WRITE is a write of register space. -/
theorem exec_registerWrite (s : State) (src addr width : Nat) (v : W64) :
    exec (.registerWrite src addr width v) s = .next (regWrite s src addr width v) := rfl

/-- A write that passes its checks. -/
theorem exec_registerWrite_ok {s : State} {src addr width : Nat} {secure : Bool} {d : RegDesc} {i p : Nat} (v : W64)
    (hi : regInitiator s src = some secure) (hc : regCheck s secure true addr width = .ok (d, i, p)) :
    exec (.registerWrite src addr width v) s = .next (writeReg s src (addr - regSpace) d p v) := by
  simp only [exec_registerWrite, regWrite, hi, hc]

/-- A write that fails a check. -/
theorem exec_registerWrite_error {s : State} {src addr width : Nat} {secure : Bool} {e : RegErr} (v : W64)
    (hi : regInitiator s src = some secure) (hc : regCheck s secure true addr width = .error e) :
    exec (.registerWrite src addr width v) s = .next (accessError s src e addr) := by
  simp only [exec_registerWrite, regWrite, hi, hc]

/-- An access that passes its checks reaches the register that its offset names. -/
theorem regFind_of_regCheck {s : State} {secure write : Bool} {addr width : Nat} {d : RegDesc} {i p : Nat}
    (h : regCheck s secure write addr width = .ok (d, i, p)) : regFind (addr - regSpace) = some (d, i, p) := by
  by_cases hlow : addr < regSpace
  · simp [regCheck, hlow] at h
  · cases hfind : regFind (addr - regSpace) with
    | none => simp [regCheck, hlow, hfind] at h
    | some r =>
      obtain ⟨d', i', p'⟩ := r
      simp only [regCheck, hlow, hfind, if_false] at h
      split_ifs at h <;> rw [Except.ok.inj h]

theorem writeReg_fields (s : State) (src : Nat) {a : Nat} {d : RegDesc} (p : Nat) (v : W64) (hc : ¬ isCommit d) (hack : a ≠ 0x200020)
    (hload : a ≠ rPseqLoad) (hside : a ≠ rSideCtl) (hlane : ¬ (d.blk = 7 ∧ d.off = 8)) : writeReg s src a d p v = writeFields s a d v := by
  rw [isCommit] at hc
  simp only [writeReg, if_neg hc, if_neg hack, if_neg hload, if_neg hside, if_neg hlane]

/-- LANE_CTL: its fields, then RETEST. -/
theorem writeReg_laneCtl (s : State) (src : Nat) {a : Nat} {d : RegDesc} (p : Nat) (v : W64) (h7 : a / 0x100000 = 7) (hblk : d.blk = 7)
    (hoff : d.off = 8) : writeReg s src a d p v =
      if bits v 8 8 = 1 then retest (writeFields s a d (setBits v 8 8 0)) p else writeFields s a d (setBits v 8 8 0) := by
  have hack : a ≠ 0x200020 := by omega
  have hload : a ≠ rPseqLoad := by unfold rPseqLoad; omega
  have hside : a ≠ rSideCtl := by unfold rSideCtl; omega
  simp [writeReg, hblk, hoff, hack, hload, hside]

/-- LANE_CTL is its row's one register, in each window. -/
theorem laneCtl_row : ∀ d ∈ regTable, d.blk = 7 → d.off = 8 → d.stride = 8 ∧ d.count = 1 ∧ d.fields = [fd 8 8 .w1s 0, fd 7 0 .rws 0] := by
  decide +kernel

end Sys2Proof.Machine

/-! PROOFS. LANE_CTL and the other registers with descriptions of their own; reads of RWS fields (R11, R284). -/

namespace Sys2Proof.Machine

theorem bits_congr {v w : W64} {hi lo : Nat} (h : ∀ k, lo ≤ k → k ≤ hi → v.getLsbD k = w.getLsbD k) : bits v hi lo = bits w hi lo := by
  apply Nat.eq_of_testBit_eq
  intro j
  rw [testBit_bits, testBit_bits]
  by_cases hj : j < hi + 1 - lo
  · rw [BitVec.testBit_toNat, BitVec.testBit_toNat, h (lo + j) (by omega) (by omega)]
  · simp [hj]

/-! ### RETEST -/

theorem regGet_putSnap (s : State) (x : Snap) {b : Nat} (hb : b ≠ rSnapStat) : regGet (putSnap s x) b = regGet s b := by
  simp only [putSnap, snapFlags, regGet_regPut_ne _ _ _ _ hb]
  exact regGet_congr rfl b

theorem regGet_emptySlot (s : State) (i : Nat) {b : Nat} (hb : b ≠ rSnapSlot i) : regGet (emptySlot s i) b = regGet s b := by
  rw [emptySlot, setSlotState, syncSlot, regGet_regSet_ne _ _ hb, slotWrite, regGet_congr (storeCells_regs _ _ _)]

theorem emptySlot_staged (s : State) (i : Nat) : (emptySlot s i).staged = s.staged := by
  rw [emptySlot, setSlotState, syncSlot, regSet_staged, slotWrite, storeCells_staged]

/-- Losing a mirror writes the registers of the snapshot store alone. -/
theorem regGet_mirrorLost (s : State) (n : Nat) {b : Nat} (hb : b < 0x880000) : regGet (mirrorLost s n) b = regGet s b := by
  have hstat : b ≠ rSnapStat := by unfold rSnapStat; omega
  have hslot : ∀ i, b ≠ rSnapSlot i := fun i => by unfold rSnapSlot; omega
  unfold mirrorLost
  repeat' split
  all_goals simp only [regGet_putSnap _ _ hstat, regGet_emptySlot _ _ (hslot _)]

theorem mirrorLost_staged (s : State) (n : Nat) : (mirrorLost s n).staged = s.staged := by
  unfold mirrorLost
  repeat' split
  all_goals simp only [putSnap_staged, emptySlot_staged]

/-- A port that falls quiet writes its status alone of the registers below the snapshot store's. -/
theorem regGet_quietPort (s : State) (n st : Nat) {b : Nat} (hb : b < 0x880000) (hn : b ≠ rCplStatus n) :
    regGet (quietPort s n st) b = regGet s b := by
  simp only [quietPort, setPortSt, regGet_regPut_ne _ _ _ _ hn, regGet_congr (putLine_regs _ _ _), regGet_congr (putLink_regs _ _ _)]
  split
  · exact regGet_mirrorLost s n hb
  · rfl

theorem quietPort_staged (s : State) (n st : Nat) : (quietPort s n st).staged = s.staged := by
  simp only [quietPort, setPortSt, regPut_staged, putLine_staged, putLink_staged]
  split
  · exact mirrorLost_staged s n
  · rfl

theorem hubFrame_frame (s : State) (n phase lane : Nat) (ready : Bool) (req good : Nat) :
    (hubFrame s n phase lane ready req good).regs = s.regs ∧ (hubFrame s n phase lane ready req good).staged = s.staged := by
  rw [hubFrame, sendTrainFrame]
  generalize List.map _ _ = bytes
  exact ⟨emit_regs _ _ _ _, emit_staged _ _ _ _⟩

/-- A fold of an update that keeps a part of the state keeps it. -/
theorem foldl_keeps {α β : Type} (part : State → α) (f : State → β → State) (h : ∀ s i, part (f s i) = part s) :
    ∀ (l : List β) (s : State), part (l.foldl f s) = part s
  | [], _ => rfl
  | i :: l, s => (foldl_keeps part f h l (f s i)).trans (h s i)

theorem hubFrames_regs (s : State) (n phase good : Nat) : (hubFrames s n phase good).regs = s.regs := by
  unfold hubFrames
  exact foldl_keeps State.regs _ (fun _ _ => (hubFrame_frame _ _ _ _ _ _ _).1) _ s

theorem hubFrames_staged (s : State) (n phase good : Nat) : (hubFrames s n phase good).staged = s.staged := by
  unfold hubFrames
  exact foldl_keeps State.staged _ (fun _ _ => (hubFrame_frame _ _ _ _ _ _ _).2) _ s

theorem regGet_enterDetect (s : State) (n : Nat) {b : Nat} (hb : b < 0x880000) (hn : b ≠ rCplStatus n) :
    regGet (enterDetect s n) b = regGet s b := by
  simp only [enterDetect, regGet_congr (hubFrames_regs _ _ _ _), regGet_congr (putTraining_regs _ _ _),
    regGet_regAddSat_ne _ _ _ _ hn, regGet_quietPort s n 1 hb hn]

theorem enterDetect_staged (s : State) (n : Nat) : (enterDetect s n).staged = s.staged := by
  unfold enterDetect
  rw [hubFrames_staged, putTraining_staged, regAddSat_staged, quietPort_staged]

/-- R284: a retest changes RETEST alone of LANE_CTL and stages nothing. -/
theorem retest_laneCtl (s : State) {n : Nat} (hn : n < 10) :
    (∃ x, regGet (retest s n) (rLaneCtl n) = setBits (regGet s (rLaneCtl n)) 8 8 x) ∧ (retest s n).staged = s.staged := by
  have hlow : rLaneCtl n < 0x880000 := by unfold rLaneCtl; omega
  have hst : rLaneCtl n ≠ rCplStatus n := by unfold rLaneCtl rCplStatus; omega
  unfold retest
  split
  · exact ⟨⟨1, regGet_regPut_same _ _ _ _ _⟩, regPut_staged _ _ _ _ _⟩
  · have hreg : regGet (regPut (regPut s (rCplStatus n) 47 40 0) (rLaneCtl n) 8 8 0) (rLaneCtl n) =
        setBits (regGet s (rLaneCtl n)) 8 8 0 := by rw [regGet_regPut_same, regGet_regPut_ne _ _ _ _ hst]
    simp only [retestNow, retrain]
    split
    · exact ⟨⟨0, hreg⟩, by simp only [regPut_staged]⟩
    · exact ⟨⟨0, by rw [regGet_enterDetect _ n hlow hst, hreg]⟩, by simp only [enterDetect_staged, regPut_staged]⟩

/-! ### Reads of RWS fields -/

/-- R11: the rows with RWS fields: no commit register, none whose read adds other state. -/
theorem rws_row : ∀ d ∈ regTable, (∃ f ∈ d.fields, f.acc = .rws) →
    d.off ≠ 0xFFF00 ∧ ¬ (d.blk = 7 ∧ d.off = 0xFF00) ∧
      (d.blk = 1 ∧ d.off = 0x20 ∨ d.blk = 2 ∧ d.off = 0x20000 ∨ d.blk = 3 ∨ d.blk = 5 ∨ d.blk = 6 ∧ d.off ≠ 0x1000 ∨
        d.blk = 7 ∧ d.off ≠ 0x1100 ∨ d.blk = 13 ∧ d.off ≠ 0) := by
  decide +kernel

section
variable {a i p : Nat} {d : RegDesc} {f : FieldDesc} (hfind : regFind a = some (d, i, p)) (hf : f ∈ d.fields) (hacc : f.acc = .rws)
include hfind hf hacc

/-- A register with RWS fields reads as it is stored. -/
theorem readReg_of_rws (s : State) : readReg s a = regGet s a := by
  obtain ⟨hd, -⟩ := regFind_some hfind
  obtain ⟨hoff, hwin, hblk⟩ := rws_row d hd ⟨f, hf, hacc⟩
  rw [readReg, hfind]
  rcases hblk with ⟨h, ho⟩ | ⟨h, ho⟩ | h | h | ⟨h, ho⟩ | ⟨h, ho⟩ | ⟨h, ho⟩
  all_goals simp_all [readFlt, readPorts]

/-- A register with RWS fields is written field by field, LANE_CTL with RETEST besides. -/
theorem not_special_of_rws : ¬ isCommit d ∧ a ≠ 0x200020 ∧ a ≠ rPseqLoad ∧ a ≠ rSideCtl := by
  obtain ⟨hd, hblk, hle, -⟩ := regFind_some hfind
  obtain ⟨hoff, hwin, hrow⟩ := rws_row d hd ⟨f, hf, hacc⟩
  refine ⟨fun h => h.elim hoff hwin, ?_, ?_, ?_⟩
  · rintro rfl
    have : regOff 0x200020 = 0x20 := rfl
    omega
  · rintro rfl
    have : rPseqLoad / 0x100000 = 4 := rfl
    omega
  · rintro rfl
    have : rSideCtl / 0x100000 = 14 := rfl
    omega
end

/-! ### LANE_CTL -/

section
variable {a i p : Nat} {d : RegDesc} (hfind : regFind a = some (d, i, p)) (h7 : d.blk = 7) (h8 : d.off = 8)
include hfind h7 h8

/-- LANE_CTL of a window lies where the window says. -/
theorem laneCtl_addr : a = rLaneCtl p ∧ p < 10 := by
  obtain ⟨hd, hblk, hle, hmod, hcount, hp, hp10⟩ := regFind_some hfind
  obtain ⟨hstride, hone, -⟩ := laneCtl_row d hd h7 h8
  rw [h7] at hblk
  rw [regOff, if_pos hblk.symm] at hle hmod hcount
  rw [if_pos hblk.symm] at hp
  rw [h8, hstride] at hmod hcount
  rw [hone] at hcount
  exact ⟨by unfold rLaneCtl; omega, hp10⟩

theorem laneCtl_fields : d.fields = [fd 8 8 .w1s 0, fd 7 0 .rws 0] := (laneCtl_row d (regFind_some hfind).1 h7 h8).2.2

/-- A write of LANE_CTL without RETEST leaves its live value. -/
theorem regGet_writeFields_laneCtl (s : State) (v : W64) : regGet (writeFields s a d (setBits v 8 8 0)) a = regGet s a := by
  have hrw : accMask d.fields .rw = 0 := by rw [laneCtl_fields hfind h7 h8]; rfl
  have hw1c : accMask d.fields .w1c = 0 := by rw [laneCtl_fields hfind h7 h8]; rfl
  have hw1s : setBits v 8 8 0 &&& accMask d.fields .w1s = 0 := by
    rw [laneCtl_fields hfind h7 h8, show accMask [fd 8 8 .w1s 0, fd 7 0 .rws 0] .w1s = setBits 0 8 8 1 from rfl]
    apply BitVec.eq_of_getLsbD_eq
    intro k _
    rw [BitVec.getLsbD_and, getLsbD_setBits _ _ _ (Nat.le_refl 8) (by decide), getLsbD_setBits _ _ _ (Nat.le_refl 8) (by decide)]
    split <;> simp
  rw [regGet_writeFields_same, written, hrw, hw1c, hw1s]
  apply BitVec.eq_of_getLsbD_eq
  intro k hk
  simp only [BitVec.getLsbD_or, BitVec.getLsbD_and, BitVec.getLsbD_not, hk, show ∀ j, BitVec.getLsbD (0 : W64) j = false from
    fun _ => BitVec.getLsbD_zero, decide_true, Bool.and_false, Bool.not_false, Bool.and_true, Bool.or_false]

/-- R11: the lanes named are staged. -/
theorem stagedCopy_writeFields_laneCtl (s : State) (v : W64) {k : Nat} (hk : k < 8) :
    (stagedCopy (writeFields s a d (setBits v 8 8 0)) a).getLsbD k = v.getLsbD k := by
  obtain ⟨hd, -⟩ := regFind_some hfind
  have hf : fd 7 0 .rws 0 ∈ d.fields := by rw [laneCtl_fields hfind h7 h8]; exact .tail _ (.head _)
  rw [getLsbD_stagedCopy_writeFields hd hf (Nat.zero_le k) (Nat.le_of_lt_succ hk) s _ (stagedMask_of_regFind hfind) rfl,
    getLsbD_setBits _ _ _ (Nat.le_refl 8) (by decide), if_neg (by omega)]

theorem stagedMask_laneCtl : stagedMask a = setBits 0 7 0 0xFF := by
  rw [stagedMask_of_regFind hfind, laneCtl_fields hfind h7 h8]
  rfl

/-- A retest leaves the staged copy of its LANE_CTL. -/
theorem stagedCopy_retest (u : State) : stagedCopy (retest u p) a = stagedCopy u a := by
  obtain ⟨ha, hp⟩ := laneCtl_addr hfind h7 h8
  obtain ⟨⟨x, hx⟩, hstaged⟩ := retest_laneCtl u hp
  have hlive : regGet (retest u p) a &&& stagedMask a = regGet u a &&& stagedMask a := by
    rw [stagedMask_laneCtl hfind h7 h8, ha, hx]
    apply BitVec.eq_of_getLsbD_eq
    intro k _
    rw [BitVec.getLsbD_and, BitVec.getLsbD_and, getLsbD_setBits _ _ _ (Nat.le_refl 8) (by decide),
      getLsbD_setBits 0 _ _ (Nat.zero_le 7) (by decide)]
    by_cases hk : k = 8
    · subst hk; simp
    · rw [if_neg (by omega)]
  rw [stagedCopy, stagedCopy, hlive, hstaged]

/-- R11: a write of LANE_CTL leaves DISABLE live as it was and stages what it names, with RETEST or without. -/
theorem laneCtl_written (s : State) (src : Nat) (v : W64) :
    regBits (writeReg s src a d p v) a 7 0 = regBits s a 7 0 ∧ bits (stagedCopy (writeReg s src a d p v) a) 7 0 = bits v 7 0 := by
  obtain ⟨ha, hp⟩ := laneCtl_addr hfind h7 h8
  have hlive := regGet_writeFields_laneCtl hfind h7 h8 s v
  have hstaged : bits (stagedCopy (writeFields s a d (setBits v 8 8 0)) a) 7 0 = bits v 7 0 :=
    bits_congr fun k _ hk => stagedCopy_writeFields_laneCtl hfind h7 h8 s v (by omega)
  rw [writeReg_laneCtl s src p v (by rw [← (regFind_some hfind).2.1, h7]) h7 h8]
  split
  · obtain ⟨⟨x, hx⟩, -⟩ := retest_laneCtl (writeFields s a d (setBits v 8 8 0)) hp
    rw [← ha, hlive] at hx
    refine ⟨?_, by rw [stagedCopy_retest hfind h7 h8, hstaged]⟩
    rw [regBits, hx, bits_setBits_ne _ _ (Nat.le_refl 8) (by decide) (.inl (by decide)), regBits]
  · exact ⟨by rw [regBits, hlive, regBits], hstaged⟩
end

/-! ### The registers with descriptions of their own -/

theorem writeReg_fltAck (s : State) (src : Nat) {d : RegDesc} (p : Nat) (v : W64) (hc : ¬ isCommit d) :
    writeReg s src 0x200020 d p v = ackWrite s v := by
  rw [isCommit] at hc
  rw [writeReg, if_neg hc, if_pos rfl]

theorem writeReg_pseqLoad (s : State) (src : Nat) {d : RegDesc} (p : Nat) (v : W64) (hc : ¬ isCommit d) :
    writeReg s src rPseqLoad d p v = pealLoadWrite s v := by
  rw [isCommit] at hc
  rw [writeReg, if_neg hc, if_neg (by decide), if_pos rfl]

theorem writeReg_sideCtl (s : State) (src : Nat) {d : RegDesc} (p : Nat) (v : W64) (hc : ¬ isCommit d) :
    writeReg s src rSideCtl d p v = sideCtlWrite s v := by
  rw [isCommit] at hc
  rw [writeReg, if_neg hc, if_neg (by decide), if_neg (by decide), if_pos rfl]

end Sys2Proof.Machine

/-! PROOFS. The obligations about registers and the domains that hold them (R11 to R14, R498, R499). -/

namespace Sys2Proof.Machine

/-- Settles O52: the fields by their access codes (`getLsbD_written`), LANE_CTL by its two fields, a refused write by the check that
refuses it. -/
theorem registerWrites : Obligations.RegisterWrites := by
  refine ⟨fun s src addr width v secure d i p hi hc => ?_, fun s src addr width v secure hi =>
    ⟨exec_registerWrite_error v hi, exec_registerWrite_error v hi, exec_registerWrite_error v hi⟩⟩
  have hfind := regFind_of_regCheck hc
  obtain ⟨hd, hblk, -⟩ := regFind_some hfind
  have hm := stagedMask_of_regFind hfind
  rw [exec_registerWrite_ok v hi hc]
  intro a
  refine ⟨fun hcommit hack hload hside hlane => ?_, fun ha => ?_, fun ha => ?_, fun ha => ?_, fun h7 h8 => ?_⟩
  · rw [writeReg_fields s src p v hcommit hack hload hside hlane]
    refine ⟨_, rfl, fun f hf k hlo hhi => ⟨?_, fun hacc => getLsbD_stagedCopy_writeFields hd hf hlo hhi s v hm hacc⟩, fun b hb =>
      ⟨regGet_writeFields_ne s d v hb, stagedCopy_writeFields_ne s d v hb⟩, writeFields_frame s _ d v⟩
    rw [regGet_writeFields_same, getLsbD_written hd hf hlo hhi]
  · rw [show addr - regSpace = 0x200020 from ha] at hfind ⊢
    rw [writeReg_fltAck s src p v (not_isCommit hfind (by decide) (by decide))]
  · rw [show addr - regSpace = rPseqLoad from ha] at hfind ⊢
    rw [writeReg_pseqLoad s src p v (not_isCommit hfind (by decide) (by decide))]
  · rw [show addr - regSpace = rSideCtl from ha] at hfind ⊢
    rw [writeReg_sideCtl s src p v (not_isCommit hfind (by decide) (by decide))]
  · rw [writeReg_laneCtl s src p v (by rw [← hblk, h7]) h7 h8]
    refine ⟨writeFields s a d (setBits v 8 8 0), rfl, regGet_writeFields_laneCtl hfind h7 h8 s v, fun k hk =>
      stagedCopy_writeFields_laneCtl hfind h7 h8 s v hk, fun b hb => regGet_writeFields_ne s d _ hb, writeFields_frame s _ d _⟩

/-- Settles O53: what is read is what is stored (`readReg_of_rws`), and a write of the fields stores an RWS bit in the staged copy
alone; LANE_CTL's RETEST keeps both. -/
theorem stagedCopies : Obligations.StagedCopies := by
  intro s a i p d f hfind hf hacc
  obtain ⟨hd, -⟩ := regFind_some hfind
  have hread := readReg_of_rws hfind hf hacc
  refine ⟨by rw [hread, regBits], fun x => by rw [hread, hread]; rfl, fun src width v secure hi hc => ?_⟩
  obtain ⟨hcommit, hack, hload, hside⟩ := not_special_of_rws hfind hf hacc
  refine ⟨writeReg s src a d p v, by rw [exec_registerWrite_ok v hi hc, Nat.add_sub_cancel_left], ?_⟩
  by_cases hlane : d.blk = 7 ∧ d.off = 8
  · have hfd : f = fd 7 0 .rws 0 := by
      rw [laneCtl_fields hfind hlane.1 hlane.2] at hf
      rcases List.mem_pair.mp hf with rfl | rfl
      · cases hacc
      · rfl
    rw [hfd]
    exact laneCtl_written hfind hlane.1 hlane.2 s src v
  · rw [writeReg_fields s src p v hcommit hack hload hside hlane]
    refine ⟨bits_congr fun k hlo hhi => ?_, bits_congr fun k hlo hhi =>
      getLsbD_stagedCopy_writeFields hd hf hlo hhi s v (stagedMask_of_regFind hfind) hacc⟩
    rw [regGet_writeFields_same, getLsbD_written hd hf hlo hhi, hacc, bitAfter]

/-! ### Accesses while the main domain is down -/

/-- R14: while the main domain is down no register of a domain other than the standby one answers. -/
theorem regUp_of_down {s : State} {d : RegDesc} (hdom : d.dom ≠ .stby) (hmain : s.mainDom ≠ .up) : regUp s d = false := by
  have hdown : domUp s d.dom = false := by
    cases h : d.dom with
    | stby => exact absurd h hdom
    | mpwr | main => simpa [domUp] using hmain
  rw [regUp, hdown, Bool.false_and, Bool.false_and]

/-- The rows of the standby domain lie outside the blocks that recovery and the ring configuration hold back. -/
theorem standby_row : ∀ d ∈ regTable, d.dom = .stby → d.blk ≠ 6 ∧ d.blk ≠ 10 := by decide +kernel

theorem regUp_standby {s : State} {d : RegDesc} (hd : d ∈ regTable) (hdom : d.dom = .stby) (hstby : s.stbyDom = .up) : regUp s d = true := by
  obtain ⟨h6, h10⟩ := standby_row d hd hdom
  simp [regUp, domUp, hdom, hstby, h6, h10]

/-- The check of an access of the register's own width reaches the domain's answer. -/
theorem regCheck_width {s : State} {secure write : Bool} {addr i p : Nat} {d : RegDesc} (hlow : regSpace ≤ addr)
    (hfind : regFind (addr - regSpace) = some (d, i, p)) :
    regCheck s secure write addr (if d.w32 then 4 else 8) =
      if !regUp s d then .error .domain else if !regWorldOk s d p secure write then .error .world else .ok (d, i, p) := by
  simp only [regCheck, if_neg (Nat.not_lt.mpr hlow), hfind, ne_eq, not_true_eq_false, if_false]

theorem regInitiator_sctl (s : State) : regInitiator s srcSctl = some true := by
  simp [regInitiator, srcSctl]

/-- R498: with the main domain down no guard runs, and the standby controller alone writes. -/
theorem regInitiator_of_down {s : State} {src : Nat} (hsrc : src ≠ srcSctl) (hmain : s.mainDom ≠ .up) : regInitiator s src = none := by
  simp [regInitiator, hsrc, hmain]

theorem exec_registerWrite_none {s : State} {src : Nat} (addr width : Nat) (v : W64) (hi : regInitiator s src = none) :
    exec (.registerWrite src addr width v) s = .next s := by
  simp only [exec_registerWrite, regWrite, hi]

/-- Settles O55, by the domain's answer (`regUp_of_down`, `regUp_standby`) in the check of the access. -/
theorem accessesWhileTheMainDomainIsDown : Obligations.AccessesWhileTheMainDomainIsDown := by
  intro s addr i p d hlow hfind
  refine ⟨fun hdom hmain => ?_, fun hdom hstby => ?_⟩
  · have hdown := regUp_of_down hdom hmain
    have hdomain : ∀ secure write, regCheck s secure write addr (if d.w32 then 4 else 8) = .error .domain := fun secure write => by
      rw [regCheck_width hlow hfind, hdown]; rfl
    refine ⟨fun secure write width => ?_, fun v => exec_registerWrite_error v (regInitiator_sctl s) (hdomain true true), fun src v hsrc =>
      exec_registerWrite_none addr _ v (regInitiator_of_down hsrc hmain)⟩
    by_cases hwidth : width = if d.w32 then 4 else 8
    · exact ⟨.domain, by rw [hwidth, hdomain]⟩
    · exact ⟨.shape, by simp only [regCheck, if_neg (Nat.not_lt.mpr hlow), hfind, ne_eq, hwidth, not_false_eq_true, if_true]⟩
  · have hok : ∀ write, regCheck s true write addr (if d.w32 then 4 else 8) = .ok (d, i, p) := fun write => by
      rw [regCheck_width hlow hfind, regUp_standby (regFind_some hfind).1 hdom hstby]; rfl
    exact ⟨hok, fun v => exec_registerWrite_ok v (regInitiator_sctl s) (hok true)⟩

/-! ### After reset -/

/-- Where nothing is staged the staged copies are the live ones. -/
theorem stagedCopy_of_nil {s : State} (h : s.staged = []) (a : Nat) : stagedCopy s a = regGet s a &&& stagedMask a := by
  rw [stagedCopy, h, kget]

/-- Settles O58, by the laws of the state after reset. -/
theorem resetIsSound : Obligations.ResetIsSound :=
  ⟨reset_memSound, regGet_reset, fun a => by rw [stagedCopy_of_nil rfl, regGet_reset], rfl, rfl, fun _ => rfl⟩

end Sys2Proof.Machine

/-! PROOFS. Resets and start: a state in which a lost supply does not show (R227, R476). -/

namespace Sys2Proof.Machine

/-! ### A supply lost while a take is under way -/

/-- R476: with both supplies in range and the effective order on, a supply out of range is taken as the order off. -/
theorem exec_supplyOutOfRange_on {s : State} {i : Nat} (mv : Nat) (hi : i < 2) (hstby : s.stbyDom = .up) (hok : supplyOk s = true)
    (hon : orderOn s = true) : exec (.supplyOutOfRange i mv) s = .next (seqWentOff (setSupply s i mv true)) := by
  have hact : ¬ (2 ≤ i ∨ s.stbyDom ≠ .up) := by simp [hstby]; omega
  have hwas : (supplyOk s && orderOn s) = true := by rw [hok, hon, Bool.and_self]
  show execSupplyOutOfRange i mv s = _
  rw [execSupplyOutOfRange, if_neg hact]
  exact congrArg Host.Outcome.next (if_pos hwas)

/-- A take whose slot number is none of the store's three (R227): the register `rSnapSlot` of that slot has the offset of `rSupply`. -/
def strayTake : Take :=
  { origin := .ring 0, raw := [], gen := 0, slot := 0xB003F, parts := [], last := [], fits := false, cut := true, got := [], sent := [],
    granted := [] }

/-- The standby domain up, a job with that take under way, and generation 1 where the record of its slot is read. -/
def strayState : State :=
  { State.reset with
    stbyDom := .up
    mem := [(8, 1)]
    host := { HostSt.init with job := some { id := 0, seed := 0, firstBeat := 0, ports := 0 } }
    snap := { Snap.init with take := some strayTake } }

/-- The end of the job empties the take's slot, whose register then holds its generation: bit 0 of SIDE_SUPPLY is set again. -/
theorem strayState_supply : regBits (seqWentOff (setSupply strayState 0 0 true)) rSupply 0 0 = 1 := by decide +kernel

/-- Refutes O45: its clause on a supply out of range asks of every state that the supply's bit reads 0 afterwards. The order that goes
off with the supply ends the job, and the end of the job writes the register of the take's slot; nothing in the clause holds that slot
to the store's three, and in `strayState` that register is the supply's own. -/
theorem not_resetsAndStart : ¬ Obligations.ResetsAndStart := by
  rintro ⟨-, -, -, -, hsupply, -⟩
  obtain ⟨⟨t, hexec, hclear, -⟩, -⟩ := hsupply strayState 0 0 (by decide) rfl
  rw [exec_supplyOutOfRange_on 0 (by decide) rfl rfl rfl] at hexec
  obtain rfl := Host.Outcome.next.inj hexec
  rw [strayState_supply] at hclear
  exact absurd hclear (by decide)

end Sys2Proof.Machine

/-! PROOFS. Snapshots: what sends, posts and writes of the store leave as they were; takes, drains and imports (R232 to R243). -/

namespace Sys2Proof.Machine

/-! ### What sends and posts leave as they were -/

/-- What goes out over ports and connections: of the state it changes the ports, the connections and what the hub has sent. -/
def Sends (s t : State) : Prop := ∃ ports outbox conns, t = { s with ports := ports, outbox := outbox, host := { s.host with conns := conns } }

/-- What goes out, and what is stored in memory or posted to rings: memory and the rings' indices and entries change too. -/
def Posts (s t : State) : Prop := ∃ mem poison ports outbox conns prod waiting ext bodies,
  t = { s with mem := mem, poison := poison, ports := ports, outbox := outbox,
               host := { s.host with conns := conns, prod := prod, waiting := waiting, ext := ext, bodies := bodies } }

theorem Sends.refl (s : State) : Sends s s := ⟨_, _, _, rfl⟩

theorem Sends.trans {s t u : State} (hst : Sends s t) (htu : Sends t u) : Sends s u := by
  obtain ⟨_, _, _, rfl⟩ := hst
  obtain ⟨_, _, _, rfl⟩ := htu
  exact ⟨_, _, _, rfl⟩

theorem Sends.foldl {α : Type} {f : State → α → State} (h : ∀ s a, Sends s (f s a)) (l : List α) (s : State) : Sends s (l.foldl f s) :=
  List.foldlRecOn l f (Sends.refl s) fun t ht a _ => ht.trans (h t a)

theorem Sends.snap {s t : State} (h : Sends s t) : t.snap = s.snap := by obtain ⟨_, _, _, rfl⟩ := h; rfl
theorem Sends.mem {s t : State} (h : Sends s t) : t.mem = s.mem := by obtain ⟨_, _, _, rfl⟩ := h; rfl
theorem Sends.regs {s t : State} (h : Sends s t) : t.regs = s.regs := by obtain ⟨_, _, _, rfl⟩ := h; rfl
theorem Sends.consist {s t : State} (h : Sends s t) : t.consist = s.consist := by obtain ⟨_, _, _, rfl⟩ := h; rfl
theorem Sends.heldEnd {s t : State} (h : Sends s t) : t.host.heldEnd = s.host.heldEnd := by obtain ⟨_, _, _, rfl⟩ := h; rfl

theorem Posts.refl (s : State) : Posts s s := ⟨_, _, _, _, _, _, _, _, _, rfl⟩

theorem Posts.trans {s t u : State} (hst : Posts s t) (htu : Posts t u) : Posts s u := by
  obtain ⟨_, _, _, _, _, _, _, _, _, rfl⟩ := hst
  obtain ⟨_, _, _, _, _, _, _, _, _, rfl⟩ := htu
  exact ⟨_, _, _, _, _, _, _, _, _, rfl⟩

theorem Posts.foldl {α : Type} {f : State → α → State} (h : ∀ s a, Posts s (f s a)) (l : List α) (s : State) : Posts s (l.foldl f s) :=
  List.foldlRecOn l f (Posts.refl s) fun t ht a _ => ht.trans (h t a)

theorem Sends.posts {s t : State} (h : Sends s t) : Posts s t := by
  obtain ⟨_, _, _, rfl⟩ := h
  exact ⟨_, _, _, _, _, _, _, _, _, rfl⟩

theorem Posts.snap {s t : State} (h : Posts s t) : t.snap = s.snap := by obtain ⟨_, _, _, _, _, _, _, _, _, rfl⟩ := h; rfl
theorem Posts.drum {s t : State} (h : Posts s t) : t.drum = s.drum := by obtain ⟨_, _, _, _, _, _, _, _, _, rfl⟩ := h; rfl
theorem Posts.heldEnd {s t : State} (h : Posts s t) : t.host.heldEnd = s.host.heldEnd := by
  obtain ⟨_, _, _, _, _, _, _, _, _, rfl⟩ := h; rfl

/-! ### What sends -/

theorem putLink_sends (s : State) (n : Nat) (l : Link) : Sends s (putLink s n l) := ⟨_, _, _, rfl⟩
theorem putLine_sends (s : State) (n : Nat) (l : Line) : Sends s (putLine s n l) := ⟨_, _, _, rfl⟩
theorem emit_sends (s : State) (k : OutKind) (args : List Nat) (data : List Byte) : Sends s (emit s k args data) := ⟨_, _, _, rfl⟩

theorem lineOut_sends (s : State) (n : Nat) : Sends s (lineOut s n) := by
  simp only [lineOut]
  split
  · exact Sends.refl s
  · exact ⟨_, _, _, rfl⟩

theorem sendFrame_sends (s : State) (n word : Nat) (flits : List (List Byte)) : Sends s (sendFrame s n word flits) :=
  ((emit_sends s _ _ _).trans (putLine_sends _ _ _)).trans (lineOut_sends _ _)

theorem sendFrames_sends (n : Nat) (l : Link) (replay : Bool) (fseq : Nat) :
    ∀ (k : Nat) (fs : List (Option Nat × List Byte)) (s : State), Sends s (sendFrames n l replay fseq k fs s)
  | 0, _, s => Sends.refl s
  | k + 1, fs, s => by
    simp only [sendFrames]
    split
    · exact sendFrame_sends _ _ _ _
    · exact (sendFrame_sends _ _ _ _).trans (sendFrames_sends n l replay fseq k _ _)

theorem sendLinkWord_sends (s : State) (n : Nat) (replay : Bool) (fseq : Nat) : Sends s (sendLinkWord s n replay fseq) :=
  ((putLine_sends s _ _).trans (putLink_sends _ _ _)).trans (sendFrames_sends _ _ _ _ _ _ _)

theorem lineFlit_sends (s : State) (n : Nat) (seq : Option Nat) (bytes : List Byte) : Sends s (lineFlit s n seq bytes) := by
  simp only [lineFlit]
  split
  · exact (putLine_sends _ _ _).trans (sendLinkWord_sends _ _ _ _)
  · exact putLine_sends _ _ _

theorem putFlit_sends (s : State) (n vc : Nat) (o : Out) : Sends s (putFlit s n vc o) :=
  Sends.trans ⟨_, _, _, rfl⟩ (lineFlit_sends _ _ _ _)

theorem pumpList_sends (n : Nat) : ∀ (l : List (Nat × Out)) (blocked : List Nat) (s : State), Sends s (pumpList s n l blocked)
  | [], _, s => Sends.refl s
  | (vc, o) :: l, blocked, s => by
    rw [pumpList]
    split
    · exact (putLink_sends _ _ _).trans (pumpList_sends n l _ _)
    · exact (putFlit_sends _ _ _ _).trans (pumpList_sends n l _ _)

theorem sendTagged_sends (s : State) (n kind vc low : Nat) (payload : List Byte) (tag : List Nat) :
    Sends s (sendTagged s n kind vc low payload tag) := by
  rw [sendTagged]
  split
  · exact ((putLink_sends _ _ _).trans (putLink_sends _ _ _)).trans (pumpList_sends _ _ _ _)
  · exact Sends.refl s

theorem sendFlit_sends (s : State) (n kind vc low : Nat) (payload : List Byte) : Sends s (sendFlit s n kind vc low payload) :=
  sendTagged_sends _ _ _ _ _ _ _

theorem sendCtl_sends (s : State) (n code : Nat) (fields : List (Nat × Nat)) : Sends s (sendCtl s n code fields) :=
  sendFlit_sends _ _ _ _ _ _

theorem tellAll_sends (s : State) (ns : List Nat) (code : Nat) (fields : List (Nat × Nat)) : Sends s (tellAll s ns code fields) :=
  Sends.foldl (fun _ _ => sendCtl_sends _ _ _ _) _ _

theorem dropMirror_sends (s : State) : Sends s (dropMirror s) := putLink_sends _ _ _

theorem rdmaOut_sends (s : State) (k : Nat) (o : Out) : Sends s (rdmaOut s k o) := by
  simp only [rdmaOut]
  split
  · exact Sends.refl s
  · split <;> exact ⟨_, _, _, rfl⟩

theorem rdmaSend_sends (s : State) (conn addr key : Nat) (data : List Byte) (drain : Option Nat) :
    Sends s (rdmaSend s conn addr key data drain) := by
  simp only [rdmaSend]
  split
  · exact Sends.refl s
  · exact Sends.trans ⟨_, _, _, rfl⟩ (rdmaOut_sends _ _ _)

theorem notifyWord_sends (s : State) (r : Nat) : Sends s (notifyWord s r) := by
  rw [notifyWord]
  split
  · split
    · exact rdmaSend_sends _ _ _ _ _ _
    · exact Sends.refl s
  · exact Sends.refl s

/-! ### What posts -/

theorem storeCells_posts (s : State) (cells : List (Nat × Byte)) (pois : List Nat) : Posts s (storeCells s cells pois) :=
  ⟨_, _, _, _, _, _, _, _, _, rfl⟩

theorem slotWrite_posts (s : State) (i off : Nat) (bs : List Byte) (pois : List Nat) : Posts s (slotWrite s i off bs pois) :=
  storeCells_posts _ _ _

theorem setProd_posts (s : State) (q : Nat) (v : W32) : Posts s (setProd s q v) := ⟨_, _, _, _, _, _, _, _, _, rfl⟩

theorem placeBody_posts (s : State) (q i : Nat) (m : List Byte) : Posts s (placeBody s q i m).1 := by
  simp only [placeBody]
  split
  · exact Posts.refl s
  · exact ⟨_, _, _, _, _, _, _, _, _, rfl⟩

theorem putEntry_posts (s : State) (q : Nat) (m : List Byte) : Posts s (putEntry s q m) := by
  simp only [putEntry]
  refine (placeBody_posts s q (getProd s q).toNat m).trans ?_
  split
  · exact (((storeCells_posts _ _ _).trans (setProd_posts _ _ _)).trans (emit_sends _ _ _ _).posts).trans (notifyWord_sends _ _).posts
  · exact (setProd_posts _ _ _).trans (sendFlit_sends _ _ _ _ _ _).posts

theorem postEntry_posts (s : State) (q : Nat) (e : List Byte) : Posts s (postEntry s q e) := by
  simp only [postEntry]
  split
  · exact putEntry_posts _ _ _
  · exact ⟨_, _, _, _, _, _, _, _, _, rfl⟩

theorem snapEntry_posts (s : State) (o : Origin) (r : List Byte) (status fld source gen cut bytes user : Nat) :
    Posts s (snapEntry s o r status fld source gen cut bytes user) := postEntry_posts _ _ _

/-! ### What is taken from a port -/

/-- R289: a sequenced flit that is accepted changes its link alone. -/
theorem acceptSeq_sends {s u : State} {f : Flit} (h : acceptSeq s f = (u, true)) : Sends s u := by
  simp only [acceptSeq] at h
  split at h
  · cases h
  · split at h
    · cases h
    · split at h
      · cases h
      · split at h
        · split at h <;> cases h
          exact putLink_sends _ _ _
        · split at h <;> cases h

theorem takeFlit_sends {s u : State} {f : Flit} {kind vc : Nat} {ok : Bool} (h : takeFlit s f kind vc ok = (u, true)) : Sends s u := by
  simp only [takeFlit] at h
  split at h
  · split at h
    · next ha =>
      split at h <;> cases h
      exact (acceptSeq_sends (Prod.ext rfl ha)).trans (putLink_sends _ _ _)
    · cases h
  · cases h

theorem takeCtlFlit_sends {s u : State} {c : Ctl} (h : takeCtlFlit s c = (u, true)) : Sends s u := by
  simp only [takeCtlFlit] at h
  split at h
  · split at h
    · next ha =>
      cases h
      exact (takeFlit_sends (Prod.ext rfl ha)).trans (putLink_sends _ _ _)
    · cases h
  · split at h <;> cases h
    exact putLink_sends _ _ _

/-- R297: a control message that is acted on came in its direction. -/
theorem takeCtl_accepted {s u : State} {c : Ctl} {code : Nat} {dir : Bool} (h : takeCtl s c code dir = (u, true)) :
    dir = true ∧ Sends s u := by
  simp only [takeCtl] at h
  split_ifs at h with _ ha hgood <;> simp only [Prod.mk.injEq, reduceCtorEq, and_false, and_true] at h
  obtain ⟨-, -, hdir, -⟩ := hgood
  exact ⟨hdir, takeCtlFlit_sends (Prod.ext h ha)⟩

/-! ### The snapshot store -/

/-- Two states in which every byte of the store reads the same: the same memory, regions, mode and slot size (R227). -/
structure SameStore (s t : State) : Prop where
  mem : t.mem = s.mem
  consist : t.consist = s.consist
  top : memTop t = memTop s
  mode : snapMode t = snapMode s
  units : slotUnits t = slotUnits s

theorem SameStore.refl (s : State) : SameStore s s := ⟨rfl, rfl, rfl, rfl, rfl⟩

theorem SameStore.trans {s t u : State} (hst : SameStore s t) (htu : SameStore t u) : SameStore s u :=
  ⟨htu.mem.trans hst.mem, htu.consist.trans hst.consist, htu.top.trans hst.top, htu.mode.trans hst.mode, htu.units.trans hst.units⟩

theorem Sends.sameStore {s t : State} (h : Sends s t) : SameStore s t :=
  ⟨h.mem, h.consist, by rw [memTop, memTop, regBits_congr h.regs], regBits_congr h.regs _ _ _, regBits_congr h.regs _ _ _⟩

/-- MODE and the slot size are no bits of the service's flags. -/
theorem regBits_putSnap (s : State) (x : Snap) {hi lo : Nat} (h : hi < 55 ∨ 59 < lo) :
    regBits (putSnap s x) rSnapStat hi lo = regBits s rSnapStat hi lo := by
  simp only [putSnap, snapFlags]
  repeat rw [regBits_regPut_apart _ _ _ (Nat.le_refl _) (by decide) (by omega)]
  exact regBits_congr rfl _ _ _

theorem putSnap_sameStore (s : State) (x : Snap) : SameStore s (putSnap s x) :=
  ⟨putSnap_mem s x, putSnap_consist s x, by rw [memTop, memTop, regBits, regGet_putSnap s x (by decide), regBits],
    regBits_putSnap s x (by decide), regBits_putSnap s x (by decide)⟩

theorem SameStore.slotVal {s t : State} (h : SameStore s t) : slotVal t = slotVal s := by
  funext i off n
  simp only [Machine.slotVal, slotRead, memByte, slotAddr, snapRegions, effRegions, h.mem, h.consist, h.top, h.units]

theorem SameStore.slotState {s t : State} (h : SameStore s t) : slotState t = slotState s :=
  funext fun i => congrFun (congrFun (congrFun h.slotVal i) 0x10) 1

theorem SameStore.slotGen {s t : State} (h : SameStore s t) : slotGen t = slotGen s :=
  funext fun i => congrFun (congrFun (congrFun h.slotVal i) 8) 8

theorem SameStore.nextGen {s t : State} (h : SameStore s t) (hpeer : t.snap.peerGen = s.snap.peerGen) : nextGen t = nextGen s := by
  rw [Machine.nextGen, Machine.nextGen, h.mode, h.slotState, h.slotGen, hpeer]

theorem SameStore.slotCommitted {s t : State} (h : SameStore s t) (himp : t.snap.importing = s.snap.importing) :
    slotCommitted t = slotCommitted s := by
  funext i
  rw [Machine.slotCommitted, Machine.slotCommitted, h.slotState, himp]

theorem SameStore.targetSlot {s t : State} (h : SameStore s t) (himp : t.snap.importing = s.snap.importing) :
    targetSlot t = targetSlot s := by
  rw [Machine.targetSlot, Machine.targetSlot, newestLocal, newestLocal, localSlots, localSlots, h.mode, h.slotCommitted himp, h.slotGen]

theorem setSlotState_snap (s : State) (i st : Nat) : (setSlotState s i st).snap = s.snap := by
  rw [setSlotState, syncSlot, regSet_snap, (slotWrite_posts _ _ _ _ _).snap]

theorem setSlotState_drum (s : State) (i st : Nat) : (setSlotState s i st).drum = s.drum := by
  rw [setSlotState, syncSlot, regSet_drum, (slotWrite_posts _ _ _ _ _).drum]

theorem setSlotState_heldEnd (s : State) (i st : Nat) : (setSlotState s i st).host.heldEnd = s.host.heldEnd := by
  rw [setSlotState, syncSlot, regSet_host, (slotWrite_posts _ _ _ _ _).heldEnd]

/-! ### Commands -/

section
variable {s : State} {r : Nat} {raw : List Byte} (h : postsSnap s r raw = true)
include h

theorem snapCommand_of_postsSnap : snapCommand s (.ring r) raw true = acceptSnap s (.ring r) raw := by
  simp only [postsSnap, Bool.and_eq_true, decide_eq_true_eq, Bool.not_eq_true'] at h
  obtain ⟨⟨⟨⟨⟨⟨⟨⟨hlen, hring⟩, heven⟩, hguard⟩, -⟩, -⟩, -⟩, -⟩, hwait⟩ := h
  simp only [snapCommand, hlen, hring, heven, hwait, decide_true, Bool.and_self, and_self, if_true, takeSnapCmd, hguard]

/-- R232: a command that passes its checks is acted on, a TAKE with a job running, a RESTORE and an IMPORT with none. -/
theorem acceptSnap_of_postsSnap (o : Origin) (hjob : snCmd raw = 1 → s.host.job.isSome = true)
    (hidle : snCmd raw = 2 ∨ snCmd raw = 4 → s.host.job = none) :
    acceptSnap s o raw =
      if snCmd raw = 1 then beginTake s o raw else if snCmd raw = 2 then beginRestore s o raw
      else if snCmd raw = 3 then beginDrain s o raw else if snFlag raw 0 then openImport s o raw else checkImport s o raw := by
  simp only [postsSnap, Bool.and_eq_true, decide_eq_true_eq, Bool.not_eq_true'] at h
  obtain ⟨⟨⟨⟨-, hmode⟩, hchecks⟩, htake⟩, hrest⟩ := h.1
  have hbusy : ¬ (snCmd raw ≠ 3 ∧ (s.snap.take.isSome || s.snap.restore.isSome) = true) := by
    simp [Option.isNone_iff_eq_none.mp htake, Option.isNone_iff_eq_none.mp hrest]
  have hnojob : ¬ (snCmd raw = 1 ∧ s.host.job.isNone = true) := fun ⟨hc, hn⟩ => by
    simpa [Option.isNone_iff_eq_none.mp hn] using hjob hc
  have hnobusy : ¬ ((snCmd raw = 2 ∨ snCmd raw = 4) ∧ s.host.job.isSome = true) := fun ⟨hc, hs⟩ => by simp [hidle hc] at hs
  simp only [acceptSnap, if_neg hmode, if_neg hnojob, hchecks, if_neg hbusy, if_neg hnobusy]
end

/-- R24, R343: while an entry of the service waits for room, no command is taken. -/
theorem snapCommand_of_svcWaits {s : State} (h : svcWaits s 9 = true) (src : Origin) (raw : List Byte) (ok : Bool) :
    snapCommand s src raw ok = s := by
  simp only [snapCommand, h, reduceCtorEq, and_false, if_false]

/-- R239: no JOB_END is held, and none is released. -/
theorem releaseHeldEnd_of_none {s : State} (h : s.host.heldEnd = none) : releaseHeldEnd s = s := by
  rw [releaseHeldEnd, h]; rfl

/-! ### Takes -/

/-- R234, R235: the take that a TAKE begins. -/
def newTake (s : State) (o : Origin) (raw : List Byte) : Take :=
  { origin := o, raw := raw, gen := nextGen s, slot := targetSlot s, parts := [], last := [], fits := false, cut := false, got := [],
    sent := [], granted := [] }

/-- R238: the state that a take begins in: a mirror still owed is given up. -/
def takeBase (s : State) : State := if mirrorOwed s then dropMirror (putSnap s { s.snap with mirOut := none }) else s

theorem takeBase_snap (s : State) : (takeBase s).snap = { s.snap with mirOut := (takeBase s).snap.mirOut } := by
  rw [takeBase]
  split
  · rw [(dropMirror_sends _).snap, putSnap_snap]
  · rfl

theorem takeBase_sameStore (s : State) : SameStore s (takeBase s) := by
  rw [takeBase]
  split
  · exact (putSnap_sameStore s _).trans (dropMirror_sends _).sameStore
  · exact SameStore.refl s

/-- A TAKE with members whose mirror conditions hold. -/
theorem beginTake_eq {s : State} {raw : List Byte} (o : Origin)
    (hmode : snapMode s = 1 ∨ (snapMode s = 2 ∧ mirrorReady s = true ∧ (mirrorOwed s = false ∨ snFlag raw 0 = true)))
    (hcut : s.drum.count.toNat + 2500 ≤ snCut raw) (hmem : snMembers raw ≠ 0) :
    beginTake s o raw =
      tellAll (putSnap (takeBase s) { (takeBase s).snap with take := some (newTake (takeBase s) o raw) }) (portsOf (snMembers raw)) 0x30
        [(4, nextGen (takeBase s) % 2 ^ 32), (8, snCut raw)] := by
  have howed : ¬ (mirrorOwed s = true ∧ snFlag raw 0 = false) := by
    rcases hmode with h1 | ⟨-, -, h | h⟩
    · simp [mirrorOwed, h1]
    · simp [h]
    · simp [h]
  have hready : ¬ (snapMode s = 2 ∧ ¬ mirrorReady s = true) := by
    rcases hmode with h1 | ⟨-, h, -⟩
    · simp [h1]
    · simp [h]
  simp only [beginTake, if_neg (Nat.not_lt.mpr hcut), if_neg howed, if_neg hready, if_neg hmem]
  rfl

/-- A TAKE that begins is under way with the next generation, and memory is as it was. -/
theorem beginTake_under_way {s : State} {raw : List Byte} (o : Origin)
    (hmode : snapMode s = 1 ∨ (snapMode s = 2 ∧ mirrorReady s = true ∧ (mirrorOwed s = false ∨ snFlag raw 0 = true)))
    (hcut : s.drum.count.toNat + 2500 ≤ snCut raw) (hmem : snMembers raw ≠ 0) :
    (beginTake s o raw).snap.take = some (newTake s o raw) ∧ (beginTake s o raw).snap.hold = s.snap.hold ∧
      (beginTake s o raw).mem = s.mem := by
  have hstore := takeBase_sameStore s
  have hnew : newTake (takeBase s) o raw = newTake s o raw := by
    rw [newTake, newTake, hstore.nextGen (by rw [takeBase_snap]), hstore.targetSlot (by rw [takeBase_snap])]
  rw [beginTake_eq o hmode hcut hmem, (tellAll_sends _ _ _ _).snap, (tellAll_sends _ _ _ _).mem, putSnap_snap, putSnap_mem, hnew]
  exact ⟨rfl, by rw [takeBase_snap], hstore.mem⟩

theorem drainEntry_posts (s : State) (d : Drain) (status : Nat) : Posts s (drainEntry s d status) := snapEntry_posts _ _ _ _ _ _ _ _ _ _

/-- R235: a take that is cancelled is over, and a held JOB_END is held still. -/
theorem cancelTake_over {s : State} {k : Take} (status : Nat) (h : s.snap.take = some k) :
    (cancelTake s status).snap.take = none ∧ (cancelTake s status).host.heldEnd = s.host.heldEnd := by
  simp only [cancelTake, h]
  rw [(snapEntry_posts _ _ _ _ _ _ _ _ _ _).snap, (snapEntry_posts _ _ _ _ _ _ _ _ _ _).heldEnd, putSnap_snap, putSnap_host]
  refine ⟨rfl, ?_⟩
  split
  · rw [emptySlot, setSlotState_heldEnd, (tellAll_sends _ _ _ _).heldEnd]
  · exact (tellAll_sends _ _ _ _).heldEnd

theorem supersedeDrains_heldEnd (s : State) (slot : Nat) : (supersedeDrains s slot).host.heldEnd = s.host.heldEnd := by
  simp only [supersedeDrains]
  rw [(Posts.foldl (fun _ _ => drainEntry_posts _ _ _) _ _).heldEnd, putSnap_host]

/-- R235, R236: the take that the cut freezes. -/
def frozenTake (k : Take) : Take :=
  { k with cut := true, granted := (portsOf (snMembers k.raw)).foldl (fun m n => kset 0 m n (streamFlits (partBytes k n))) [] }

theorem cutTake_of_quiet {s : State} {k : Take} (hq : cutQuiet s k = true) :
    (cutTake s k).snap.take = some (frozenTake k) ∧ (cutTake s k).host.heldEnd = s.host.heldEnd := by
  simp only [cutTake, if_pos hq]
  rw [(Sends.foldl (fun _ _ => sendCtl_sends _ _ _ _) _ _).snap, (Sends.foldl (fun _ _ => sendCtl_sends _ _ _ _) _ _).heldEnd,
    putSnap_snap, putSnap_host, setSlotState_heldEnd, supersedeDrains_heldEnd]
  exact ⟨rfl, rfl⟩

theorem startMirror_keeps (s : State) : (startMirror s).snap.take = s.snap.take ∧ (startMirror s).snap.hold = s.snap.hold ∧
    (startMirror s).host.heldEnd = s.host.heldEnd := by
  simp only [startMirror]
  split
  · split
    · exact ⟨rfl, rfl, rfl⟩
    · rw [putSnap_snap, putSnap_host, (sendCtl_sends _ _ _ _).snap, (sendCtl_sends _ _ _ _).heldEnd]
      exact ⟨rfl, rfl, rfl⟩
  · exact ⟨rfl, rfl, rfl⟩

/-- R240: the mirror that a commit owes, in mode MIRRORED, starts beside the take and what it holds. -/
theorem commitMirror_keeps (s : State) (m : MirrorOut) :
    let t := if snapMode s = 2 then startMirror (putSnap s { s.snap with mirOut := some m }) else s
    t.snap.take = s.snap.take ∧ t.snap.hold = s.snap.hold ∧ t.host.heldEnd = s.host.heldEnd := by
  intro t
  by_cases hmode : snapMode s = 2
  · obtain ⟨htake, hhold, hheld⟩ := startMirror_keeps (putSnap s { s.snap with mirOut := some m })
    rw [putSnap_snap] at htake hhold
    rw [putSnap_host] at hheld
    rw [show t = startMirror (putSnap s { s.snap with mirOut := some m }) from if_pos hmode]
    exact ⟨htake, hhold, hheld⟩
  · rw [show t = s from if_neg hmode]
    exact ⟨rfl, rfl, rfl⟩

theorem copyArea_posts (s : State) (slot off a n : Nat) : Posts s (copyArea s slot off a n) := slotWrite_posts _ _ _ _ _

/-- R230, R235, R236: a commit ends the take and holds what it names until 50 beats on. -/
theorem commitTake_holds (s : State) (k : Take) :
    (commitTake s k).snap.take = none ∧
      (commitTake s k).snap.hold = some { members := snMembers k.raw, tables := snTables k.raw, resume := s.drum.count + 50 } ∧
      (commitTake s k).host.heldEnd = s.host.heldEnd := by
  unfold commitTake
  extract_lets i total base areas manifests codes record committed resume _ ended told _ mirrored
  have hareas : Posts s areas :=
    List.foldlRecOn (motive := fun p : State × Nat => Posts s p.1) _ _ (Posts.refl s) fun _ hp _ _ => hp.trans (copyArea_posts _ _ _ _ _)
  have hmanifests : Posts areas manifests := Posts.foldl (fun _ _ => slotWrite_posts _ _ _ _ _) _ _
  have hcodes : Posts manifests codes := Posts.foldl (fun _ _ => slotWrite_posts _ _ _ _ _) _ _
  have hrecord : Posts s record := ((hareas.trans hmanifests).trans hcodes).trans (slotWrite_posts _ _ _ _ _)
  clear_value record
  have hresume : resume = s.drum.count + 50 := by
    rw [show resume = committed.drum.count + 50 from rfl, setSlotState_drum, hrecord.drum]
  have hended : ended.snap.take = none ∧
      ended.snap.hold = some { members := snMembers k.raw, tables := snTables k.raw, resume := s.drum.count + 50 } ∧
      ended.host.heldEnd = s.host.heldEnd := by
    refine ⟨by rw [putSnap_snap], by rw [putSnap_snap, hresume], ?_⟩
    rw [putSnap_host, regPut_host, setSlotState_heldEnd, hrecord.heldEnd]
  clear_value ended
  have htold : Sends ended told := tellAll_sends _ _ _ _
  clear_value told
  obtain ⟨htake, hhold, hheld⟩ : mirrored.snap.take = told.snap.take ∧ mirrored.snap.hold = told.snap.hold ∧
      mirrored.host.heldEnd = told.host.heldEnd := commitMirror_keeps told (newMirror k.gen i)
  clear_value mirrored
  have hentry := snapEntry_posts mirrored k.origin k.raw 0 0 i k.gen (snCut k.raw) total (snUser k.raw)
  rw [hentry.snap, hentry.heldEnd, htake, hhold, hheld, htold.snap, htold.heldEnd]
  exact hended

/-! ### Manifests and data -/

theorem portsOf_mem {mask n : Nat} (hn : n < 8) (h : nbit mask n = true) : n ∈ portsOf mask :=
  List.mem_filter.mpr ⟨(mem_rangeFrom 0 8 n).mpr ⟨Nat.zero_le n, by omega⟩, h⟩

/-- R228, R235: one more range of a member whose manifest is not complete. -/
theorem addManifest_eq {s : State} {c : Ctl} {k : Take} (hport : c.port < 8) (hmember : nbit (snMembers k.raw) c.port = true)
    (hlast : c.port ∉ k.last) (hidx : field c.msg 1 1 = (kget [] k.parts c.port).length) (hlt : field c.msg 1 1 < 31) :
    addManifest s c k = putSnap s { s.snap with take := some { k with
      parts := kput k.parts c.port (kget [] k.parts c.port ++ [(field c.msg 2 6 * 4096, field c.msg 8 6 * 4096)]) } } := by
  have hmod : field c.msg 1 1 % 32 = field c.msg 1 1 := Nat.mod_eq_of_lt (by omega)
  have hhigh : field c.msg 1 1 / 32 % 4 = 0 := by omega
  have hgoes : nbit (field c.msg 1 1) 7 = false := by simp [nbit]; omega
  have hopen : (portsOf (snMembers k.raw)).all (fun m => k.last.contains m) = false :=
    List.all_eq_false.mpr ⟨c.port, portsOf_mem hport hmember, by simpa using hlast⟩
  have hok : ¬ (!nbit (snMembers k.raw) c.port || k.last.contains c.port || field c.msg 1 1 % 32 != (kget [] k.parts c.port).length ||
      field c.msg 1 1 / 32 % 4 != 0 || (field c.msg 1 1 % 32 == 31 && !false)) = true := by
    rw [hmod, ← hidx]
    simp [hmember, hlast, hhigh, hlt.ne]
  simp only [addManifest, if_neg hok, hgoes, hopen, Bool.and_false, Bool.false_eq_true, if_false]

/-- R235, R301: a data flit that is the member's next one. -/
theorem takeFlitData_eq {s : State} {f : Flit} {k : Take} (hmember : nbit (snMembers k.raw) f.port = true) (hcut : k.cut = true)
    (hgen : nbits (flitHdr f) 57 50 = k.gen % 256) (hidx : nbits (flitHdr f) 49 18 = kget 0 k.got f.port / 240)
    (hlen : nbits (flitHdr f) 17 10 = min 240 (partBytes k f.port - kget 0 k.got f.port)) (hne : nbits (flitHdr f) 17 10 ≠ 0)
    (hgrant : kget 0 k.got f.port / 240 < kget 0 k.granted f.port) :
    (takeFlitData s f k).snap.take =
      some { k with got := kset 0 k.got f.port (kget 0 k.got f.port + nbits (flitHdr f) 17 10) } := by
  have hok : ¬ (!nbit (snMembers k.raw) f.port || !k.cut || nbits (flitHdr f) 57 50 != k.gen % 256 ||
      nbits (flitHdr f) 49 18 != kget 0 k.got f.port / 240 ||
      nbits (flitHdr f) 17 10 != min 240 (partBytes k f.port - kget 0 k.got f.port) || nbits (flitHdr f) 17 10 == 0 ||
      decide (kget 0 k.granted f.port ≤ kget 0 k.got f.port / 240)) = true := by
    rw [← hlen]
    simp [hmember, hcut, hgen, hidx, hne, Nat.not_le.mpr hgrant]
  simp only [takeFlitData, if_neg hok, putSnap_snap]

/-! ### Drains and imports -/

/-- Drains go on: each is still there, with more of it sent at most, and memory is as it was. -/
structure DrainsOn (s t : State) : Prop where
  there : ∀ d ∈ s.snap.drains, ∃ n, { d with sent := n } ∈ t.snap.drains
  next : t.snap.nextDrain = s.snap.nextDrain
  mem : t.mem = s.mem

theorem DrainsOn.refl (s : State) : DrainsOn s s := ⟨fun d hd => ⟨d.sent, hd⟩, rfl, rfl⟩

theorem DrainsOn.trans {s t u : State} (hst : DrainsOn s t) (htu : DrainsOn t u) : DrainsOn s u :=
  ⟨fun d hd => by
    obtain ⟨n, hn⟩ := hst.there d hd
    obtain ⟨m, hm⟩ := htu.there _ hn
    exact ⟨m, hm⟩, htu.next.trans hst.next, htu.mem.trans hst.mem⟩

theorem drainStep_on (s : State) (key : Nat) : DrainsOn s (drainStep s key) := by
  simp only [drainStep]
  split
  · split
    · split
      · refine ⟨fun d hd => ?_, ?_, ?_⟩
        · simp only [putSnap_snap, (rdmaSend_sends _ _ _ _ _ _).snap, List.mem_map]
          by_cases hkey : d.key = key
          · exact ⟨_, d, hd, if_pos hkey⟩
          · exact ⟨d.sent, d, hd, if_neg hkey⟩
        · rw [putSnap_snap, (rdmaSend_sends _ _ _ _ _ _).snap]
        · rw [putSnap_mem, (rdmaSend_sends _ _ _ _ _ _).mem]
      · exact DrainsOn.refl s
    · exact DrainsOn.refl s
  · exact DrainsOn.refl s

theorem drainPump_on (s : State) (conn : Nat) : DrainsOn s (drainPump s conn) :=
  List.foldlRecOn _ _ (DrainsOn.refl s) fun _ ht _ _ =>
    List.foldlRecOn _ _ ht fun _ hu _ _ => hu.trans (drainStep_on _ _)

/-- R242: the drain that a DRAIN of a slot adds. -/
def newDrain (s : State) (o : Origin) (raw : List Byte) (i : Nat) : Drain :=
  { key := s.snap.nextDrain, origin := o, raw := raw, gen := slotGen s i, slot := i, beat := s.drum.count, sent := 0, acked := 0,
    total := mirrorBytes s i }

/-- R242: the intact local slots that a DRAIN may take. -/
def drainLocals (s : State) (raw : List Byte) : List Nat :=
  (localSlots s).filter fun i => slotCommitted s i && slotIntact s i && (snGen raw == 0 || slotGen s i == snGen raw)

/-- R242: the slots that hold the generation that a DRAIN names. -/
def drainHeld (s : State) (raw : List Byte) : List Nat :=
  (rangeFrom 0 (slotCount (snapMode s))).filter fun i => snGen raw != 0 && slotHolds s i (snGen raw)

/-- R242: the one intact local slot, or the first that holds the generation named, is drained. -/
theorem beginDrain_eq {s : State} {raw : List Byte} {i : Nat} (o : Origin)
    (h : drainLocals s raw = [i] ∨ (drainLocals s raw = [] ∧ (drainHeld s raw).head? = some i)) :
    beginDrain s o raw = drainPump (putSnap s { s.snap with drains := s.snap.drains ++ [newDrain s o raw i], nextDrain := s.snap.nextDrain + 1 })
      (field raw 0x34 4) := by
  rw [drainLocals, drainHeld] at h
  rcases h with h | ⟨h, hh⟩
  · simp only [beginDrain, h, reduceCtorEq, if_false, List.foldl_nil]
    rfl
  · obtain ⟨l, hl⟩ := List.head?_eq_some_iff.mp hh
    simp only [beginDrain, h, hl, if_true, List.take_succ_cons, List.take_zero, List.foldl_nil]
    rfl

/-- R242: the drain is added, whatever of it has gone out already. -/
theorem beginDrain_adds {s : State} {raw : List Byte} {i : Nat} (o : Origin)
    (h : drainLocals s raw = [i] ∨ (drainLocals s raw = [] ∧ (drainHeld s raw).head? = some i)) :
    (∃ n, { newDrain s o raw i with sent := n } ∈ (beginDrain s o raw).snap.drains) ∧
      (beginDrain s o raw).snap.nextDrain = s.snap.nextDrain + 1 ∧ (beginDrain s o raw).mem = s.mem := by
  obtain ⟨hthere, hnext, hmem⟩ := drainPump_on
    (putSnap s { s.snap with drains := s.snap.drains ++ [newDrain s o raw i], nextDrain := s.snap.nextDrain + 1 }) (field raw 0x34 4)
  rw [putSnap_snap] at hthere hnext
  rw [beginDrain_eq o h, hnext, hmem, putSnap_mem]
  exact ⟨hthere _ (List.mem_append_right _ (List.mem_singleton_self _)), rfl, rfl⟩

theorem openImport_importing (s : State) (o : Origin) (raw : List Byte) : (openImport s o raw).snap.importing = some (targetSlot s) := by
  simp only [openImport]
  rw [(snapEntry_posts _ _ _ _ _ _ _ _ _ _).snap, putSnap_snap]

theorem checkImport_importing (s : State) (o : Origin) (raw : List Byte) : (checkImport s o raw).snap.importing = none := by
  simp only [checkImport]
  split
  · rw [(snapEntry_posts _ _ _ _ _ _ _ _ _ _).snap, syncSlot, regSet_snap, setOrigin, (slotWrite_posts _ _ _ _ _).snap,
      (slotWrite_posts _ _ _ _ _).snap, putSnap_snap]
  · rw [(snapEntry_posts _ _ _ _ _ _ _ _ _ _).snap, emptySlot, setSlotState_snap, putSnap_snap]

/-! ### The commands and events of a take -/

/-- A TAKE that is accepted begins a take. -/
theorem exec_take_next {s : State} {r : Nat} {raw : List Byte} (h : postsSnap s r raw = true) (hc : snCmd raw = 1)
    (hjob : s.host.job.isSome = true) : exec (.take (.ring r) raw) s = .next (beginTake s (.ring r) raw) := by
  show Host.Outcome.next (snapCommand s (.ring r) raw (snCmd raw == 1)) = _
  rw [hc, beq_self_eq_true, snapCommand_of_postsSnap h, acceptSnap_of_postsSnap h _ (fun _ => hjob) (by omega), if_pos hc]

/-- A DRAIN that is accepted begins a drain. -/
theorem exec_drain_next {s : State} {r : Nat} {raw : List Byte} (h : postsSnap s r raw = true) (hc : snCmd raw = 3) :
    exec (.drain (.ring r) raw) s = .next (beginDrain s (.ring r) raw) := by
  show Host.Outcome.next (snapCommand s (.ring r) raw (snCmd raw == 3)) = _
  rw [hc, beq_self_eq_true, snapCommand_of_postsSnap h, acceptSnap_of_postsSnap h _ (by omega) (by omega), if_neg (by omega),
    if_neg (by omega), if_pos hc]

/-- An IMPORT that is accepted, by its OPEN flag. -/
theorem acceptSnap_import {s : State} {r : Nat} {raw : List Byte} (h : postsSnap s r raw = true) (hc : snCmd raw = 4)
    (hjob : s.host.job = none) (o : Origin) :
    acceptSnap s o raw = if snFlag raw 0 then openImport s o raw else checkImport s o raw := by
  rw [acceptSnap_of_postsSnap h o (by omega) fun _ => hjob, if_neg (by omega), if_neg (by omega), if_neg (by omega)]

theorem exec_importOpen_next {s : State} {r : Nat} {raw : List Byte} (h : postsSnap s r raw = true) (hc : snCmd raw = 4)
    (hjob : s.host.job = none) (hflag : snFlag raw 0 = true) :
    exec (.importOpen (.ring r) raw) s = .next (openImport s (.ring r) raw) := by
  show Host.Outcome.next (snapCommand s (.ring r) raw (snCmd raw == 4 && snFlag raw 0)) = _
  rw [hc, hflag, beq_self_eq_true, Bool.and_self, snapCommand_of_postsSnap h, acceptSnap_import h hc hjob, if_pos hflag]

theorem exec_importCheck_next {s : State} {r : Nat} {raw : List Byte} (h : postsSnap s r raw = true) (hc : snCmd raw = 4)
    (hjob : s.host.job = none) (hflag : snFlag raw 0 = false) :
    exec (.importCheck (.ring r) raw) s = .next (checkImport s (.ring r) raw) := by
  show Host.Outcome.next (snapCommand s (.ring r) raw (snCmd raw == 4 && !snFlag raw 0)) = _
  rw [hc, hflag, beq_self_eq_true, Bool.not_false, Bool.and_self, snapCommand_of_postsSnap h, acceptSnap_import h hc hjob,
    hflag, if_neg Bool.false_ne_true]

theorem exec_snapManifest_next {s u : State} {c : Ctl} {k : Take} (hctl : takeCtl s c 0x31 (fromPartner c) = (u, true))
    (htake : u.snap.take = some k) : exec (.snapManifest c) s = .next (releaseHeldEnd (addManifest u c k)) := by
  show execSnapManifest c s = _
  simp only [execSnapManifest, hctl, htake]

theorem exec_snapManifestDeadline_next {s : State} {k : Take} (htake : s.snap.take = some k) (hfits : k.fits = false)
    (hcut : k.cut = false) (hdue : snCut k.raw ≤ s.drum.count.toNat + 250) :
    exec .snapManifestDeadline s = .next (releaseHeldEnd (cancelTake s 8)) := by
  show execSnapManifestDeadline s = _
  simp only [execSnapManifestDeadline, htake, if_pos (And.intro hfits (And.intro hcut hdue))]

theorem exec_snapCut_next {s : State} {k : Take} (htake : s.snap.take = some k) (hfits : k.fits = true)
    (hcut : k.cut = false) (hdue : snCut k.raw ≤ s.drum.count.toNat) : exec .snapCut s = .next (releaseHeldEnd (cutTake s k)) := by
  show execSnapCut s = _
  simp only [execSnapCut, htake, if_pos (And.intro hfits (And.intro hcut hdue))]

theorem exec_snapCommit_next {s : State} {k : Take} (htake : s.snap.take = some k) (hwhole : takeWhole k = true)
    (hwaits : svcWaits s 9 = false) : exec .snapCommit s = .next (releaseHeldEnd (commitTake s k)) := by
  show execSnapCommit s = _
  simp only [execSnapCommit, htake, if_pos (And.intro hwhole hwaits)]

theorem exec_snapResume_next {s : State} {h : SnapHold} (hhold : s.snap.hold = some h) (hdue : h.resume.toNat ≤ s.drum.count.toNat) :
    exec .snapResume s = .next (putSnap s { s.snap with hold := none }) := by
  show execSnapResume s = _
  simp only [execSnapResume, hhold, if_pos (show h.resume.ule s.drum.count = true from decide_eq_true hdue)]

theorem exec_snapData_next {s u : State} {f : Flit} {k : Take} (hport : f.port < 8) (hzero : nbits (flitHdr f) 5 0 = 0)
    (hrest : zeroFrom f.payload (nbits (flitHdr f) 17 10) = true) (hflit : takeFlit s f 0xA 2 true = (u, true))
    (htake : u.snap.take = some k) : exec (.snapData f) s = .next (takeFlitData u f k) := by
  show execSnapData f s = _
  simp only [execSnapData, hzero, hrest, beq_self_eq_true, Bool.and_self, hflit, if_pos hport, htake]

theorem exec_snapSent_next {s u : State} {c : Ctl} {k : Take} (hctl : takeCtl s c 0x34 (fromPartner c) = (u, true))
    (htake : u.snap.take = some k) (hgen : field c.msg 4 4 = k.gen % 2 ^ 32)
    (hok : k.cut = true ∧ nbit (snMembers k.raw) c.port = true ∧ field c.msg 8 8 = partBytes k c.port ∧ kget 0 k.got c.port = partBytes k c.port) :
    exec (.snapSent c) s = .next (putSnap u { u.snap with take := some { k with sent := nadd k.sent c.port } }) := by
  show execSnapSent c s = _
  simp only [execSnapSent, hctl, htake, hgen, ne_eq, not_true_eq_false, if_false, if_pos hok]

/-- R24, R343: while a completion entry of the service waits for room, nothing of it goes on. -/
theorem exec_of_svcWaits {s : State} (h : svcWaits s 9 = true) :
    (∀ src raw, exec (.take src raw) s = .next s ∧ exec (.restore src raw) s = .next s ∧ exec (.drain src raw) s = .next s ∧
      exec (.importOpen src raw) s = .next s ∧ exec (.importCheck src raw) s = .next s) ∧
    exec .snapCommit s = .next s ∧ exec .restoreComplete s = .next s := by
  have hcmd : ∀ src raw ok, Host.Outcome.next (φ := Fault) (ρ := Refusal) (snapCommand s src raw ok) = .next s :=
    fun src raw ok => by rw [snapCommand_of_svcWaits h]
  refine ⟨fun src raw => ⟨hcmd _ _ _, hcmd _ _ _, hcmd _ _ _, hcmd _ _ _, hcmd _ _ _⟩, ?_, ?_⟩
  · show execSnapCommit s = _
    simp only [execSnapCommit, h, reduceCtorEq, and_false, if_false]
    split <;> rfl
  · show execRestoreComplete s = _
    simp only [execRestoreComplete, h, reduceCtorEq, and_false, if_false]
    split <;> rfl

/-! ### The obligation -/

/-- Settles O50: each command and event by its own lemma above; what a post, a send or a write of the store leaves as it was carries the
take, its hold and the held JOB_END through. -/
theorem takesAndImports : Obligations.TakesAndImports := by
  unfold Obligations.TakesAndImports
  refine ⟨?take, ?drain, ?imports, ?manifest, ?events, fun s h => exec_of_svcWaits h, fun s h => exec_snapResume_next, ?data, ?sent⟩
  case take =>
    intro s r raw hposts hc hjob hmode hcut hmem
    obtain ⟨htake, hhold, hmemory⟩ := beginTake_under_way (.ring r) hmode hcut hmem
    exact ⟨_, _, exec_take_next hposts hc hjob, htake, rfl, rfl, rfl, rfl, rfl, hhold, hmemory⟩
  case drain =>
    intro s r i raw hposts hc hslot
    obtain ⟨⟨n, hadded⟩, hnext, hmemory⟩ := beginDrain_adds (.ring r) hslot
    exact ⟨_, _, exec_drain_next hposts hc, hadded, rfl, rfl, rfl, rfl, hnext, hmemory⟩
  case imports =>
    intro s r raw hposts hc hjob
    exact ⟨fun hflag => ⟨_, exec_importOpen_next hposts hc hjob hflag, openImport_importing _ _ _⟩,
      fun hflag => ⟨_, exec_importCheck_next hposts hc hjob hflag, checkImport_importing _ _ _⟩⟩
  case manifest =>
    intro s u c k hctl htake hheld hmember hlast hidx hlt
    have hport : c.port < 8 := of_decide_eq_true (takeCtl_accepted hctl).1
    rw [exec_snapManifest_next hctl htake, addManifest_eq hport hmember hlast hidx hlt,
      releaseHeldEnd_of_none (by rw [putSnap_host, hheld])]
    exact ⟨_, rfl, by rw [putSnap_snap]⟩
  case events =>
    intro s k htake hheld
    refine ⟨fun hfits hcut hdue => ?_, fun hfits hcut hdue hquiet => ?_, fun hfits hcut hdue hquiet => ?_, fun hwhole hwaits => ?_⟩
    · obtain ⟨hover, hend⟩ := cancelTake_over 8 htake
      rw [exec_snapManifestDeadline_next htake hfits hcut hdue, releaseHeldEnd_of_none (hend.trans hheld)]
      exact ⟨_, rfl, hover⟩
    · obtain ⟨hfrozen, hend⟩ := cutTake_of_quiet hquiet
      rw [exec_snapCut_next htake hfits hcut hdue, releaseHeldEnd_of_none (hend.trans hheld)]
      exact ⟨_, _, rfl, hfrozen, rfl, rfl, rfl, rfl⟩
    · obtain ⟨hover, hend⟩ := cancelTake_over 9 htake
      have hcancel : cutTake s k = cancelTake s 9 := if_neg (by rw [hquiet]; exact Bool.false_ne_true)
      rw [exec_snapCut_next htake hfits hcut hdue, hcancel, releaseHeldEnd_of_none (hend.trans hheld)]
      exact ⟨_, rfl, hover⟩
    · obtain ⟨hover, hhold, hend⟩ := commitTake_holds s k
      rw [exec_snapCommit_next htake hwhole hwaits, releaseHeldEnd_of_none (hend.trans hheld)]
      exact ⟨_, rfl, hover, hhold⟩
  case data =>
    intro s u f k hport hzero hrest hflit htake hmember hcut hgen hidx hlen hne hgrant
    exact ⟨_, exec_snapData_next hport hzero hrest hflit htake, takeFlitData_eq hmember hcut hgen hidx hlen hne hgrant⟩
  case sent =>
    intro s u c k hctl htake hgen hcut hmember hbytes hgot
    refine ⟨_, exec_snapSent_next hctl htake hgen ⟨hcut, hmember, hbytes, hgot⟩, by rw [putSnap_snap], ?_⟩
    rw [putSnap_mem, (takeCtl_accepted hctl).2.mem]

end Sys2Proof.Machine

/-! PROOFS. Commits: what a raised message of class C leaves as it was, and staged values taken live (R49 to R51, R449). -/

namespace Sys2Proof.Machine

/-! ### A message of class C -/

/-- R449, R450: a source's message found: the Belfry's lists change, and, where it is merged or retained, the registers that
account it. -/
def Accounts (src : Nat) (s t : State) : Prop :=
  (∃ regs belfry, t = { s with regs := regs, belfry := belfry }) ∧
    ∀ b, b ≠ rSticky (src / 64) → b ≠ rSrc src → b ≠ rQstat → regGet t b = regGet s b

theorem Accounts.refl (src : Nat) (s : State) : Accounts src s s := ⟨⟨_, _, rfl⟩, fun _ _ _ _ => rfl⟩

theorem Accounts.trans {src : Nat} {s t u : State} (hst : Accounts src s t) (htu : Accounts src t u) : Accounts src s u := by
  obtain ⟨⟨_, _, rfl⟩, hregs⟩ := hst
  obtain ⟨⟨_, _, rfl⟩, hregs'⟩ := htu
  exact ⟨⟨_, _, rfl⟩, fun b h1 h2 h3 => (hregs' b h1 h2 h3).trans (hregs b h1 h2 h3)⟩

theorem Accounts.staged {src : Nat} {s t : State} (h : Accounts src s t) : t.staged = s.staged := by
  obtain ⟨⟨_, _, rfl⟩, -⟩ := h
  rfl

theorem accounts_belfry (src : Nat) (s : State) (b : Belfry) : Accounts src s { s with belfry := b } :=
  ⟨⟨_, _, rfl⟩, fun _ _ _ _ => rfl⟩

theorem accounts_regPut {src a : Nat} (s : State) (hi lo x : Nat) (ha : a = rSticky (src / 64) ∨ a = rSrc src ∨ a = rQstat) :
    Accounts src s (regPut s a hi lo x) := by
  refine ⟨⟨_, _, rfl⟩, fun b h1 h2 h3 => regGet_regPut_ne s hi lo x ?_⟩
  rintro rfl
  rcases ha with h | h | h
  · exact h1 h
  · exact h2 h
  · exact h3 h

theorem Accounts.ite {c : Prop} [Decidable c] {src : Nat} {s t u : State} (ht : Accounts src s t) (hu : Accounts src s u) :
    Accounts src s (if c then t else u) := by
  split
  · exact ht
  · exact hu

/-- R457: the accounting of a class below F latches nothing. -/
theorem accountMsg_accounts (s : State) {src cls : Nat} (escd : Bool) (hcls : cls ≠ 3) : Accounts src s (accountMsg s src cls escd) := by
  have hput : ∀ t hi lo x, Accounts src t (regPut t (rSrc src) hi lo x) := fun t hi lo x => accounts_regPut t hi lo x (.inr (.inl rfl))
  simp only [accountMsg, if_neg hcls]
  have hsticky : Accounts src s (setSticky s src) := accounts_regPut s _ _ _ (.inl rfl)
  have hcount : ∀ t, Accounts src t (if cls = 1 then regAddSat t (rSrc src) 63 48 1 else regAddSat t (rSrc src) 47 40 1) := fun t =>
    Accounts.ite (hput _ _ _ _) (hput _ _ _ _)
  have hescd : ∀ t, Accounts src t (if escd = true then regAddSat t (rSrc src) 31 16 1 else t) := fun t =>
    Accounts.ite (hput _ _ _ _) (Accounts.refl _ _)
  have hunacked : ∀ t, Accounts src t (if reactionOf t src cls = 0 then t else regPut t (rSrc src) (35 + cls) (35 + cls) 1) := fun t =>
    Accounts.ite (Accounts.refl _ _) (hput _ _ _ _)
  exact ((hsticky.trans (hcount _)).trans (hescd _)).trans (hunacked _)

theorem holdErr_accounts (s : State) (src cls : Nat) : Accounts src s (holdErr s src cls) :=
  Accounts.ite (Accounts.refl src s) (accounts_belfry src s _)

/-- R458: a message of class C escalates to class U at most. -/
theorem escalate_minor (s : State) (src : Nat) : (escalate s src 1).1 ≠ 3 := by
  rw [escalate]
  split <;> decide

/-- R449, R452: a message of class C that waits, is merged, or is retained while the main domain is down. -/
theorem raise_accounts (s : State) (src kind addr : Nat) : Accounts src s (raise s src kind 1 addr) := by
  have hsrc : (newMsg s src kind 1 addr).source = src := rfl
  have hcls : (newMsg s src kind 1 addr).cls = 1 := rfl
  rw [raise]
  generalize newMsg s src kind 1 addr = m at hsrc hcls ⊢
  simp only [raiseMsg, hsrc, hcls]
  split
  · exact Accounts.refl src s
  · split
    · split
      · exact accounts_belfry src s _
      · exact (accountMsg_accounts s _ (escalate_minor s src)).trans (accounts_regPut _ _ _ _ (.inr (.inr rfl)))
    · split
      · have hsticky : Accounts src s (setSticky s src) := accounts_regPut s _ _ _ (.inl rfl)
        exact (hsticky.trans (Accounts.ite (holdErr_accounts _ src 1) (Accounts.refl src _))).trans (accounts_belfry src _ _)
      · exact Accounts.refl src s

/-! ### Registers without RWS fields -/

theorem accMask_eq_zero {fs : List FieldDesc} {acc : Acc} (h : ∀ f ∈ fs, f.acc ≠ acc) : accMask fs acc = 0 := by
  have hnil : (fs.filter fun f => f.acc == acc) = [] := List.filter_eq_nil_iff.mpr fun f hf => by simpa using h f hf
  rw [accMask, hnil]
  rfl

/-- The accounting registers of the Belfry lie below FLT_REACT and have no RWS field. -/
theorem stagedMask_of_account {a : Nat} (h2 : a / 0x100000 = 2) (hlow : a % 0x100000 < 0x20000) : stagedMask a = 0 := by
  cases hfind : regFind a with
  | none => rw [stagedMask, hfind]
  | some r =>
    obtain ⟨d, i, p⟩ := r
    rw [stagedMask_of_regFind hfind]
    refine accMask_eq_zero fun f hf hacc => ?_
    obtain ⟨hd, hblk, hle, -⟩ := regFind_some hfind
    rw [regOff, if_neg (by omega)] at hle
    obtain ⟨-, -, hrow⟩ := rws_row d hd ⟨f, hf, hacc⟩
    omega

/-- R49: the rows of the commit registers. -/
theorem commit_row : ∀ d ∈ regTable, d.off = 0xFFF00 ∨ (d.blk = 7 ∧ d.off = 0xFF00) →
    d.stride = 8 ∧ d.count = 1 ∧ d.off = (if d.blk = 7 then 0xFF00 else 0xFFF00) ∧ ∀ f ∈ d.fields, f.acc ≠ .rws := by
  decide +kernel

section
variable {a i p : Nat} {d : RegDesc} (hfind : regFind a = some (d, i, p)) (hc : isCommit d)
include hfind hc

/-- R49: where a commit register lies. -/
theorem commit_addr : a % 0x100000 = 0xFFF00 ∨ a % 0x10000 = 0xFF00 := by
  obtain ⟨hd, hblk, hle, hmod, hcount, -⟩ := regFind_some hfind
  obtain ⟨hstride, hone, hoff, -⟩ := commit_row d hd hc
  rw [hstride] at hmod hcount
  rw [hone] at hcount
  by_cases h7 : a / 0x100000 = 7
  · rw [regOff, if_pos h7] at hle hmod hcount
    rw [if_pos (hblk.trans h7)] at hoff
    omega
  · rw [regOff, if_neg h7] at hle hmod hcount
    rw [if_neg (hblk ▸ h7)] at hoff
    omega

theorem stagedMask_commit : stagedMask a = 0 := by
  rw [stagedMask_of_regFind hfind]
  exact accMask_eq_zero (commit_row d (regFind_some hfind).1 hc).2.2.2
end

/-! ### A commit write -/

/-- R49: a write of a commit register that names no group. -/
theorem commitWrite_of_none (s : State) (src creg : Nat) {v : W64} (h : groupsOf v = []) :
    commitWrite s src creg v = commitCleared s creg v := if_pos h

/-- R49, R51: a write of a commit register that names groups. -/
theorem commitWrite_of_groups (s : State) (src creg : Nat) {v : W64} (h : groupsOf v ≠ []) :
    commitWrite s src creg v = commitGroups (commitCleared s creg v) src creg (groupsOf v) := if_neg h

theorem regSpace_le_of_regCheck {s : State} {secure write : Bool} {addr width : Nat} {r : RegDesc × Nat × Nat}
    (h : regCheck s secure write addr width = .ok r) : regSpace ≤ addr := by
  by_contra hlt
  simp [regCheck, Nat.not_le.mp hlt] at h

/-- Register space begins at a multiple of a block's size. -/
theorem commit_hubAddr {addr : Nat} (hlow : regSpace ≤ addr)
    (h : (addr - regSpace) % 0x100000 = 0xFFF00 ∨ (addr - regSpace) % 0x10000 = 0xFF00) :
    addr % 0x100000 = 0xFFF00 ∨ addr % 0x10000 = 0xFF00 := by
  unfold regSpace at hlow h
  omega

theorem exec_commit_of_addr (s : State) (src : Nat) {addr : Nat} (v : W64) (h : addr % 0x100000 = 0xFFF00 ∨ addr % 0x10000 = 0xFF00) :
    exec (.commit src addr v) s = .next (regWrite s src addr 8 v) := congrArg Host.Outcome.next (if_pos h)

theorem writeReg_commit (s : State) (src a p : Nat) {d : RegDesc} (v : W64) (hd : isCommit d) :
    writeReg s src a d p v = commitWrite s src a v := if_pos hd

/-- R49: XXX_COMMIT and REGISTER_WRITE of a commit register are one write. -/
theorem exec_commitWrite {s : State} {src addr : Nat} {v : W64} {secure : Bool} {d : RegDesc} {i p : Nat} {c : Instr}
    (hi : regInitiator s src = some secure) (hc : regCheck s secure true addr 8 = .ok (d, i, p)) (hd : isCommit d)
    (hmem : c ∈ [Instr.commit src addr v, .registerWrite src addr 8 v]) :
    exec c s = .next (commitWrite s src (addr - regSpace) v) := by
  have hwrite : regWrite s src addr 8 v = commitWrite s src (addr - regSpace) v := by
    simp only [regWrite, hi, hc, writeReg_commit s src _ p v hd]
  rw [← hwrite]
  rcases List.mem_pair.mp hmem with rfl | rfl
  · exact exec_commit_of_addr s src v (commit_hubAddr (regSpace_le_of_regCheck hc) (commit_addr (regFind_of_regCheck hc) hd))
  · exact exec_registerWrite s src addr 8 v

theorem commitCleared_staged (s : State) (creg : Nat) (v : W64) : (commitCleared s creg v).staged = s.staged := by
  simp only [commitCleared, apply_ite State.staged, regPut_staged, ite_self]

theorem regGet_commitCleared_ne (s : State) {creg b : Nat} (v : W64) (h : b ≠ creg) : regGet (commitCleared s creg v) b = regGet s b := by
  simp only [commitCleared, apply_ite (regGet · b), regGet_regPut_ne _ _ _ _ h, ite_self]

theorem stagedIn_congr {s t : State} (h : t.staged = s.staged) (creg : Nat) (g : Nat → Bool) : stagedIn t creg g = stagedIn s creg g := by
  rw [stagedIn, stagedIn, h]

/-- PENDING follows from the staged copies. -/
theorem pendingGroups_congr {s t : State} (h : t.staged = s.staged) (creg : Nat) : pendingGroups t creg = pendingGroups s creg := by
  simp only [pendingGroups, stagedIn_congr h]

/-- Clearing W1C bits of a register without RWS bits leaves the staged copies. -/
theorem stagedCopy_commitCleared {s : State} {creg : Nat} (v : W64) (hm : stagedMask creg = 0) (a : Nat) :
    stagedCopy (commitCleared s creg v) a = stagedCopy s a := by
  rw [stagedCopy, stagedCopy, commitCleared_staged]
  by_cases ha : a = creg
  · simp only [ha, hm, show ∀ v : W64, v &&& 0 = 0 from fun _ => BitVec.and_zero ..]
  · rw [regGet_commitCleared_ne s v ha]

/-! ### Staged values taken live -/

/-- R50: a register with its staged values live. -/
def liveOf (s : State) (a : Nat) : W64 := (regGet s a &&& ~~~(stagedMask a)) ||| (stagedCopy s a &&& stagedMask a)

def takeLive (s : State) (a : Nat) : State := regSet s a (liveOf s a)

theorem takeStaged_eq (s : State) (as : List Nat) : takeStaged s as = unstage (as.foldl takeLive s) as := rfl

/-- A read either finds its key or answers the default. -/
theorem kget_found_or_default {α : Type} (k : Nat) : ∀ m : KMap α, (∃ v, ∀ d, kget d m k = v) ∨ ∀ d, kget d m k = d
  | [] => .inr fun _ => rfl
  | (j, w) :: m => by
    by_cases hj : j = k
    · exact .inl ⟨w, fun d => by simp [kget, hj]⟩
    · simpa [kget, hj] using kget_found_or_default k m

/-- What has been taken live stays so. -/
theorem liveOf_takeLive_same (s : State) (a : Nat) : liveOf (takeLive s a) a = liveOf s a := by
  have hstaged : (takeLive s a).staged = s.staged := rfl
  have hlive : regGet (takeLive s a) a = liveOf s a := regGet_regSet_same _ _ _
  rw [liveOf, stagedCopy, hlive, hstaged]
  rcases kget_found_or_default a s.staged with ⟨v, hv⟩ | hd
  · rw [hv, liveOf, stagedCopy, hv]
    ext j hj
    simp
    cases (stagedMask a)[j] <;> simp
  · rw [hd, liveOf, stagedCopy, hd]
    ext j hj
    simp
    cases (stagedMask a)[j] <;> simp

theorem liveOf_takeLive_ne (s : State) {a b : Nat} (h : b ≠ a) : liveOf (takeLive s a) b = liveOf s b := by
  rw [liveOf, liveOf, stagedCopy, stagedCopy, takeLive, regGet_regSet_ne s _ h, regSet_staged]

/-- R50: the registers taken live hold their staged values; every other register is as it was. -/
theorem regGet_takeLive (a : Nat) : ∀ (as : List Nat) (s : State),
    regGet (as.foldl takeLive s) a = if a ∈ as then liveOf s a else regGet s a
  | [], s => by simp
  | b :: as, s => by
    rw [List.foldl_cons, regGet_takeLive a as]
    by_cases hab : a = b
    · subst hab
      rw [liveOf_takeLive_same, takeLive, regGet_regSet_same]
      simp
    · rw [liveOf_takeLive_ne s hab, takeLive, regGet_regSet_ne s _ hab]
      simp [hab]

theorem regGet_takeStaged (s : State) (as : List Nat) (a : Nat) :
    regGet (takeStaged s as) a = if a ∈ as then liveOf s a else regGet s a := by
  rw [takeStaged_eq, regGet_congr (unstage_regs _ _), regGet_takeLive]

/-- R50: what has been taken live is staged no longer. -/
theorem unstaged_takeStaged (s : State) {as : List Nat} {a : Nat} (ha : a ∈ as) : ∀ e ∈ (takeStaged s as).staged, e.1 ≠ a := by
  intro e he hea
  rw [takeStaged_eq, unstage] at he
  have hout := (List.mem_filter.mp he).2
  simp [hea, ha] at hout

/-! ### REASON -/

theorem reasonOf_le (range rule : Bool) : reasonOf range rule ≤ 2 := by
  cases range <;> cases rule <;> decide

theorem coolRule_le (t : State) (g : Nat) : coolRule t g ≤ 2 := by
  unfold coolRule
  split
  · exact reasonOf_le _ _
  · split
    · exact Nat.zero_le 2
    · exact reasonOf_le _ _

theorem cplRule_le (s t : State) (n g : Nat) : cplRule s t n g ≤ 2 := by
  unfold cplRule
  extract_lets
  split
  · exact reasonOf_le _ _
  · split
    · exact Nat.zero_le 2
    · split
      · exact reasonOf_le _ _
      · exact reasonOf_le _ _

theorem ethRule_le (t : State) (p : Nat) : ethRule t p ≤ 2 := by
  unfold ethRule
  split
  · exact Nat.zero_le 2
  · exact reasonOf_le _ _

theorem foldl_max_le {b : Nat} : ∀ (l : List Nat) (m : Nat), m ≤ b → (∀ x ∈ l, x ≤ b) → l.foldl max m ≤ b
  | [], _, hm, _ => hm
  | x :: l, m, hm, h => foldl_max_le l (max m x) (Nat.max_le.mpr ⟨hm, h x List.mem_cons_self⟩) fun y hy => h y (List.mem_cons_of_mem _ hy)

/-- R51: REASON is 0, 1 or 2. -/
theorem commitReason_le (s t : State) (creg : Nat) (gs : List Nat) : commitReason s t creg gs ≤ 2 := by
  unfold commitReason
  refine foldl_max_le _ _ (Nat.zero_le 2) fun x hx => ?_
  obtain ⟨g, -, rfl⟩ := List.mem_map.mp hx
  split
  · exact reasonOf_le _ _
  · exact reasonOf_le _ _
  · exact coolRule_le _ _
  · exact reasonOf_le _ _
  · exact cplRule_le _ _ _ _
  · exact ethRule_le _ _
  · exact Nat.zero_le 2

/-! ### The obligation -/

/-- R50, R430: below the COOL block only a commit of the slope step has an effect besides the values taken live. -/
theorem committed_of_le (s t : State) {creg : Nat} {gs : List Nat} (h3 : creg / 0x100000 ≤ 3) (h1 : creg / 0x100000 = 3 → 1 ∉ gs) :
    committed s t creg gs = t := by
  unfold committed
  split
  case h_1 heq => rw [if_neg (by simpa using h1 heq)]
  case h_6 => rfl
  all_goals omega

/-- R51: ERR and REASON of a refused commit. -/
def refusedCommit (u : State) (creg r : Nat) : State := regPut (regPut u creg 38 38 1) creg 55 48 r

theorem regGet_refusedCommit_ne (u : State) {creg b : Nat} (r : Nat) (h : b ≠ creg) : regGet (refusedCommit u creg r) b = regGet u b := by
  rw [refusedCommit, regGet_regPut_ne _ _ _ _ h, regGet_regPut_ne _ _ _ _ h]

theorem refusedCommit_staged (u : State) (creg r : Nat) : (refusedCommit u creg r).staged = u.staged := by
  rw [refusedCommit, regPut_staged, regPut_staged]

theorem refusedCommit_shows (u : State) (creg : Nat) {r : Nat} (hr : r ≤ 2) :
    regBits (refusedCommit u creg r) creg 38 38 = 1 ∧ regBits (refusedCommit u creg r) creg 55 48 = r := by
  refine ⟨?_, ?_⟩
  · rw [refusedCommit, regBits_regPut_apart _ _ _ (by decide) (by decide) (.inl (by decide)), regBits_regPut_same _ _ _ (by decide) (by decide)]
    rfl
  · rw [refusedCommit, regBits_regPut_same _ _ _ (by decide) (by decide)]
    exact Nat.mod_eq_of_lt (by omega)

/-- R51: groups of which any fails its rules. -/
theorem commitGroups_refused {u : State} {src creg : Nat} {gs as : List Nat} (has : stagedIn u creg (fun g => gs.contains g) = as)
    (hr : commitReason u (takeStaged u as) creg gs ≠ 0) :
    commitGroups u src creg gs =
      raise (refusedCommit u creg (commitReason u (takeStaged u as) creg gs)) src 0x02 1 (regSpace + creg) := by
  subst has
  exact if_neg hr

/-- R50: groups that all pass their rules. -/
theorem commitGroups_taken {u : State} {src creg : Nat} {gs as : List Nat} (has : stagedIn u creg (fun g => gs.contains g) = as)
    (hr : commitReason u (takeStaged u as) creg gs = 0) :
    commitGroups u src creg gs = committed u (storeFlash (takeStaged u as) as) creg gs := by
  subst has
  exact if_pos hr

/-- R498: the sources that may write registers. -/
theorem regInitiator_src {s : State} {src : Nat} {secure : Bool} (h : regInitiator s src = some secure) : 0x270 ≤ src ∧ src ≤ 0x276 := by
  unfold regInitiator srcSctl at h
  split_ifs at h <;> omega

/-- A message of an initiator leaves every register that has RWS fields. -/
theorem regGet_raise_of_rws {s : State} {src a : Nat} (kind addr : Nat) (hsrc : 0x270 ≤ src ∧ src ≤ 0x276) (ha : stagedMask a ≠ 0) :
    regGet (raise s src kind 1 addr) a = regGet s a := by
  obtain ⟨-, hkept⟩ := raise_accounts s src kind addr
  refine hkept a ?sticky ?source ?qstat <;> rintro rfl <;> apply ha
  case sticky => exact stagedMask_of_account (by unfold rSticky; omega) (by unfold rSticky; omega)
  case source => exact stagedMask_of_account (by unfold rSrc; omega) (by unfold rSrc; omega)
  case qstat => exact stagedMask_of_account (by decide) (by decide)

/-- Settles O54: one write for both commands (`exec_commitWrite`), its groups taken live by `regGet_takeStaged` or refused with a message
that accounts itself alone (`raise_accounts`). -/
theorem commits : Obligations.Commits := by
  intro s src addr v secure d i p c hi hc hd hmem
  have hexec := exec_commitWrite hi hc hd hmem
  have hfind := regFind_of_regCheck hc
  have haddr : regSpace + (addr - regSpace) = addr := by
    have := regSpace_le_of_regCheck hc
    omega
  generalize addr - regSpace = off at hexec hfind haddr ⊢
  intro creg u gs as r
  have hmask : stagedMask creg = 0 := stagedMask_commit hfind hd
  have hstaged : u.staged = s.staged := commitCleared_staged s creg v
  have has : stagedIn u creg (fun g => gs.contains g) = as := stagedIn_congr hstaged _ _
  have hgroups : gs ≠ [] → exec c s = .next (commitGroups u src creg gs) := fun hgs => by
    rw [hexec, commitWrite_of_groups _ _ _ hgs]
  refine ⟨?none, ?refused, ?taken⟩
  case none =>
    intro hgs
    rw [hexec, commitWrite_of_none _ _ _ hgs]
  case refused =>
    intro hgs hr w
    have hraise : Accounts src w (raise w src 0x02 1 addr) := raise_accounts w src 0x02 addr
    have hkept : (raise w src 0x02 1 addr).staged = s.staged := hraise.staged.trans ((refusedCommit_staged u creg r).trans hstaged)
    obtain ⟨herr, hreason⟩ := refusedCommit_shows u creg (commitReason_le u (takeStaged u as) creg gs)
    refine ⟨?_, herr, hreason, hkept, fun g => pendingGroups_congr hkept g, fun a ha => ?_⟩
    · rw [hgroups hgs, commitGroups_refused has hr, haddr]
      rfl
    · have hne : a ≠ creg := fun h => ha (h ▸ hmask)
      rw [regGet_raise_of_rws 0x02 addr (regInitiator_src hi) ha]
      exact (regGet_refusedCommit_ne u r hne).trans (regGet_commitCleared_ne s v hne)
  case taken =>
    intro hgs hr
    have hnext : exec c s = .next (committed u (storeFlash (takeStaged u as) as) creg gs) := by
      rw [hgroups hgs, commitGroups_taken has hr]
    refine ⟨hnext, fun a ha => ⟨?_, unstaged_takeStaged u ha⟩, fun a ha => by rw [regGet_takeStaged, if_neg ha], fun h3 h1 => ?_, fun h3 h1 => ?_⟩
    · rw [regGet_takeStaged, if_pos ha, liveOf, stagedCopy_commitCleared v hmask]
    · rw [hnext, committed_of_le u _ h3 h1]
    · rw [hnext, committed, h3]
      simp only [List.contains_iff_mem.mpr h1, if_true]

end Sys2Proof.Machine

/-! PROOFS. Carriage requests: what a reply and an event leave as they were, and how a request that the hub takes is served
(R352 to R358, R502). -/

namespace Sys2Proof.Machine

/-! ### What the hub tells its roles -/

/-- What goes to the roles: what is posted, the replies kept and owed, the numbers of notifications. -/
def Tells (s t : State) : Prop := ∃ mem poison ports outbox conns prod waiting ext bodies kept owed noteSeq,
  t = { s with mem := mem, poison := poison, ports := ports, outbox := outbox,
               host := { s.host with conns := conns, prod := prod, waiting := waiting, ext := ext, bodies := bodies,
                                     kept := kept, owed := owed, noteSeq := noteSeq } }

theorem Posts.tells {s t : State} (h : Posts s t) : Tells s t := by
  obtain ⟨_, _, _, _, _, _, _, _, _, rfl⟩ := h
  exact ⟨_, _, _, _, _, _, _, _, _, _, _, _, rfl⟩

theorem Sends.tells {s t : State} (h : Sends s t) : Tells s t := h.posts.tells

theorem Tells.refl (s : State) : Tells s s := (Posts.refl s).tells

theorem Tells.trans {s t u : State} (hst : Tells s t) (htu : Tells t u) : Tells s u := by
  obtain ⟨_, _, _, _, _, _, _, _, _, _, _, _, rfl⟩ := hst
  obtain ⟨_, _, _, _, _, _, _, _, _, _, _, _, rfl⟩ := htu
  exact ⟨_, _, _, _, _, _, _, _, _, _, _, _, rfl⟩

section
variable {s t : State} (h : Tells s t)
include h

theorem Tells.consist : t.consist = s.consist := by obtain ⟨_, _, _, _, _, _, _, _, _, _, _, _, rfl⟩ := h; rfl
theorem Tells.regs : t.regs = s.regs := by obtain ⟨_, _, _, _, _, _, _, _, _, _, _, _, rfl⟩ := h; rfl
theorem Tells.job : t.host.job = s.host.job := by obtain ⟨_, _, _, _, _, _, _, _, _, _, _, _, rfl⟩ := h; rfl
theorem Tells.trust : t.trust = s.trust := by obtain ⟨_, _, _, _, _, _, _, _, _, _, _, _, rfl⟩ := h; rfl
theorem Tells.peal : t.peal = s.peal := by obtain ⟨_, _, _, _, _, _, _, _, _, _, _, _, rfl⟩ := h; rfl
end

theorem putOwed_tells (s : State) (l : List Owed) : Tells s (putHost s { s.host with owed := l }) :=
  ⟨_, _, _, _, _, _, _, _, _, _, _, _, rfl⟩

theorem postMsg_tells (s : State) (role code type status seq retry detail : Nat) (body : List Byte) :
    Tells s (postMsg s role code type status seq retry detail body) := by
  simp only [postMsg]
  split <;> exact (postEntry_posts _ _ _).tells

theorem reply_tells (s : State) (q : Req) (code : Nat) (a : Ans) : Tells s (reply s q code a) := by
  simp only [reply]
  split
  · exact postMsg_tells _ _ _ _ _ _ _ _ _
  · exact Tells.trans ⟨_, _, _, _, _, _, _, _, _, _, _, _, rfl⟩ (emit_sends _ _ _ _).tells

theorem answerOwed_tells (s : State) (code : Nat) (role : Option Nat) (a : Ans) : Tells s (answerOwed s code role a) := by
  simp only [answerOwed]
  split
  · exact (putOwed_tells _ _).trans (reply_tells _ _ _ _)
  · exact Tells.refl s

theorem notifyRole_tells (s : State) (role code : Nat) (body : List Byte) : Tells s (notifyRole s role code body) := by
  simp only [notifyRole]
  have hseq : ∀ m, Tells s (putHost s { s.host with noteSeq := m }) := fun _ => ⟨_, _, _, _, _, _, _, _, _, _, _, _, rfl⟩
  split
  · exact Tells.refl s
  · split
    · exact (hseq _).trans (postMsg_tells _ _ _ _ _ _ _ _ _)
    · split
      · exact (hseq _).trans (emit_sends _ _ _ _).tells
      · exact Tells.refl s

theorem eventTo_tells (s : State) (role kind : Nat) (data : List Byte) : Tells s (eventTo s role kind data) := notifyRole_tells _ _ _ _

theorem emitEvent_tells (s : State) (kind : Nat) (data : List Byte) : Tells s (emitEvent s kind data) :=
  (eventTo_tells _ _ _ _).trans (eventTo_tells _ _ _ _)

/-! ### A message heard -/

/-- R354: what hearing a message leaves: the Consist, the job, the snapshot service and every register below those that count datagrams
and silence. -/
structure Hears (s t : State) : Prop where
  consist : t.consist = s.consist
  job : t.host.job = s.host.job
  snap : t.snap = s.snap
  regs : ∀ b, b < 0xD00100 → regGet t b = regGet s b

theorem Hears.refl (s : State) : Hears s s := ⟨rfl, rfl, rfl, fun _ _ => rfl⟩

theorem Hears.trans {s t u : State} (hst : Hears s t) (htu : Hears t u) : Hears s u :=
  ⟨htu.consist.trans hst.consist, htu.job.trans hst.job, htu.snap.trans hst.snap, fun b hb => (htu.regs b hb).trans (hst.regs b hb)⟩

theorem Sends.hears {s t : State} (h : Sends s t) : Hears s t :=
  ⟨h.consist, h.tells.job, h.snap, fun b _ => regGet_congr h.regs b⟩

theorem regPut_hears (s : State) {a : Nat} (hi lo x : Nat) (ha : 0xD00100 ≤ a) : Hears s (regPut s a hi lo x) :=
  ⟨rfl, rfl, rfl, fun b hb => regGet_regPut_ne s hi lo x (by omega)⟩

theorem putHost_hears (s : State) {h : HostSt} (hj : h.job = s.host.job) : Hears s (putHost s h) :=
  ⟨rfl, hj, rfl, fun _ _ => rfl⟩

theorem giveCredits_hears (s : State) (q n : Nat) : Hears s (giveCredits s q n) := by
  refine Hears.trans ?_ (sendCtl_sends _ _ _ _).hears
  exact putHost_hears s rfl

theorem takeEntry_hears (s : State) (q : Nat) : Hears s (takeEntry s q) := by
  have hcons : ∀ v, Hears s (setCons s q v) := fun _ => putHost_hears s rfl
  simp only [takeEntry]
  split
  · exact (hcons _).trans (notifyWord_sends _ _).hears
  · split
    · exact (hcons _).trans (giveCredits_hears _ _ _)
    · exact hcons _

theorem markSession_hears (s : State) (q : Req) : Hears s (markSession s q) := by
  simp only [markSession]
  split
  · split
    · exact ⟨rfl, rfl, rfl, fun _ _ => rfl⟩
    · exact Hears.refl s
  · exact Hears.refl s

theorem heardFrom_hears (s : State) (q : Req) : Hears s (heardFrom s q) := by
  have hsilence : ∀ t, Hears t (if q.role = 0 then regPut t rSilence 46 46 0 else regPut t rSilence 15 15 0) := by
    intro t
    split <;> exact regPut_hears t _ _ _ (by decide)
  rw [heardFrom]
  refine Hears.trans ?_ ((markSession_hears _ q).trans (hsilence _))
  split
  · exact takeEntry_hears s _
  · next port _ _ _ =>
      refine Hears.trans ?_ (regPut_hears (a := rEthCnt port) _ _ _ _ (Nat.le_add_right 0xD00100 (8 * port)))
      exact putHost_hears s rfl

theorem consistState_heardFrom (s : State) (q : Req) : consistState (heardFrom s q) = consistState s := by
  rw [consistState, consistState, regBits, (heardFrom_hears s q).regs rConsist (by decide), regBits]

theorem svcOpen_heardFrom (s : State) (q : Req) (i : Nat) : svcOpen (heardFrom s q) i = svcOpen s i := by
  rw [svcOpen, svcOpen, regBits, (heardFrom_hears s q).regs rRingSvc (by decide), regBits]

/-! ### A request served -/

/-- R355: what follows a request that was acted on: its reply, or that one is owed. -/
def served (q : Req) (code : Nat) : State × Option Ans → State
  | (s, some a) => reply s q code a
  | (s, none) => putHost s { s.host with owed := s.host.owed ++ [⟨q, code⟩] }

theorem owes_served (s : State) (q : Req) (code : Nat) : owes (served q code (s, none)) q code :=
  List.mem_append_right _ List.mem_cons_self

theorem served_none_regs (s : State) (q : Req) (code : Nat) : (served q code (s, none)).regs = s.regs := rfl

section
variable {s : State} {q : Req} {code : Nat} {body : List Byte} (h : accepts s q code body = true)
include h

/-- R354, R355: a message that the hub takes goes to its service. -/
theorem arrive_of_accepts (serve : State → State) : arrive s q code body serve = serve s := by
  simp only [accepts, Bool.and_eq_true, decide_eq_true_eq, Bool.not_eq_true', beq_iff_eq] at h
  obtain ⟨⟨⟨⟨⟨⟨⟨hvia, hmain⟩, hrole⟩, hkept⟩, -⟩, -⟩, -⟩, -⟩ := h
  have hact : ¬ (s.mainDom ≠ .up ∨ 2 ≤ q.role) := by
    rintro (hdown | hbig)
    · exact hdown hmain
    · omega
  simp only [arrive, if_neg hact]
  split at hvia
  case h_1 port vlan src hudp =>
    simp only [Bool.and_eq_true, decide_eq_true_eq, Bool.not_eq_true', beq_iff_eq] at hvia
    obtain ⟨⟨⟨⟨hopen, hport⟩, hvlan⟩, -⟩, hbusy⟩ := hvia
    simp [hudp, hopen, hport, hvlan, hbusy, Option.isNone_iff_eq_none.mp hkept]
  case h_2 hring =>
    simp only [Bool.and_eq_true, Bool.not_eq_true'] at hvia
    obtain ⟨⟨hhead, hheld⟩, hwaits⟩ := hvia
    simp [hring, hhead, hheld, hwaits]

/-- R357, R358: a request that the hub takes, of a role that may send it, well formed, and whose service is open, is acted on. -/
theorem request_of_accepts {allowed lenOk bare : Bool} {boot : Option Nat} (hallowed : allowed = true) (hlen : lenOk = true)
    (hbare : bare = true ∨ consistState s ≠ 0) (hboot : ∀ i, boot = some i → svcOpen s i = true) (act : State → State × Option Ans) :
    request s q body code allowed lenOk boot bare act = served q code (act (heardFrom s q)) := by
  simp only [accepts, Bool.and_eq_true, decide_eq_true_eq, Bool.not_eq_true', beq_iff_eq] at h
  obtain ⟨⟨⟨⟨⟨⟨⟨hvia, -⟩, -⟩, hkept⟩, hheld⟩, hheld5⟩, hruns⟩, hformed⟩ := h
  have hconf : (!bare && consistState (heardFrom s q) == 0) = false := by
    rw [consistState_heardFrom]
    rcases hbare with hb | hb <;> simp [hb]
  simp only [request, Option.isNone_iff_eq_none.mp hkept, hheld, hheld5, hruns, hformed, hallowed, hlen, hconf, Bool.false_and,
    Bool.not_true, Bool.or_self, Bool.false_eq_true, if_false]
  refine (if_neg ?short).trans ?acted
  case short =>
    cases hq : q.via with
    | ring => simp
    | udp port vlan src =>
      simp only [hq, Bool.and_eq_true, decide_eq_true_eq] at hvia
      simpa using hvia.1.2
  case acted =>
    cases boot with
    | none => rfl
    | some i =>
      simp only [svcOpen_heardFrom, hboot i rfl, if_true]
      rfl

/-- R354 to R358: the step of a message that is taken and acted on. -/
theorem arrive_request {allowed lenOk bare : Bool} {boot : Option Nat} (hallowed : allowed = true) (hlen : lenOk = true)
    (hbare : bare = true ∨ consistState s ≠ 0) (hboot : ∀ i, boot = some i → svcOpen s i = true) {act : State → State × Option Ans}
    {r : State × Option Ans} (hact : act (heardFrom s q) = r) :
    (Host.Outcome.next (arrive s q code body fun s => request s q body code allowed lenOk boot bare act) : Host.Outcome State Fault Refusal) =
      .next (served q code r) := by
  rw [arrive_of_accepts h, request_of_accepts h hallowed hlen hbare hboot, hact]
end

end Sys2Proof.Machine

/-! PROOFS. Jobs, images and enrolment (R42, R43, R239, R356, R363, R365, R394). -/

namespace Sys2Proof.Machine

/-! ### Ports that fall quiet -/

/-- A port that falls quiet or trains: registers, the snapshot service and its store, the ports and what the hub has sent change. -/
def Quiets (s t : State) : Prop := ∃ regs mem poison ports snap outbox,
  t = { s with regs := regs, mem := mem, poison := poison, ports := ports, snap := snap, outbox := outbox }

theorem Quiets.refl (s : State) : Quiets s s := ⟨_, _, _, _, _, _, rfl⟩

theorem Quiets.trans {s t u : State} (hst : Quiets s t) (htu : Quiets t u) : Quiets s u := by
  obtain ⟨_, _, _, _, _, _, rfl⟩ := hst
  obtain ⟨_, _, _, _, _, _, rfl⟩ := htu
  exact ⟨_, _, _, _, _, _, rfl⟩

theorem Quiets.foldl {α : Type} {f : State → α → State} (h : ∀ s a, Quiets s (f s a)) (l : List α) (s : State) : Quiets s (l.foldl f s) :=
  List.foldlRecOn l f (Quiets.refl s) fun t ht a _ => ht.trans (h t a)

theorem Quiets.host {s t : State} (h : Quiets s t) : t.host = s.host := by obtain ⟨_, _, _, _, _, _, rfl⟩ := h; rfl
theorem Quiets.consist {s t : State} (h : Quiets s t) : t.consist = s.consist := by obtain ⟨_, _, _, _, _, _, rfl⟩ := h; rfl
theorem Quiets.peal {s t : State} (h : Quiets s t) : t.peal = s.peal := by obtain ⟨_, _, _, _, _, _, rfl⟩ := h; rfl

theorem regPut_quiets (s : State) (a hi lo x : Nat) : Quiets s (regPut s a hi lo x) := ⟨_, _, _, _, _, _, rfl⟩
theorem putSnap_quiets (s : State) (x : Snap) : Quiets s (putSnap s x) := by
  have hsnap : Quiets s { s with snap := x } := ⟨_, _, _, _, _, _, rfl⟩
  simp only [putSnap, snapFlags]
  iterate 5 refine Quiets.trans ?_ (regPut_quiets _ _ _ _ _)
  exact hsnap
theorem emptySlot_quiets (s : State) (i : Nat) : Quiets s (emptySlot s i) := ⟨_, _, _, _, _, _, rfl⟩
theorem putLink_quiets (s : State) (n : Nat) (l : Link) : Quiets s (putLink s n l) := ⟨_, _, _, _, _, _, rfl⟩
theorem putLine_quiets (s : State) (n : Nat) (l : Line) : Quiets s (putLine s n l) := ⟨_, _, _, _, _, _, rfl⟩
theorem putTraining_quiets (s : State) (n : Nat) (t : Training) : Quiets s (putTraining s n t) := ⟨_, _, _, _, _, _, rfl⟩

theorem mirrorLost_quiets (s : State) (n : Nat) : Quiets s (mirrorLost s n) := by
  unfold mirrorLost
  split
  · split <;> exact putSnap_quiets _ _
  · split
    · split
      · exact (emptySlot_quiets _ _).trans (putSnap_quiets _ _)
      · exact putSnap_quiets _ _
    · exact Quiets.refl s

theorem quietPort_quiets (s : State) (n st : Nat) : Quiets s (quietPort s n st) := by
  have hmirror : Quiets s (if portActive s n then mirrorLost s n else s) := by
    split
    · exact mirrorLost_quiets s n
    · exact Quiets.refl s
  simp only [quietPort, setPortSt]
  exact (((hmirror.trans (putLink_quiets _ _ _)).trans (putLine_quiets _ _ _)).trans (regPut_quiets _ _ _ _ _)).trans (regPut_quiets _ _ _ _ _)

theorem hubFrame_quiets (s : State) (n phase lane : Nat) (ready : Bool) (req good : Nat) :
    Quiets s (hubFrame s n phase lane ready req good) := by
  rw [hubFrame, sendTrainFrame]
  generalize List.map _ _ = bytes
  exact ⟨_, _, _, _, _, _, rfl⟩

theorem enterDetect_quiets (s : State) (n : Nat) : Quiets s (enterDetect s n) := by
  simp only [enterDetect, hubFrames]
  exact (((quietPort_quiets _ _ _).trans (regPut_quiets _ _ _ _ _)).trans (putTraining_quiets _ _ _)).trans
    (Quiets.foldl (fun _ _ => hubFrame_quiets _ _ _ _ _ _ _) _ _)

/-- R284: the retests that are due at the end of a job. -/
theorem retestDue_quiets (s : State) : Quiets s (retestDue s) := by
  refine Quiets.foldl (fun t n => ?_) _ s
  split
  · simp only [retestNow, retrain]
    have hclear := (regPut_quiets t (rCplStatus n) 47 40 0).trans (regPut_quiets _ (rLaneCtl n) 8 8 0)
    split
    · exact hclear
    · exact hclear.trans (enterDetect_quiets _ _)
  · exact Quiets.refl t

/-! ### Jobs -/

/-- R21, R364: whatever ends a job, none runs after it. -/
theorem endJob_job (s : State) (reason : Nat) (msg : Option FaultMsg) (byHost : Bool) : (endJob s reason msg byHost).host.job = none := by
  simp only [endJob]
  split
  · assumption
  · rw [(retestDue_quiets _).host]
    split
    · rw [(answerOwed_tells _ _ _ _).job]
      rfl
    · rfl

/-- The counters that a job's start clears are registers and the trains' own. -/
theorem clearJobCounters_keeps {α : Type} (part : State → α) (hset : ∀ s a v, part (regSet s a v) = part s)
    (htrain : ∀ s n u, part (putTrain s n u) = part s) (s : State) : part (clearJobCounters s) = part s := by
  have hput : ∀ s a hi lo x, part (regPut s a hi lo x) = part s := fun _ _ _ _ _ => hset _ _ _
  simp only [clearJobCounters]
  refine (foldl_keeps part _ (fun _ _ => hput _ _ _ _ _) _ _).trans ?_
  refine (foldl_keeps part _ (fun _ _ => hput _ _ _ _ _) _ _).trans ?_
  refine (foldl_keeps part _ (fun _ _ => (htrain _ _ _).trans (hset _ _ _)) _ _).trans ?_
  simp only [hset, hput]

theorem clearCoachMemory_drum (s : State) : (clearCoachMemory s).drum = s.drum := by
  rw [clearCoachMemory, memZero_drum, memZero_drum]

theorem clearCoachMemory_consist (s : State) : (clearCoachMemory s).consist = s.consist := by
  rw [clearCoachMemory, memZero_consist, memZero_consist]

theorem clearSlots_posts (s : State) (x : Table) : Posts s (clearSlots s x) := by
  refine Posts.foldl (fun t h => ?_) _ s
  dsimp only
  split
  · exact (storeCells_posts _ _ _).trans (storeCells_posts _ _ _)
  · exact Posts.refl t

theorem emptyDirectories_keeps (s : State) : (emptyDirectories s).drum = s.drum ∧ (emptyDirectories s).consist = s.consist := by
  rw [← Prod.mk.injEq]
  refine foldl_keeps (fun t => (t.drum, t.consist)) _ (fun t e => ?_) _ s
  dsimp only
  split
  · rfl
  · rw [putTable_drum, putTable_consist, (clearSlots_posts _ _).drum, (clearSlots_posts _ _).tells.consist]

/-- R83: the service firmware's block, in the queue of a train whose SERVICE is collective, state service or snapshot. -/
def queueService (s : State) (t : Nat) : State :=
  let v := (lget { rakes := 0, service := 0 } s.consist.cfg.trains t).service
  if v = 1 ∨ v = 2 ∨ v = 3 then
    putTrain s t { getTrain s t with queue := (getTrain s t).queue ++ [{ raw := Config.serviceBlock t, src := .firmware }] }
  else s

theorem queueServices_eq (s : State) : queueServices s = (rangeFrom 0 s.consist.cfg.trains.length).foldl queueService s := rfl

theorem queueService_keeps (s : State) (t : Nat) : (queueService s t).drum = s.drum ∧ (queueService s t).consist = s.consist := by
  simp only [queueService]
  split <;> exact ⟨rfl, rfl⟩

theorem queueServices_drum (s : State) : (queueServices s).drum = s.drum :=
  foldl_keeps State.drum _ (fun t n => (queueService_keeps t n).1) _ s

/-- What is queued on a train stays there while other blocks are queued. -/
theorem mem_queue_queueService {s : State} {t : Nat} {l : Launch} (n : Nat) (h : l ∈ (getTrain s t).queue) :
    l ∈ (getTrain (queueService s n) t).queue := by
  simp only [queueService]
  split
  · by_cases ht : t = n
    · subst ht
      simp [getTrain, putTrain] at h ⊢
      exact .inl h
    · simpa only [getTrain, putTrain, kget_kset_ne _ _ _ ht] using h
  · exact h

theorem mem_queue_queueService_same {s : State} {t : Nat}
    (hv : let v := (lget { rakes := 0, service := 0 } s.consist.cfg.trains t).service; v = 1 ∨ v = 2 ∨ v = 3) :
    { raw := Config.serviceBlock t, src := .firmware } ∈ (getTrain (queueService s t) t).queue := by
  simp only [queueService, if_pos hv]
  simp [getTrain, putTrain]

/-- R83, R363: each service train of those gone through has its block. -/
theorem mem_queue_queueServices {t : Nat} : ∀ (ts : List Nat) (s : State),
    (let v := (lget { rakes := 0, service := 0 } s.consist.cfg.trains t).service; v = 1 ∨ v = 2 ∨ v = 3) →
    t ∈ ts ∨ { raw := Config.serviceBlock t, src := .firmware } ∈ (getTrain s t).queue →
    { raw := Config.serviceBlock t, src := .firmware } ∈ (getTrain (ts.foldl queueService s) t).queue
  | [], _, _, h => h.elim (fun h => nomatch h) id
  | n :: ts, s, hv, h => by
    have hv' : let v := (lget { rakes := 0, service := 0 } (queueService s n).consist.cfg.trains t).service; v = 1 ∨ v = 2 ∨ v = 3 := by
      rwa [(queueService_keeps s n).2]
    refine mem_queue_queueServices ts (queueService s n) hv' ?_
    rcases h with h | h
    · rcases List.mem_cons.mp h with rfl | h
      · exact .inr (mem_queue_queueService_same hv)
      · exact .inl h
    · exact .inr (mem_queue_queueService n h)

theorem Sends.getTrain {s t : State} (h : Sends s t) (n : Nat) : getTrain t n = getTrain s n := by
  obtain ⟨_, _, _, rfl⟩ := h
  rfl

/-- What a job's start clears, and the blocks that it queues. -/
def jobCleared (s : State) : State := queueServices (emptyDirectories (clearCoachMemory (clearJobCounters s)))

theorem jobCleared_drum (s : State) : (jobCleared s).drum = s.drum := by
  rw [jobCleared, queueServices_drum, (emptyDirectories_keeps _).1, clearCoachMemory_drum]
  exact clearJobCounters_keeps State.drum regSet_drum putTrain_drum s

theorem jobCleared_queues {s : State} {t : Nat} (ht : t < s.consist.cfg.trains.length)
    (hv : let v := (lget { rakes := 0, service := 0 } s.consist.cfg.trains t).service; v = 1 ∨ v = 2 ∨ v = 3) :
    { raw := Config.serviceBlock t, src := .firmware } ∈ (getTrain (jobCleared s) t).queue := by
  have hconsist : (emptyDirectories (clearCoachMemory (clearJobCounters s))).consist = s.consist := by
    rw [(emptyDirectories_keeps _).2, clearCoachMemory_consist]
    exact clearJobCounters_keeps State.consist regSet_consist putTrain_consist s
  rw [jobCleared, queueServices_eq, hconsist]
  refine mem_queue_queueServices _ _ (by rwa [hconsist]) (.inl ((mem_rangeFrom _ _ _).mpr ⟨Nat.zero_le t, by omega⟩))

/-- R363: a job that starts. -/
theorem startJob_starts (s : State) (id : Nat) (seed : W64) (startBeat : Nat) :
    ∃ u a j, startJob s id seed startBeat = (u, some a) ∧ a.status = 0 ∧ u.host.job = some j ∧ j.id = id ∧
      j.firstBeat = BitVec.ofNat 64 (max startBeat (s.drum.count.toNat + 2500)) ∧ regGet u rSeed = seed ∧
      ∀ t, getTrain u t = getTrain (jobCleared s) t := by
  unfold startJob
  extract_lets cleared bucket seeded ports first mask j _ _ started
  have hcleared : cleared = jobCleared s := rfl
  clear_value cleared
  subst hcleared
  have hbucket : bucket.drum = s.drum ∧ bucket.coaches = (jobCleared s).coaches := by
    simp only [bucket, apply_ite State.drum, apply_ite State.coaches, regPut_drum, regPut_coaches, ite_self, jobCleared_drum, and_self]
  clear_value bucket
  have hdrum : seeded.drum = s.drum := hbucket.1
  have hcoaches : started.coaches = (jobCleared s).coaches := hbucket.2
  have htrain : ∀ t, getTrain started t = getTrain (jobCleared s) t := fun t => by rw [getTrain, getTrain, hcoaches]
  have hsent : Sends started (ports.foldl (fun s n => sendCtl s n 3 [(8, first)]) started) := Sends.foldl (fun _ _ => sendCtl_sends _ _ _ _) _ _
  refine ⟨_, _, j, rfl, rfl, hsent.tells.job, rfl, ?_, ?_, fun t => (hsent.getTrain t).trans (htrain t)⟩
  · rw [← hdrum]
  · rw [regGet_congr hsent.regs]
    exact regGet_regSet_same _ _ _

/-! ### The obligation -/

/-- R363: a JOB_START that is taken, by what forbids it. -/
theorem exec_jobStart {s : State} {q : Req} {body : List Byte} (hacc : accepts s q 0x20 body = true) (hstate : consistState s ≠ 0)
    (hsvc : svcOpen s 5 = true) (hrole : q.role = 0) (hlen : body.length = 24) :
    (∀ j, s.host.job = some j → exec (.jobStart q body) s = .next (reply (heardFrom s q) q 0x20 (ansStatus 9))) ∧
    (∀ d, s.host.job = none → s.consist.unitFailed = some d →
      exec (.jobStart q body) s = .next (reply (heardFrom s q) q 0x20 ⟨8, [], 0, d⟩)) ∧
    (s.host.job = none → s.consist.unitFailed = none → jobForbidden (heardFrom s q) = false → drumForbids (heardFrom s q) = false →
      exec (.jobStart q body) s =
        .next (served q 0x20 (startJob (heardFrom s q) (field body 0 8) (wordOf body 1) (field body 16 8)))) := by
  have hserve : ∀ r, _ = r → exec (.jobStart q body) s = .next (served q 0x20 r) := fun r hact =>
    arrive_request hacc (beq_iff_eq.mpr hrole) (beq_iff_eq.mpr hlen) (.inr hstate) (by rintro i ⟨⟩; exact hsvc) hact
  obtain ⟨hconsist, hjob, -, -⟩ := heardFrom_hears s q
  refine ⟨fun j hj => ?_, fun d hj hd => ?_, fun hj hd hjf hdf => ?_⟩
  · exact hserve (_, some _) (by simp [hjob, hj])
  · exact hserve (_, some _) (by simp [hjob, hj, hconsist, hd])
  · exact hserve _ (by simp [hjob, hj, hconsist, hd, hjf, hdf])

/-- R239, R365: a JOB_END that is taken, with no job and with the one it names. -/
theorem exec_jobEnd {s : State} {q : Req} {body : List Byte} (hacc : accepts s q 0x21 body = true) (hstate : consistState s ≠ 0)
    (hrole : q.role = 0) (hlen : body.length = 8) :
    (s.host.job = none → exec (.jobEnd q body) s = .next (reply (heardFrom s q) q 0x21 (ansStatus 0xA))) ∧
    (∀ j, s.host.job = some j → j.id = field body 0 8 → s.snap.take = none →
      exec (.jobEnd q body) s = .next (served q 0x21 (endJob (heardFrom s q) 2 none true, none))) := by
  have hserve : ∀ r, _ = r → exec (.jobEnd q body) s = .next (served q 0x21 r) := fun r hact =>
    arrive_request hacc (beq_iff_eq.mpr hrole) (beq_iff_eq.mpr hlen) (.inr hstate) (by rintro i ⟨⟩) hact
  obtain ⟨-, hjob, hsnap, -⟩ := heardFrom_hears s q
  refine ⟨fun hj => ?_, fun j hj hid htake => ?_⟩
  · exact hserve (_, some _) (by simp [hjob, hj])
  · exact hserve _ (by simp [hjob, hj, hid, hsnap, htake])

/-- R42, R43: a CONSIST_LOAD that is taken while nothing holds the images, by the check of Table 2.15. -/
theorem exec_consistLoad {s : State} {q : Req} {body : List Byte} (hacc : accepts s q 0x41 body = true) (hlen : body.length = 4)
    (hidle : consistBusy (heardFrom s q) = none) :
    let h := heardFrom s q
    let img := kget [] h.host.buffers (q.role * 4)
    (∀ m, checkImage (checkCtx (clearBuffer h q.role 0) true) img (field body 0 4) = .ok m →
      ∃ u, exec (.consistLoad q body) s = .next (served q 0x41 (u, none)) ∧ u.consist.load = some { role := q.role + 1, image := img }) ∧
    (∀ r, checkImage (checkCtx (clearBuffer h q.role 0) true) img (field body 0 4) = .error r →
      exec (.consistLoad q body) s = .next (reply (lastReason (clearBuffer h q.role 0) r.reason) q 0x41 (refuse r))) := by
  have hserve : ∀ r, _ = r → exec (.consistLoad q body) s = .next (served q 0x41 r) := fun r hact =>
    arrive_request hacc rfl (beq_iff_eq.mpr hlen) (.inl rfl) (by rintro i ⟨⟩) hact
  intro h img
  refine ⟨fun m hm => ⟨_, hserve (_, none) (by simp only [hidle]; rw [hm]), ?_⟩, fun r hr => ?_⟩
  · rw [putConsist_consist]
    split <;> rfl
  · exact hserve (_, some _) (by simp only [hidle]; rw [hr])

/-- R356: a piece of an image that is taken and continues the buffer. -/
theorem exec_consistData {s u : State} {q : Req} {body buf : List Byte} (hacc : accepts s q 0x40 body = true)
    (hpiece : appendPiece (heardFrom s q) q 0 body = some (u, buf)) :
    exec (.consistData q body) s = .next (reply u q 0x40 (ansOk [])) :=
  arrive_request hacc rfl rfl (.inl rfl) (by rintro i ⟨⟩) (r := (u, some _)) (by simp only [hpiece])

/-- R394: a piece of a token that is taken and continues the buffer, by what the buffer holds with it. -/
theorem exec_enrol {s u : State} {q : Req} {body tok : List Byte} (hacc : accepts s q 0x50 body = true)
    (hpiece : appendPiece (heardFrom s q) q 2 body = some (u, tok)) :
    (tok.length < 256 → exec (.enrol q body) s = .next (reply u q 0x50 (ansOk []))) ∧
    (tok.length = 256 → tokenReason (clearBuffer u q.role 2) tok = none →
      ∃ v, exec (.enrol q body) s = .next (reply v q 0x50 (ansOk [])) ∧ v.trust.owner = some ((tok.drop 0x30).take 32)) ∧
    (∀ r, tok.length = 256 → tokenReason (clearBuffer u q.role 2) tok = some r →
      exec (.enrol q body) s = .next (reply (clearBuffer u q.role 2) q 0x50 (ansRefused r))) := by
  have hserve : ∀ r, _ = r → exec (.enrol q body) s = .next (served q 0x50 r) := fun r hact =>
    arrive_request hacc rfl rfl (.inl rfl) (by rintro i ⟨⟩) hact
  refine ⟨fun hlen => ?_, fun hlen hok => ⟨_, hserve (_, some _) (by simp [hpiece, hlen, hok]; rfl), ?_⟩, fun r hlen hr => ?_⟩
  · exact hserve (_, some _) (by simp [hpiece, hlen])
  · rw [(emitEvent_tells _ _ _).trust]
    rfl
  · exact hserve (_, some _) (by simp [hpiece, hlen, hr])

/-- Settles O38: each message is taken and served (`arrive_request`) as its own lemma above says; a job that starts by `startJob_starts`, one
that ends by `endJob_job`. -/
theorem jobsImagesAndEnrolment : Obligations.JobsImagesAndEnrolment := by
  refine ⟨?start, ?finish, ?data, ?load, ?enrol⟩
  case start =>
    intro s q body hacc hstate hsvc hrole hlen h
    obtain ⟨hrunning, hfailed, hfree⟩ := exec_jobStart hacc hstate hsvc hrole hlen
    refine ⟨hrunning, hfailed, fun hj hd hjf hdf => ?_⟩
    obtain ⟨u, a, j, hstart, hok, hjob, hid, hfirst, hseed, htrains⟩ := startJob_starts h (field body 0 8) (wordOf body 1) (field body 16 8)
    refine ⟨u, a, j, ?_, hok, hjob, hid, hfirst, hseed, fun t ht => ?_⟩
    · rw [hfree hj hd hjf hdf, hstart, served]
    · intro v hv
      have hconsist : h.consist = s.consist := (heardFrom_hears s q).consist
      rw [htrains t]
      exact jobCleared_queues (by rwa [hconsist]) (by rwa [hconsist])
  case finish =>
    intro s q body hacc hstate hrole hlen
    obtain ⟨hnone, hends⟩ := exec_jobEnd hacc hstate hrole hlen
    exact ⟨hnone, fun j hj hid htake => ⟨_, hends j hj hid htake, endJob_job _ _ _ _, owes_served _ _ _⟩⟩
  case data =>
    exact fun s u q body buf hacc hpiece => exec_consistData hacc hpiece
  case load =>
    intro s q body hacc hlen hidle
    obtain ⟨hok, hrefused⟩ := exec_consistLoad hacc hlen hidle
    refine ⟨fun m hm => ?_, hrefused⟩
    obtain ⟨u, hexec, hload⟩ := hok m hm
    exact ⟨_, hexec, hload, owes_served _ _ _⟩
  case enrol =>
    exact fun s u q body tok hacc hpiece => exec_enrol hacc hpiece

end Sys2Proof.Machine

/-! PROOFS. What leaves the Consist service as it was: ports and connections that end, partners that lose power, registers and caps
that take a Consist's values. -/

namespace Sys2Proof.Machine

/-- A step of the machine's other parts: the Consist service and its status register, and the PEAL program, are as they were. -/
structure ConsistKept (s t : State) : Prop where
  consist : t.consist = s.consist
  shown : regGet t rConsist = regGet s rConsist
  prog : t.peal.prog = s.peal.prog

theorem ConsistKept.refl (s : State) : ConsistKept s s := ⟨rfl, rfl, rfl⟩

theorem ConsistKept.trans {s t u : State} (hst : ConsistKept s t) (htu : ConsistKept t u) : ConsistKept s u :=
  ⟨htu.consist.trans hst.consist, htu.shown.trans hst.shown, htu.prog.trans hst.prog⟩

theorem ConsistKept.foldl {α : Type} {f : State → α → State} (l : List α) (s : State) (h : ∀ t, ∀ a ∈ l, ConsistKept t (f t a)) :
    ConsistKept s (l.foldl f s) :=
  List.foldlRecOn l f (ConsistKept.refl s) fun t ht a ha => ht.trans (h t a ha)

theorem ConsistKept.ite {c : Prop} [Decidable c] {s t u : State} (ht : ConsistKept s t) (hu : ConsistKept s u) :
    ConsistKept s (if c then t else u) := by
  split
  · exact ht
  · exact hu

theorem ConsistKept.state {s t : State} (h : ConsistKept s t) : consistState t = consistState s := by
  rw [consistState, consistState, regBits, h.shown, regBits]

/-- The PEAL program says who owns a slot. -/
theorem partnerOwned_congr {s t : State} (h : t.peal.prog = s.peal.prog) (k : Nat) : partnerOwned t k = partnerOwned s k := by
  have hfield : ∀ off n, slotField t k off n = slotField s k off n := fun off n => by rw [slotField, slotField, h]
  rw [partnerOwned, partnerOwned, slotOwner, slotOwner, hfield]

/-- CFG_CONSIST_STATE is the register at 0. -/
theorem regPut_kept {a : Nat} (s : State) (hi lo x : Nat) (ha : 0 < a) : ConsistKept s (regPut s a hi lo x) :=
  ⟨rfl, regGet_regPut_ne s hi lo x (Nat.ne_of_lt ha), rfl⟩

theorem regSet_kept {a : Nat} (s : State) (v : W64) (ha : 0 < a) : ConsistKept s (regSet s a v) :=
  ⟨rfl, regGet_regSet_ne s v (Nat.ne_of_lt ha), rfl⟩

theorem putTraining_kept (s : State) (n : Nat) (x : Training) : ConsistKept s (putTraining s n x) := ⟨rfl, rfl, rfl⟩
theorem putPower_kept (s : State) (p : Power) : ConsistKept s (putPower s p) := ⟨rfl, rfl, rfl⟩
theorem putHost_kept (s : State) (h : HostSt) : ConsistKept s (putHost s h) := ⟨rfl, rfl, rfl⟩

theorem putPeal_kept (s : State) {p : Peal} (h : p.prog = s.peal.prog) : ConsistKept s (putPeal s p) := ⟨rfl, rfl, h⟩

theorem putSnap_kept (s : State) (x : Snap) : ConsistKept s (putSnap s x) :=
  ⟨(putSnap_quiets s x).consist, regGet_putSnap s x (by decide), congrArg Peal.prog (putSnap_quiets s x).peal⟩

theorem Tells.kept {s t : State} (h : Tells s t) : ConsistKept s t := ⟨h.consist, regGet_congr h.regs _, congrArg Peal.prog h.peal⟩

/-- A message of class C. -/
theorem raise_kept (s : State) (src kind addr : Nat) : ConsistKept s (raise s src kind 1 addr) := by
  obtain ⟨⟨_, _, hbelfry⟩, hregs⟩ := raise_accounts s src kind addr
  refine ⟨by rw [hbelfry], hregs rConsist ?_ ?_ ?_, by rw [hbelfry]⟩
  · unfold rConsist rSticky; omega
  · unfold rConsist rSrc; omega
  · decide

/-! ### Connections -/

theorem abortDrains_kept (s : State) (conn : Nat) : ConsistKept s (abortDrains s conn) :=
  (putSnap_kept s _).trans (ConsistKept.foldl _ _ fun t d _ => (drainEntry_posts t d 0xE).tells.kept)

theorem closeConn_kept (s : State) (k cause : Nat) : ConsistKept s (closeConn s k cause) := by
  unfold closeConn
  split
  · exact ConsistKept.refl s
  · exact ((abortDrains_kept s k).trans (putHost_kept _ _)).trans (eventTo_tells _ _ _ _).kept

theorem idleEthPorts_kept (s : State) : ConsistKept s (idleEthPorts s) := by
  refine ConsistKept.foldl _ s fun t p _ => ?_
  have hstatus : ConsistKept t (regPut t (rEthStatus p) 63 63 0) := regPut_kept t _ _ _ (by unfold rEthStatus; omega)
  exact hstatus.trans (ConsistKept.foldl _ _ fun u e _ => closeConn_kept u e.1 4)

theorem applyPtp_kept (s : State) : ConsistKept s (applyPtp s) := by
  have hput : ∀ t hi lo x, ConsistKept t (regPut t rPtp hi lo x) := fun t hi lo x => regPut_kept t hi lo x (by decide)
  have hinit : ConsistKept s { s with drum := { s.drum with ptp := Ptp.init } } := ⟨rfl, rfl, rfl⟩
  unfold applyPtp
  extract_lets d
  split
  · exact (hinit.trans (hput _ _ _ _)).trans (hput _ _ _ _)
  · exact ((ConsistKept.ite (ConsistKept.refl s) (hinit.trans (hput _ _ _ _))).trans (hput _ _ _ _)).trans (hput _ _ _ _)

/-! ### Partners that lose power -/

theorem disablePort_kept (s : State) (n : Nat) : ConsistKept s (disablePort s n) := by
  have hquiet : ConsistKept s (quietPort s n 0) :=
    ⟨(quietPort_quiets s n 0).consist, regGet_quietPort s n 0 (by decide) (by unfold rConsist rCplStatus; omega),
      congrArg Peal.prog (quietPort_quiets s n 0).peal⟩
  exact ConsistKept.ite (ConsistKept.refl s) (ConsistKept.ite (ConsistKept.refl s) (hquiet.trans (putTraining_kept _ _ _)))

theorem assertReset_kept (s : State) (n : Nat) : ConsistKept s (assertReset s n) := by
  have hput : ∀ t hi lo x, ConsistKept t (regPut t (rSidePart n) hi lo x) := fun t hi lo x => regPut_kept t hi lo x (by unfold rSidePart; omega)
  have hboard : ∀ t, ConsistKept t (forgetDaa (linkWatchEnd t n) n) := fun _ => ⟨rfl, rfl, rfl⟩
  exact ConsistKept.ite (ConsistKept.refl s) <| ((((hput _ _ _ _).trans ((hput _ _ _ _).trans (hput _ _ _ _))).trans
    (emit_sends _ _ _ _).tells.kept).trans (hboard _)).trans (disablePort_kept _ _)

theorem syncLevels_kept (s : State) : ConsistKept s (syncLevels s) :=
  ConsistKept.foldl _ s fun t n _ =>
    have hput : ∀ u hi lo x, ConsistKept u (regPut u (rThr n) hi lo x) := fun u hi lo x => regPut_kept u hi lo x (by unfold rThr; omega)
    (((hput _ _ _ _).trans (hput _ _ _ _)).trans (hput _ _ _ _)).trans (hput _ _ _ _)

theorem syncCaps_kept (s : State) : ConsistKept s (syncCaps s) := by
  have hcap : ∀ t hi lo x, ConsistKept t (regPut t rPcapStatus hi lo x) := fun t hi lo x => regPut_kept t hi lo x (by decide)
  have hemerg : ∀ t hi lo x, ConsistKept t (regPut t rPcapEmerg hi lo x) := fun t hi lo x => regPut_kept t hi lo x (by decide)
  exact ((((hcap _ _ _ _).trans (hcap _ _ _ _)).trans (hemerg _ _ _ _)).trans (hemerg _ _ _ _)).trans
    (ConsistKept.ite (ConsistKept.refl _) ((putPower_kept _ _).trans (emitEvent_tells _ _ _).kept))

theorem setEmerg_kept (s : State) (l : List Nat) : ConsistKept s (setEmerg s l) :=
  (((putPower_kept s _).trans (putPower_kept _ _)).trans (syncLevels_kept _)).trans (syncCaps_kept _)

theorem enterEmerg_kept (s : State) (e : Nat) : ConsistKept s (enterEmerg s e) :=
  ConsistKept.ite (ConsistKept.refl s) (setEmerg_kept s _)

theorem leaveEmerg_kept (s : State) (e : Nat) : ConsistKept s (leaveEmerg s e) :=
  ConsistKept.ite (setEmerg_kept s _) (ConsistKept.refl s)

theorem partnerDown_kept (s : State) (n : Nat) : ConsistKept s (partnerDown s n) := by
  have hregs : ConsistKept s (regPut (regPut s rPseq (40 + n) (40 + n) 0) rSideCtl (40 + n) (40 + n) 0) :=
    (regPut_kept s _ _ _ (by decide)).trans (regPut_kept _ _ _ _ (by decide))
  exact ConsistKept.ite (((hregs.trans (leaveEmerg_kept _ _)).trans (leaveEmerg_kept _ _)).trans (assertReset_kept _ _)) (ConsistKept.refl s)

/-- A slot that is not the module's loses its rail without the main domain. -/
theorem slotLost_kept (s : State) {k : Nat} (hk : 24 ≤ k) : ConsistKept s (slotLost s k) := by
  simp only [slotLost, Nat.not_lt.mpr hk, false_and, if_false]
  exact ConsistKept.ite (partnerDown_kept _ _) (ConsistKept.refl s)

theorem dropEn_kept (s : State) {k : Nat} (hk : 24 ≤ k) : ConsistKept s (dropEn s k) := by
  have hen : ∀ p, ConsistKept s (putPeal (regPut s rPseqEn k k 0) { (regPut s rPseqEn k k 0).peal with running := p }) := fun _ =>
    (regPut_kept s k k 0 (by decide)).trans (putPeal_kept _ rfl)
  refine ((hen _).trans (ConsistKept.ite (regPut_kept _ _ _ _ ?_) (ConsistKept.refl _))).trans (slotLost_kept _ hk)
  unfold rSidePart
  omega

/-- R410: the partners' slots are not the module's. -/
theorem unpowerPartners_kept {s : State} (h : modPlain s = true) : ConsistKept s (unpowerPartners s) := by
  refine ConsistKept.foldl _ s fun t k hk => (assertReset_kept t _).trans (dropEn_kept _ ?_)
  by_contra hlow
  have hmod := List.all_eq_true.mp h k ((mem_rangeFrom _ _ _).mpr ⟨Nat.zero_le k, by omega⟩)
  simp [(List.mem_filter.mp hk).2] at hmod

/-! ### Values that are taken live -/

/-- R49: every commit register lies above CFG_CONSIST_STATE. -/
theorem commitOf_pos (a : Nat) : 0 < (commitOf a).1 := by
  unfold commitOf
  extract_lets off
  split <;> simp

theorem applyRegs_kept (s : State) {l : List (Nat × W64)} (hl : ∀ e ∈ l, 0 < e.1) : ConsistKept s (applyRegs s l) := by
  have hunstage : ∀ as, ConsistKept s (unstage s as) := fun _ => ⟨rfl, rfl, rfl⟩
  exact ((hunstage _).trans (ConsistKept.foldl _ _ fun t e _ => regPut_kept t _ _ _ (commitOf_pos e.1))).trans
    (ConsistKept.foldl _ _ fun t e he => regSet_kept t e.2 (hl e he))

theorem coolRegs_pos (c : Cooling) : ∀ e ∈ coolRegs c, 0 < e.1 := by
  intro e he
  rcases List.mem_append.mp he with hout | hleak
  · obtain ⟨k, -, hk⟩ := List.mem_flatMap.mp hout
    simp only [List.mem_cons, List.not_mem_nil, or_false] at hk
    rcases hk with rfl | rfl | rfl | rfl
    · simp [rCoolCfg]
    · simp [rCoolCurve]
    · simp [rSkipLo]
    · simp [rSkipHi]
  · obtain ⟨i, -, rfl⟩ := List.mem_map.mp hleak
    simp [rLeakMv]

/-- The registers that a Consist's cooling and reactions give. -/
theorem liveRegs_pos (m : Consist) :
    ∀ e ∈ coolRegs m.cooling ++ (rangeFrom 0 1024).map fun x => (rReact x, BitVec.ofNat 64 (mergedReact m x)), 0 < e.1 := by
  intro e he
  rcases List.mem_append.mp he with hcool | hreact
  · exact coolRegs_pos m.cooling e hcool
  · obtain ⟨x, -, rfl⟩ := List.mem_map.mp hreact
    simp [rReact]

theorem coolCommitted_kept (s : State) (k : Nat) : ConsistKept s (coolCommitted s k) := by
  have hstate : ConsistKept s (setCoolState s k 2) := regPut_kept s _ _ _ (by unfold rCoolStatus; omega)
  exact ConsistKept.ite (ConsistKept.refl s) <| ConsistKept.ite hstate <|
    ConsistKept.ite ((raise_kept s _ _ _).trans (enterEmerg_kept _ _)) (ConsistKept.refl s)

theorem dropPolicy_kept (s : State) : ConsistKept s (dropPolicy s) :=
  ConsistKept.ite (ConsistKept.refl s) ((putPower_kept s _).trans (syncLevels_kept _))

/-- The Consist in effect with the sections of another that come into effect with jobs running. -/
def liveCfg (s : State) (m : Consist) : Consist :=
  { s.consist.cfg with limits := m.limits, cooling := m.cooling, reactions := m.reactions, peal := m.peal }

/-- R47: of the Consist service, the values taken live are the Consist in effect. -/
theorem applyLive_kept (s : State) (m : Consist) :
    ConsistKept (putConsist s { s.consist with cfg := liveCfg s m }) (applyLive s m).1 := by
  have hregs := applyRegs_kept (putConsist s { s.consist with cfg := liveCfg s m }) (liveRegs_pos m)
  have hquiet : ∀ t, ConsistKept t (regPut t rFltCtl 63 48 m.reactions.quiet) := fun t => regPut_kept t _ _ _ (by decide)
  have hcool := (hregs.trans (hquiet _)).trans (ConsistKept.foldl (rangeFrom 0 12) _ fun t k _ => coolCommitted_kept t k)
  exact (((((hcool.trans (putPower_kept _ _)).trans (putPower_kept _ _)).trans (putHost_kept _ _)).trans
    (syncCaps_kept _)).trans (syncLevels_kept _)).trans (dropPolicy_kept _)

/-! ### The memory's map -/

theorem memZero_kept (s : State) (lo hi : Nat) : ConsistKept s (memZero s lo hi) :=
  ⟨memZero_consist _ _ _, regGet_congr (memZero_regs _ _ _) _, congrArg Peal.prog (memZero_peal _ _ _)⟩

/-- What a new map leaves: the store is moved, and SCRUB begins anew. -/
theorem remapMem_kept (s : State) : ConsistKept s (remapMem s) := by
  have hscrub : ∀ c, ConsistKept s (regPut { s with memctl := c } rScrub 47 32 0) := fun c =>
    ConsistKept.trans (t := { s with memctl := c }) ⟨rfl, rfl, rfl⟩ (regPut_kept _ _ _ _ (by decide))
  have hpoison : ∀ t p, ConsistKept t { t with poison := p } := fun _ _ => ⟨rfl, rfl, rfl⟩
  unfold remapMem
  extract_lets old new _ u move cells pois v
  have hu : ConsistKept s u := hscrub _
  have hv : ConsistKept u v := (memZero_kept u _ _).trans (storeCells_posts _ _ _).tells.kept
  clear_value v
  split
  · exact ConsistKept.refl s
  · split
    · exact hu
    · exact (hu.trans hv).trans (hpoison _ _)

theorem fixMap_kept (s : State) : ConsistKept s (fixMap s) := by
  have hstatus : ∀ t hi lo x, ConsistKept t (regPut t rMemStatus hi lo x) := fun t hi lo x => regPut_kept t hi lo x (by decide)
  refine (((hstatus _ _ _ _).trans (hstatus _ _ _ _)).trans (ConsistKept.foldl _ _ fun t c _ => ?_)).trans (remapMem_kept _)
  refine ConsistKept.ite (ConsistKept.refl t) (regPut_kept _ _ _ _ ?_)
  unfold rChErr
  omega

end Sys2Proof.Machine

/-! PROOFS. A Consist written, accepted and applied (R27, R28, R42, R45 to R47). -/

namespace Sys2Proof.Machine

/-! ### The slots -/

/-- R43: an image is written to the inactive slot, and the other slot is as it was. -/
theorem exec_consistSlotWritten {s : State} {l : ConsistLoad} (h : s.consist.load = some l) :
    ∃ t, exec .consistSlotWritten s = .next t ∧ t.consist.load = none ∧ t.consist.pendingImg = true ∧ t.consist.pendingAt = inactiveSlot s ∧
      slotImage t (inactiveSlot s) = l.image ∧ slotImage t (!inactiveSlot s) = slotImage s (!inactiveSlot s) := by
  have hexec : exec .consistSlotWritten s = execConsistSlotWritten s := rfl
  rw [hexec, execConsistSlotWritten, h]
  refine ⟨_, rfl, ?_⟩
  simp only [slotImage, (answerOwed_tells _ _ _ _).consist, putConsist_consist]
  cases inactiveSlot s <;> exact ⟨rfl, rfl, rfl, rfl, rfl⟩

/-! ### CONSIST_APPLY -/

/-- R45: the apply of the pending image that a role asked for. -/
def newApply (h : State) (q : Req) : ConsistApply :=
  let img := slotImage h h.consist.pendingAt
  let m := imageConsist img
  { role := q.role + 1, betweenJobs := isBetween h m, boot := false, fallback := false, slotB := h.consist.pendingAt, image := img, merged := m
    exclCoach := exclOf h m, exclRake := rakeOutOf h m, structureDone := false, beatDone := false
    applyBeat := 0, was := consistState h, clamps := [] }

/-- R45, R46: a CONSIST_APPLY that is taken while nothing holds the images, by what the pending image is. -/
theorem exec_consistApply {s : State} {q : Req} (hacc : accepts s q 0x42 [] = true) (hidle : consistBusy (heardFrom s q) = none) :
    let h := heardFrom s q
    let img := slotImage h h.consist.pendingAt
    (h.consist.pendingImg = false → exec (.consistApply q []) s = .next (reply (lastReason h 0x0D) q 0x42 (refuse ⟨0x0D, 0, 0⟩))) ∧
    (h.consist.pendingImg = true → isBetween h (imageConsist img) = true → h.host.job.isSome = true →
      exec (.consistApply q []) s = .next (reply (lastReason h 0x0C) q 0x42 (refuse ⟨0x0C, 0, 0⟩))) ∧
    (∀ m, h.consist.pendingImg = true → isBetween h (imageConsist img) = false ∨ h.host.job = none → checkBody (checkCtx h true) img = .ok m →
      exec (.consistApply q []) s =
        .next (served q 0x42 (setConsistState (putConsist h { h.consist with apply := some (newApply h q) }) 2, none))) := by
  have hserve : ∀ r, _ = r → exec (.consistApply q []) s = .next (served q 0x42 r) := fun r hact =>
    arrive_request hacc rfl rfl (.inl rfl) (by rintro i ⟨⟩) hact
  intro h img
  refine ⟨fun hp => ?_, fun hp hb hj => ?_, fun m hp hb hm => ?_⟩
  · exact hserve (_, some _) (by simp only [hidle]; simp [h, hp])
  · exact hserve (_, some _) (by simp only [hidle]; simp [h, img, hp, hb, hj])
  · have hfree : (isBetween h (imageConsist img) && h.host.job.isSome) = false := by
      rcases hb with hb | hj
      · rw [hb, Bool.false_and]
      · rw [hj, Option.isSome_none, Bool.and_false]
    refine hserve (_, none) ?_
    simp only [hidle]
    rw [if_neg (by simp [h, hp]), if_neg (by simpa using hfree), hm]
    rfl

theorem consistState_setConsistState (s : State) {x : Nat} (hx : x < 16) : consistState (setConsistState s x) = x := by
  rw [consistState, setConsistState, regBits_regPut_same _ _ _ (by decide) (by decide)]
  exact Nat.mod_eq_of_lt hx

/-! ### The end of an apply -/

/-- R27, R47: what CFG_CONSIST_STATE shows of an apply that ended. -/
def shownApply (s : State) (a : ConsistApply) : State :=
  regPut (setConsistState (regPut (regPut s rConsist 63 32 (imgSeq a.image)) rConsist 31 24 a.merged.preset) (if a.fallback then 3 else 1))
    rConsist 16 16 (if a.slotB then 1 else 0)

theorem shownApply_consist (s : State) (a : ConsistApply) : (shownApply s a).consist = s.consist := by
  simp only [shownApply, setConsistState, regPut_consist]

theorem shownApply_shows (s : State) (a : ConsistApply) :
    consistState (shownApply s a) = (if a.fallback then 3 else 1) ∧ regBits (shownApply s a) rConsist 63 32 = imgSeq a.image % 2 ^ 32 ∧
      regBits (shownApply s a) rConsist 16 16 = (if a.slotB then 1 else 0) := by
  refine ⟨?_, ?_, ?_⟩
  · rw [shownApply, consistState, regBits_regPut_apart _ _ _ (by decide) (by decide) (.inr (by decide))]
    exact consistState_setConsistState _ (by split <;> decide)
  · rw [shownApply, setConsistState, regBits_regPut_apart _ _ _ (by decide) (by decide) (.inr (by decide)),
      regBits_regPut_apart _ _ _ (by decide) (by decide) (.inr (by decide)), regBits_regPut_apart _ _ _ (by decide) (by decide) (.inr (by decide)),
      regBits_regPut_same _ _ _ (by decide) (by decide)]
  · rw [shownApply, regBits_regPut_same _ _ _ (by decide) (by decide)]
    cases a.slotB <;> rfl

/-- R47: the Consist service once an apply has ended. -/
def endedApply (c : ConsistSt) (a : ConsistApply) : ConsistSt :=
  { c with apply := none, activeSlot := some a.slotB, booted := true
           pendingImg := if a.boot && !a.fallback then c.pendingImg else false
           floor := if imgRaiseFloor a.image then max c.floor (imgSeq a.image) else c.floor }

theorem finishApply_kept (s : State) (a : ConsistApply) :
    ConsistKept (shownApply (putConsist s (endedApply s.consist a)) a) (finishApply s a) := by
  have hboot : ∀ t, ConsistKept t (if a.boot then regPut t rBoot 31 16 (bootMs t) else t) := fun t =>
    .ite (regPut_kept t _ _ _ (by decide)) (.refl t)
  have hmark : ∀ t : State, ConsistKept t (if !a.boot && a.was == 0 then { t with board := { t.board with applyMark := t.drum.beats + 1 } } else t) :=
    fun t => .ite ⟨rfl, rfl, rfl⟩ (.refl t)
  have hmirror : ∀ t, ConsistKept t (sendMirSlots t) := fun _ => (sendCtl_sends _ _ _ _).tells.kept
  exact (((hboot _).trans (hmark _)).trans (.ite (.refl _) (answerOwed_tells _ _ _ _).kept)).trans (.ite (hmirror _) (.refl _))

theorem finishApply_consist (s : State) (a : ConsistApply) : (finishApply s a).consist = endedApply s.consist a := by
  rw [(finishApply_kept s a).consist, shownApply_consist, putConsist_consist]

/-- R27, R47: whichever event ends an apply, its slot is the active one. -/
theorem finishApply_appliedBy (s : State) (a : ConsistApply) : appliedBy (finishApply s a) a := by
  have h := finishApply_kept s a
  have hbits : ∀ hi lo, regBits (finishApply s a) rConsist hi lo = regBits (shownApply (putConsist s (endedApply s.consist a)) a) rConsist hi lo :=
    fun hi lo => by rw [regBits, h.shown, regBits]
  obtain ⟨hstate, hseq, hslot⟩ := shownApply_shows (putConsist s (endedApply s.consist a)) a
  refine ⟨?_, ?_, ?_, h.state.trans hstate, (hbits _ _).trans hseq, (hbits _ _).trans hslot⟩ <;> rw [finishApply_consist] <;> rfl

/-! ### The beat of an apply -/

theorem appliedBy_congr {t : State} {a b : ConsistApply} (h : appliedBy t b) (hslot : b.slotB = a.slotB) (hfall : b.fallback = a.fallback)
    (himg : b.image = a.image) : appliedBy t a := by
  rw [appliedBy, hslot, hfall, himg] at h
  exact h

/-- R47: the beat of an apply that changes no structure ends it. -/
theorem exec_applyBeat_live {s : State} {a : ConsistApply} (h : s.consist.apply = some a) (hbeat : a.beatDone = false)
    (hlive : a.betweenJobs = false) :
    ∃ t, exec .applyBeat s = .next t ∧ appliedBy t a ∧ t.consist.cfg.limits = a.merged.limits := by
  have hexec : exec .applyBeat s = execApplyBeat s := rfl
  have hnow : structureNow s a = (s, a) := by simp [structureNow, hlive]
  obtain ⟨u, clamps, hu⟩ : ∃ u clamps, applyLive (recordPeal s a.merged) a.merged = (u, clamps) := ⟨_, _, rfl⟩
  have hlimits : u.consist.cfg.limits = a.merged.limits := by
    have hkept := applyLive_kept (recordPeal s a.merged) a.merged
    rw [hu] at hkept
    rw [hkept.consist]
    rfl
  refine ⟨finishApply u { a with beatDone := true, applyBeat := u.drum.count.toNat, clamps := clamps }, ?_, ?_, ?_⟩
  · rw [hexec]
    simp [execApplyBeat, h, hbeat, hlive, hnow, hu]
  · exact appliedBy_congr (finishApply_appliedBy _ _) rfl rfl rfl
  · rw [finishApply_consist, endedApply, hlimits]

/-- R47: an apply between jobs after its beat. -/
def beatApply (s : State) (a : ConsistApply) (clamps : List (Nat × Nat × Nat × Nat)) : ConsistApply :=
  { a with structureDone := true, beatDone := true, applyBeat := s.drum.count.toNat, clamps := clamps }

/-- R47: the beat of an apply between jobs whose structure has not been built builds it and waits for APPLY_COMPLETE. -/
theorem exec_applyBeat_early {s : State} {a : ConsistApply} (h : s.consist.apply = some a) (hbeat : a.beatDone = false)
    (hbetween : a.betweenJobs = true) (hstruct : a.structureDone = false) (hend : s.host.ending = none) :
    ∃ t b, exec .applyBeat s = .next t ∧ t.consist.apply = some b ∧ b.beatDone = true ∧ b.structureDone = true ∧ b.image = a.image := by
  have hexec : exec .applyBeat s = execApplyBeat s := rfl
  have hnow : structureNow s a = (applyStructure s a, { a with structureDone := true }) := by simp [structureNow, hbetween, hstruct]
  obtain ⟨u, clamps, hu⟩ : ∃ u clamps, applyLive (recordPeal (applyStructure s a) a.merged) a.merged = (u, clamps) := ⟨_, _, rfl⟩
  refine ⟨putConsist (reassign u) { (reassign u).consist with apply := some (beatApply (reassign u) a clamps) }, _, ?_, rfl, rfl, rfl, rfl⟩
  rw [hexec]
  simp [execApplyBeat, beatApply, h, hbeat, hbetween, hstruct, hend, hnow, hu]

/-- R47: APPLY_COMPLETE of an apply whose structure was built at its beat. -/
theorem exec_applyComplete {s : State} {a : ConsistApply} (h : s.consist.apply = some a) (hbetween : a.betweenJobs = true)
    (hend : s.host.ending = none) (hstruct : a.structureDone = true) :
    exec .applyComplete s = .next (if a.beatDone then finishApply s a else s) := by
  have hexec : exec .applyComplete s = execApplyComplete s := rfl
  have hnow : structureNow s a = (s, a) := by simp [structureNow, hstruct]
  have hsame : putConsist s { s.consist with apply := some a } = s := by rw [← h]; rfl
  rw [hexec]
  simp only [execApplyComplete, h, hbetween, hend, hnow, hsame, Bool.not_true, Option.isSome_none, Bool.false_eq_true, or_self, if_false]
  split <;> rfl

/-! ### The boot -/

/-- R28: the boot's apply is done with and no Consist is in effect, which CFG_CONSIST_STATE shows; the PEAL program is another's still. -/
structure ReportsNone (s t : State) : Prop where
  booted : t.consist.booted = true
  applied : t.consist.applied = false
  state : consistState t = 0
  prog : t.peal.prog = s.peal.prog

theorem ReportsNone.kept {s t u : State} (h : ReportsNone s t) (hk : ConsistKept t u) : ReportsNone s u :=
  ⟨by rw [hk.consist, h.booted], by rw [hk.consist, h.applied], hk.state.trans h.state, hk.prog.trans h.prog⟩

theorem ReportsNone.withCfg {s t : State} (h : ReportsNone s t) (m : Consist) :
    ReportsNone s (putConsist t { t.consist with cfg := m }) := ⟨h.booted, h.applied, h.state, h.prog⟩

theorem ReportsNone.withRakeOut {s t : State} (h : ReportsNone s t) (out : BitVec 16) :
    ReportsNone s (putConsist t { t.consist with rakeOut := out }) := ⟨h.booted, h.applied, h.state, h.prog⟩

theorem ReportsNone.withoutRecord {s t : State} (h : ReportsNone s t) :
    ReportsNone s (putPeal t { t.peal with record := none }) := h.kept (putPeal_kept t rfl)

/-- NO_CONSIST is state 0 of CFG_CONSIST_STATE. -/
theorem reportsNone_setConsistState {s t : State} (hbooted : t.consist.booted = true) (happlied : t.consist.applied = false)
    (hprog : t.peal.prog = s.peal.prog) : ReportsNone s (setConsistState (regPut t rConsist 31 24 6) 0) := by
  refine ⟨?_, ?_, consistState_setConsistState _ (by decide), ?_⟩
  · rw [setConsistState, regPut_consist, regPut_consist, hbooted]
  · rw [setConsistState, regPut_consist, regPut_consist, happlied]
  · rw [setConsistState, regPut_peal, regPut_peal, hprog]

theorem modPlain_congr {s t : State} (h : t.peal.prog = s.peal.prog) : modPlain t = modPlain s := by
  simp only [modPlain, partnerOwned_congr h]

theorem reportNone_reportsNone {s : State} (h : modPlain s = true) : ReportsNone s (reportNone s) := by
  unfold reportNone
  extract_lets m _ idle shown live _ recorded unpowered
  have hidle : idle.consist.booted = true ∧ idle.consist.applied = false ∧ idle.peal.prog = s.peal.prog := by
    have hkept := idleEthPorts_kept (putConsist s { s.consist with booted := true, applied := false, activeSlot := none, cfg := m })
    exact ⟨by rw [hkept.consist, putConsist_consist], by rw [hkept.consist, putConsist_consist], by rw [hkept.prog, putConsist_peal]⟩
  clear_value idle
  obtain ⟨hbooted, happlied, hprog⟩ := hidle
  have hset : ReportsNone s (setConsistState (regPut idle rConsist 31 24 6) 0) :=
    reportsNone_setConsistState hbooted happlied hprog
  have hshown : ReportsNone s shown := hset.kept (applyPtp_kept _)
  clear_value shown
  have hlive : ReportsNone s live := (hshown.withCfg _).kept (applyLive_kept shown m)
  clear_value live
  have hrecorded : ReportsNone s recorded := hlive.withoutRecord
  clear_value recorded
  have hunpowered : ReportsNone s unpowered := hrecorded.kept (unpowerPartners_kept ((modPlain_congr hrecorded.prog).trans h))
  clear_value unpowered
  split
  · exact (hunpowered.withRakeOut _).kept (fixMap_kept _)
  · exact hunpowered

section
variable {s : State} (hup : s.mainDom = .up) (hboot : s.consist.booted = false) (hidle : s.consist.apply = none) (hruns : guardRuns s 5 = true)
include hup hboot hidle hruns

/-- R28: the boot without an active slot. -/
theorem exec_consistBootApply_none (hslot : s.consist.activeSlot = none) : exec .consistBootApply s = .next (reportNone s) := by
  have hexec : exec .consistBootApply s = execConsistBootApply s := rfl
  rw [hexec]
  simp [execConsistBootApply, hup, hboot, hidle, hruns, hslot]

/-- R42: the boot with an active slot whose image checks. -/
theorem exec_consistBootApply_some {b : Bool} {m : Consist} (hslot : s.consist.activeSlot = some b) (hkey : (ownerKey s).isSome = true)
    (hcheck : checkImage (checkCtx s true) (slotImage s b) (slotImage s b).length = .ok m) :
    exec .consistBootApply s = .next (startBoot s b false m) := by
  have hexec : exec .consistBootApply s = execConsistBootApply s := rfl
  have howner : (ownerKey s).isNone = false := by rw [← Option.not_isSome, hkey, Bool.not_true]
  rw [hexec]
  simp only [execConsistBootApply, hup, hboot, hidle, hruns, hslot]
  rw [if_neg (by simp), howner, hcheck]
  rfl
end

/-- R42: a boot that applies its active slot is begun once the memory is READY. -/
theorem startBoot_starts {s : State} (b : Bool) (m : Consist) (hready : regBits s rMemStatus 63 60 = 3) :
    ∃ a, (startBoot s b false m).consist.apply = some a ∧ a.boot = true ∧ a.fallback = false ∧ a.slotB = b ∧ a.merged = m ∧
      { startBoot s b false m with consist := s.consist } = s := by
  rw [startBoot, if_neg (not_not.mpr hready)]
  exact ⟨_, rfl, rfl, rfl, rfl, rfl, rfl⟩

/-! ### The obligation -/

/-- Settles O39: each clause by its command's lemma above; an apply that ends by `finishApply_appliedBy`, a boot without a Consist by
`reportNone_reportsNone`. -/
theorem consistApplies : Obligations.ConsistApplies := by
  refine ⟨fun s l h => exec_consistSlotWritten h, ?accept, ?beat, ?complete, ?boot⟩
  case accept =>
    intro s q m hacc hidle h
    obtain ⟨hnone, hrunning, hstarts⟩ := exec_consistApply hacc hidle
    refine ⟨hnone, hrunning, fun hp hb hm => ⟨_, newApply h q, hstarts m hp hb hm, rfl, rfl, rfl, rfl, rfl, ?_, owes_served _ _ _⟩⟩
    rw [consistState, regBits_congr (served_none_regs _ _ _)]
    exact consistState_setConsistState _ (by decide)
  case beat =>
    exact fun s a h hbeat => ⟨exec_applyBeat_live h hbeat, exec_applyBeat_early h hbeat⟩
  case complete =>
    intro s a h hbetween hend hstruct
    rw [exec_applyComplete h hbetween hend hstruct]
    refine ⟨fun hbeat => ⟨_, rfl, ?_⟩, fun hbeat => by simp [hbeat]⟩
    rw [if_pos hbeat]
    exact finishApply_appliedBy s a
  case boot =>
    intro s hup hboot hidle hruns
    refine ⟨fun hslot hplain => ?_, fun b m hslot hkey hready hcheck => ?_⟩
    · obtain ⟨hbooted, happlied, hstate, -⟩ := reportNone_reportsNone hplain
      exact ⟨_, exec_consistBootApply_none hup hboot hidle hruns hslot, hbooted, happlied, hstate⟩
    · obtain ⟨a, ha⟩ := startBoot_starts b m hready
      exact ⟨_, a, exec_consistBootApply_some hup hboot hidle hruns hslot hkey hcheck, ha⟩

end Sys2Proof.Machine

/-! PROOFS. Memory keeps its canonical form over every command (O59): the predicate `NextWf` and folds. For every operation `f` on the
state that leaves memory alone, `f_mem` says so, and for every other one `f_wf` says that it keeps the canonical form, in the order of
the model, so that the proof about an operation uses those about the operations it calls. -/

namespace Sys2Proof.Machine

/-- The next state of an outcome, where there is one, has its memory in canonical form. -/
def NextWf (o : Host.Outcome State Fault Refusal) : Prop := ∀ t, o = .next t → Memory.wf t.mem = true

@[simp] theorem nextWf_next (t : State) : NextWf (.next t) ↔ Memory.wf t.mem = true :=
  ⟨fun h => h t rfl, fun h u hu => by cases hu; exact h⟩

theorem nextWf_ite {c : Prop} [Decidable c] {o p : Host.Outcome State Fault Refusal} (ho : NextWf o) (hp : NextWf p) :
    NextWf (if c then o else p) := by
  split
  · exact ho
  · exact hp

@[simp] theorem mem_ite {c : Prop} [Decidable c] (s t : State) : (if c then s else t).mem = if c then s.mem else t.mem :=
  apply_ite State.mem c s t

@[simp] theorem wf_ite {c : Prop} [Decidable c] (a b : List Host.Cell) :
    Memory.wf (if c then a else b) = true ↔ if c then Memory.wf a = true else Memory.wf b = true := by
  split <;> rfl

/-- Memory is as it was after a fold whose steps leave it so. -/
@[simp] theorem foldl_mem {α : Type} {f : State → α → State} (h : ∀ s a, (f s a).mem = s.mem) (l : List α) (s : State) :
    (l.foldl f s).mem = s.mem :=
  List.foldlRecOn (motive := fun t => t.mem = s.mem) l f rfl fun t ht a _ => (h t a).trans ht

/-- Memory keeps its canonical form over a fold whose steps keep it. -/
theorem foldl_wf {α : Type} {f : State → α → State} (hf : ∀ s a, Memory.wf s.mem = true → Memory.wf (f s a).mem = true) (l : List α)
    {s : State} (h : Memory.wf s.mem = true) : Memory.wf (l.foldl f s).mem = true :=
  List.foldlRecOn (motive := fun t => Memory.wf t.mem = true) l f h fun t ht a _ => hf t a ht

@[simp] theorem memSound_iff (s : State) : s.memSound ↔ Memory.wf s.mem = true := Iff.rfl

/-- `foldl_wf` with the step's memory under a name: the kernel then compares the steps and does not evaluate them. -/
theorem foldl_memSound {α : Type} {f : State → α → State} (hf : ∀ s a, Memory.wf s.mem = true → (f s a).memSound) (l : List α)
    {s : State} (h : Memory.wf s.mem = true) : Memory.wf (l.foldl f s).mem = true :=
  List.foldlRecOn (motive := fun t => t.memSound) l f h fun t ht a _ => hf t a ht

/-- The same where the state is folded together with something else. -/
theorem foldl_fst_wf {α β : Type} {f : State × β → α → State × β}
    (hf : ∀ p a, Memory.wf p.1.mem = true → Memory.wf (f p a).1.mem = true) (l : List α) {p : State × β}
    (h : Memory.wf p.1.mem = true) : Memory.wf (l.foldl f p).1.mem = true :=
  List.foldlRecOn (motive := fun p => Memory.wf p.1.mem = true) l f h fun q hq a _ => hf q a hq

theorem foldl_fst_mem {α β : Type} {f : State × β → α → State × β} (hf : ∀ p a, (f p a).1.mem = p.1.mem) (l : List α) (p : State × β) :
    (l.foldl f p).1.mem = p.1.mem :=
  List.foldlRecOn (motive := fun q => q.1.mem = p.1.mem) l f rfl fun q hq a _ => (hf q a).trans hq

@[simp] theorem putCells_wf {m : List Host.Cell} (h : Memory.wf m = true) (l : List (Nat × Byte)) : Memory.wf (putCells m l) = true :=
  wf_putCells l m h

@[simp] theorem filter_wf {m : List Host.Cell} (h : Memory.wf m = true) (p : Host.Cell → Bool) : Memory.wf (m.filter p) = true :=
  kwf_filter 0 p m h

@[simp] theorem wf_nil : Memory.wf [] = true := rfl

@[simp] theorem memZero_wf (s : State) (lo hi : Nat) (h : Memory.wf s.mem = true) : Memory.wf (memZero s lo hi).mem = true :=
  memSound_memZero s lo hi h

theorem wf_of_fst_eq {β : Type} {p : State × β} {t : State} {b : β} (hp : Memory.wf p.1.mem = true) (he : p = (t, b)) :
    Memory.wf t.mem = true := by
  subst he
  exact hp

theorem mem_of_fst_eq {β : Type} {p : State × β} {t : State} {b : β} {m : List Host.Cell} (hp : p.1.mem = m) (he : p = (t, b)) :
    t.mem = m := by
  subst he
  exact hp

end Sys2Proof.Machine

/-! PROOFS. Canonical memory (O59): fault messages, the memory controllers and what issue of an instruction can do. -/

namespace Sys2Proof.Machine

/-! ### Fault messages (R446 to R459) -/

@[simp] theorem setSticky_mem (s : State) (src : Nat) : (setSticky s src).mem = s.mem := by
  simp [setSticky]

@[simp] theorem latchUnit_mem (s : State) (src : Nat) : (latchUnit s src).mem = s.mem := by
  simp [latchUnit]

@[simp] theorem accountMsg_mem (s : State) (src cls : Nat) (escd : Bool) : (accountMsg s src cls escd).mem = s.mem := by
  simp [accountMsg]

@[simp] theorem holdErr_mem (s : State) (src cls : Nat) : (holdErr s src cls).mem = s.mem := by
  simp [holdErr]

/-! ### The unit under self-test (R466, R467, R471) -/

@[simp] theorem raiseMsg_mem (s : State) (m : FaultMsg) : (raiseMsg s m).mem = s.mem := by
  simp [raiseMsg]

@[simp] theorem raise_mem (s : State) (src kind cls addr : Nat) : (raise s src kind cls addr).mem = s.mem := by
  simp [raise]

/-! ### Regions and access rights (R35 to R37, R313) -/

@[simp] theorem worldFault_mem (s : State) (src : Nat) (secure : Bool) (a : Nat) : (worldFault s src secure a).mem = s.mem := by
  simp [worldFault]

/-! ### Chapter 11: the memory controllers: address map, reads, writes -/

@[simp] theorem remapMem_wf (s : State) (hwf : Memory.wf s.mem = true) : Memory.wf (remapMem s).mem = true := by
  simp -implicitDefEqProofs [remapMem, hwf]

/-! ### In-line ECC (R319) -/

@[simp] theorem latchDevice_mem (s : State) (channel : Nat) : (latchDevice s channel).mem = s.mem := by
  simp [latchDevice]

@[simp] theorem lastErr_mem (s : State) (uncorr : Bool) (channel a : Nat) : (lastErr s uncorr channel a).mem = s.mem := by
  simp [lastErr]

@[simp] theorem foundCorrectable_mem (s : State) (a : Nat) : (foundCorrectable s a).mem = s.mem := by
  simp [foundCorrectable]

@[simp] theorem foundUncorrectable_mem (s : State) (a : Nat) (checked : Bool) : (foundUncorrectable s a checked).mem = s.mem := by
  simp [foundUncorrectable]

@[simp] theorem controllerRead_wf (s : State) (a : Nat) (found : MemErrors) (checked : Bool) (hwf : Memory.wf s.mem = true) :
    Memory.wf (controllerRead s a found checked).mem = true := by
  unfold controllerRead
  dsimp only
  (repeat' split) <;> simp -implicitDefEqProofs [hwf]

theorem execMemoryRead_wf (addr : Nat) (found : MemErrors) (checked : Bool) (s : State) (hwf : Memory.wf s.mem = true) :
    NextWf (execMemoryRead addr found checked s) := by
  unfold execMemoryRead
  (repeat' split) <;> simp [hwf]

theorem execMemoryWrite_wf (addr off : Nat) (data : List Byte) (poisoned : Bool) (found : MemErrors) (s : State) (hwf : Memory.wf s.mem = true) :
    NextWf (execMemoryWrite addr off data poisoned found s) := by
  unfold execMemoryWrite
  dsimp only
  (repeat' split) <;> simp -implicitDefEqProofs [hwf]

@[simp] theorem scrubPast_mem (s : State) (b : Nat) : (scrubPast s b).mem = s.mem := by
  simp [scrubPast]

theorem execScrubRead_wf (addr : Nat) (found : MemErrors) (s : State) (hwf : Memory.wf s.mem = true) :
    NextWf (execScrubRead addr found s) := by
  unfold execScrubRead
  dsimp only
  (repeat' split) <;> simp [hwf]

theorem execMemErrorRateSecond_wf (channel : Nat) (s : State) (hwf : Memory.wf s.mem = true) :
    NextWf (execMemErrorRateSecond channel s) := by
  unfold execMemErrorRateSecond
  dsimp only
  (repeat' split) <;> simp [hwf]

@[simp] theorem trainedChannels_mem (s : State) (failed : List Nat) : (trainedChannels s failed).mem = s.mem := by
  simp [trainedChannels]

/-! ### Reaching seats, coaches and launch units -/

@[simp] theorem putKernel_mem (s : State) (t : Nat) (k : Kernel) : (putKernel s t k).mem = s.mem := by
  simp [putKernel]

/-! ### Exceptions (R89, R133 to R135) -/

@[simp] theorem stopKernel_mem (s : State) (k : Kernel) : (stopKernel s k).mem = s.mem := by
  simp -implicitDefEqProofs [stopKernel]

@[simp] theorem setCond_mem (s : State) (c : Nat) (cond : CoachCond) : (setCond s c cond).mem = s.mem := by
  unfold setCond
  dsimp only
  (repeat' split) <;> simp

@[simp] theorem takeExc_mem (s : State) (n pc code : Nat) : (takeExc s n pc code).mem = s.mem := by
  unfold takeExc
  dsimp only
  (repeat' split) <;> simp

/-! ### Issue (R55, R56, R57, R65, R97, R99) -/

@[simp] theorem advance_mem (s : State) (n pc : Nat) : (advance s n pc).mem = s.mem := by
  simp [advance]

/-! ### Coach instructions -/

/-- What an instruction does at issue keeps memory in canonical form. -/
inductive Res.wf : Res → Prop
  | done (s : State) (h : Memory.wf s.mem = true) : (Res.done s).wf
  | jump (s : State) (pc : Nat) (h : Memory.wf s.mem = true) : (Res.jump s pc).wf
  | exc (code : Nat) : (Res.exc code).wf
  | park (why : Park) : (Res.park why).wf

@[simp] theorem Res.wf_done (s : State) : (Res.done s).wf ↔ Memory.wf s.mem = true :=
  ⟨fun h => by cases h; assumption, .done s⟩

@[simp] theorem Res.wf_jump (s : State) (pc : Nat) : (Res.jump s pc).wf ↔ Memory.wf s.mem = true :=
  ⟨fun h => by cases h; assumption, .jump s pc⟩

@[simp] theorem Res.wf_exc (code : Nat) : (Res.exc code).wf := .exc code

@[simp] theorem Res.wf_park (why : Park) : (Res.park why).wf := .park why

@[simp] theorem doneSeat_wf (s : State) (n : Nat) (t : Seat) : (doneSeat s n t).wf ↔ Memory.wf s.mem = true := by
  rw [doneSeat, Res.wf_done, putSeat_mem]

@[simp] theorem withEntries_wf (s : State) (seat k : Nat) (r : Res) (h : r.wf) : (withEntries s seat k r).wf := by
  unfold withEntries
  split
  · exact Res.wf_park _
  · exact h

theorem finish_wf (s : State) (n : Nat) (r : Res) (h : Memory.wf s.mem = true) (hr : r.wf) : Memory.wf (finish s n r).mem = true := by
  cases hr with
  | done t ht => simpa [finish] using ht
  | jump t pc ht => simpa [finish] using ht
  | exc code => simpa [finish] using h
  | park why => simpa [finish] using h

/-- What issue can do: nothing, or finish the seat with an exception, with a park or with the instruction's own result. -/
theorem issue_cases (s : State) (n : Nat) (w : Fields) (form : Form) (extra : Bool) (regs : List Nat) (body : Seat → Res) :
    issue s n w form extra regs body = s ∨ ∃ r, issue s n w form extra regs body = finish s n r ∧
      ((∃ code, r = .exc code) ∨ (∃ why, r = .park why) ∨ r = body (getSeat s n)) := by
  simp only [issue]
  split_ifs
  · exact .inr ⟨_, rfl, .inl ⟨_, rfl⟩⟩
  · exact .inl rfl
  · exact .inr ⟨_, rfl, .inl ⟨_, rfl⟩⟩
  · exact .inr ⟨_, rfl, .inl ⟨_, rfl⟩⟩
  · exact .inr ⟨_, rfl, .inr (.inl ⟨_, rfl⟩)⟩
  · exact .inr ⟨_, rfl, .inr (.inr rfl)⟩
  · exact .inl rfl

theorem issueNext_wf {s : State} {n : Nat} {w : Fields} {form : Form} {extra : Bool} {regs : List Nat} {body : Seat → Res}
    (h : Memory.wf s.mem = true) (hb : ∀ t, (body t).wf) : NextWf (issueNext s n w form extra regs body) := by
  rw [issueNext, nextWf_next]
  obtain he | ⟨r, he, ⟨code, rfl⟩ | ⟨why, rfl⟩ | rfl⟩ := issue_cases s n w form extra regs body <;> rw [he]
  · exact h
  · exact finish_wf s n _ h (Res.wf_exc _)
  · exact finish_wf s n _ h (Res.wf_park _)
  · exact finish_wf s n _ h (hb _)

@[simp] theorem wakeSeats_mem (s : State) (c : Nat) : (wakeSeats s c).mem = s.mem := by
  unfold wakeSeats
  refine foldl_mem (fun _ _ => ?_) _ _
  dsimp only
  (repeat' split) <;> simp

/-! ### Transaction table (R64 to R66, R78) -/

@[simp] theorem addAccess_mem (s : State) (n : Nat) (kind : AccKind) (blocks : List Nat) (got : KMap (List Byte × Bool)) :
    (addAccess s n kind blocks got).mem = s.mem := by
  simp [addAccess]

end Sys2Proof.Machine

/-! PROOFS. Canonical memory (O59): the coach instructions, the transactions and the dray engines. -/

namespace Sys2Proof.Machine

/-! ### The flags of an exact-accumulator lane (R155 to R161): ADDS, OVF and POI, and its record form (R117) -/

@[simp] theorem overflowMsg_mem (s : State) (c : Nat) (hit : Bool) (addr : Nat) : (overflowMsg s c hit addr).mem = s.mem := by
  simp [overflowMsg]

/-! ### Tables 4.7 and 4.8 and CVT: the vector floating-point, integer, lane, mask and conversion groups -/

theorem vecElem_wf {s : State} {seat : Nat} {w : Fields} {form : Form} {useB useD : Bool} {f : Seat → Nat → Nat → Nat → Nat → Nat}
    (h : Memory.wf s.mem = true) : NextWf (vecElem s seat w form useB useD f) := issueNext_wf h fun _ => (doneSeat_wf _ _ _).2 h

theorem vecArith_wf {s : State} {op seat : Nat} {w : Fields} {useD : Bool} {f : Num → Num → Num → Num} (h : Memory.wf s.mem = true) :
    NextWf (vecArith op s seat w useD f) := by
  unfold vecArith
  exact vecElem_wf h

theorem execVadd_wf (seat : Nat) (w : Fields) (s : State) (hwf : Memory.wf s.mem = true) : NextWf (execVadd seat w s) := vecArith_wf hwf

theorem execVsub_wf (seat : Nat) (w : Fields) (s : State) (hwf : Memory.wf s.mem = true) : NextWf (execVsub seat w s) := vecArith_wf hwf

theorem execVmul_wf (seat : Nat) (w : Fields) (s : State) (hwf : Memory.wf s.mem = true) : NextWf (execVmul seat w s) := vecArith_wf hwf

theorem execVfma_wf (seat : Nat) (w : Fields) (s : State) (hwf : Memory.wf s.mem = true) : NextWf (execVfma seat w s) := vecArith_wf hwf

theorem execVfnma_wf (seat : Nat) (w : Fields) (s : State) (hwf : Memory.wf s.mem = true) : NextWf (execVfnma seat w s) := vecArith_wf hwf

theorem execVdot_wf (seat : Nat) (w : Fields) (s : State) (hwf : Memory.wf s.mem = true) : NextWf (execVdot seat w s) := by
  refine issueNext_wf hwf fun t => ?_
  dsimp only
  simp [hwf]

theorem execVmin_wf (seat : Nat) (w : Fields) (s : State) (hwf : Memory.wf s.mem = true) : NextWf (execVmin seat w s) := vecElem_wf hwf

theorem execVmax_wf (seat : Nat) (w : Fields) (s : State) (hwf : Memory.wf s.mem = true) : NextWf (execVmax seat w s) := vecElem_wf hwf

theorem execVabs_wf (seat : Nat) (w : Fields) (s : State) (hwf : Memory.wf s.mem = true) : NextWf (execVabs seat w s) := vecElem_wf hwf

theorem execVneg_wf (seat : Nat) (w : Fields) (s : State) (hwf : Memory.wf s.mem = true) : NextWf (execVneg seat w s) := vecElem_wf hwf

theorem execVdiv_wf (seat : Nat) (w : Fields) (s : State) (hwf : Memory.wf s.mem = true) : NextWf (execVdiv seat w s) := vecElem_wf hwf

theorem execVsqrt_wf (seat : Nat) (w : Fields) (s : State) (hwf : Memory.wf s.mem = true) : NextWf (execVsqrt seat w s) := vecElem_wf hwf

theorem vecCompare_wf {s : State} {op seat : Nat} {w : Fields} {fmts : List Nat} {f : Nat → W32 → W32 → Bool}
    (h : Memory.wf s.mem = true) : NextWf (vecCompare op s seat w fmts f) := issueNext_wf h fun t => by
  dsimp only
  split
  · exact Res.wf_exc _
  · exact (doneSeat_wf _ _ _).2 h

theorem execVcmp_wf (seat : Nat) (w : Fields) (s : State) (hwf : Memory.wf s.mem = true) : NextWf (execVcmp seat w s) := vecCompare_wf hwf

theorem vecInt_wf {s : State} {op seat : Nat} {w : Fields} {fmts : List Nat} {f : Nat → Nat → Nat → Nat} (h : Memory.wf s.mem = true) :
    NextWf (vecInt op s seat w fmts f) := by
  unfold vecInt
  exact vecElem_wf h

theorem execViadd_wf (seat : Nat) (w : Fields) (s : State) (hwf : Memory.wf s.mem = true) : NextWf (execViadd seat w s) := vecInt_wf hwf

theorem execVisub_wf (seat : Nat) (w : Fields) (s : State) (hwf : Memory.wf s.mem = true) : NextWf (execVisub seat w s) := vecInt_wf hwf

theorem execVimul_wf (seat : Nat) (w : Fields) (s : State) (hwf : Memory.wf s.mem = true) : NextWf (execVimul seat w s) := vecInt_wf hwf

theorem execVidot_wf (seat : Nat) (w : Fields) (s : State) (hwf : Memory.wf s.mem = true) : NextWf (execVidot seat w s) := by
  refine issueNext_wf hwf fun t => ?_
  dsimp only
  simp [hwf]

theorem execVand_wf (seat : Nat) (w : Fields) (s : State) (hwf : Memory.wf s.mem = true) : NextWf (execVand seat w s) := vecInt_wf hwf

theorem execVor_wf (seat : Nat) (w : Fields) (s : State) (hwf : Memory.wf s.mem = true) : NextWf (execVor seat w s) := vecInt_wf hwf

theorem execVxor_wf (seat : Nat) (w : Fields) (s : State) (hwf : Memory.wf s.mem = true) : NextWf (execVxor seat w s) := vecInt_wf hwf

theorem execVshl_wf (seat : Nat) (w : Fields) (s : State) (hwf : Memory.wf s.mem = true) : NextWf (execVshl seat w s) := vecInt_wf hwf

theorem execVshr_wf (seat : Nat) (w : Fields) (s : State) (hwf : Memory.wf s.mem = true) : NextWf (execVshr seat w s) := vecInt_wf hwf

theorem execVsra_wf (seat : Nat) (w : Fields) (s : State) (hwf : Memory.wf s.mem = true) : NextWf (execVsra seat w s) := vecInt_wf hwf

theorem execVicmp_wf (seat : Nat) (w : Fields) (s : State) (hwf : Memory.wf s.mem = true) : NextWf (execVicmp seat w s) := vecCompare_wf hwf

theorem execVsel_wf (seat : Nat) (w : Fields) (s : State) (hwf : Memory.wf s.mem = true) : NextWf (execVsel seat w s) := by
  refine issueNext_wf hwf fun t => ?_
  dsimp only
  simp [hwf]

theorem execVmovs_wf (seat : Nat) (w : Fields) (s : State) (hwf : Memory.wf s.mem = true) : NextWf (execVmovs seat w s) := by
  refine issueNext_wf hwf fun t => ?_
  dsimp only
  simp [hwf]

theorem execSmovv_wf (seat : Nat) (w : Fields) (s : State) (hwf : Memory.wf s.mem = true) : NextWf (execSmovv seat w s) := by
  refine issueNext_wf hwf fun t => ?_
  dsimp only
  simp [hwf]

theorem execViota_wf (seat : Nat) (w : Fields) (s : State) (hwf : Memory.wf s.mem = true) : NextWf (execViota seat w s) := by
  refine issueNext_wf hwf fun t => ?_
  dsimp only
  simp [hwf]

theorem execVperm_wf (seat : Nat) (w : Fields) (s : State) (hwf : Memory.wf s.mem = true) : NextWf (execVperm seat w s) := by
  refine issueNext_wf hwf fun t => ?_
  dsimp only
  simp [hwf]

theorem mask2_wf {s : State} {op seat : Nat} {w : Fields} {f : W64 → W64 → W64} (h : Memory.wf s.mem = true) :
    NextWf (mask2 op s seat w f) := issueNext_wf h fun _ => (doneSeat_wf _ _ _).2 h

theorem execMand_wf (seat : Nat) (w : Fields) (s : State) (hwf : Memory.wf s.mem = true) : NextWf (execMand seat w s) := mask2_wf hwf

theorem execMor_wf (seat : Nat) (w : Fields) (s : State) (hwf : Memory.wf s.mem = true) : NextWf (execMor seat w s) := mask2_wf hwf

theorem execMxor_wf (seat : Nat) (w : Fields) (s : State) (hwf : Memory.wf s.mem = true) : NextWf (execMxor seat w s) := mask2_wf hwf

theorem execMnot_wf (seat : Nat) (w : Fields) (s : State) (hwf : Memory.wf s.mem = true) : NextWf (execMnot seat w s) :=
  issueNext_wf hwf fun _ => (doneSeat_wf _ _ _).2 hwf

theorem execMset_wf (seat : Nat) (w : Fields) (s : State) (hwf : Memory.wf s.mem = true) : NextWf (execMset seat w s) := by
  refine issueNext_wf hwf fun t => ?_
  dsimp only
  (repeat' split) <;> simp [hwf]

theorem execMget_wf (seat : Nat) (w : Fields) (s : State) (hwf : Memory.wf s.mem = true) : NextWf (execMget seat w s) :=
  issueNext_wf hwf fun _ => (doneSeat_wf _ _ _).2 hwf

theorem execMcnt_wf (seat : Nat) (w : Fields) (s : State) (hwf : Memory.wf s.mem = true) : NextWf (execMcnt seat w s) :=
  issueNext_wf hwf fun _ => (doneSeat_wf _ _ _).2 hwf

theorem execMfirst_wf (seat : Nat) (w : Fields) (s : State) (hwf : Memory.wf s.mem = true) : NextWf (execMfirst seat w s) := by
  refine issueNext_wf hwf fun t => ?_
  dsimp only
  (repeat' split) <;> simp [hwf]

/-! ### Conversion (R113, R151 to R154) -/

theorem execCvt_wf (seat : Nat) (w : Fields) (s : State) (hwf : Memory.wf s.mem = true) : NextWf (execCvt seat w s) :=
  issueNext_wf hwf fun _ => (doneSeat_wf _ _ _).2 hwf

/-! ### Table 4.9: the exact-accumulate group (R59, R60, R114 to R117, R155 to R161) -/

@[simp] theorem releaseX_mem (s : State) (n : Nat) : (releaseX s n).mem = s.mem := by
  simp [releaseX]

theorem execXalloc_wf (seat : Nat) (w : Fields) (s : State) (hwf : Memory.wf s.mem = true) : NextWf (execXalloc seat w s) := by
  refine issueNext_wf hwf fun t => ?_
  dsimp only
  (repeat' split) <;> simp [hwf]

theorem execXallocGrant_wf (coach : Nat) (s : State) (hwf : Memory.wf s.mem = true) : NextWf (execXallocGrant coach s) := by
  unfold execXallocGrant
  dsimp only
  (repeat' split) <;> simp [hwf]

theorem execXfree_wf (seat : Nat) (w : Fields) (s : State) (hwf : Memory.wf s.mem = true) : NextWf (execXfree seat w s) :=
  issueNext_wf hwf fun _ => by simp [hwf]

theorem execXacc_wf (seat : Nat) (w : Fields) (s : State) (hwf : Memory.wf s.mem = true) : NextWf (execXacc seat w s) := by
  refine issueNext_wf hwf fun t => ?_
  dsimp only
  (repeat' split) <;> simp [hwf]

theorem execXzero_wf (seat : Nat) (w : Fields) (s : State) (hwf : Memory.wf s.mem = true) : NextWf (execXzero seat w s) := by
  refine issueNext_wf hwf fun t => ?_
  dsimp only
  (repeat' split) <;> simp [hwf]

theorem execXrd_wf (seat : Nat) (w : Fields) (s : State) (hwf : Memory.wf s.mem = true) : NextWf (execXrd seat w s) := by
  refine issueNext_wf hwf fun t => ?_
  dsimp only
  (repeat' split) <;> simp [hwf]

theorem execXadd_wf (seat : Nat) (w : Fields) (s : State) (hwf : Memory.wf s.mem = true) : NextWf (execXadd seat w s) := by
  refine issueNext_wf hwf fun t => ?_
  dsimp only
  (repeat' split) <;> simp [hwf]

theorem execXlda_wf (seat : Nat) (w : Fields) (s : State) (hwf : Memory.wf s.mem = true) : NextWf (execXlda seat w s) := by
  refine issueNext_wf hwf fun t => ?_
  obtain ⟨exc, hexc⟩ : ∃ f, memExc = f := ⟨_, rfl⟩
  obtain ⟨free, hfree⟩ : ∃ f, entriesFree = f := ⟨_, rfl⟩
  obtain ⟨win, hwin⟩ : ∃ f, seatWin = f := ⟨_, rfl⟩
  rw [hexc, hfree, hwin]
  dsimp only
  (repeat' split) <;> simp [hwf]

theorem execXst_wf (seat : Nat) (w : Fields) (s : State) (hwf : Memory.wf s.mem = true) : NextWf (execXst seat w s) := by
  refine issueNext_wf hwf fun t => ?_
  obtain ⟨exc, hexc⟩ : ∃ f, memExc = f := ⟨_, rfl⟩
  obtain ⟨free, hfree⟩ : ∃ f, entriesFree = f := ⟨_, rfl⟩
  obtain ⟨win, hwin⟩ : ∃ f, seatWin = f := ⟨_, rfl⟩
  rw [hexc, hfree, hwin]
  dsimp only
  (repeat' split) <;> simp [hwf]

/-! ### Tables 4.10 and 4.12 and the transactions that perform them: loads -/

theorem execLd_wf (seat : Nat) (w : Fields) (s : State) (hwf : Memory.wf s.mem = true) : NextWf (execLd seat w s) := by
  refine issueNext_wf hwf fun t => ?_
  dsimp only
  (repeat' split) <;> simp [hwf]

theorem execSt_wf (seat : Nat) (w : Fields) (s : State) (hwf : Memory.wf s.mem = true) : NextWf (execSt seat w s) := by
  refine issueNext_wf hwf fun t => ?_
  dsimp only
  (repeat' split) <;> simp [hwf]

theorem execVld_wf (seat : Nat) (w : Fields) (s : State) (hwf : Memory.wf s.mem = true) : NextWf (execVld seat w s) := by
  refine issueNext_wf hwf fun t => ?_
  dsimp only
  (repeat' split) <;> simp [hwf]

theorem execVst_wf (seat : Nat) (w : Fields) (s : State) (hwf : Memory.wf s.mem = true) : NextWf (execVst seat w s) := by
  refine issueNext_wf hwf fun t => ?_
  dsimp only
  (repeat' split) <;> simp [hwf]

theorem atomic_wf {s : State} {seat : Nat} {w : Fields} {form : Form} {op : AtomicOp} (h : Memory.wf s.mem = true) :
    NextWf (atomic s seat w form op) := issueNext_wf h fun t => by
  dsimp only
  (repeat' split) <;> simp [h]

theorem execAadd_wf (seat : Nat) (w : Fields) (s : State) (hwf : Memory.wf s.mem = true) : NextWf (execAadd seat w s) := atomic_wf hwf

theorem execAmin_wf (seat : Nat) (w : Fields) (s : State) (hwf : Memory.wf s.mem = true) : NextWf (execAmin seat w s) := atomic_wf hwf

theorem execAmax_wf (seat : Nat) (w : Fields) (s : State) (hwf : Memory.wf s.mem = true) : NextWf (execAmax seat w s) := atomic_wf hwf

theorem execAswap_wf (seat : Nat) (w : Fields) (s : State) (hwf : Memory.wf s.mem = true) : NextWf (execAswap seat w s) := atomic_wf hwf

theorem execAcas_wf (seat : Nat) (w : Fields) (s : State) (hwf : Memory.wf s.mem = true) : NextWf (execAcas seat w s) := atomic_wf hwf

theorem execAld_wf (seat : Nat) (w : Fields) (s : State) (hwf : Memory.wf s.mem = true) : NextWf (execAld seat w s) := atomic_wf hwf

/-! ### Gather and scatter (R122 to R124) -/

theorem execVgather_wf (seat : Nat) (w : Fields) (s : State) (hwf : Memory.wf s.mem = true) : NextWf (execVgather seat w s) := by
  refine issueNext_wf hwf fun t => ?_
  dsimp only
  (repeat' split) <;> simp -implicitDefEqProofs [hwf]

theorem execVscatter_wf (seat : Nat) (w : Fields) (s : State) (hwf : Memory.wf s.mem = true) : NextWf (execVscatter seat w s) := by
  refine issueNext_wf hwf fun t => ?_
  dsimp only
  (repeat' split) <;> simp -implicitDefEqProofs [hwf]

theorem execXscadd_wf (seat : Nat) (w : Fields) (s : State) (hwf : Memory.wf s.mem = true) : NextWf (execXscadd seat w s) := by
  refine issueNext_wf hwf fun t => ?_
  dsimp only
  (repeat' split) <;> simp -implicitDefEqProofs [hwf]

/-! ### Performing transactions (R66, R77, R78, R81, R134) -/

@[simp] theorem performAtomic_wf (s : State) (a : Access) (op : AtomicOp) (rd n addr : Nat) (arg cmp : W64) (pois : Bool) (hwf : Memory.wf s.mem = true) :
    Memory.wf (performAtomic s a op rd n addr arg cmp pois).mem = true := by
  unfold performAtomic
  dsimp only
  (repeat' split) <;> simp -implicitDefEqProofs [hwf]

@[simp] theorem performScadd_wf (s : State) (adds : List (Nat × AddVal)) (b : Nat) (hwf : Memory.wf s.mem = true) :
    Memory.wf (performScadd s adds b).1.mem = true := by
  unfold performScadd
  dsimp only
  (repeat' split) <;> simp -implicitDefEqProofs [hwf]

@[simp] theorem performBlock_wf (s : State) (c : Nat) (a : Access) (b : Nat) (hwf : Memory.wf s.mem = true) :
    Memory.wf (performBlock s c a b).mem = true := by
  unfold performBlock
  dsimp only
  (repeat' split) <;> simp -implicitDefEqProofs [hwf]

@[simp] theorem refuseBlock_mem (s : State) (c : Nat) (a : Access) (b : Nat) : (refuseBlock s c a b).mem = s.mem := by
  simp [refuseBlock]

@[simp] theorem reachBlock_wf (s : State) (c : Nat) (a : Access) (b : Nat) (hwf : Memory.wf s.mem = true) :
    Memory.wf (reachBlock s c a b).mem = true := by
  simp [reachBlock, hwf]

@[simp] theorem finishLoad_mem (s : State) (c : Nat) (a : Access) : (finishLoad s c a).mem = s.mem := by
  unfold finishLoad
  dsimp only
  (repeat' split) <;> simp

theorem execLoadReturn_wf (coach id : Nat) (s : State) (hwf : Memory.wf s.mem = true) : NextWf (execLoadReturn coach id s) := by
  unfold execLoadReturn
  dsimp only
  (repeat' split) <;> simp [hwf]

/-! ### Dray engines -/

theorem execDsub_wf (seat : Nat) (w : Fields) (s : State) (hwf : Memory.wf s.mem = true) : NextWf (execDsub seat w s) := by
  refine issueNext_wf hwf fun t => ?_
  obtain ⟨exc, hexc⟩ : ∃ f, firstExc = f := ⟨_, rfl⟩
  obtain ⟨queue, hqueue⟩ : ∃ f, drayQ = f := ⟨_, rfl⟩
  obtain ⟨win, hwin⟩ : ∃ f, seatWin = f := ⟨_, rfl⟩
  rw [hexc, hqueue, hwin]
  dsimp only
  (repeat' split) <;> simp -implicitDefEqProofs [hwf]

theorem execDwait_wf (seat : Nat) (w : Fields) (s : State) (hwf : Memory.wf s.mem = true) : NextWf (execDwait seat w s) := by
  refine issueNext_wf hwf fun t => ?_
  dsimp only
  (repeat' split) <;> simp [hwf]

theorem execDcnt_wf (seat : Nat) (w : Fields) (s : State) (hwf : Memory.wf s.mem = true) : NextWf (execDcnt seat w s) :=
  issueNext_wf hwf fun _ => (doneSeat_wf _ _ _).2 hwf

@[simp] theorem drayFault_mem (s : State) (c e : Nat) (d : DrayDesc) (code : Nat) : (drayFault s c e d code).mem = s.mem := by
  simp [drayFault]

theorem execDrayTransaction_wf (coach engine : Nat) (s : State) (hwf : Memory.wf s.mem = true) :
    NextWf (execDrayTransaction coach engine s) := by
  unfold execDrayTransaction
  dsimp only
  (repeat' split) <;> simp [hwf]

@[simp] theorem performDray_wf (s : State) (c e : Nat) (d : DrayDesc) (k : Nat) (hwf : Memory.wf s.mem = true) :
    Memory.wf (performDray s c e d k).mem = true := by
  unfold performDray
  dsimp only
  (repeat' split) <;> simp -implicitDefEqProofs [hwf]

@[simp] theorem transact_wf (s : State) (coach id block : Nat) (hwf : Memory.wf s.mem = true) :
    Memory.wf (transact s coach id block).mem = true := by
  unfold transact
  dsimp only
  (repeat' split) <;> simp [hwf]

@[simp] theorem wakeDray_mem (s : State) (c : Nat) : (wakeDray s c).mem = s.mem := by
  unfold wakeDray
  refine foldl_mem (fun _ _ => ?_) _ _
  dsimp only
  (repeat' split) <;> simp

@[simp] theorem drayComplete_mem (s : State) (coach engine : Nat) : (drayComplete s coach engine).mem = s.mem := by
  unfold drayComplete
  dsimp only
  (repeat' split) <;> simp

/-! ### Fences and barriers (R79, R125, R126) -/

theorem execFence_wf (seat : Nat) (w : Fields) (s : State) (hwf : Memory.wf s.mem = true) : NextWf (execFence seat w s) :=
  issueNext_wf hwf fun _ => (doneSeat_wf _ _ _).2 hwf

theorem execFenceComplete_wf (seat : Nat) (s : State) (hwf : Memory.wf s.mem = true) : NextWf (execFenceComplete seat s) := by
  unfold execFenceComplete
  dsimp only
  (repeat' split) <;> simp [hwf]

theorem execBar_wf (seat : Nat) (w : Fields) (s : State) (hwf : Memory.wf s.mem = true) : NextWf (execBar seat w s) := by
  refine issueNext_wf hwf fun t => ?_
  dsimp only
  (repeat' split) <;> simp [hwf]

theorem execBarrierRelease_wf (coach scope : Nat) (s : State) (hwf : Memory.wf s.mem = true) :
    NextWf (execBarrierRelease coach scope s) := by
  unfold execBarrierRelease
  dsimp only
  (repeat' split) <;> simp -implicitDefEqProofs [hwf]

/-! ### Launch, beats, random numbers, system (R127, R128, R131, R132) -/

theorem execLaunch_wf (seat : Nat) (w : Fields) (s : State) (hwf : Memory.wf s.mem = true) : NextWf (execLaunch seat w s) := by
  refine issueNext_wf hwf fun t => ?_
  dsimp only
  (repeat' split) <;> simp [hwf]

theorem execBwait_wf (seat : Nat) (w : Fields) (s : State) (hwf : Memory.wf s.mem = true) : NextWf (execBwait seat w s) := by
  refine issueNext_wf hwf fun t => ?_
  dsimp only
  (repeat' split) <;> simp [hwf]

theorem execBread_wf (seat : Nat) (w : Fields) (s : State) (hwf : Memory.wf s.mem = true) : NextWf (execBread seat w s) :=
  issueNext_wf hwf fun _ => (doneSeat_wf _ _ _).2 hwf

theorem execRctx_wf (seat : Nat) (w : Fields) (s : State) (hwf : Memory.wf s.mem = true) : NextWf (execRctx seat w s) :=
  issueNext_wf hwf fun _ => (doneSeat_wf _ _ _).2 hwf

theorem execRand_wf (seat : Nat) (w : Fields) (s : State) (hwf : Memory.wf s.mem = true) : NextWf (execRand seat w s) :=
  issueNext_wf hwf fun _ => (doneSeat_wf _ _ _).2 hwf

theorem execNop_wf (seat : Nat) (w : Fields) (s : State) (hwf : Memory.wf s.mem = true) : NextWf (execNop seat w s) :=
  issueNext_wf hwf fun _ => .done _ hwf

theorem execHalt_wf (seat : Nat) (w : Fields) (s : State) (hwf : Memory.wf s.mem = true) : NextWf (execHalt seat w s) := by
  refine issueNext_wf hwf fun t => ?_
  dsimp only
  simp [hwf]

theorem execTrap_wf (seat : Nat) (w : Fields) (s : State) (hwf : Memory.wf s.mem = true) : NextWf (execTrap seat w s) :=
  issueNext_wf hwf fun _ => Res.wf_exc _

end Sys2Proof.Machine

/-! PROOFS. Canonical memory (O59): the snapshot store and the Coupler ports. -/

namespace Sys2Proof.Machine

/-! ### Chapter 08: the snapshot store in module memory: slots, generation records, manifests, chunk codes -/

@[simp] theorem slotWrite_wf (s : State) (i off : Nat) (bs : List Byte) (pois : List Nat := []) (hwf : Memory.wf s.mem = true) :
    Memory.wf (slotWrite s i off bs pois).mem = true := by
  simp -implicitDefEqProofs [slotWrite, hwf]

/-! ### The generation record (Table 8.2) -/

@[simp] theorem syncSlot_mem (s : State) (i : Nat) : (syncSlot s i).mem = s.mem := by
  simp [syncSlot]

@[simp] theorem setSlotState_wf (s : State) (i st : Nat) (hwf : Memory.wf s.mem = true) :
    Memory.wf (setSlotState s i st).mem = true := by
  simp [setSlotState, hwf]

@[simp] theorem emptySlot_wf (s : State) (i : Nat) (hwf : Memory.wf s.mem = true) : Memory.wf (emptySlot s i).mem = true := by
  simp [emptySlot, hwf]

@[simp] theorem fixStore_mem (s : State) : (fixStore s).mem = s.mem := by
  simp [fixStore]

@[simp] theorem snapFlags_mem (s : State) : (snapFlags s).mem = s.mem := by
  simp [snapFlags]

@[simp] theorem restoreSlots_wf (s : State) (hwf : Memory.wf s.mem = true) : Memory.wf (restoreSlots s).mem = true := by
  have slots : Memory.wf ((rangeFrom 0 (slotCount (snapMode s))).foldl (fun s i =>
      if recordOk s i ∧ slotState s i ≠ 3 then syncSlot s i else emptySlot s i) s).mem = true :=
    foldl_memSound (fun u i hu => by split <;> simp -implicitDefEqProofs [hu]) _ hwf
  unfold restoreSlots
  generalize List.foldl _ _ _ = t at slots ⊢
  dsimp only
  rw [← memSound_iff]
  split
  · rw [memSound_iff, putSnap_mem]
    exact slots
  · exact slots

@[simp] theorem emptyStore_wf (s : State) (hwf : Memory.wf s.mem = true) : Memory.wf (emptyStore s).mem = true := by
  simp +contextual -implicitDefEqProofs [emptyStore, foldl_wf, hwf]

/-! ### Lanes -/

@[simp] theorem lineOut_mem (s : State) (n : Nat) : (lineOut s n).mem = s.mem := by
  simp [lineOut]

/-! ### Link frames (R288) -/

@[simp] theorem sendFrame_mem (s : State) (n word : Nat) (flits : List (List Byte)) : (sendFrame s n word flits).mem = s.mem := by
  simp [sendFrame]

@[simp] theorem sendFrames_mem (n l replay fseq) : ∀ (k fs) (s : State), (sendFrames n l replay fseq k fs s).mem = s.mem := by
  intro k
  induction k with
  | zero => intro fs s; rfl
  | succ k ih => intro fs s; simp only [sendFrames]; split <;> simp [ih]

@[simp] theorem sendLinkWord_mem (s : State) (n : Nat) (replay : Bool) (fseq : Nat) : (sendLinkWord s n replay fseq).mem = s.mem := by
  simp [sendLinkWord]

@[simp] theorem lineFlit_mem (s : State) (n : Nat) (seq : Option Nat) (bytes : List Byte) : (lineFlit s n seq bytes).mem = s.mem := by
  simp [lineFlit]

@[simp] theorem sendPlain_mem (s : State) (n header : Nat) (payload : List Byte) : (sendPlain s n header payload).mem = s.mem := by
  simp [sendPlain]

/-! ### Training frames (R276, Table 10.4) -/

@[simp] theorem sendPattern_mem (s : State) (n lane : Nat) : (sendPattern s n lane).mem = s.mem := by
  simp [sendPattern]

@[simp] theorem sendTrainFrame_mem (s : State) (n lane word : Nat) : (sendTrainFrame s n lane word).mem = s.mem := by
  simp [sendTrainFrame]

/-! ### Chapter 10: flits, acknowledgement, replay and credits, port states and what leaving ACTIVE does -/

@[simp] theorem setPortSt_mem (s : State) (n st : Nat) : (setPortSt s n st).mem = s.mem := by
  simp [setPortSt]

/-! ### Sending -/

@[simp] theorem putFlit_mem (s : State) (n vc : Nat) (o : Out) : (putFlit s n vc o).mem = s.mem := by
  simp [putFlit]

@[simp] theorem pumpList_mem (n) : ∀ (l blocked) (s : State), (pumpList s n l blocked).mem = s.mem := by
  intro l
  induction l with
  | nil => intro blocked s; rfl
  | cons o l ih => intro blocked s; simp only [pumpList]; split <;> simp [ih]

@[simp] theorem pump_mem (s : State) (n : Nat) : (pump s n).mem = s.mem := by
  simp [pump]

@[simp] theorem sendTagged_mem (s : State) (n kind vc low : Nat) (payload : List Byte) (tag : List Nat) :
    (sendTagged s n kind vc low payload tag).mem = s.mem := by
  simp [sendTagged]

@[simp] theorem sendFlit_mem (s : State) (n kind vc low : Nat) (payload : List Byte) :
    (sendFlit s n kind vc low payload).mem = s.mem := by
  simp [sendFlit]

@[simp] theorem forwardFlit_mem (s : State) (src dst kind low uid : Nat) (payload : List Byte) :
    (forwardFlit s src dst kind low uid payload).mem = s.mem := by
  simp [forwardFlit]

@[simp] theorem sendCtl_mem (s : State) (n code : Nat) (fields : List (Nat × Nat)) : (sendCtl s n code fields).mem = s.mem := by
  simp [sendCtl]

/-! ### Leaving and entering states -/

@[simp] theorem mirrorLost_wf (s : State) (n : Nat) (hwf : Memory.wf s.mem = true) : Memory.wf (mirrorLost s n).mem = true := by
  unfold mirrorLost
  dsimp only
  (repeat' split) <;> simp [hwf]

@[simp] theorem quietPort_wf (s : State) (n st : Nat) (hwf : Memory.wf s.mem = true) : Memory.wf (quietPort s n st).mem = true := by
  simp [quietPort, hwf]

@[simp] theorem hubFrame_mem (s : State) (n phase lane : Nat) (ready : Bool) (req good : Nat) :
    (hubFrame s n phase lane ready req good).mem = s.mem := by
  simp [hubFrame]

@[simp] theorem hubFrames_mem (s : State) (n phase good : Nat) : (hubFrames s n phase good).mem = s.mem := by
  simp [hubFrames]

@[simp] theorem enterDetect_wf (s : State) (n : Nat) (hwf : Memory.wf s.mem = true) : Memory.wf (enterDetect s n).mem = true := by
  simp -implicitDefEqProofs [enterDetect, hwf]

@[simp] theorem portFail_wf (s : State) (n code : Nat) (hwf : Memory.wf s.mem = true) : Memory.wf (portFail s n code).mem = true := by
  simp -implicitDefEqProofs [portFail, hwf]

@[simp] theorem retrain_wf (s : State) (n : Nat) (hwf : Memory.wf s.mem = true) : Memory.wf (retrain s n).mem = true := by
  simp [retrain, hwf]

@[simp] theorem protocolError_wf (s : State) (n kind code : Nat) (hwf : Memory.wf s.mem = true) :
    Memory.wf (protocolError s n kind code).mem = true := by
  simp [protocolError, hwf]

@[simp] theorem linkDown_wf (s : State) (n : Nat) (hwf : Memory.wf s.mem = true) : Memory.wf (linkDown s n).mem = true := by
  simp [linkDown, hwf]

@[simp] theorem disableNow_wf (s : State) (n : Nat) (hwf : Memory.wf s.mem = true) : Memory.wf (disableNow s n).mem = true := by
  simp -implicitDefEqProofs [disableNow, hwf]

@[simp] theorem disablePort_wf (s : State) (n : Nat) (hwf : Memory.wf s.mem = true) : Memory.wf (disablePort s n).mem = true := by
  simp [disablePort, hwf]

/-! ### Receiving -/

@[simp] theorem crcFailed_mem (s : State) (n kind : Nat) : (crcFailed s n kind).mem = s.mem := by
  simp [crcFailed]

@[simp] theorem acceptSeq_wf (s : State) (f : Flit) (hwf : Memory.wf s.mem = true) : Memory.wf (acceptSeq s f).1.mem = true := by
  unfold acceptSeq
  dsimp only
  (repeat' split) <;> simp [hwf]

@[simp] theorem passOn_mem (s : State) (n vc : Nat) : (passOn s n vc).mem = s.mem := by
  simp [passOn]

@[simp] theorem takeFlit_wf (s : State) (f : Flit) (kind vc : Nat) (ok : Bool) (hwf : Memory.wf s.mem = true) :
    Memory.wf (takeFlit s f kind vc ok).1.mem = true := by
  unfold takeFlit
  dsimp only
  (repeat' split) <;> simp [hwf]

@[simp] theorem takeCtlFlit_wf (s : State) (c : Ctl) (hwf : Memory.wf s.mem = true) : Memory.wf (takeCtlFlit s c).1.mem = true := by
  unfold takeCtlFlit
  dsimp only
  (repeat' split) <;> simp [hwf]

@[simp] theorem takeCtl_wf (s : State) (c : Ctl) (code : Nat) (dir : Bool) (hwf : Memory.wf s.mem = true) :
    Memory.wf (takeCtl s c code dir).1.mem = true := by
  unfold takeCtl
  dsimp only
  (repeat' split) <;> simp [hwf]

/-! ### Link words (R288, Table 10.9) -/

@[simp] theorem resend_mem (s : State) (n a : Nat) : (resend s n a).mem = s.mem := by
  simp [resend]

theorem execLinkWord_wf (port : Nat) (word : W64) (later : Bool) (s : State) (hwf : Memory.wf s.mem = true) :
    NextWf (execLinkWord port word later s) := by
  unfold execLinkWord
  dsimp only
  (repeat' split) <;> simp -implicitDefEqProofs [hwf]

theorem execCplLinkDown_wf (port : Nat) (s : State) (hwf : Memory.wf s.mem = true) : NextWf (execCplLinkDown port s) := by
  unfold execCplLinkDown
  (repeat' split) <;> simp [hwf]

theorem execFailedFlit_wf (port : Nat) (fault : FlitFault) (kinds : List Nat) (s : State) (hwf : Memory.wf s.mem = true) :
    NextWf (execFailedFlit port fault kinds s) := by
  unfold execFailedFlit
  dsimp only
  (repeat' split) <;> simp -implicitDefEqProofs [hwf]

theorem execFecRateSecond_wf (port symbols : Nat) (s : State) (hwf : Memory.wf s.mem = true) :
    NextWf (execFecRateSecond port symbols s) := by
  unfold execFecRateSecond
  dsimp only
  (repeat' split) <;> simp [hwf]

theorem execCompensationFrame_wf (port : Nat) (s : State) (hwf : Memory.wf s.mem = true) : NextWf (execCompensationFrame port s) := by
  unfold execCompensationFrame
  dsimp only
  (repeat' split) <;> simp [hwf]

theorem execCplLaneLost_wf (port lane : Nat) (s : State) (hwf : Memory.wf s.mem = true) : NextWf (execCplLaneLost port lane s) := by
  unfold execCplLaneLost
  dsimp only
  (repeat' split) <;> simp [hwf]

/-! ### Chapter 08: mirrors between hubs (R240, R241, R301) -/

@[simp] theorem mirPump_mem (s : State) : (mirPump s).mem = s.mem := by
  unfold mirPump
  (repeat' split) <;> simp

@[simp] theorem startMirror_mem (s : State) : (startMirror s).mem = s.mem := by
  unfold startMirror
  dsimp only
  (repeat' split) <;> simp

@[simp] theorem sendMirSlots_mem (s : State) : (sendMirSlots s).mem = s.mem := by
  simp [sendMirSlots]

@[simp] theorem dropMirror_mem (s : State) : (dropMirror s).mem = s.mem := by
  simp [dropMirror]

@[simp] theorem restartMirror_mem (s : State) : (restartMirror s).mem = s.mem := by
  unfold restartMirror
  dsimp only
  (repeat' split) <;> simp

@[simp] theorem mirrorUp_mem (s : State) (n : Nat) : (mirrorUp s n).mem = s.mem := by
  simp [mirrorUp]

@[simp] theorem servePump_mem (s : State) (credits : Nat) : (servePump s credits).mem = s.mem := by
  unfold servePump
  (repeat' split) <;> simp

@[simp] theorem openServe_mem (s : State) (i : Nat) : (openServe s i).mem = s.mem := by
  simp [openServe]

@[simp] theorem setOrigin_wf (s : State) (i o : Nat) (hwf : Memory.wf s.mem = true) : Memory.wf (setOrigin s i o).mem = true := by
  simp [setOrigin, hwf]

@[simp] theorem mirrorFlit_wf (s : State) (f : Flit) (m : MirrorIn) (hwf : Memory.wf s.mem = true) :
    Memory.wf (mirrorFlit s f m).mem = true := by
  simp [mirrorFlit, hwf]

/-! ### Chapter 10: training of a Coupler port (R275 to R284) -/

theorem execPortEnable_wf (port : Nat) (s : State) (hwf : Memory.wf s.mem = true) : NextWf (execPortEnable port s) := by
  unfold execPortEnable
  (repeat' split) <;> simp [hwf]

@[simp] theorem equalizeFrame_mem (s : State) (n lane w : Nat) (ready : Bool) (reqOp reqTap : Nat) :
    (equalizeFrame s n lane w ready reqOp reqTap).mem = s.mem := by
  simp [equalizeFrame]

@[simp] theorem enterLaneTest_mem (s : State) (n : Nat) : (enterLaneTest s n).mem = s.mem := by
  simp [enterLaneTest]

@[simp] theorem sendAlign_mem (s : State) (n : Nat) : (sendAlign s n).mem = s.mem := by
  simp [sendAlign]

@[simp] theorem fillAlign_mem (s : State) (n : Nat) : (fillAlign s n).mem = s.mem := by
  simp [fillAlign]

@[simp] theorem enterAlign_mem (s : State) (n : Nat) : (enterAlign s n).mem = s.mem := by
  simp -implicitDefEqProofs [enterAlign]

@[simp] theorem fixWidth_wf (s : State) (n used : Nat) (hwf : Memory.wf s.mem = true) : Memory.wf (fixWidth s n used).mem = true := by
  simp [fixWidth, hwf]

@[simp] theorem masksMet_wf (s : State) (n : Nat) (hwf : Memory.wf s.mem = true) : Memory.wf (masksMet s n).mem = true := by
  unfold masksMet
  (repeat' split) <;> simp [hwf]

@[simp] theorem closingFrame_wf (s : State) (n w : Nat) (hwf : Memory.wf s.mem = true) :
    Memory.wf (closingFrame s n w).mem = true := by
  simp [closingFrame, hwf]

theorem execTrainingFrame_wf (port lane : Nat) (word : W64) (ready : Bool) (reqOp reqTap : Nat) (s : State) (hwf : Memory.wf s.mem = true) :
    NextWf (execTrainingFrame port lane word ready reqOp reqTap s) := by
  unfold execTrainingFrame
  dsimp only
  (repeat' split) <;> simp [hwf]

theorem execTrainingTimeout_wf (port : Nat) (s : State) (hwf : Memory.wf s.mem = true) : NextWf (execTrainingTimeout port s) := by
  unfold execTrainingTimeout
  dsimp only
  (repeat' split) <;> simp [hwf]

@[simp] theorem testFrame_wf (port lane : Nat) (word : W64) (s : State) (hwf : Memory.wf s.mem = true) :
    Memory.wf (testFrame port lane word s).mem = true := by
  simp [testFrame, hwf]

theorem execLaneTestEnd_wf (port : Nat) (errors snr : List Nat) (closing : List (Nat × W64)) (s : State) (hwf : Memory.wf s.mem = true) :
    NextWf (execLaneTestEnd port errors snr closing s) := by
  have tested (l : List (Nat × W64)) (u : State) (hu : Memory.wf u.mem = true) :
      Memory.wf (l.foldl (fun s e => testFrame port e.1 e.2 s) u).mem = true :=
    foldl_wf (fun _ _ hv => by simp [hv]) _ hu
  unfold execLaneTestEnd
  split
  · rw [nextWf_next]
    exact tested _ _ (by simp -implicitDefEqProofs [hwf])
  · simpa using hwf

@[simp] theorem sendConfig_mem (s : State) (n part : Nat) (payload : List Byte) : (sendConfig s n part payload).mem = s.mem := by
  simp [sendConfig]

@[simp] theorem sendPart0_mem (s : State) (n : Nat) : (sendPart0 s n).mem = s.mem := by
  simp [sendPart0]

@[simp] theorem repeatPart0_mem (s : State) (n : Nat) : (repeatPart0 s n).mem = s.mem := by
  simp [repeatPart0]

@[simp] theorem enterConfig_mem (s : State) (n : Nat) : (enterConfig s n).mem = s.mem := by
  simp -implicitDefEqProofs [enterConfig]

theorem execAlign_wf (f : Flit) (lock : Bool) (s : State) (hwf : Memory.wf s.mem = true) : NextWf (execAlign f lock s) := by
  unfold execAlign
  dsimp only
  (repeat' split) <;> simp [hwf]

@[simp] theorem portUp_mem (s : State) (n : Nat) : (portUp s n).mem = s.mem := by
  simp -implicitDefEqProofs [portUp]

@[simp] theorem sendParts_mem (s : State) (n : Nat) (part0 : List Byte) : (sendParts s n part0).mem = s.mem := by
  simp [sendParts]

@[simp] theorem takePart_wf (s : State) (port part : Nat) (payload : List Byte) (hwf : Memory.wf s.mem = true) :
    Memory.wf (takePart s port part payload).mem = true := by
  simp [takePart, hwf]

theorem execConfig_wf (port : Nat) (header : W64) (rest : List Byte) (s : State) (hwf : Memory.wf s.mem = true) :
    NextWf (execConfig port header rest s) := by
  unfold execConfig
  dsimp only
  (repeat' split) <;> simp [hwf]

theorem execPortFailedRetry_wf (port : Nat) (s : State) (hwf : Memory.wf s.mem = true) : NextWf (execPortFailedRetry port s) := by
  unfold execPortFailedRetry
  (repeat' split) <;> simp [hwf]

@[simp] theorem retestNow_wf (s : State) (n : Nat) (hwf : Memory.wf s.mem = true) : Memory.wf (retestNow s n).mem = true := by
  simp [retestNow, hwf]

@[simp] theorem retest_wf (s : State) (n : Nat) (hwf : Memory.wf s.mem = true) : Memory.wf (retest s n).mem = true := by
  simp [retest, hwf]

theorem execCplRetest_wf (port : Nat) (s : State) (hwf : Memory.wf s.mem = true) : NextWf (execCplRetest port s) := by
  simp [execCplRetest, hwf]

@[simp] theorem retestDue_wf (s : State) (hwf : Memory.wf s.mem = true) : Memory.wf (retestDue s).mem = true := by
  simp +contextual -implicitDefEqProofs [retestDue, foldl_wf, hwf]

end Sys2Proof.Machine

/-! PROOFS. Canonical memory (O59): rings, requests and kernels. -/

namespace Sys2Proof.Machine

/-! ### Ring configuration. Host rings are 0 to 255, partner ring k of port n is 0x1000 + 16n + k -/

@[simp] theorem dropFrame_mem (s : State) (p : Nat) : (dropFrame s p).mem = s.mem := by
  simp [dropFrame]

@[simp] theorem rdmaOut_mem (s : State) (k : Nat) (o : Out) : (rdmaOut s k o).mem = s.mem := by
  unfold rdmaOut
  dsimp only
  (repeat' split) <;> simp

@[simp] theorem rdmaEmit_mem (s : State) (k : Nat) (args : List Nat) (data : List Byte := []) :
    (rdmaEmit s k args data).mem = s.mem := by
  simp [rdmaEmit]

@[simp] theorem rdmaSend_mem (s : State) (conn addr key : Nat) (data : List Byte) (drain : Option Nat) :
    (rdmaSend s conn addr key data drain).mem = s.mem := by
  unfold rdmaSend
  dsimp only
  (repeat' split) <;> simp

@[simp] theorem notifyWord_mem (s : State) (r : Nat) : (notifyWord s r).mem = s.mem := by
  unfold notifyWord
  (repeat' split) <;> simp

/-! ### Completion entries (R343, R306) -/

@[simp] theorem placeBody_wf (s : State) (q i : Nat) (m : List Byte) (hwf : Memory.wf s.mem = true) :
    Memory.wf (placeBody s q i m).1.mem = true := by
  unfold placeBody
  dsimp only
  (repeat' split) <;> simp -implicitDefEqProofs [hwf]

@[simp] theorem putEntry_wf (s : State) (q : Nat) (m : List Byte) (hwf : Memory.wf s.mem = true) :
    Memory.wf (putEntry s q m).mem = true := by
  simp -implicitDefEqProofs [putEntry, hwf]

@[simp] theorem postEntry_wf (s : State) (q : Nat) (e : List Byte) (hwf : Memory.wf s.mem = true) :
    Memory.wf (postEntry s q e).mem = true := by
  simp [postEntry, hwf]

@[simp] theorem postWaiting_wf (q) : ∀ (l) (s : State), Memory.wf s.mem = true → Memory.wf (postWaiting s q l).mem = true := by
  intro l
  induction l with
  | nil => intro s h; exact h
  | cons e l ih =>
    intro s h
    simp only [postWaiting]
    split
    · exact ih _ (putEntry_wf _ _ _ h)
    · exact h

@[simp] theorem ringDrained_wf (s : State) (q : Nat) (hwf : Memory.wf s.mem = true) : Memory.wf (ringDrained s q).mem = true := by
  simp [ringDrained, hwf]

@[simp] theorem giveCredits_mem (s : State) (q n : Nat) : (giveCredits s q n).mem = s.mem := by
  simp [giveCredits]

@[simp] theorem takeEntry_mem (s : State) (q : Nat) : (takeEntry s q).mem = s.mem := by
  simp [takeEntry]

@[simp] theorem grantCredits_mem (s : State) : (grantCredits s).mem = s.mem := by
  simp [grantCredits]

/-! ### Messages to a role -/

@[simp] theorem postMsg_wf (s : State) (role code type status seq retry detail : Nat) (body : List Byte) (hwf : Memory.wf s.mem = true) :
    Memory.wf (postMsg s role code type status seq retry detail body).mem = true := by
  simp [postMsg, hwf]

@[simp] theorem notifyRole_wf (s : State) (role code : Nat) (body : List Byte) (hwf : Memory.wf s.mem = true) :
    Memory.wf (notifyRole s role code body).mem = true := by
  simp [notifyRole, hwf]

@[simp] theorem eventTo_wf (s : State) (role kind : Nat) (data : List Byte) (hwf : Memory.wf s.mem = true) :
    Memory.wf (eventTo s role kind data).mem = true := by
  simp [eventTo, hwf]

@[simp] theorem emitEvent_wf (s : State) (kind : Nat) (data : List Byte) (hwf : Memory.wf s.mem = true) :
    Memory.wf (emitEvent s kind data).mem = true := by
  simp [emitEvent, hwf]

/-! ### Requests (R354 to R358) -/

@[simp] theorem takeFree_mem (s : State) : (takeFree s).1.mem = s.mem := by
  simp [takeFree]

@[simp] theorem freeRetry_mem (s : State) : (freeRetry s).1.mem = s.mem := by
  simp [freeRetry]

@[simp] theorem reply_wf (s : State) (q : Req) (code : Nat) (a : Ans) (hwf : Memory.wf s.mem = true) :
    Memory.wf (reply s q code a).mem = true := by
  unfold reply
  dsimp only
  (repeat' split) <;> simp [hwf]

@[simp] theorem markSession_mem (s : State) (q : Req) : (markSession s q).mem = s.mem := by
  unfold markSession
  dsimp only
  (repeat' split) <;> simp

@[simp] theorem heardFrom_mem (s : State) (q : Req) : (heardFrom s q).mem = s.mem := by
  unfold heardFrom
  dsimp only
  (repeat' split) <;> simp

@[simp] theorem arrive_wf (s : State) (q : Req) (code : Nat) (body : List Byte) (serve : State → State) (h : Memory.wf s.mem = true)
    (hs : Memory.wf (serve s).mem = true) : Memory.wf (arrive s q code body serve).mem = true := by
  unfold arrive
  repeat' split
  all_goals simp [h, hs]

theorem request_wf {s : State} {q : Req} {body : List Byte} {code : Nat} {allowed lenOk : Bool} {boot : Option Nat} {bare : Bool}
    {act : State → State × Option Ans} (h : Memory.wf s.mem = true) (hact : ∀ u, Memory.wf u.mem = true → Memory.wf (act u).1.mem = true) :
    Memory.wf (request s q body code allowed lenOk boot bare act).mem = true := by
  have served := hact (heardFrom s q) (by simpa using h)
  unfold request
  dsimp only
  generalize act (heardFrom s q) = p at served ⊢
  obtain ⟨u, ans⟩ := p
  dsimp only at served
  cases ans <;> dsimp only <;> (repeat' split) <;> simp [served, h]

@[simp] theorem answerOwed_wf (s : State) (code : Nat) (role : Option Nat) (a : Ans) (hwf : Memory.wf s.mem = true) :
    Memory.wf (answerOwed s code role a).mem = true := by
  unfold answerOwed
  dsimp only
  (repeat' split) <;> simp [hwf]

@[simp] theorem abortOwed_wf (s : State) (role : Nat) (hwf : Memory.wf s.mem = true) : Memory.wf (abortOwed s role).mem = true := by
  simp +contextual -implicitDefEqProofs [abortOwed, foldl_wf, hwf]

@[simp] theorem msgUnknown_wf (q : Req) (code : Nat) (body : List Byte) (s : State) (hwf : Memory.wf s.mem = true) :
    Memory.wf (msgUnknown q code body s).mem = true := by
  refine request_wf hwf fun u hu => ?_
  dsimp only
  simp [hu]

theorem execUnknownCode_wf (q : Req) (code : Nat) (body : List Byte) (s : State) (hwf : Memory.wf s.mem = true) :
    NextWf (execUnknownCode q code body s) := by
  simp [execUnknownCode, hwf]

/-! ### How a kernel's completion reaches its launch source (R88, R212) -/

@[simp] theorem reportKernel_wf (s : State) (src : LaunchSrc) (status : Nat) (result : List Byte) (hwf : Memory.wf s.mem = true) :
    Memory.wf (reportKernel s src status result).mem = true := by
  unfold reportKernel
  dsimp only
  (repeat' split) <;> simp [hwf]

/-! ### Launching, timing out and completing kernels (R83 to R90, R264 to R267, Tables 3.8 to 3.10) -/

@[simp] theorem completeLaunch_wf (s : State) (t : Nat) (k : Kernel) (status : Nat) (hwf : Memory.wf s.mem = true) :
    Memory.wf (completeLaunch s t k status).mem = true := by
  simp -implicitDefEqProofs [completeLaunch, hwf]

theorem execLaunchBlockStart_wf (train : Nat) (s : State) (hwf : Memory.wf s.mem = true) : NextWf (execLaunchBlockStart train s) := by
  unfold execLaunchBlockStart
  dsimp only
  (repeat' split) <;> simp -implicitDefEqProofs [hwf]

@[simp] theorem stageCode_wf (s : State) (rake : Nat) (k : Kernel) (hwf : Memory.wf s.mem = true) :
    Memory.wf (stageCode s rake k).mem = true := by
  simp -implicitDefEqProofs [stageCode, hwf]

@[simp] theorem loadCode_wf (s : State) (c : Nat) (k : Kernel) (hwf : Memory.wf s.mem = true) :
    Memory.wf (loadCode s c k).mem = true := by
  simp -implicitDefEqProofs [loadCode, hwf]

@[simp] theorem setUpCoach_wf (s : State) (t : Nat) (k : Kernel) (idx c : Nat) (hwf : Memory.wf s.mem = true) :
    Memory.wf (setUpCoach s t k idx c).mem = true := by
  simp -implicitDefEqProofs [setUpCoach, hwf]

@[simp] theorem startKernel_mem (s : State) (t : Nat) (k : Kernel) : (startKernel s t k).mem = s.mem := by
  simp -implicitDefEqProofs [startKernel]

@[simp] theorem endKernel_mem (s : State) (t : Nat) (k : Kernel) : (endKernel s t k).mem = s.mem := by
  simp [endKernel]

theorem execKernelCodeLoaded_wf (train : Nat) (s : State) (hwf : Memory.wf s.mem = true) : NextWf (execKernelCodeLoaded train s) := by
  have loaded (k : Kernel) : Memory.wf (((rangeFrom 0 k.coaches.length).zip k.coaches).foldl (fun s p => setUpCoach s train k p.1 p.2)
      ((kernelRakes k).foldl (fun s r => stageCode s r k) s)).mem = true :=
    foldl_wf (fun _ _ hu => by simp [hu]) _ (foldl_wf (fun _ _ hu => by simp [hu]) _ hwf)
  unfold execKernelCodeLoaded
  dsimp only
  repeat' split
  all_goals simp -implicitDefEqProofs [hwf, loaded]

theorem execKernelComplete_wf (train : Nat) (s : State) (hwf : Memory.wf s.mem = true) : NextWf (execKernelComplete train s) := by
  unfold execKernelComplete
  dsimp only
  (repeat' split) <;> simp [hwf]

theorem execKernelTimeout_wf (train : Nat) (s : State) (hwf : Memory.wf s.mem = true) : NextWf (execKernelTimeout train s) := by
  unfold execKernelTimeout
  dsimp only
  (repeat' split) <;> simp [hwf]

@[simp] theorem abortTrain_wf (s : State) (t : Nat) (hwf : Memory.wf s.mem = true) : Memory.wf (abortTrain s t).mem = true := by
  unfold abortTrain
  dsimp only
  rw [putTrain_mem]
  refine foldl_wf (fun _ _ hu => by simp [hu]) _ ?_
  split
  · rw [endKernel_mem]
    refine completeLaunch_wf _ _ _ _ ?_
    rw [foldl_mem fun _ _ => putCoach_mem _ _ _, stopKernel_mem]
    exact hwf
  · exact hwf

@[simp] theorem abortAllKernels_wf (s : State) (hwf : Memory.wf s.mem = true) : Memory.wf (abortAllKernels s).mem = true := by
  simp +contextual -implicitDefEqProofs [abortAllKernels, foldl_wf, hwf]

@[simp] theorem startDueKernels_wf (s : State) (held : Bool) (hwf : Memory.wf s.mem = true) :
    Memory.wf (startDueKernels s held).mem = true := by
  refine foldl_wf (fun u t hu => ?_) _ hwf
  repeat' split
  all_goals simp [hu]

@[simp] theorem serveG4c_mem (kept) : ∀ (fuel) (s : State), (serveG4c kept fuel s).mem = s.mem := by
  intro fuel
  induction fuel with
  | zero => intro s; rfl
  | succ fuel ih =>
    intro s
    simp only [serveG4c]
    repeat' split
    all_goals simp [ih]

end Sys2Proof.Machine

/-! PROOFS. Canonical memory (O59): optimizer steps and collectives. -/

namespace Sys2Proof.Machine

/-! ### Element programs (Table 7.7, R208) -/

@[simp] theorem addSum_mem (s : State) (x : Table) (r : StepRun) (k : Nat) (q : Nat) : (addSum s x r k q).1.mem = s.mem := by
  simp [addSum]

@[simp] theorem statePoison_mem (s : State) (x : Table) (a : Nat) : (statePoison s x a).mem = s.mem := by
  simp [statePoison]

/-! ### User programs (R212, Table 7.8) -/

@[simp] theorem userElement_mem (s : State) (x : Table) (r : StepRun) (g0 : Nat) : (userElement s x r g0).1.mem = s.mem := by
  simp [userElement]

@[simp] theorem userProduce_mem (s : State) (x : Table) (r : StepRun) : (userProduce s x r).1.mem = s.mem := by
  unfold userProduce
  dsimp only
  (repeat' split) <;> simp -implicitDefEqProofs

@[simp] theorem stepElement_wf (s : State) (x : Table) (r : StepRun) (l g0 : Nat) (hwf : Memory.wf s.mem = true) :
    Memory.wf (stepElement s x r l g0).1.mem = true := by
  have puts (l₁ l₂ : List (Nat × Byte)) : Memory.wf (putCells (putCells s.mem l₁) l₂) = true := by simp [hwf]
  unfold stepElement
  dsimp only
  repeat' split
  all_goals simp -implicitDefEqProofs [hwf, puts, -List.foldl_cons]

@[simp] theorem updateFactors_wf (s : State) (x : Table) (r : StepRun) (hwf : Memory.wf s.mem = true) :
    Memory.wf (updateFactors s x r).mem = true := by
  simp +contextual -implicitDefEqProofs [updateFactors, foldl_wf, hwf]

@[simp] theorem passTwo_wf (s : State) (x : Table) (r : StepRun) (hwf : Memory.wf s.mem = true) :
    Memory.wf (passTwo s x r).mem = true := by
  refine foldl_wf (fun u l hu => ?_) _ (updateFactors_wf s x r hwf)
  dsimp only
  repeat' split
  · exact hu
  · simp [hu]
  · simp [hu]

@[simp] theorem produceTo_wf (s : State) (x : Table) (r : StepRun) (n : Nat) (hwf : Memory.wf s.mem = true) :
    Memory.wf (produceTo s x r n).1.mem = true := by
  unfold produceTo
  split
  · exact hwf
  · refine foldl_fst_wf (fun p l hp => ?_) _ hwf
    dsimp only
    repeat' split
    all_goals simp [hp]

@[simp] theorem weightPoison_mem (s : State) (x : Table) (ls : List Nat) : (weightPoison s x ls).mem = s.mem := by
  simp [weightPoison]

@[simp] theorem writeWeights_wf (s : State) (t : Nat) (x : Table) (c : List Byte) (hwf : Memory.wf s.mem = true) :
    Memory.wf (writeWeights s t x c).mem = true := by
  simp +contextual -implicitDefEqProofs [writeWeights, foldl_wf, hwf]

/-! ### Chapter 07: how state commands end (R200, R206, R213, R224) -/

@[simp] theorem endCmd_wf (s : State) (c : Cmd) (status fld : Nat) (hwf : Memory.wf s.mem = true) :
    Memory.wf (endCmd s c status fld).mem = true := by
  simp [endCmd, hwf]

@[simp] theorem endStep_wf (s : State) (x : Table) (r : StepRun) (status : Nat) (hwf : Memory.wf s.mem = true) :
    Memory.wf (endStep s x r status).mem = true := by
  simp [endStep, hwf]

@[simp] theorem interrupt_mem (s : State) (t : Nat) (x : Table) : (interrupt s t x).mem = s.mem := by
  simp [interrupt]

@[simp] theorem dropChunks_mem (s : State) (t : Nat) : (dropChunks s t).mem = s.mem := by
  simp [dropChunks]

@[simp] theorem takeSteps_mem (s : State) (t : Nat) : (takeSteps s t).mem = s.mem := by
  refine foldl_mem (fun u o => ?_) _ _
  split <;> rfl

@[simp] theorem failLink_wf (s : State) (t : Nat) (raw : List Byte) (hwf : Memory.wf s.mem = true) :
    Memory.wf (failLink s t raw).mem = true := by
  unfold failLink
  dsimp only
  (repeat' split) <;> simp [hwf]

@[simp] theorem onRun_mem (s : State) (t : Nat) (f : StepRun → StepRun) : (onRun s t f).mem = s.mem := by
  unfold onRun
  dsimp only
  (repeat' split) <;> simp

@[simp] theorem outFailed_mem (s : State) (t : Nat) (raw : List Byte) (status : Nat) : (outFailed s t raw status).mem = s.mem := by
  unfold outFailed
  dsimp only
  (repeat' split) <;> simp

@[simp] theorem produceAll_wf (s : State) (t : Nat) (hwf : Memory.wf s.mem = true) : Memory.wf (produceAll s t).mem = true := by
  unfold produceAll
  dsimp only
  (repeat' split) <;> simp [hwf]

@[simp] theorem finishStep_wf (s : State) (t : Nat) (x : Table) (r : StepRun) (hwf : Memory.wf s.mem = true) :
    Memory.wf (finishStep s t x r).mem = true := by
  simp [finishStep, hwf]

/-! ### Caps (R360, R420, R431) -/

@[simp] theorem syncCaps_wf (s : State) (hwf : Memory.wf s.mem = true) : Memory.wf (syncCaps s).mem = true := by
  simp -implicitDefEqProofs [syncCaps, hwf]

/-! ### Throttle levels -/

@[simp] theorem syncLevels_mem (s : State) : (syncLevels s).mem = s.mem := by
  simp [syncLevels]

@[simp] theorem spreadNow_mem (s : State) (before : Nat → Nat) : (spreadNow s before).mem = s.mem := by
  simp [spreadNow]

@[simp] theorem setEmerg_wf (s : State) (l : List Nat) (hwf : Memory.wf s.mem = true) : Memory.wf (setEmerg s l).mem = true := by
  simp [setEmerg, hwf]

@[simp] theorem enterEmerg_wf (s : State) (e : Nat) (hwf : Memory.wf s.mem = true) : Memory.wf (enterEmerg s e).mem = true := by
  simp [enterEmerg, hwf]

@[simp] theorem leaveEmerg_wf (s : State) (e : Nat) (hwf : Memory.wf s.mem = true) : Memory.wf (leaveEmerg s e).mem = true := by
  simp [leaveEmerg, hwf]

/-! ### Held changes (R191, R192) -/

@[simp] theorem changePolicy_mem (s : State) (target : Nat → Nat) : (changePolicy s target).mem = s.mem := by
  simp [changePolicy]

@[simp] theorem changeShares_mem (s : State) (target : List Nat) : (changeShares s target).mem = s.mem := by
  simp [changeShares]

@[simp] theorem releaseHeld_mem (s : State) : (releaseHeld s).mem = s.mem := by
  simp [releaseHeld]

/-! ### Collectives -/

@[simp] theorem collReport_wf (s : State) (n : Nat) (e : List Byte) (hwf : Memory.wf s.mem = true) :
    Memory.wf (collReport s n e).mem = true := by
  simp [collReport, hwf]

@[simp] theorem linkEnded_wf (s : State) (id status : Nat) (hwf : Memory.wf s.mem = true) :
    Memory.wf (linkEnded s id status).mem = true := by
  simp +contextual -implicitDefEqProofs [linkEnded, foldl_wf, hwf]

@[simp] theorem outAborted_mem (s : State) (id : Nat) : (outAborted s id).mem = s.mem := by
  simp [outAborted]

@[simp] theorem linkMisfit_wf (s : State) (t : Nat) (raw : List Byte) (bcast : Bool) (hwf : Memory.wf s.mem = true) :
    Memory.wf (linkMisfit s t raw bcast).mem = true := by
  unfold linkMisfit
  (repeat' split) <;> simp [hwf]

/-! ### Results to members and hub memory -/

@[simp] theorem sendColl_mem (s : State) (uid n : Nat) (fl : List (Nat × List Byte)) : (sendColl s uid n fl).mem = s.mem := by
  simp [sendColl]

@[simp] theorem emitTo_mem (n) : ∀ (fuel) (s : State) (c), (emitTo s c n fuel).1.mem = s.mem := by
  intro fuel
  induction fuel with
  | zero => intro s c; rfl
  | succ fuel ih =>
    intro s c
    simp only [emitTo]
    split
    · rw [ih, sendColl_mem]
    · rfl

@[simp] theorem emitResults_mem (s : State) (c : Coll) : (emitResults s c).mem = s.mem := by
  unfold emitResults
  generalize hp : List.foldl _ (s, c) (receivers s c) = p
  obtain ⟨t, d⟩ := p
  have ht : t.mem = s.mem := by
    rw [← foldl_fst_mem (fun p a => emitTo_mem _ _ _ _) (receivers s c) (s, c), hp]
  simp [ht]

@[simp] theorem writeHub_wf (s : State) (c : Coll) (u : Nat) (hwf : Memory.wf s.mem = true) :
    Memory.wf (writeHub s c u).mem = true := by
  simp -implicitDefEqProofs [writeHub, hwf]

/-! ### Cross-hub sending (R187, R302, log 46) -/

@[simp] theorem flushSeg_mem (k result g) : ∀ (fuel) (s : State) (c), (flushSeg s c k result g fuel).1.mem = s.mem := by
  intro fuel
  induction fuel with
  | zero => intro s c; rfl
  | succ fuel ih =>
    intro s c
    simp only [flushSeg]
    split
    · rw [ih, sendColl_mem]
    · rfl

@[simp] theorem flushX_mem (s : State) (c : Coll) : (flushX s c).1.mem = s.mem := by
  unfold flushX
  split
  · exact foldl_fst_mem (fun p e => by simp) _ _
  · rfl

/-! ### Reduction (R177 to R180) -/

@[simp] theorem collPoison_mem (s : State) (c : Coll) (port : Nat) : (collPoison s c port).1.mem = s.mem := by
  unfold collPoison
  (repeat' split) <;> simp

@[simp] theorem collOverflow_mem (s : State) (c : Coll) : (collOverflow s c).1.mem = s.mem := by
  unfold collOverflow
  (repeat' split) <;> simp

@[simp] theorem arrivedWeight_wf (s : State) (c : Coll) (t : Nat) (raw : List Byte) (g : Seg) (u : Nat) (v : Nat × Bool) (hwf : Memory.wf s.mem = true) :
    Memory.wf (arrivedWeight s c t raw g u v).1.mem = true := by
  simp -implicitDefEqProofs [arrivedWeight, hwf]

@[simp] theorem deliverElem_wf (s : State) (c : Coll) (u : Nat) (bits : Nat) (pois ovf nan : Bool) (hwf : Memory.wf s.mem = true) :
    Memory.wf (deliverElem s c u bits pois ovf nan).1.mem = true := by
  unfold deliverElem
  dsimp only
  (repeat' split) <;> simp [hwf]

@[simp] theorem reduceElem_wf (s : State) (c : Coll) (chunk ib j : Nat) (hwf : Memory.wf s.mem = true) :
    Memory.wf (reduceElem s c chunk ib j).1.mem = true := by
  unfold reduceElem
  extract_lets d f u
  split
  · exact hwf
  · rename_i ins sum fmt part pois ppois own hubs done mark finish pass _
    have hdone (t : State) (c : Coll) : (done t c).1.mem = t.mem := rfl
    have hmark (t : State) (c : Coll) : (mark t c).1.mem = t.mem := by
      dsimp only [mark]
      (repeat' split) <;> simp
    have hfinish (e : List Num) (b : List Nat) : Memory.wf (finish e b).1.mem = true := by
      dsimp only [finish]
      rw [hdone]
      exact deliverElem_wf _ _ _ _ _ _ _ (by rw [hmark]; exact hwf)
    have hpass (e : List Num) (b : List Nat) : Memory.wf (pass e b).1.mem = true := by
      dsimp only [pass]
      rw [hdone]
      split
      · split <;> simp [hmark, hwf]
      · simp [hmark, hwf]
    clear_value finish pass done mark ppois part
    (repeat' split) <;> simp [hdone, hfinish, hpass, hwf]

/-! ### Staging and credits (R175, R298) -/

@[simp] theorem grantOne_mem (s : State) (uid : Nat) : (grantOne s uid).mem = s.mem := by
  unfold grantOne
  dsimp only
  (repeat' split) <;> simp

@[simp] theorem grantColl_mem (s : State) (uid : Nat) : (grantColl s uid).mem = s.mem := by
  unfold grantColl
  dsimp only
  (repeat' split) <;> simp -implicitDefEqProofs

@[simp] theorem grantAll_mem (s : State) : (grantAll s).mem = s.mem := by
  simp [grantAll]

@[simp] theorem grantX_mem (s : State) (c : Coll) : (grantX s c).mem = s.mem := by
  simp [grantX]

/-! ### Completion entries (R168, R170, R171, R206, R306) -/

@[simp] theorem collTold_wf (s : State) (c : Coll) (hwf : Memory.wf s.mem = true) : Memory.wf (collTold s c).mem = true := by
  unfold collTold
  (repeat' split) <;> simp [hwf]

@[simp] theorem tellColl_wf (s : State) (uid : Nat) (hwf : Memory.wf s.mem = true) : Memory.wf (tellColl s uid).mem = true := by
  have told (c : Coll) (e : State → Nat → List Byte) : Memory.wf (c.due.foldl (fun s n => collReport s n (e s n)) s).mem = true :=
    foldl_wf (fun _ _ hu => by simp [hu]) _ hwf
  unfold tellColl
  dsimp only
  repeat' split
  all_goals simp -implicitDefEqProofs [hwf, told]

@[simp] theorem tellColls_wf (s : State) (hwf : Memory.wf s.mem = true) : Memory.wf (tellColls s).mem = true := by
  simp +contextual -implicitDefEqProofs [tellColls, foldl_wf, hwf]

@[simp] theorem endColl_wf (s : State) (c : Coll) (status fld : Nat) (hwf : Memory.wf s.mem = true) :
    Memory.wf (endColl s c status fld).mem = true := by
  simp [endColl, hwf]

/-! ### Matching (R167 to R174) -/

@[simp] theorem startColl_wf (s : State) (c : Coll) (link : Option Nat) (train start : Nat) (hwf : Memory.wf s.mem = true) :
    Memory.wf (startColl s c link train start).mem = true := by
  unfold startColl
  dsimp only
  (repeat' split) <;> simp -implicitDefEqProofs [hwf]

@[simp] theorem matchColl_wf (s : State) (c : Coll) (start : Nat) (hwf : Memory.wf s.mem = true) :
    Memory.wf (matchColl s c start).mem = true := by
  have links (l : List (Nat × List Byte)) (d : List Byte) (bcast : Bool) (p : State × Option Nat) (hp : Memory.wf p.1.mem = true) :
      Memory.wf (l.foldl (fun (p : State × Option Nat) l =>
        if linkFits (getTable p.1 l.1) d bcast && p.2.isNone then (p.1, some l.1) else (linkMisfit p.1 l.1 l.2 bcast, p.2)) p).1.mem = true :=
    foldl_fst_wf (fun q l hq => by split <;> simp [hq]) _ hp
  unfold matchColl
  dsimp only
  split
  · simp [hwf]
  · split
    · rename_i h
      have ht := wf_of_fst_eq (links _ _ true _ (links _ _ false (s, none) hwf)) h
      split <;> simp [ht]
    · rename_i h
      have ht := wf_of_fst_eq (links _ _ true _ (links _ _ false (s, none) hwf)) h
      split <;> simp [ht]

@[simp] theorem crossMatched_wf (s : State) (c : Coll) (hwf : Memory.wf s.mem = true) : Memory.wf (crossMatched s c).mem = true := by
  simp [crossMatched, hwf]

@[simp] theorem localMatch_wf (s : State) (c : Coll) (hwf : Memory.wf s.mem = true) : Memory.wf (localMatch s c).mem = true := by
  simp [localMatch, hwf]

@[simp] theorem postColl_wf (s : State) (n : Nat) (d : List Byte) (hwf : Memory.wf s.mem = true) :
    Memory.wf (postColl s n d).mem = true := by
  unfold postColl
  dsimp only
  (repeat' split) <;> simp [hwf]

@[simp] theorem collPost_wf (s : State) (src : Origin) (raw : List Byte) (op : Nat) (hwf : Memory.wf s.mem = true) :
    Memory.wf (collPost s src raw op).mem = true := by
  unfold collPost
  (repeat' split) <;> simp [hwf]

theorem execReduce_wf (src : Origin) (raw : List Byte) (s : State) (hwf : Memory.wf s.mem = true) :
    NextWf (execReduce src raw s) := by
  simp [execReduce, hwf]

theorem execAllReduce_wf (src : Origin) (raw : List Byte) (s : State) (hwf : Memory.wf s.mem = true) :
    NextWf (execAllReduce src raw s) := by
  simp [execAllReduce, hwf]

theorem execReduceScatter_wf (src : Origin) (raw : List Byte) (s : State) (hwf : Memory.wf s.mem = true) :
    NextWf (execReduceScatter src raw s) := by
  simp [execReduceScatter, hwf]

theorem execAllGather_wf (src : Origin) (raw : List Byte) (s : State) (hwf : Memory.wf s.mem = true) :
    NextWf (execAllGather src raw s) := by
  simp [execAllGather, hwf]

theorem execBroadcast_wf (src : Origin) (raw : List Byte) (s : State) (hwf : Memory.wf s.mem = true) :
    NextWf (execBroadcast src raw s) := by
  simp [execBroadcast, hwf]

theorem execAllToAll_wf (src : Origin) (raw : List Byte) (s : State) (hwf : Memory.wf s.mem = true) :
    NextWf (execAllToAll src raw s) := by
  simp [execAllToAll, hwf]

theorem execCollUnmatched_wf (id : Nat) (s : State) (hwf : Memory.wf s.mem = true) : NextWf (execCollUnmatched id s) := by
  unfold execCollUnmatched
  (repeat' split) <;> simp [hwf]

/-! ### Windows (R171 to R173, R191, R236) -/

@[simp] theorem openColl_mem (s : State) (c : Coll) : (openColl s c).mem = s.mem := by
  simp -implicitDefEqProofs [openColl]

@[simp] theorem openDue_mem (s : State) : (openDue s).mem = s.mem := by
  simp [openDue]

theorem execCollWindowOpen_wf (slot : Nat) (s : State) (hwf : Memory.wf s.mem = true) : NextWf (execCollWindowOpen slot s) := by
  unfold execCollWindowOpen
  (repeat' split) <;> simp [hwf]

/-! ### Data (R175, R180, R298) -/

@[simp] theorem memberFlit_wf (s : State) (f : Flit) (c : Coll) (hwf : Memory.wf s.mem = true) :
    Memory.wf (memberFlit s f c).mem = true := by
  simp [memberFlit, hwf]

@[simp] theorem neighbourFlit_wf (s : State) (f : Flit) (c : Coll) (hwf : Memory.wf s.mem = true) :
    Memory.wf (neighbourFlit s f c).mem = true := by
  unfold neighbourFlit
  dsimp only
  split
  · split
    · simp [hwf]
    · generalize hp : List.foldl _ (s, _) _ = p
      have hq : Memory.wf p.1.mem = true := by
        rw [← hp]
        refine foldl_fst_wf (fun p v hp => ?_) _ hwf
        (repeat' split) <;> simp [hp]
      simp [hq]
  · simp [hwf]

theorem execCollData_wf (f : Flit) (s : State) (hwf : Memory.wf s.mem = true) : NextWf (execCollData f s) := by
  unfold execCollData
  dsimp only
  (repeat' split) <;> simp [hwf]

/-! ### Serving chunks (R173, R177, R205) -/

@[simp] theorem reduceChunk_wf (s : State) (c : Coll) (hwf : Memory.wf s.mem = true) : Memory.wf (reduceChunk s c).mem = true := by
  unfold reduceChunk
  dsimp only
  generalize hp : List.foldl _ (s, c) _ = p
  have hq : Memory.wf p.1.mem = true := by
    rw [← hp]
    exact foldl_fst_wf (fun p j hp => by simp [hp]) _ hwf
  simp [hq]

@[simp] theorem copyChunk_mem (s : State) (c : Coll) : (copyChunk s c).mem = s.mem := by
  simp [copyChunk]

@[simp] theorem hubChunk_mem (s : State) (c : Coll) : (hubChunk s c).mem = s.mem := by
  simp [hubChunk]

@[simp] theorem linkedChunk_wf (s : State) (c : Coll) (t : Nat) (hwf : Memory.wf s.mem = true) :
    Memory.wf (linkedChunk s c t).mem = true := by
  unfold linkedChunk
  dsimp only
  (repeat' split) <;> simp [hwf]

@[simp] theorem serveChunk_wf (s : State) (c : Coll) (hwf : Memory.wf s.mem = true) : Memory.wf (serveChunk s c).mem = true := by
  unfold serveChunk
  dsimp only
  (repeat' split) <;> simp [hwf]

theorem execCollChunkReduce_wf (slot : Nat) (s : State) (hwf : Memory.wf s.mem = true) : NextWf (execCollChunkReduce slot s) := by
  unfold execCollChunkReduce
  dsimp only
  (repeat' split) <;> simp [hwf]

/-! ### All-to-all (R185, R186, R300) -/

@[simp] theorem dispatchFlit_wf (s : State) (f : Flit) (kind : Nat) (c : Coll) (hwf : Memory.wf s.mem = true) :
    Memory.wf (dispatchFlit s f kind c).mem = true := by
  unfold dispatchFlit
  dsimp only
  (repeat' split) <;> simp [hwf]

theorem execDispatch_wf (f : Flit) (s : State) (hwf : Memory.wf s.mem = true) : NextWf (execDispatch f s) := by
  unfold execDispatch
  dsimp only
  (repeat' split) <;> simp [hwf]

theorem execDispatchEnd_wf (f : Flit) (s : State) (hwf : Memory.wf s.mem = true) : NextWf (execDispatchEnd f s) := by
  unfold execDispatchEnd
  dsimp only
  (repeat' split) <;> simp [hwf]

theorem execDispatchCredit_wf (src dst : Nat) (s : State) (hwf : Memory.wf s.mem = true) : NextWf (execDispatchCredit src dst s) := by
  unfold execDispatchCredit
  dsimp only
  (repeat' split) <;> simp [hwf]

/-! ### Completion (R170, R182, R183) -/

theorem execCollComplete_wf (slot : Nat) (s : State) (hwf : Memory.wf s.mem = true) : NextWf (execCollComplete slot s) := by
  unfold execCollComplete
  (repeat' split) <;> simp [hwf]

theorem execCollStall_wf (slot : Nat) (s : State) (hwf : Memory.wf s.mem = true) : NextWf (execCollStall slot s) := by
  unfold execCollStall
  (repeat' split) <;> simp [hwf]

@[simp] theorem dropCollData_mem (s : State) : (dropCollData s).mem = s.mem := by
  simp -implicitDefEqProofs [dropCollData]

@[simp] theorem abortColls_wf (s : State) (hwf : Memory.wf s.mem = true) : Memory.wf (abortColls s).mem = true := by
  unfold abortColls
  dsimp only
  rw [releaseHeld_mem, putColls_mem]
  refine foldl_wf (fun u c hu => foldl_wf (fun v p hv => ?_) _ hu) _ (foldl_wf (fun u c hu => ?_) _ ?_)
  · split <;> simp [hv]
  · simp [hu]
  · simp [hwf]

theorem execCollCredit_wf (c : Ctl) (s : State) (hwf : Memory.wf s.mem = true) : NextWf (execCollCredit c s) := by
  unfold execCollCredit
  dsimp only
  (repeat' split) <;> simp [hwf]

theorem execXhPost_wf (c : Ctl) (s : State) (hwf : Memory.wf s.mem = true) : NextWf (execXhPost c s) := by
  unfold execXhPost
  dsimp only
  (repeat' split) <;> simp [hwf]

@[simp] theorem collBeat_wf (s : State) (hwf : Memory.wf s.mem = true) : Memory.wf (collBeat s).mem = true := by
  simp [collBeat, hwf]

@[simp] theorem linkBeat_mem (s : State) : (linkBeat s).mem = s.mem := by
  simp [linkBeat]

end Sys2Proof.Machine

/-! PROOFS. Canonical memory (O59): state tables, ring instructions and the snapshot service. -/

namespace Sys2Proof.Machine

/-! ### Defining tables (R196, R197, Tables 7.1, 7.2) -/

@[simp] theorem defineTable_wf (s : State) (c : Cmd) (hwf : Memory.wf s.mem = true) : Memory.wf (defineTable s c).mem = true := by
  unfold defineTable
  dsimp only
  (repeat' split) <;> simp [hwf]

@[simp] theorem releaseTable_wf (s : State) (c : Cmd) (hwf : Memory.wf s.mem = true) : Memory.wf (releaseTable s c).mem = true := by
  simp [releaseTable, hwf]

@[simp] theorem guardTable_wf (s : State) (c : Cmd) (hwf : Memory.wf s.mem = true) : Memory.wf (guardTable s c).mem = true := by
  simp [guardTable, hwf]

@[simp] theorem resubmitDefine_wf (s : State) (hwf : Memory.wf s.mem = true) : Memory.wf (resubmitDefine s).mem = true := by
  unfold resubmitDefine
  dsimp only
  (repeat' split) <;> simp [hwf]

/-! ### Taking commands (R199, R201, R203, R217, R504) -/

@[simp] theorem queueCmd_mem (s : State) (c : Cmd) : (queueCmd s c).mem = s.mem := by
  simp [queueCmd]

@[simp] theorem clearSlots_wf (s : State) (x : Table) (hwf : Memory.wf s.mem = true) : Memory.wf (clearSlots s x).mem = true := by
  refine foldl_wf (fun u h hu => ?_) _ hwf
  dsimp only
  split <;> simp [hu]

@[simp] theorem endApplies_wf (s : State) (x : Table) (status nan rows : Nat) (hwf : Memory.wf s.mem = true) :
    Memory.wf (endApplies s x status nan rows).mem = true := by
  simp +contextual -implicitDefEqProofs [endApplies, foldl_wf, hwf]

@[simp] theorem closeApply_wf (s : State) (t status nan rows : Nat) (hwf : Memory.wf s.mem = true) :
    Memory.wf (closeApply s t status nan rows).mem = true := by
  simp [closeApply, hwf]

@[simp] theorem joinApply_wf (s : State) (t : Nat) (c : Cmd) (hwf : Memory.wf s.mem = true) :
    Memory.wf (joinApply s t c).mem = true := by
  simp [joinApply, hwf]

@[simp] theorem takeEmb_wf (s : State) (c : Cmd) (hwf : Memory.wf s.mem = true) : Memory.wf (takeEmb s c).mem = true := by
  unfold takeEmb
  dsimp only
  (repeat' split) <;> simp [hwf]

@[simp] theorem takeState_wf (s : State) (src : Origin) (r : List Byte) (hwf : Memory.wf s.mem = true) :
    Memory.wf (takeState s src r).mem = true := by
  unfold takeState
  dsimp only
  (repeat' split) <;> simp [hwf]

@[simp] theorem stateCommand_wf (s : State) (src : Origin) (raw : List Byte) (ok : Bool) (hwf : Memory.wf s.mem = true) :
    Memory.wf (stateCommand s src raw ok).mem = true := by
  simp [stateCommand, hwf]

theorem execTableDefine_wf (src : Origin) (raw : List Byte) (s : State) (hwf : Memory.wf s.mem = true) :
    NextWf (execTableDefine src raw s) := by
  simp [execTableDefine, hwf]

theorem execTableRelease_wf (src : Origin) (raw : List Byte) (s : State) (hwf : Memory.wf s.mem = true) :
    NextWf (execTableRelease src raw s) := by
  simp [execTableRelease, hwf]

theorem execStepLinked_wf (src : Origin) (raw : List Byte) (s : State) (hwf : Memory.wf s.mem = true) :
    NextWf (execStepLinked src raw s) := by
  simp [execStepLinked, hwf]

theorem execStepBuffered_wf (src : Origin) (raw : List Byte) (s : State) (hwf : Memory.wf s.mem = true) :
    NextWf (execStepBuffered src raw s) := by
  simp [execStepBuffered, hwf]

theorem execStepEmitOnly_wf (src : Origin) (raw : List Byte) (s : State) (hwf : Memory.wf s.mem = true) :
    NextWf (execStepEmitOnly src raw s) := by
  simp [execStepEmitOnly, hwf]

theorem execEmbGather_wf (src : Origin) (raw : List Byte) (s : State) (hwf : Memory.wf s.mem = true) :
    NextWf (execEmbGather src raw s) := by
  simp [execEmbGather, hwf]

theorem execEmbScatterAdd_wf (src : Origin) (raw : List Byte) (s : State) (hwf : Memory.wf s.mem = true) :
    NextWf (execEmbScatterAdd src raw s) := by
  simp [execEmbScatterAdd, hwf]

theorem execEmbApply_wf (src : Origin) (raw : List Byte) (s : State) (hwf : Memory.wf s.mem = true) :
    NextWf (execEmbApply src raw s) := by
  simp [execEmbApply, hwf]

/-! ### The head of a dense table's queue (R199, R201, R212, R215, R236) -/

@[simp] theorem checkSharded_wf (s : State) (t : Nat) (hwf : Memory.wf s.mem = true) : Memory.wf (checkSharded s t).mem = true := by
  unfold checkSharded
  dsimp only
  (repeat' split) <;> simp [hwf]

@[simp] theorem startStep_wf (s : State) (t : Nat) (x : Table) (c : Cmd) (rest : List Cmd) (hwf : Memory.wf s.mem = true) :
    Memory.wf (startStep s t x c rest).mem = true := by
  simp [startStep, hwf]

@[simp] theorem headDense_wf (s : State) (t : Nat) (hwf : Memory.wf s.mem = true) : Memory.wf (headDense s t).mem = true := by
  unfold headDense
  dsimp only
  (repeat' split) <;> simp [hwf]

/-! ### Embedding commands at work (R218, R219) -/

@[simp] theorem sendWrites_mem (s : State) (n addr : Nat) (bs : List Byte) (pois : List Bool) :
    (sendWrites s n addr bs pois).mem = s.mem := by
  simp [sendWrites]

@[simp] theorem runGather_wf (s : State) (x : Table) (c : List Byte) (hwf : Memory.wf s.mem = true) :
    Memory.wf (runGather s x c).mem = true := by
  simp -implicitDefEqProofs [runGather, hwf]

@[simp] theorem addRec_wf (s : State) (x : Table) (a : Nat) (v : AddVal) (hwf : Memory.wf s.mem = true) :
    Memory.wf (addRec s x a v).mem = true := by
  simp -implicitDefEqProofs [addRec, hwf]

theorem runScatter_wf {s t : State} {x : Table} {c : List Byte} (h : Memory.wf s.mem = true) (ht : runScatter s x c = some t) : Memory.wf t.mem = true := by
  have inv (l : List (Nat × Nat)) (f : Option State → Nat × Nat → Option State)
      (hf : ∀ o a, (∀ u ∈ o, Memory.wf u.mem = true) → ∀ u ∈ f o a, Memory.wf u.mem = true) :
      ∀ u ∈ l.foldl f (some s), Memory.wf u.mem = true :=
    List.foldlRecOn (motive := fun o => ∀ u ∈ o, Memory.wf u.mem = true) l f (by simpa using h) fun o ho a _ => hf o a ho
  refine inv _ _ (fun o p ho => ?_) t ht
  split
  · simp
  · next u =>
    have hu := ho u rfl
    split
    · simp
    · rintro v ⟨⟩
      refine foldl_wf (fun _ _ hv => by simp [hv]) _ ?_
      split <;> simp [hu]

@[simp] theorem headEmb_wf (s : State) (t : Nat) (hwf : Memory.wf s.mem = true) : Memory.wf (headEmb s t).mem = true := by
  unfold headEmb
  dsimp only
  repeat' split
  any_goals simp -implicitDefEqProofs [hwf]
  next u hu => exact runScatter_wf hwf hu

theorem execStateCommandHead_wf (table : Nat) (s : State) (hwf : Memory.wf s.mem = true) : NextWf (execStateCommandHead table s) := by
  unfold execStateCommandHead
  dsimp only
  (repeat' split) <;> simp [hwf]

theorem execStateCommandComplete_wf (table : Nat) (s : State) (hwf : Memory.wf s.mem = true) :
    NextWf (execStateCommandComplete table s) := by
  unfold execStateCommandComplete
  dsimp only
  (repeat' split) <;> simp [hwf]

/-! ### The end of a step (R206, R208, R212, R213) -/

@[simp] theorem endUser_wf (s : State) (t : Nat) (x : Table) (r : StepRun) (kernel : Nat) (hwf : Memory.wf s.mem = true) :
    Memory.wf (endUser s t x r kernel).mem = true := by
  simp [endUser, hwf]

theorem execStepEnd_wf (table : Nat) (s : State) (hwf : Memory.wf s.mem = true) : NextWf (execStepEnd table s) := by
  unfold execStepEnd
  dsimp only
  (repeat' split) <;> simp [hwf]

/-! ### Applies (R220 to R223) -/

@[simp] theorem applyRow_wf (s : State) (t : Nat) (x : Table) (c : List Byte) (h row : Nat) (hwf : Memory.wf s.mem = true) :
    Memory.wf (applyRow s t x c h row).1.mem = true := by
  unfold applyRow
  dsimp only
  split
  · exact hwf
  · refine foldl_fst_wf (fun p g hp => ?_) _ ?_
    · repeat' split
      all_goals simp [hp]
    · split <;> simp [hwf]

theorem execEmbApplyBegin_wf (table : Nat) (s : State) (hwf : Memory.wf s.mem = true) : NextWf (execEmbApplyBegin table s) := by
  unfold execEmbApplyBegin
  dsimp only
  repeat' split
  · simp -implicitDefEqProofs [hwf]
  · rw [nextWf_next, putTable_mem]
    refine foldl_fst_wf (fun p h hp => ?_) _ hwf
    split
    · exact applyRow_wf _ _ _ _ _ _ (foldl_wf (fun _ _ hu => by simp [hu]) _ hp)
    · exact hp
  all_goals simpa using hwf

theorem execEmbApplyComplete_wf (table : Nat) (s : State) (hwf : Memory.wf s.mem = true) : NextWf (execEmbApplyComplete table s) := by
  unfold execEmbApplyComplete
  dsimp only
  (repeat' split) <;> simp [hwf]

theorem execXhStep_wf (c : Ctl) (s : State) (hwf : Memory.wf s.mem = true) : NextWf (execXhStep c s) := by
  unfold execXhStep
  dsimp only
  (repeat' split) <;> simp [hwf]

/-! ### Job end and job start (R224) -/

@[simp] theorem abortTable_wf (s : State) (t : Nat) (hwf : Memory.wf s.mem = true) : Memory.wf (abortTable s t).mem = true := by
  have queue (u : State) (hu : Memory.wf u.mem = true) (q : List Cmd) : Memory.wf (q.foldl (fun s c => endCmd s c 0xB 0) u).mem = true :=
    foldl_wf (fun _ _ hv => by simp [hv]) _ hu
  have ended (x : Table) (r : StepRun) (q : List Cmd) :
      Memory.wf (q.foldl (fun s c => endCmd s c 0xB 0) (endStep s x r 0xB)).mem = true := queue _ (by simp [hwf]) q
  unfold abortTable
  dsimp only
  repeat' split
  all_goals simp -implicitDefEqProofs [hwf, queue, ended]

@[simp] theorem abortState_wf (s : State) (hwf : Memory.wf s.mem = true) : Memory.wf (abortState s).mem = true := by
  refine foldl_wf (fun _ _ hu => by simp [hu]) _ ?_
  split <;> simp [hwf]

@[simp] theorem emptyDirectories_wf (s : State) (hwf : Memory.wf s.mem = true) : Memory.wf (emptyDirectories s).mem = true := by
  simp +contextual -implicitDefEqProofs [emptyDirectories, foldl_wf, hwf]

/-! ### Ring instructions (R129, R130, R212) -/

@[simp] theorem popChunk_wf (s : State) (t k : Nat) (hwf : Memory.wf s.mem = true) : Memory.wf (popChunk s t k).1.mem = true := by
  unfold popChunk
  dsimp only
  (repeat' split) <;> simp -implicitDefEqProofs [hwf]

@[simp] theorem pushChunk_wf (s : State) (t k : Nat) (e : List Byte) (hwf : Memory.wf s.mem = true) :
    Memory.wf (pushChunk s t k e).mem = true := by
  unfold pushChunk
  dsimp only
  (repeat' split) <;> simp -implicitDefEqProofs [hwf]

theorem execRpop_wf (seat : Nat) (w : Fields) (s : State) (hwf : Memory.wf s.mem = true) : NextWf (execRpop seat w s) := by
  refine issueNext_wf hwf fun t => ?_
  have popped (table k : Nat) (u : State) (r : Option (List Byte)) (h : popChunk s table k = (u, r)) : Memory.wf u.mem = true :=
    wf_of_fst_eq (popChunk_wf s table k hwf) h
  obtain ⟨exc, hexc⟩ : ∃ f, firstExc = f := ⟨_, rfl⟩
  obtain ⟨win, hwin⟩ : ∃ f, seatWin = f := ⟨_, rfl⟩
  obtain ⟨pop, hpop⟩ : ∃ f, popChunk = f := ⟨_, rfl⟩
  obtain ⟨fill, hfill⟩ : ∃ f, ringFill = f := ⟨_, rfl⟩
  rw [hexc, hwin, hpop, hfill]
  rw [hpop] at popped
  dsimp only
  repeat' split
  any_goals simp [hwf]
  · next h => exact putCells_wf (popped _ _ _ _ h) _
  · next h => exact popped _ _ _ _ h

@[simp] theorem performPush_wf (s : State) (p : RingPush) (hwf : Memory.wf s.mem = true) :
    Memory.wf (performPush s p).mem = true := by
  simp [performPush, hwf]

@[simp] theorem flushPushes_wf (s : State) (hwf : Memory.wf s.mem = true) : Memory.wf (flushPushes s).mem = true := by
  have pushed (l : List RingPush) : Memory.wf (l.foldl (fun (r : State × List RingPush) p =>
      if pushReady r.1 p && !r.2.any fun x => x.ring == p.ring then (performPush r.1 p, r.2) else (r.1, r.2 ++ [p])) (s, [])).1.mem = true :=
    foldl_fst_wf (fun r p hr => by split <;> simp [hr]) _ hwf
  exact pushed _

theorem execTransactionPerformed_wf (coach id block : Nat) (s : State) (hwf : Memory.wf s.mem = true) :
    NextWf (execTransactionPerformed coach id block s) := by
  simp [execTransactionPerformed, hwf]

theorem execDrayDescriptorComplete_wf (coach engine : Nat) (s : State) (hwf : Memory.wf s.mem = true) :
    NextWf (execDrayDescriptorComplete coach engine s) := by
  simp [execDrayDescriptorComplete, hwf]

theorem execRpush_wf (seat : Nat) (w : Fields) (s : State) (hwf : Memory.wf s.mem = true) : NextWf (execRpush seat w s) := by
  refine issueNext_wf hwf fun t => ?_
  obtain ⟨exc, hexc⟩ : ∃ f, firstExc = f := ⟨_, rfl⟩
  obtain ⟨win, hwin⟩ : ∃ f, seatWin = f := ⟨_, rfl⟩
  obtain ⟨room, hroom⟩ : ∃ f, pushRoom = f := ⟨_, rfl⟩
  rw [hexc, hwin, hroom]
  dsimp only
  (repeat' split) <;> simp [hwf]

/-! ### Commands (Tables 8.3, 8.4, R233) -/

@[simp] theorem snapEntry_wf (s : State) (o : Origin) (r : List Byte) (status fld source gen cut bytes user : Nat) (hwf : Memory.wf s.mem = true) :
    Memory.wf (snapEntry s o r status fld source gen cut bytes user).mem = true := by
  simp [snapEntry, hwf]

@[simp] theorem snapFail_wf (s : State) (o : Origin) (r : List Byte) (status fld : Nat) (hwf : Memory.wf s.mem = true) :
    Memory.wf (snapFail s o r status fld).mem = true := by
  simp [snapFail, hwf]

@[simp] theorem tellAll_mem (s : State) (ns : List Nat) (code : Nat) (fields : List (Nat × Nat)) :
    (tellAll s ns code fields).mem = s.mem := by
  simp [tellAll]

/-! ### Takes (R234 to R239) -/

@[simp] theorem cancelTake_wf (s : State) (status : Nat) (hwf : Memory.wf s.mem = true) :
    Memory.wf (cancelTake s status).mem = true := by
  unfold cancelTake
  dsimp only
  (repeat' split) <;> simp [hwf]

@[simp] theorem checkManifests_wf (s : State) (t : Take) (hwf : Memory.wf s.mem = true) :
    Memory.wf (checkManifests s t).mem = true := by
  simp [checkManifests, hwf]

@[simp] theorem beginTake_wf (s : State) (o : Origin) (r : List Byte) (hwf : Memory.wf s.mem = true) :
    Memory.wf (beginTake s o r).mem = true := by
  simp [beginTake, hwf]

@[simp] theorem drainEntry_wf (s : State) (d : Drain) (status : Nat) (hwf : Memory.wf s.mem = true) :
    Memory.wf (drainEntry s d status).mem = true := by
  simp [drainEntry, hwf]

@[simp] theorem supersedeDrains_wf (s : State) (slot : Nat) (hwf : Memory.wf s.mem = true) :
    Memory.wf (supersedeDrains s slot).mem = true := by
  simp +contextual -implicitDefEqProofs [supersedeDrains, foldl_wf, hwf]

@[simp] theorem cutTake_wf (s : State) (t : Take) (hwf : Memory.wf s.mem = true) : Memory.wf (cutTake s t).mem = true := by
  simp [cutTake, hwf]

@[simp] theorem takeFlitData_wf (s : State) (f : Flit) (t : Take) (hwf : Memory.wf s.mem = true) :
    Memory.wf (takeFlitData s f t).mem = true := by
  simp [takeFlitData, hwf]

@[simp] theorem copyArea_wf (s : State) (slot off : Nat) (a n : Nat) (hwf : Memory.wf s.mem = true) :
    Memory.wf (copyArea s slot off a n).mem = true := by
  simp [copyArea, hwf]

@[simp] theorem commitTake_wf (s : State) (t : Take) (h : Memory.wf s.mem = true) : Memory.wf (commitTake s t).mem = true := by
  have areas (l : List (Nat × Nat)) (i base : Nat) : Memory.wf (l.foldl (fun (p : State × Nat) g =>
      (copyArea p.1 i (2 ^ 21 + p.2) g.1 g.2, p.2 + g.2)) (s, base)).1.mem = true :=
    foldl_fst_wf (fun p _ hp => copyArea_wf _ _ _ _ _ hp) l h
  unfold commitTake
  refine snapEntry_wf _ _ _ _ _ _ _ _ _ _ ?_
  simp only [mem_ite, startMirror_mem, putSnap_mem, tellAll_mem, regPut_mem, ite_self]
  refine setSlotState_wf _ _ _ (slotWrite_wf _ _ _ _ _ ?_)
  refine foldl_wf (fun _ _ hu => slotWrite_wf _ _ _ _ _ hu) _ ?_
  refine foldl_wf (fun _ _ hu => slotWrite_wf _ _ _ _ _ hu) _ ?_
  exact areas _ _ _

@[simp] theorem abortTake_wf (s : State) (hwf : Memory.wf s.mem = true) : Memory.wf (abortTake s).mem = true := by
  simp [abortTake, hwf]

/-! ### Drains (R242) -/

@[simp] theorem drainStep_mem (s : State) (key : Nat) : (drainStep s key).mem = s.mem := by
  unfold drainStep
  dsimp only
  (repeat' split) <;> simp

@[simp] theorem drainPump_mem (s : State) (conn : Nat) : (drainPump s conn).mem = s.mem := by
  simp [drainPump]

@[simp] theorem drainAcked_wf (s : State) (key n : Nat) (hwf : Memory.wf s.mem = true) :
    Memory.wf (drainAcked s key n).mem = true := by
  unfold drainAcked
  dsimp only
  (repeat' split) <;> simp [hwf]

@[simp] theorem abortDrains_wf (s : State) (conn : Nat) (hwf : Memory.wf s.mem = true) :
    Memory.wf (abortDrains s conn).mem = true := by
  simp +contextual -implicitDefEqProofs [abortDrains, foldl_wf, hwf]

@[simp] theorem beginDrain_wf (s : State) (o : Origin) (r : List Byte) (hwf : Memory.wf s.mem = true) :
    Memory.wf (beginDrain s o r).mem = true := by
  unfold beginDrain
  dsimp only
  (repeat' split) <;> simp [hwf]

/-! ### Imports (R243) -/

@[simp] theorem openImport_wf (s : State) (o : Origin) (r : List Byte) (hwf : Memory.wf s.mem = true) :
    Memory.wf (openImport s o r).mem = true := by
  have cleared : Memory.wf (emptySlot (supersedeDrains s (targetSlot s)) (targetSlot s)).mem = true := by simp [hwf]
  simp [openImport, cleared]

@[simp] theorem checkImport_wf (s : State) (o : Origin) (r : List Byte) (hwf : Memory.wf s.mem = true) :
    Memory.wf (checkImport s o r).mem = true := by
  simp [checkImport, hwf]

/-! ### Restores (R244 to R247) -/

@[simp] theorem putRestore_mem (s : State) (r : Option Restore) : (putRestore s r).mem = s.mem := by
  simp [putRestore]

@[simp] theorem endRestore_wf (s : State) (r : Restore) (status : Nat) (hwf : Memory.wf s.mem = true) :
    Memory.wf (endRestore s r status).mem = true := by
  unfold endRestore
  dsimp only
  (repeat' split) <;> simp [hwf]

@[simp] theorem askMirror_mem (s : State) (r : Restore) (want : Nat) : (askMirror s r want).mem = s.mem := by
  simp [askMirror]

@[simp] theorem sendLoad_mem (s : State) (r : Restore) (src : Option Nat) (n : Nat) : (sendLoad s r src n).mem = s.mem := by
  simp [sendLoad]

@[simp] theorem startLoad_wf (s : State) (r : Restore) (hwf : Memory.wf s.mem = true) : Memory.wf (startLoad s r).mem = true := by
  unfold startLoad
  (repeat' split) <;> simp [hwf]

@[simp] theorem deliver_mem (s : State) (r : Restore) (src : Option Nat) (n : Nat) : (deliver s r src n).1.mem = s.mem := by
  unfold deliver
  dsimp only
  (repeat' split) <;> simp -implicitDefEqProofs

@[simp] theorem failCopy_wf (s : State) (r : Restore) (hwf : Memory.wf s.mem = true) : Memory.wf (failCopy s r).mem = true := by
  unfold failCopy
  dsimp only
  (repeat' split) <;> simp [hwf]

@[simp] theorem restoreGo_wf : ∀ (fuel) (s : State), Memory.wf s.mem = true → Memory.wf (restoreGo fuel s).mem = true := by
  intro fuel
  induction fuel with
  | zero => intro s h; exact h
  | succ fuel ih =>
    intro s h
    have delivered (r : Restore) (src : Option Nat) (l : List Nat) :
        (l.foldl (fun (p : State × Restore) n => deliver p.1 p.2 src n) (s, r)).1.mem = s.mem :=
      foldl_fst_mem (fun p n => deliver_mem p.1 p.2 src n) l (s, r)
    unfold restoreGo
    split
    · exact h
    · split
      · extract_lets p put r total there
        have hput : Memory.wf put.mem = true := by simp [put, p, delivered, h]
        clear_value there put r
        (repeat' split) <;> simp [ih, hput]
      · exact h

@[simp] theorem restorePump_wf (s : State) (hwf : Memory.wf s.mem = true) : Memory.wf (restorePump s).mem = true := by
  simp [restorePump, hwf]

@[simp] theorem beginRestore_wf (s : State) (o : Origin) (r : List Byte) (hwf : Memory.wf s.mem = true) :
    Memory.wf (beginRestore s o r).mem = true := by
  simp [beginRestore, hwf]

@[simp] theorem mirrorAbsent_wf (s : State) (hwf : Memory.wf s.mem = true) : Memory.wf (mirrorAbsent s).mem = true := by
  unfold mirrorAbsent
  dsimp only
  (repeat' split) <;> simp [hwf]

@[simp] theorem fetchFlit_wf (s : State) (f : Flit) (r : Restore) (hwf : Memory.wf s.mem = true) :
    Memory.wf (fetchFlit s f r).mem = true := by
  simp [fetchFlit, hwf]

@[simp] theorem finishRestore_wf (s : State) (r : Restore) (hwf : Memory.wf s.mem = true) :
    Memory.wf (finishRestore s r).mem = true := by
  unfold finishRestore
  split
  · exact hwf
  · refine endRestore_wf _ _ _ (foldl_wf (fun _ _ hu => by simp [hu]) _ ?_)
    exact foldl_fst_wf (fun p g hp => by simp [hp]) _ hwf

@[simp] theorem abortRestore_wf (s : State) (hwf : Memory.wf s.mem = true) : Memory.wf (abortRestore s).mem = true := by
  unfold abortRestore
  dsimp only
  (repeat' split) <;> simp [hwf]

/-! ### Taking commands (R232) -/

@[simp] theorem acceptSnap_wf (s : State) (o : Origin) (r : List Byte) (hwf : Memory.wf s.mem = true) :
    Memory.wf (acceptSnap s o r).mem = true := by
  unfold acceptSnap
  dsimp only
  (repeat' split) <;> simp [hwf]

@[simp] theorem takeSnapCmd_wf (s : State) (o : Origin) (r : List Byte) (hwf : Memory.wf s.mem = true) :
    Memory.wf (takeSnapCmd s o r).mem = true := by
  simp [takeSnapCmd, hwf]

@[simp] theorem resubmitSnap_wf (s : State) (hwf : Memory.wf s.mem = true) : Memory.wf (resubmitSnap s).mem = true := by
  simp +contextual -implicitDefEqProofs [resubmitSnap, foldl_wf, hwf]

/-! ### The end of a job, whatever ends it -/

@[simp] theorem i3cOp_mem (s : State) (n write index value : Nat) : (i3cOp s n write index value).mem = s.mem := by
  simp [i3cOp]

@[simp] theorem sendAborts_mem (s : State) (reason : Nat) : (sendAborts s reason).mem = s.mem := by
  simp [sendAborts]

@[simp] theorem stopAllKernels_mem (s : State) : (stopAllKernels s).mem = s.mem := by
  unfold stopAllKernels
  refine foldl_mem (fun _ _ => ?_) _ _
  dsimp only
  split <;> simp

@[simp] theorem keepSlice_mem (s : State) : (keepSlice s).mem = s.mem := by
  unfold keepSlice
  dsimp only
  (repeat' split) <;> simp

@[simp] theorem endJob_wf (s : State) (reason : Nat) (msg : Option FaultMsg) (byHost : Bool) (hwf : Memory.wf s.mem = true) :
    Memory.wf (endJob s reason msg byHost).mem = true := by
  have aborted : Memory.wf (abortColls (abortTake (sendAborts s reason))).mem = true := by simp [hwf]
  have stopped : Memory.wf (keepSlice (stopAllKernels (abortState (abortColls (abortTake (sendAborts s reason)))))).mem = true := by
    simp [aborted]
  unfold endJob
  split
  · exact hwf
  · dsimp only
    generalize keepSlice (stopAllKernels (abortState (abortColls (abortTake (sendAborts s reason))))) = u at stopped ⊢
    split <;> simp [stopped]

@[simp] theorem postRecord_wf (s : State) (hwf : Memory.wf s.mem = true) : Memory.wf (postRecord s).mem = true := by
  unfold postRecord
  dsimp only
  (repeat' split) <;> simp [hwf]

theorem execKernelsStopped_wf (s : State) (hwf : Memory.wf s.mem = true) : NextWf (execKernelsStopped s) := by
  unfold execKernelsStopped
  dsimp only
  (repeat' split) <;> simp [hwf]

@[simp] theorem abortJob_wf (s : State) (m : Option FaultMsg) (hwf : Memory.wf s.mem = true) :
    Memory.wf (abortJob s m).mem = true := by
  simp [abortJob, hwf]

@[simp] theorem releaseHeldEnd_wf (s : State) (hwf : Memory.wf s.mem = true) : Memory.wf (releaseHeldEnd s).mem = true := by
  simp [releaseHeldEnd, hwf]

/-! ### A partner's reset pin -/

@[simp] theorem linkWatchEnd_mem (s : State) (n : Nat) : (linkWatchEnd s n).mem = s.mem := by
  simp [linkWatchEnd]

@[simp] theorem forgetDaa_mem (s : State) (n : Nat) : (forgetDaa s n).mem = s.mem := by
  simp [forgetDaa]

@[simp] theorem assertReset_wf (s : State) (n : Nat) (hwf : Memory.wf s.mem = true) : Memory.wf (assertReset s n).mem = true := by
  simp -implicitDefEqProofs [assertReset, hwf]

@[simp] theorem partnerDown_wf (s : State) (n : Nat) (hwf : Memory.wf s.mem = true) : Memory.wf (partnerDown s n).mem = true := by
  have calm (u : State) (hu : u.mem = s.mem) (a b : Nat) : Memory.wf (leaveEmerg (leaveEmerg u a) b).mem = true := by simp [hu, hwf]
  unfold partnerDown
  dsimp only
  split <;> simp [calm, hwf]

/-! ### Fatal latches (R462) -/

@[simp] theorem latchEffects_wf (s : State) (src : Nat) (hwf : Memory.wf s.mem = true) :
    Memory.wf (latchEffects s src).mem = true := by
  simp [latchEffects, hwf]

/-! ### Chapter 08 -/

@[simp] theorem snapCommand_wf (s : State) (src : Origin) (raw : List Byte) (ok : Bool) (hwf : Memory.wf s.mem = true) :
    Memory.wf (snapCommand s src raw ok).mem = true := by
  simp [snapCommand, hwf]

theorem execTake_wf (src : Origin) (raw : List Byte) (s : State) (hwf : Memory.wf s.mem = true) : NextWf (execTake src raw s) := by
  simp [execTake, hwf]

theorem execRestore_wf (src : Origin) (raw : List Byte) (s : State) (hwf : Memory.wf s.mem = true) :
    NextWf (execRestore src raw s) := by
  simp [execRestore, hwf]

theorem execDrain_wf (src : Origin) (raw : List Byte) (s : State) (hwf : Memory.wf s.mem = true) : NextWf (execDrain src raw s) := by
  simp [execDrain, hwf]

theorem execImportOpen_wf (src : Origin) (raw : List Byte) (s : State) (hwf : Memory.wf s.mem = true) :
    NextWf (execImportOpen src raw s) := by
  simp [execImportOpen, hwf]

theorem execImportCheck_wf (src : Origin) (raw : List Byte) (s : State) (hwf : Memory.wf s.mem = true) :
    NextWf (execImportCheck src raw s) := by
  simp [execImportCheck, hwf]

@[simp] theorem addManifest_wf (s : State) (c : Ctl) (t : Take) (hwf : Memory.wf s.mem = true) :
    Memory.wf (addManifest s c t).mem = true := by
  simp [addManifest, hwf]

theorem execSnapManifest_wf (c : Ctl) (s : State) (hwf : Memory.wf s.mem = true) : NextWf (execSnapManifest c s) := by
  have taken := takeCtl_wf s c 0x31 (fromPartner c) hwf
  unfold execSnapManifest
  split
  · next u hu =>
    have := wf_of_fst_eq taken hu
    split <;> simp [this]
  · next u hu => simpa using wf_of_fst_eq taken hu

theorem execSnapManifestDeadline_wf (s : State) (hwf : Memory.wf s.mem = true) : NextWf (execSnapManifestDeadline s) := by
  unfold execSnapManifestDeadline
  (repeat' split) <;> simp [hwf]

theorem execSnapCut_wf (s : State) (hwf : Memory.wf s.mem = true) : NextWf (execSnapCut s) := by
  unfold execSnapCut
  (repeat' split) <;> simp [hwf]

theorem execSnapData_wf (f : Flit) (s : State) (hwf : Memory.wf s.mem = true) : NextWf (execSnapData f s) := by
  unfold execSnapData
  dsimp only
  split
  · next u hu =>
    have := wf_of_fst_eq (takeFlit_wf _ _ _ _ _ hwf) hu
    (repeat' split) <;> simp [this]
  · next u hu => simpa using wf_of_fst_eq (takeFlit_wf _ _ _ _ _ hwf) hu

theorem execSnapSent_wf (c : Ctl) (s : State) (hwf : Memory.wf s.mem = true) : NextWf (execSnapSent c s) := by
  have taken := takeCtl_wf s c 0x34 (fromPartner c) hwf
  unfold execSnapSent
  split
  · next u hu =>
    have := wf_of_fst_eq taken hu
    (repeat' split) <;> simp [this]
  · next u hu => simpa using wf_of_fst_eq taken hu

theorem execSnapCommit_wf (s : State) (hwf : Memory.wf s.mem = true) : NextWf (execSnapCommit s) := by
  unfold execSnapCommit
  (repeat' split) <;> simp [hwf]

theorem execSnapResume_wf (s : State) (hwf : Memory.wf s.mem = true) : NextWf (execSnapResume s) := by
  unfold execSnapResume
  dsimp only
  (repeat' split) <;> simp [hwf]

theorem execSnapPcredit_wf (c : Ctl) (s : State) (hwf : Memory.wf s.mem = true) : NextWf (execSnapPcredit c s) := by
  have taken := takeCtl_wf s c 0x39 (fromPartner c) hwf
  unfold execSnapPcredit
  split
  · next u hu =>
    have := wf_of_fst_eq taken hu
    (repeat' split) <;> simp [this]
  · next u hu => simpa using wf_of_fst_eq taken hu

theorem execSnapLoadedAck_wf (c : Ctl) (s : State) (hwf : Memory.wf s.mem = true) : NextWf (execSnapLoadedAck c s) := by
  have taken := takeCtl_wf s c 0x38 (fromPartner c) hwf
  unfold execSnapLoadedAck
  split
  · next u hu =>
    have := wf_of_fst_eq taken hu
    (repeat' split) <;> simp [this]
  · next u hu => simpa using wf_of_fst_eq taken hu

theorem execMirBegin_wf (c : Ctl) (s : State) (hwf : Memory.wf s.mem = true) : NextWf (execMirBegin c s) := by
  have taken := takeCtl_wf s c 0x60 (fromHub c) hwf
  unfold execMirBegin
  generalize takeCtl s c 0x60 (fromHub c) = p at taken ⊢
  dsimp only
  (repeat' split) <;> simp [taken]

theorem execMirEnd_wf (c : Ctl) (s : State) (hwf : Memory.wf s.mem = true) : NextWf (execMirEnd c s) := by
  have taken := takeCtl_wf s c 0x61 (fromHub c) hwf
  unfold execMirEnd
  generalize takeCtl s c 0x61 (fromHub c) = p at taken ⊢
  have origin (i : Nat) : Memory.wf (setOrigin (putSnap p.1 { p.1.snap with mirIn := none }) i 1).mem = true := by simp [taken]
  dsimp only
  (repeat' split) <;> simp [taken, origin]

theorem execMirAck_wf (c : Ctl) (s : State) (hwf : Memory.wf s.mem = true) : NextWf (execMirAck c s) := by
  unfold execMirAck
  dsimp only
  (repeat' split) <;> simp [hwf]

theorem execMirNak_wf (c : Ctl) (s : State) (hwf : Memory.wf s.mem = true) : NextWf (execMirNak c s) := by
  unfold execMirNak
  dsimp only
  (repeat' split) <;> simp [hwf]

theorem execMirCredit_wf (c : Ctl) (s : State) (hwf : Memory.wf s.mem = true) : NextWf (execMirCredit c s) := by
  unfold execMirCredit
  dsimp only
  (repeat' split) <;> simp [hwf]

theorem execMirSlots_wf (c : Ctl) (s : State) (hwf : Memory.wf s.mem = true) : NextWf (execMirSlots c s) := by
  unfold execMirSlots
  dsimp only
  (repeat' split) <;> simp [hwf]

theorem execRestoreComplete_wf (s : State) (hwf : Memory.wf s.mem = true) : NextWf (execRestoreComplete s) := by
  unfold execRestoreComplete
  (repeat' split) <;> simp [hwf]

end Sys2Proof.Machine

/-! PROOFS. Canonical memory (O59): resets and restarts, the Drum, the Belfry and the release of the main domain. -/

namespace Sys2Proof.Machine

/-! ### Connections (R335, R337, R339) -/

@[simp] theorem closeConn_wf (s : State) (k cause : Nat) (hwf : Memory.wf s.mem = true) :
    Memory.wf (closeConn s k cause).mem = true := by
  unfold closeConn
  dsimp only
  (repeat' split) <;> simp [hwf]

@[simp] theorem closePort_wf (s : State) (p cause : Nat) (hwf : Memory.wf s.mem = true) :
    Memory.wf (closePort s p cause).mem = true := by
  simp +contextual -implicitDefEqProofs [closePort, foldl_wf, hwf]

/-! ### Update sessions and selectors (R384, R386) -/

@[simp] theorem putSelector_mem (s : State) (k v : Nat) : (putSelector s k v).mem = s.mem := by
  simp [putSelector]

@[simp] theorem showSelector_mem (s : State) (k v : Nat) : (showSelector s k v).mem = s.mem := by
  simp [showSelector]

@[simp] theorem runFrom_mem (s : State) (k slot : Nat) : (runFrom s k slot).mem = s.mem := by
  simp [runFrom]

@[simp] theorem putImage_mem (s : State) (key : Nat) (img : List Byte) : (putImage s key img).mem = s.mem := by
  simp [putImage]

@[simp] theorem dropSession_mem (s : State) (keep : Bool) : (dropSession s keep).mem = s.mem := by
  unfold dropSession
  dsimp only
  (repeat' split) <;> simp

@[simp] theorem endSession_wf (s : State) (reset : Bool) (hwf : Memory.wf s.mem = true) :
    Memory.wf (endSession s reset).mem = true := by
  unfold endSession
  dsimp only
  (repeat' split) <;> simp [hwf]

/-! ### Restarts -/

@[simp] theorem restartConsist_wf (s : State) (hwf : Memory.wf s.mem = true) : Memory.wf (restartConsist s).mem = true := by
  unfold restartConsist
  dsimp only
  (repeat' split) <;> simp [hwf]

@[simp] theorem restartSpdm_wf (s : State) (hwf : Memory.wf s.mem = true) : Memory.wf (restartSpdm s).mem = true := by
  simp [restartSpdm, hwf]

@[simp] theorem resubmitOwned_wf (s : State) (g owns : Nat) (hwf : Memory.wf s.mem = true) :
    Memory.wf (resubmitOwned s g owns).mem = true := by
  have restarted : Memory.wf (if nbit owns 0 then restartConsist s else s).mem = true := by split <;> simp [hwf]
  have ended : Memory.wf (if nbit owns 1 then endSession (if nbit owns 0 then restartConsist s else s) false
      else if nbit owns 0 then restartConsist s else s).mem = true := by
    split
    · exact endSession_wf _ _ restarted
    · exact restarted
  unfold resubmitOwned
  dsimp only
  split
  · split <;> simp [hwf]
  · split
    · split
      · refine resubmitSnap_wf _ ?_
        split <;> simp [hwf]
      · split <;> simp [hwf]
    · split
      · split
        · exact restartSpdm_wf _ ended
        · exact ended
      · exact hwf

@[simp] theorem resubmitGuard_wf (s : State) (g : Nat) (hwf : Memory.wf s.mem = true) : Memory.wf (resubmitGuard s g).mem = true := by
  simp [resubmitGuard, hwf]

@[simp] theorem guardRestart_wf (s : State) (g : Nat) (hwf : Memory.wf s.mem = true) : Memory.wf (guardRestart s g).mem = true := by
  simp [guardRestart, hwf]

@[simp] theorem compartmentRestart_wf (s : State) (g index owns : Nat) (hwf : Memory.wf s.mem = true) :
    Memory.wf (compartmentRestart s g index owns).mem = true := by
  simp [compartmentRestart, hwf]

@[simp] theorem sctlRestart_mem (s : State) (wdog : Bool) : (sctlRestart s wdog).mem = s.mem := by
  simp [sctlRestart]

/-! ### Loss of the main domain -/

@[simp] theorem resetRegs_mem (s : State) (p : Dom → Bool) : (resetRegs s p).mem = s.mem := by
  simp [resetRegs]

/-! ### Slope buckets (R430) -/

@[simp] theorem rebucket_mem (old : Nat) (s : State) : (rebucket old s).mem = s.mem := by
  unfold rebucket
  rfl

@[simp] theorem drumDown_wf (s : State) (hwf : Memory.wf s.mem = true) : Memory.wf (drumDown s).mem = true := by
  simp [drumDown, hwf]

@[simp] theorem mainDown_wf (s : State) (power : Bool) (hwf : Memory.wf s.mem = true) : Memory.wf (mainDown s power).mem = true := by
  have ended : Memory.wf (endJob s 1 none false).mem = true := by simp [hwf]
  have stopped : Memory.wf (drumDown (endSession (endJob s 1 none false) true)).mem = true := by simp [ended]
  have quiet : Memory.wf ((rangeFrom 0 10).foldl disableNow (drumDown (endSession (endJob s 1 none false) true))).mem = true :=
    foldl_wf (f := disableNow) (fun u i hu => by simp [hu]) _ stopped
  unfold mainDown
  split
  · exact hwf
  · dsimp only
    generalize List.foldl _ _ _ = t at quiet ⊢
    rw [rebucket_mem, resetRegs_mem]
    split
    · exact quiet
    · rfl

@[simp] theorem mainReset_wf (s : State) (hwf : Memory.wf s.mem = true) : Memory.wf (mainReset s).mem = true := by
  simp [mainReset, hwf]

theorem execMainDomainReset_wf (s : State) (hwf : Memory.wf s.mem = true) : NextWf (execMainDomainReset s) := by
  simp [execMainDomainReset, hwf]

/-! ### Block resets (Table 16.4) -/

@[simp] theorem ethBlockReset_wf (s : State) (p : Nat) (hwf : Memory.wf s.mem = true) : Memory.wf (ethBlockReset s p).mem = true := by
  simp [ethBlockReset, hwf]

@[simp] theorem assignAddress_mem (s : State) (n : Nat) : (assignAddress s n).mem = s.mem := by
  simp -implicitDefEqProofs [assignAddress]

@[simp] theorem sideBlockReset_mem (s : State) (n : Nat) : (sideBlockReset s n).mem = s.mem := by
  simp [sideBlockReset]

@[simp] theorem portBlockReset_wf (s : State) (n : Nat) (hwf : Memory.wf s.mem = true) :
    Memory.wf (portBlockReset s n).mem = true := by
  simp [portBlockReset, hwf]

/-! ### Chapter 09: the beat edge, time sources, offsets and states of the Drum (R248 to R263) -/

@[simp] theorem putDrumState_mem (s : State) (x : Nat) : (putDrumState s x).mem = s.mem := by
  simp [putDrumState]

@[simp] theorem setSource_mem (s : State) : (setSource s).mem = s.mem := by
  simp [setSource]

@[simp] theorem applySource_wf (s : State) (hwf : Memory.wf s.mem = true) : Memory.wf (applySource s).mem = true := by
  simp [applySource, hwf]

@[simp] theorem measured_wf (s : State) (off : Int) (regained : Bool) (hwf : Memory.wf s.mem = true) :
    Memory.wf (measured s off regained).mem = true := by
  simp [measured, hwf]

@[simp] theorem unaligned_mem (s : State) (off : Int) : (unaligned s off).mem = s.mem := by
  simp [unaligned]

@[simp] theorem takeSync_wf (s : State) (port : Nat) (p : List Byte) (phase : Nat) (hwf : Memory.wf s.mem = true) :
    Memory.wf (takeSync s port p phase).mem = true := by
  unfold takeSync
  dsimp only
  (repeat' split) <;> simp [hwf]

theorem execBeatSync_wf (port : Nat) (header : W64) (seq echoSeq txCount txPhase rxCount rxPhase info : Nat) (rest : List Byte) (crc : W64) (phase : Nat) (s : State) (hwf : Memory.wf s.mem = true) :
    NextWf (execBeatSync port header seq echoSeq txCount txPhase rxCount rxPhase info rest crc phase s) := by
  unfold execBeatSync
  dsimp only
  (repeat' split) <;> simp [hwf]

/-! ### PTP (R256) -/

@[simp] theorem applyPtp_mem (s : State) : (applyPtp s).mem = s.mem := by
  unfold applyPtp
  dsimp only
  (repeat' split) <;> simp

@[simp] theorem sendDelayReq_mem (s : State) : (sendDelayReq s).mem = s.mem := by
  simp [sendDelayReq]

theorem execPtpSync_wf (p : PtpIn) (master : Nat) (twoStep : Bool) (t1 : Int) (phase : Nat) (s : State) (hwf : Memory.wf s.mem = true) :
    NextWf (execPtpSync p master twoStep t1 phase s) := by
  unfold execPtpSync
  dsimp only
  (repeat' split) <;> simp [hwf]

theorem execPtpFollowUp_wf (p : PtpIn) (master : Nat) (t1 : Int) (s : State) (hwf : Memory.wf s.mem = true) :
    NextWf (execPtpFollowUp p master t1 s) := by
  unfold execPtpFollowUp
  dsimp only
  (repeat' split) <;> simp [hwf]

@[simp] theorem ptpOffset_wf (s : State) (t1 t2 t3 t4 : Int) (hwf : Memory.wf s.mem = true) :
    Memory.wf (ptpOffset s t1 t2 t3 t4).mem = true := by
  simp [ptpOffset, hwf]

theorem execPtpDelayResp_wf (p : PtpIn) (master : Nat) (own : Bool) (t4 : Int) (s : State) (hwf : Memory.wf s.mem = true) :
    NextWf (execPtpDelayResp p master own t4 s) := by
  unfold execPtpDelayResp
  (repeat' split) <;> simp [hwf]

@[simp] theorem loseSource_wf (s : State) (hwf : Memory.wf s.mem = true) : Memory.wf (loseSource s).mem = true := by
  simp [loseSource, hwf]

theorem execPtpAnnounce_wf (p : PtpIn) (master rank : Nat) (s : State) (hwf : Memory.wf s.mem = true) :
    NextWf (execPtpAnnounce p master rank s) := by
  unfold execPtpAnnounce
  dsimp only
  (repeat' split) <;> simp [hwf]

theorem execDrumSourceLost_wf (s : State) (hwf : Memory.wf s.mem = true) : NextWf (execDrumSourceLost s) := by
  unfold execDrumSourceLost
  dsimp only
  (repeat' split) <;> simp [hwf]

theorem execDrumReport_wf (c : Ctl) (s : State) (hwf : Memory.wf s.mem = true) : NextWf (execDrumReport c s) := by
  have taken := takeCtl_wf s c 0x40 (fromPartner c) hwf
  unfold execDrumReport
  split
  · next u hu => simpa using wf_of_fst_eq taken hu
  · next u hu => simpa using wf_of_fst_eq taken hu

@[simp] theorem sendBeatSync_mem (s : State) (port : Nat) : (sendBeatSync s port).mem = s.mem := by
  simp [sendBeatSync]

@[simp] theorem drumEdge_wf (s : State) (hwf : Memory.wf s.mem = true) : Memory.wf (drumEdge s).mem = true := by
  simp [drumEdge, hwf]

@[simp] theorem firstEdge_mem (s : State) : (firstEdge s).mem = s.mem := by
  simp [firstEdge]

@[simp] theorem sendPulse_mem (s : State) : (sendPulse s).mem = s.mem := by
  simp [sendPulse]

/-! ### Chapter 16: how the Belfry takes a message, its queue, reactions, domains and acknowledgements -/

@[simp] theorem enqueueMsg_mem (s : State) (m : FaultMsg) : (enqueueMsg s m).mem = s.mem := by
  simp [enqueueMsg]

@[simp] theorem assignSeq_mem (s : State) (m : FaultMsg) : (assignSeq s m).1.mem = s.mem := by
  simp [assignSeq]

@[simp] theorem announceMsg_wf (s : State) (m : FaultMsg) (hwf : Memory.wf s.mem = true) :
    Memory.wf (announceMsg s m).mem = true := by
  simp [announceMsg, hwf]

@[simp] theorem notifyGuard_mem (s : State) (m : FaultMsg) (g : Nat) (nmi : Bool) : (notifyGuard s m g nmi).mem = s.mem := by
  simp [notifyGuard]

@[simp] theorem retrainDevice_mem (s : State) (d : Nat) : (retrainDevice s d).mem = s.mem := by
  simp [retrainDevice]

@[simp] theorem blockResetNow_wf (s : State) (src : Nat) (hwf : Memory.wf s.mem = true) :
    Memory.wf (blockResetNow s src).mem = true := by
  simp -implicitDefEqProofs [blockResetNow, hwf]

@[simp] theorem react_wf (s : State) (m : FaultMsg) (hwf : Memory.wf s.mem = true) : Memory.wf (react s m).mem = true := by
  simp [react, hwf]

@[simp] theorem updateDomain_wf (s : State) (m : FaultMsg) (hwf : Memory.wf s.mem = true) :
    Memory.wf (updateDomain s m).mem = true := by
  unfold updateDomain
  dsimp only
  (repeat' split) <;> simp [hwf]

@[simp] theorem carryMsg_mem (s : State) (m : FaultMsg) : (carryMsg s m).mem = s.mem := by
  simp [carryMsg]

@[simp] theorem sramPoison_mem (s : State) (m : FaultMsg) : (sramPoison s m).mem = s.mem := by
  simp [sramPoison]

@[simp] theorem takeMsg_wf (s : State) (m : FaultMsg) (hwf : Memory.wf s.mem = true) : Memory.wf (takeMsg s m).mem = true := by
  unfold takeMsg
  split
  rename_i cls escd chip _
  extract_lets m1
  split
  rename_i t m2 hassign
  extract_lets counted latched poisoned queued announced reacted belfry marked settled fetch ended
  have ht : Memory.wf t.mem = true := wf_of_fst_eq (by simp [hwf]) hassign
  have hlatched : Memory.wf latched.mem = true := by
    dsimp only [latched, counted]
    split <;> simp [ht]
  have hreacted : Memory.wf reacted.mem = true := react_wf _ _ (announceMsg_wf _ _ (by simp [poisoned, queued, hlatched]))
  have hsettled : Memory.wf settled.mem = true := by
    refine updateDomain_wf _ _ ?_
    dsimp only [marked]
    split <;> exact hreacted
  have hended : Memory.wf ended.mem = true := by
    dsimp only [ended]
    (repeat' split) <;> simp [hsettled]
  clear_value ended
  split <;> simp [hended]

theorem execFaultMessage_wf (source kind cls addr : Nat) (s : State) (hwf : Memory.wf s.mem = true) :
    NextWf (execFaultMessage source kind cls addr s) := by
  unfold execFaultMessage
  dsimp only
  (repeat' split) <;> simp [hwf]

@[simp] theorem takeCarried_wf (s : State) (m : FaultMsg) (hwf : Memory.wf s.mem = true) :
    Memory.wf (takeCarried s m).mem = true := by
  simp [takeCarried, hwf]

@[simp] theorem takeEach_wf : ∀ (l) (s : State), Memory.wf s.mem = true → Memory.wf (takeEach l s).mem = true := by
  intro l
  induction l with
  | nil => intro s h; exact h
  | cons m l ih =>
    intro s h
    simp only [takeEach]
    split
    · exact ih _ (takeMsg_wf _ _ h)
    · exact h

@[simp] theorem takeRetained_wf (s : State) (hwf : Memory.wf s.mem = true) : Memory.wf (takeRetained s).mem = true := by
  unfold takeRetained
  dsimp only
  (repeat' split) <;> simp [hwf]

@[simp] theorem ackMsg_mem (s : State) (src cls : Nat) : (ackMsg s src cls).mem = s.mem := by
  simp [ackMsg]

@[simp] theorem ackWrite_mem (s : State) (value : W64) : (ackWrite s value).mem = s.mem := by
  simp [ackWrite]

theorem execFltAck_wf (value : W64) (s : State) (hwf : Memory.wf s.mem = true) : NextWf (execFltAck value s) := by
  simp [execFltAck, hwf]

@[simp] theorem popQueue_mem (s : State) : (popQueue s).mem = s.mem := by
  simp [popQueue]

@[simp] theorem popGfifo_mem (s : State) (g : Nat) : (popGfifo s g).mem = s.mem := by
  simp [popGfifo]

theorem execFltQpopHi_wf (s : State) (hwf : Memory.wf s.mem = true) : NextWf (execFltQpopHi s) := by
  simp [execFltQpopHi, hwf]

theorem execFltGfifoHi_wf (guard : Nat) (s : State) (hwf : Memory.wf s.mem = true) : NextWf (execFltGfifoHi guard s) := by
  simp [execFltGfifoHi, hwf]

theorem execBlockReset_wf (source : Nat) (s : State) (hwf : Memory.wf s.mem = true) : NextWf (execBlockReset source s) := by
  unfold execBlockReset
  dsimp only
  (repeat' split) <;> simp [hwf]

theorem execDomainQuietExpiry_wf (domain : Nat) (s : State) (hwf : Memory.wf s.mem = true) :
    NextWf (execDomainQuietExpiry domain s) := by
  unfold execDomainQuietExpiry
  dsimp only
  (repeat' split) <;> simp [hwf]

/-! ### Images (Table 13.5) -/

@[simp] theorem bootKind_mem (s : State) (bad : List Nat) (k : Nat) : (bootKind s bad k).1.mem = s.mem := by
  unfold bootKind
  dsimp only
  (repeat' split) <;> simp

/-! ### Release -/

@[simp] theorem trialStep_mem (s : State) : (trialStep s).mem = s.mem := by
  simp [trialStep]

@[simp] theorem loadFlash_mem (s : State) (p : Nat → Bool) : (loadFlash s p).mem = s.mem := by
  simp [loadFlash]

@[simp] theorem defaultCaps_mem (s : State) : (defaultCaps s).mem = s.mem := by
  simp [defaultCaps]

@[simp] theorem bootGuards_mem (s : State) (bad : List Nat) : (bootGuards s bad).mem = s.mem := by
  simp [bootGuards]

@[simp] theorem holdLatched_mem (s : State) : (holdLatched s).mem = s.mem := by
  simp [holdLatched]

@[simp] theorem mainRelease_wf (s : State) (bad : List Nat) (hwf : Memory.wf s.mem = true) :
    Memory.wf (mainRelease s bad).mem = true := by
  simp [mainRelease, hwf]

end Sys2Proof.Machine

/-! PROOFS. Canonical memory (O59): the Peal sequencer, power, heat, the BIST controller and the beat edge. -/

namespace Sys2Proof.Machine

/-! ### Chapter 14: Peal images, the sequence record, the words of a program, runs, failures and the log -/

@[simp] theorem putRun_mem (s : State) (r : PealRun) : (putRun s r).mem = s.mem := by
  simp [putRun]

@[simp] theorem setPealState_mem (s : State) (n : Nat) : (setPealState s n).mem = s.mem := by
  simp [setPealState]

@[simp] theorem setPealPc_mem (s : State) (n : Nat) : (setPealPc s n).mem = s.mem := by
  simp [setPealPc]

/-! ### Loading (R401, R413) -/

@[simp] theorem pealLoadWrite_mem (s : State) (value : W64) : (pealLoadWrite s value).mem = s.mem := by
  unfold pealLoadWrite
  dsimp only
  (repeat' split) <;> simp -implicitDefEqProofs

theorem execPseqLoadGo_wf (value : W64) (s : State) (hwf : Memory.wf s.mem = true) : NextWf (execPseqLoadGo value s) := by
  simp [execPseqLoadGo, hwf]

@[simp] theorem leaveLockout_mem (s : State) : (leaveLockout s).mem = s.mem := by
  simp -implicitDefEqProofs [leaveLockout]

theorem execPealLoadComplete_wf (s : State) (hwf : Memory.wf s.mem = true) : NextWf (execPealLoadComplete s) := by
  unfold execPealLoadComplete
  dsimp only
  (repeat' split) <;> simp [hwf]

/-! ### Slots -/

@[simp] theorem assertEn_mem (s : State) (k : Nat) : (assertEn s k).mem = s.mem := by
  simp -implicitDefEqProofs [assertEn]

@[simp] theorem slotLost_wf (s : State) (k : Nat) (hwf : Memory.wf s.mem = true) : Memory.wf (slotLost s k).mem = true := by
  simp [slotLost, hwf]

@[simp] theorem dropEn_wf (s : State) (k : Nat) (hwf : Memory.wf s.mem = true) : Memory.wf (dropEn s k).mem = true := by
  simp [dropEn, hwf]

@[simp] theorem notGood_wf (s : State) (k : Nat) (hwf : Memory.wf s.mem = true) : Memory.wf (notGood s k).mem = true := by
  simp [notGood, hwf]

@[simp] theorem unpowerPartners_wf (s : State) (hwf : Memory.wf s.mem = true) : Memory.wf (unpowerPartners s).mem = true :=
  foldl_wf (fun _ _ hu => by simp [hu]) _ hwf

@[simp] theorem dropAllEn_wf (s : State) (hwf : Memory.wf s.mem = true) : Memory.wf (dropAllEn s).mem = true := by
  simp +contextual -implicitDefEqProofs [dropAllEn, foldl_wf, hwf]

/-! ### The log (R415) -/

@[simp] theorem logRaw_mem (s : State) (event slot chatter mv : Nat) : (logRaw s event slot chatter mv).mem = s.mem := by
  simp [logRaw]

@[simp] theorem logPeal_mem (s : State) (event slot : Nat) : (logPeal s event slot).mem = s.mem := by
  simp [logPeal]

@[simp] theorem firstFail_mem (s : State) (slot cause : Nat) : (firstFail s slot cause).mem = s.mem := by
  simp -implicitDefEqProofs [firstFail]

@[simp] theorem logFirstAs_mem (s : State) (event : Nat) : (logFirstAs s event).mem = s.mem := by
  simp [logFirstAs]

@[simp] theorem logFirst_mem (s : State) : (logFirst s).mem = s.mem := by
  simp [logFirst]

/-! ### Runs (R409 to R414) -/

@[simp] theorem startLower_wf (s : State) (mode : Nat) (next : PealNext) (hwf : Memory.wf s.mem = true) :
    Memory.wf (startLower s mode next).mem = true := by
  simp +contextual -implicitDefEqProofs [startLower, foldl_wf, hwf]

@[simp] theorem failAttempt_wf (s : State) (mode : Nat) (hwf : Memory.wf s.mem = true) :
    Memory.wf (failAttempt s mode).mem = true := by
  unfold failAttempt
  dsimp only
  (repeat' split) <;> simp [hwf]

@[simp] theorem lockOut_mem (s : State) : (lockOut s).mem = s.mem := by
  simp -implicitDefEqProofs [lockOut]

@[simp] theorem endLower_wf (s : State) (hwf : Memory.wf s.mem = true) : Memory.wf (endLower s).mem = true := by
  have dropped : Memory.wf ((maskSlots (regGet s rPseqEn).toNat).foldl (fun s k => logPeal (dropEn s k) 0x0E k) s).mem = true :=
    foldl_wf (fun _ _ hu => by simp [hu]) _ hwf
  unfold endLower
  generalize List.foldl _ _ _ = t at dropped ⊢
  dsimp only
  (repeat' split) <;> simp [dropped]

@[simp] theorem releaseInto_wf (s : State) (bad : List Nat) (hwf : Memory.wf s.mem = true) :
    Memory.wf (releaseInto s bad).mem = true := by
  simp [releaseInto, hwf]

theorem execMainResetRelease_wf (bad : List Nat) (s : State) (hwf : Memory.wf s.mem = true) :
    NextWf (execMainResetRelease bad s) := by
  simp [execMainResetRelease, hwf]

@[simp] theorem releaseMain_wf (s : State) (bad : List Nat) (enabled : Bool) (hwf : Memory.wf s.mem = true) :
    Memory.wf (releaseMain s bad enabled).mem = true := by
  simp [releaseMain, hwf]

@[simp] theorem syncPartners_mem (s : State) : (syncPartners s).mem = s.mem := by
  simp [syncPartners]

@[simp] theorem slotsChanged_wf (s : State) (bad : List Nat) (hwf : Memory.wf s.mem = true) :
    Memory.wf (slotsChanged s bad).mem = true := by
  simp [slotsChanged, hwf]

@[simp] theorem startUpper_wf (s : State) (hwf : Memory.wf s.mem = true) : Memory.wf (startUpper s).mem = true := by
  simp [startUpper, hwf]

theorem execPealUpperRunStart_wf (s : State) (hwf : Memory.wf s.mem = true) : NextWf (execPealUpperRunStart s) := by
  simp [execPealUpperRunStart, hwf]

theorem execRetryWaitExpiry_wf (s : State) (hwf : Memory.wf s.mem = true) : NextWf (execRetryWaitExpiry s) := by
  simp [execRetryWaitExpiry, hwf]

theorem execAttemptCountReset_wf (s : State) (hwf : Memory.wf s.mem = true) : NextWf (execAttemptCountReset s) := by
  simp -implicitDefEqProofs [execAttemptCountReset, hwf]

/-! ### Words (R403, R404, R405, R411) -/

@[simp] theorem stepLimit_wf (s : State) (hwf : Memory.wf s.mem = true) : Memory.wf (stepLimit s).mem = true := by
  unfold stepLimit
  dsimp only
  (repeat' split) <;> simp [hwf]

@[simp] theorem continueAt_wf (s : State) (pc : Nat) (hwf : Memory.wf s.mem = true) : Memory.wf (continueAt s pc).mem = true := by
  unfold continueAt
  dsimp only
  (repeat' split) <;> simp [hwf]

@[simp] theorem nextWord_wf (s : State) (hwf : Memory.wf s.mem = true) : Memory.wf (nextWord s).mem = true := by
  simp [nextWord, hwf]

theorem execPealEnd_wf (s : State) (hwf : Memory.wf s.mem = true) : NextWf (execPealEnd s) := by
  unfold execPealEnd
  dsimp only
  (repeat' split) <;> simp [hwf]

@[simp] theorem finishEn_wf (s : State) (k : Nat) (hwf : Memory.wf s.mem = true) : Memory.wf (finishEn s k).mem = true := by
  simp [finishEn, hwf]

theorem execPealEn_wf (s : State) (hwf : Memory.wf s.mem = true) : NextWf (execPealEn s) := by
  unfold execPealEn
  dsimp only
  (repeat' split) <;> simp [hwf]

theorem execPealDis_wf (s : State) (hwf : Memory.wf s.mem = true) : NextWf (execPealDis s) := by
  unfold execPealDis
  dsimp only
  (repeat' split) <;> simp [hwf]

theorem execPealWait_wf (s : State) (hwf : Memory.wf s.mem = true) : NextWf (execPealWait s) := by
  unfold execPealWait
  (repeat' split) <;> simp [hwf]

theorem execPealChk_wf (s : State) (hwf : Memory.wf s.mem = true) : NextWf (execPealChk s) := by
  unfold execPealChk
  dsimp only
  (repeat' split) <;> simp [hwf]

theorem execPealJmp_wf (s : State) (hwf : Memory.wf s.mem = true) : NextWf (execPealJmp s) := by
  unfold execPealJmp
  (repeat' split) <;> simp [hwf]

theorem execPealJfail_wf (s : State) (hwf : Memory.wf s.mem = true) : NextWf (execPealJfail s) := by
  unfold execPealJfail
  (repeat' split) <;> simp [hwf]

theorem execPealStagger_wf (s : State) (hwf : Memory.wf s.mem = true) : NextWf (execPealStagger s) := by
  unfold execPealStagger
  (repeat' split) <;> simp [hwf]

/-! ### What ends a wait -/

theorem execPealWaitExpiry_wf (s : State) (hwf : Memory.wf s.mem = true) : NextWf (execPealWaitExpiry s) := by
  unfold execPealWaitExpiry
  (repeat' split) <;> simp [hwf]

@[simp] theorem addChatter_mem (s : State) (l : List (Nat × Nat)) : (addChatter s l).mem = s.mem := by
  simp [addChatter]

theorem execPealStepTimeout_wf (chatter : List (Nat × Nat)) (s : State) (hwf : Memory.wf s.mem = true) :
    NextWf (execPealStepTimeout chatter s) := by
  unfold execPealStepTimeout
  dsimp only
  (repeat' split) <;> simp [hwf]

@[simp] theorem resumeRun_wf (s : State) (hwf : Memory.wf s.mem = true) : Memory.wf (resumeRun s).mem = true := by
  unfold resumeRun
  (repeat' split) <;> simp [hwf]

theorem execPowerGoodQualified_wf (slot chatter : Nat) (bad : List Nat) (s : State) (hwf : Memory.wf s.mem = true) :
    NextWf (execPowerGoodQualified slot chatter bad s) := by
  unfold execPowerGoodQualified
  dsimp only
  (repeat' split) <;> simp [hwf]

/-! ### Faults -/

theorem execPealRailFault_wf (slot : Nat) (s : State) (hwf : Memory.wf s.mem = true) : NextWf (execPealRailFault slot s) := by
  have ended (m : FaultMsg) : Memory.wf (endJob (logPeal s 0x05 slot) 1 (some m) false).mem = true := by simp [hwf]
  have dropped (m : FaultMsg) (r : PealRun) (n : Nat) :
      Memory.wf (raiseMsg (notGood (dropAllEn (putRun (endJob (logPeal s 0x05 slot) 1 (some m) false) r)) n) m).mem = true := by
    simp [ended]
  unfold execPealRailFault
  split
  · exact (nextWf_next _).2 (failAttempt_wf _ _ (dropped _ _ _))
  · split <;> simp [hwf]

theorem execRailLostDown_wf (slot : Nat) (s : State) (hwf : Memory.wf s.mem = true) : NextWf (execRailLostDown slot s) := by
  unfold execRailLostDown
  dsimp only
  (repeat' split) <;> simp [hwf]

theorem execDischargeDone_wf (slot mv : Nat) (s : State) (hwf : Memory.wf s.mem = true) : NextWf (execDischargeDone slot mv s) := by
  unfold execDischargeDone
  dsimp only
  (repeat' split) <;> simp [hwf]

theorem execDischargeTimeout_wf (s : State) (hwf : Memory.wf s.mem = true) : NextWf (execDischargeTimeout s) := by
  unfold execDischargeTimeout
  dsimp only
  (repeat' split) <;> simp [hwf]

/-! ### Orders and trips (Table 14.6) -/

@[simp] theorem seqWentOff_wf (s : State) (hwf : Memory.wf s.mem = true) : Memory.wf (seqWentOff s).mem = true := by
  unfold seqWentOff
  dsimp only
  (repeat' split) <;> simp [hwf]

@[simp] theorem seqWentOn_mem (s : State) : (seqWentOn s).mem = s.mem := by
  simp [seqWentOn]

@[simp] theorem tripPeal_wf (s : State) (hwf : Memory.wf s.mem = true) : Memory.wf (tripPeal s).mem = true := by
  unfold tripPeal
  dsimp only
  (repeat' split) <;> simp [hwf]

@[simp] theorem orderMoved_wf (s t : State) (h : Memory.wf t.mem = true) : Memory.wf (orderMoved s t).mem = true := by
  simp only [orderMoved]
  repeat' split
  all_goals simp [h]

/-! ### Chapter 15: measurement, the hub and tray cap loops, operating points -/

@[simp] theorem addEnergy_mem (s : State) (reg key nj : Nat) : (addEnergy s reg key nj).mem = s.mem := by
  simp [addEnergy]

/-! ### The hub cap (R419 to R424, R432) -/

@[simp] theorem tagEnergy_mem (s : State) (nj whole : Nat) (share : List Nat) : (tagEnergy s nj whole share).mem = s.mem := by
  simp [tagEnergy]

theorem execHubCapPeriod_wf (core : Nat) (share : List Nat) (cycles : Nat) (s : State) (hwf : Memory.wf s.mem = true) :
    NextWf (execHubCapPeriod core share cycles s) := by
  unfold execHubCapPeriod
  dsimp only
  (repeat' split) <;> simp -implicitDefEqProofs [hwf]

@[simp] theorem setVolt_mem (s : State) (n : Nat) : (setVolt s n).mem = s.mem := by
  simp [setVolt]

@[simp] theorem evaluateOp_wf (s : State) (p : Power) (hwf : Memory.wf s.mem = true) : Memory.wf (evaluateOp s p).mem = true := by
  simp [evaluateOp, hwf]

theorem execOpEvaluation_wf (s : State) (hwf : Memory.wf s.mem = true) : NextWf (execOpEvaluation s) := by
  unfold execOpEvaluation
  dsimp only
  (repeat' split) <;> simp [hwf]

theorem execOpStepComplete_wf (s : State) (hwf : Memory.wf s.mem = true) : NextWf (execOpStepComplete s) := by
  unfold execOpStepComplete
  dsimp only
  (repeat' split) <;> simp -implicitDefEqProofs [hwf]

theorem execDroopDetect_wf (detectors stretched : Nat) (s : State) (hwf : Memory.wf s.mem = true) :
    NextWf (execDroopDetect detectors stretched s) := by
  unfold execDroopDetect
  (repeat' split) <;> simp [hwf]

/-! ### The tray cap (R419, R427, R433) -/

@[simp] theorem dropPolicy_mem (s : State) : (dropPolicy s).mem = s.mem := by
  simp [dropPolicy]

@[simp] theorem trayLoop_mem (s : State) : (trayLoop s).mem = s.mem := by
  simp -implicitDefEqProofs [trayLoop]

theorem execTrayScan_wf (pin core : Nat) (slots : List (Nat × Nat)) (s : State) (hwf : Memory.wf s.mem = true) :
    NextWf (execTrayScan pin core slots s) := by
  unfold execTrayScan
  dsimp only
  (repeat' split) <;> simp -implicitDefEqProofs [hwf]

/-! ### Slope grants (R428 to R430) -/

@[simp] theorem refillBuckets_mem (s : State) : (refillBuckets s).mem = s.mem := by
  simp [refillBuckets]

theorem execSlopeRequest_wf (n phase : Nat) (s : State) (hwf : Memory.wf s.mem = true) : NextWf (execSlopeRequest n phase s) := by
  unfold execSlopeRequest
  dsimp only
  (repeat' split) <;> simp -implicitDefEqProofs [hwf]

/-! ### Trips (R442 to R444) -/

@[simp] theorem setCoolState_mem (s : State) (k st : Nat) : (setCoolState s k st).mem = s.mem := by
  simp [setCoolState]

@[simp] theorem driveDuty_mem (s : State) (k d : Nat) : (driveDuty s k d).mem = s.mem := by
  simp -implicitDefEqProofs [driveDuty]

@[simp] theorem tripOutputs_mem (s : State) : (tripOutputs s).mem = s.mem := by
  simp [tripOutputs]

@[simp] theorem trip_wf (s : State) (bit hi lo kind addr : Nat) (hwf : Memory.wf s.mem = true) :
    Memory.wf (trip s bit hi lo kind addr).mem = true := by
  unfold trip
  split
  · exact hwf
  · refine mainDown_wf _ _ ?_
    have ended (t : State) (ht : t.mem = s.mem) (m : FaultMsg) : Memory.wf (raiseMsg (endJob t 1 (some m) false) m).mem = true := by
      simp [ht, hwf]
    rw [regPut_mem]
    refine tripPeal_wf _ ?_
    rw [tripOutputs_mem]
    exact ended _ (by simp) _

@[simp] theorem thermalTrip_wf (s : State) (hottest : Nat) (hwf : Memory.wf s.mem = true) :
    Memory.wf (thermalTrip s hottest).mem = true := by
  simp [thermalTrip, hwf]

/-! ### Emergencies (R431, R505) -/

theorem execTempSweep_wf (rakes : List Nat) (s : State) (hwf : Memory.wf s.mem = true) : NextWf (execTempSweep rakes s) := by
  unfold execTempSweep
  dsimp only
  (repeat' split) <;> simp -implicitDefEqProofs [hwf]

@[simp] theorem holdMv_mem (s : State) (slot mv : Nat) : (holdMv s slot mv).mem = s.mem := by
  simp [holdMv]

theorem execRailStatusPoll_wf (slot status mv : Nat) (s : State) (hwf : Memory.wf s.mem = true) :
    NextWf (execRailStatusPoll slot status mv s) := by
  unfold execRailStatusPoll
  dsimp only
  (repeat' split) <;> simp [hwf]

theorem execLeakSample_wf (input mv : Nat) (s : State) (hwf : Memory.wf s.mem = true) : NextWf (execLeakSample input mv s) := by
  unfold execLeakSample
  dsimp only
  (repeat' split) <;> simp [hwf]

theorem execFlowOkLow_wf (s : State) (hwf : Memory.wf s.mem = true) : NextWf (execFlowOkLow s) := by
  simp [execFlowOkLow, hwf]

@[simp] theorem tripOver_mem (s : State) (bit : Nat) : (tripOver s bit).mem = s.mem := by
  simp [tripOver]

theorem execTripClear_wf (which : Nat) (s : State) (hwf : Memory.wf s.mem = true) : NextWf (execTripClear which s) := by
  unfold execTripClear
  (repeat' split) <;> simp [hwf]

@[simp] theorem partnerTemp_wf (s : State) (n : Nat) (hwf : Memory.wf s.mem = true) : Memory.wf (partnerTemp s n).mem = true := by
  simp [partnerTemp, hwf]

theorem execEmergencyClear_wf (code : Nat) (s : State) (hwf : Memory.wf s.mem = true) : NextWf (execEmergencyClear code s) := by
  unfold execEmergencyClear
  (repeat' split) <;> simp [hwf]

/-! ### Ageing (R434, R435) -/

@[simp] theorem applyTrim_mem (s : State) : (applyTrim s).mem = s.mem := by
  simp [applyTrim]

theorem execAgeingTrim_wf (slack : Int) (below : Bool) (s : State) (hwf : Memory.wf s.mem = true) :
    NextWf (execAgeingTrim slack below s) := by
  unfold execAgeingTrim
  dsimp only
  (repeat' split) <;> simp -implicitDefEqProofs [hwf]

/-! ### Chapter 16: the BIST controller's slices (R93, R466 to R473) -/

@[simp] theorem nextSlice_mem (s : State) : (nextSlice s).mem = s.mem := by
  simp [nextSlice]

@[simp] theorem drainCoach_mem (s : State) (c : Nat) : (drainCoach s c).mem = s.mem := by
  simp [drainCoach]

@[simp] theorem bistStart_mem (s : State) (op : Nat) : (bistStart s op).mem = s.mem := by
  unfold bistStart
  dsimp only
  (repeat' split) <;> simp

theorem execBistSliceStart_wf (s : State) (hwf : Memory.wf s.mem = true) : NextWf (execBistSliceStart s) := by
  simp [execBistSliceStart, hwf]

@[simp] theorem restoreCoach_mem (s : State) (c : Nat) (cond : CoachCond) : (restoreCoach s c cond).mem = s.mem := by
  unfold restoreCoach
  refine (foldl_mem (fun _ _ => ?_) _ _).trans (putCoach_mem _ _ _)
  dsimp only
  (repeat' split) <;> simp

@[simp] theorem giveBack_mem (s : State) (sl : Slice) : (giveBack s sl).mem = s.mem := by
  unfold giveBack
  dsimp only
  (repeat' split) <;> simp

@[simp] theorem bistLast_mem (s : State) (sl : Slice) (result : Nat) (complete : Bool) :
    (bistLast s sl result complete).mem = s.mem := by
  simp [bistLast]

@[simp] theorem afterSlice_mem (s : State) (sl : Slice) (result : Nat) : (afterSlice s sl result).mem = s.mem := by
  simp [afterSlice]

theorem execBistSliceEnd_wf (responses : List W64) (reading verifying : W64) (s : State) (hwf : Memory.wf s.mem = true) :
    NextWf (execBistSliceEnd responses reading verifying s) := by
  unfold execBistSliceEnd
  dsimp only
  (repeat' split) <;> simp [hwf]

theorem execBistBudgetExpiry_wf (s : State) (hwf : Memory.wf s.mem = true) : NextWf (execBistBudgetExpiry s) := by
  unfold execBistBudgetExpiry
  dsimp only
  (repeat' split) <;> simp [hwf]

theorem execBistReqGo_wf (slice : Nat) (s : State) (hwf : Memory.wf s.mem = true) : NextWf (execBistReqGo slice s) := by
  unfold execBistReqGo
  (repeat' split) <;> simp [hwf]

/-! ### What a beat edge does in the main domain, in the order in which it does it (R249) -/

@[simp] theorem wakeBeat_mem (s : State) : (wakeBeat s).mem = s.mem := by
  simp -implicitDefEqProofs [wakeBeat]

@[simp] theorem fillG4c_mem (s : State) : (fillG4c s).mem = s.mem := by
  simp [fillG4c]

@[simp] theorem g4cBeat_mem (s : State) : (g4cBeat s).mem = s.mem := by
  simp [g4cBeat]

@[simp] theorem ringBeat_wf (s : State) (hwf : Memory.wf s.mem = true) : Memory.wf (ringBeat s).mem = true := by
  simp +contextual -implicitDefEqProofs [ringBeat, foldl_wf, hwf]

@[simp] theorem coachBeat_mem (s : State) : (coachBeat s).mem = s.mem := by
  simp -implicitDefEqProofs [coachBeat]

@[simp] theorem mirrorBeat_mem (s : State) : (mirrorBeat s).mem = s.mem := by
  unfold mirrorBeat
  dsimp only
  (repeat' split) <;> simp

@[simp] theorem markUnquiet_mem (s : State) : (markUnquiet s).mem = s.mem := by
  simp [markUnquiet]

@[simp] theorem mainBeat_wf (s : State) (hwf : Memory.wf s.mem = true) : Memory.wf (mainBeat s).mem = true := by
  have started : Memory.wf (startDueKernels (openDue s) (kernelsHeld s)).mem = true := by simp [hwf]
  have beaten : Memory.wf (collBeat (wakeBeat (g4cBeat (startDueKernels (openDue s) (kernelsHeld s))))).mem = true := by simp [started]
  have rung : Memory.wf (ringBeat (linkBeat (collBeat (wakeBeat (g4cBeat (startDueKernels (openDue s) (kernelsHeld s))))))).mem = true := by
    simp [beaten]
  unfold mainBeat
  split
  · exact hwf
  · simp [rung]

/-! ### Chapter 15: fans, blowers and pumps (R437 to R440) -/

@[simp] theorem endKick_mem (s : State) (k : Nat) : (endKick s k).mem = s.mem := by
  simp [endKick]

@[simp] theorem unuseOutput_mem (s : State) (k : Nat) : (unuseOutput s k).mem = s.mem := by
  simp [unuseOutput]

@[simp] theorem coolOutput_mem (s : State) (k : Nat) : (coolOutput s k).mem = s.mem := by
  unfold coolOutput
  dsimp only
  (repeat' split) <;> simp -implicitDefEqProofs

theorem execCoolingUpdate_wf (s : State) (hwf : Memory.wf s.mem = true) : NextWf (execCoolingUpdate s) := by
  simp [execCoolingUpdate, hwf]

theorem execFanPulseSeen_wf (k period : Nat) (steady : Bool) (s : State) (hwf : Memory.wf s.mem = true) :
    NextWf (execFanPulseSeen k period steady s) := by
  unfold execFanPulseSeen
  dsimp only
  (repeat' split) <;> simp -implicitDefEqProofs [hwf]

@[simp] theorem flowEmerg_wf (s : State) (k : Nat) (hwf : Memory.wf s.mem = true) : Memory.wf (flowEmerg s k).mem = true := by
  simp [flowEmerg, hwf]

@[simp] theorem coolCommitted_wf (s : State) (k : Nat) (hwf : Memory.wf s.mem = true) : Memory.wf (coolCommitted s k).mem = true := by
  simp [coolCommitted, hwf]

@[simp] theorem enterStalled_wf (s : State) (k : Nat) (hwf : Memory.wf s.mem = true) : Memory.wf (enterStalled s k).mem = true := by
  simp [enterStalled, hwf]

theorem execFanSpinupTimeout_wf (k : Nat) (s : State) (hwf : Memory.wf s.mem = true) : NextWf (execFanSpinupTimeout k s) := by
  simp [execFanSpinupTimeout, hwf]

theorem execFanStallDetect_wf (k : Nat) (s : State) (hwf : Memory.wf s.mem = true) : NextWf (execFanStallDetect k s) := by
  simp [execFanStallDetect, hwf]

theorem execFanKickStart_wf (k : Nat) (s : State) (hwf : Memory.wf s.mem = true) : NextWf (execFanKickStart k s) := by
  simp [execFanKickStart, hwf]

theorem execFanKickEnd_wf (k : Nat) (s : State) (hwf : Memory.wf s.mem = true) : NextWf (execFanKickEnd k s) := by
  unfold execFanKickEnd
  dsimp only
  (repeat' split) <;> simp [hwf]

end Sys2Proof.Machine

/-! PROOFS. Canonical memory (O59): partners, the side-band, the Ethernet ports and the services between rings. -/

namespace Sys2Proof.Machine

/-! ### Reads and writes (R303, Table 10.12) -/

@[simp] theorem refuseUnit_mem (s : State) (n a : Nat) : (refuseUnit s n a).mem = s.mem := by
  simp [refuseUnit]

@[simp] theorem writeUnit_wf (s : State) (f : Flit) (a u : Nat) (hwf : Memory.wf s.mem = true) :
    Memory.wf (writeUnit s f a u).mem = true := by
  simp -implicitDefEqProofs [writeUnit, hwf]

theorem execWrite_wf (f : Flit) (s : State) (hwf : Memory.wf s.mem = true) : NextWf (execWrite f s) := by
  unfold execWrite
  dsimp only
  split
  · next u hu =>
    rw [nextWf_next]
    exact foldl_wf (fun _ _ hv => by simp [hv]) _ (wf_of_fst_eq (takeFlit_wf _ _ _ _ _ hwf) hu)
  · next u hu => simpa using wf_of_fst_eq (takeFlit_wf _ _ _ _ _ hwf) hu

@[simp] theorem readFlit_mem (s : State) (n tag i : Nat) (us : List (List Byte × Bool)) : (readFlit s n tag i us).mem = s.mem := by
  simp [readFlit]

@[simp] theorem sendRead_mem (n tag) : ∀ (i l) (s : State), (sendRead s n tag i l).mem = s.mem := by
  intro i l s
  fun_induction sendRead s n tag i l with
  | case1 s i a b c r ih => rw [ih, readFlit_mem]
  | case2 => rfl
  | case3 => simp

theorem execReadReq_wf (f : Flit) (s : State) (hwf : Memory.wf s.mem = true) : NextWf (execReadReq f s) := by
  unfold execReadReq
  dsimp only
  split
  · next u hu =>
    have := wf_of_fst_eq (takeFlit_wf _ _ _ _ _ hwf) hu
    (repeat' split) <;> simp [this]
  · next u hu => simpa using wf_of_fst_eq (takeFlit_wf _ _ _ _ _ hwf) hu

/-! ### Partner rings (R305, R306) -/

theorem execRingSub_wf (f : Flit) (s : State) (hwf : Memory.wf s.mem = true) : NextWf (execRingSub f s) := by
  unfold execRingSub
  dsimp only
  split
  · next u hu =>
    have taken := wf_of_fst_eq (takeFlit_wf _ _ _ _ _ hwf) hu
    split
    · rw [nextWf_next]
      exact foldl_wf (fun _ _ hv => by simp [hv]) _ (by simp [taken])
    · simp [taken]
  · next u hu => simpa using wf_of_fst_eq (takeFlit_wf _ _ _ _ _ hwf) hu

theorem execRingFree_wf (c : Ctl) (s : State) (hwf : Memory.wf s.mem = true) : NextWf (execRingFree c s) := by
  have taken := takeCtl_wf s c 0x21 (fromPartner c) hwf
  unfold execRingFree
  split
  · next u hu =>
    have := wf_of_fst_eq taken hu
    dsimp only
    split <;> simp [this]
  · next u hu => simpa using wf_of_fst_eq taken hu

/-! ### Job abort (R307, R308) -/

theorem execJobAbort_wf (c : Ctl) (s : State) (hwf : Memory.wf s.mem = true) : NextWf (execJobAbort c s) := by
  have taken := takeCtl_wf s c 0x01 (fromPartner c || fromHub c) hwf
  unfold execJobAbort
  split
  · next u hu =>
    have := wf_of_fst_eq taken hu
    split <;> simp [this]
  · next u hu => simpa using wf_of_fst_eq taken hu

theorem execJobAbortAck_wf (c : Ctl) (s : State) (hwf : Memory.wf s.mem = true) : NextWf (execJobAbortAck c s) := by
  simp [execJobAbortAck, hwf]

/-! ### The side-band (R310, R311, R490 to R492) -/

@[simp] theorem linkRead_wf (s : State) (n state : Nat) (recheck : Bool) (hwf : Memory.wf s.mem = true) :
    Memory.wf (linkRead s n state recheck).mem = true := by
  simp [linkRead, hwf]

theorem execLinkStatePoll_wf (n : Nat) (read : LinkPoll) (s : State) (hwf : Memory.wf s.mem = true) :
    NextWf (execLinkStatePoll n read s) := by
  unfold execLinkStatePoll
  (repeat' split) <;> simp [hwf]

theorem execInBandInterrupt_wf (n : Nat) (i : Interrupt) (s : State) (hwf : Memory.wf s.mem = true) :
    NextWf (execInBandInterrupt n i s) := by
  unfold execInBandInterrupt
  dsimp only
  (repeat' split) <;> simp [hwf]

theorem execPartnerWatchPoll_wf (n temp : Nat) (fw : Option (Nat × Nat × Nat)) (s : State) (hwf : Memory.wf s.mem = true) :
    NextWf (execPartnerWatchPoll n temp fw s) := by
  unfold execPartnerWatchPoll
  dsimp only
  (repeat' split) <;> simp [hwf]

theorem execSideNoresp_wf (n : Nat) (s : State) (hwf : Memory.wf s.mem = true) : NextWf (execSideNoresp n s) := by
  unfold execSideNoresp
  dsimp only
  (repeat' split) <;> simp -implicitDefEqProofs [hwf]

theorem execI3cAddressAssign_wf (n : Nat) (taken : Bool) (s : State) (hwf : Memory.wf s.mem = true) :
    NextWf (execI3cAddressAssign n taken s) := by
  unfold execI3cAddressAssign
  dsimp only
  (repeat' split) <;> simp -implicitDefEqProofs [hwf]

theorem execHotJoin_wf (n : Nat) (s : State) (hwf : Memory.wf s.mem = true) : NextWf (execHotJoin n s) := by
  unfold execHotJoin
  (repeat' split) <;> simp -implicitDefEqProofs [hwf]

/-! ### Reset and fault pins (R485, R486) -/

theorem execPartnerResetRelease_wf (n : Nat) (s : State) (hwf : Memory.wf s.mem = true) : NextWf (execPartnerResetRelease n s) := by
  unfold execPartnerResetRelease
  dsimp only
  (repeat' split) <;> simp -implicitDefEqProofs [hwf]

@[simp] theorem resetPartner_wf (s : State) (n : Nat) (hwf : Memory.wf s.mem = true) : Memory.wf (resetPartner s n).mem = true := by
  simp [resetPartner, hwf]

@[simp] theorem sideHold_wf (s : State) (n : Nat) (hwf : Memory.wf s.mem = true) : Memory.wf (sideHold s n).mem = true := by
  simp [sideHold, hwf]

@[simp] theorem sidePulse_wf (s : State) (n : Nat) (hwf : Memory.wf s.mem = true) : Memory.wf (sidePulse s n).mem = true := by
  simp [sidePulse, hwf]

theorem execSideCtlHold_wf (n : Nat) (s : State) (hwf : Memory.wf s.mem = true) : NextWf (execSideCtlHold n s) := by
  simp [execSideCtlHold, hwf]

theorem execSideCtlPulse_wf (n : Nat) (s : State) (hwf : Memory.wf s.mem = true) : NextWf (execSideCtlPulse n s) := by
  simp [execSideCtlPulse, hwf]

theorem execAccFaultAssert_wf (n : Nat) (low : Bool) (s : State) (hwf : Memory.wf s.mem = true) :
    NextWf (execAccFaultAssert n low s) := by
  unfold execAccFaultAssert
  dsimp only
  (repeat' split) <;> simp [hwf]

/-! ### Ports (R330, R334, R335) -/

theorem execEthLinkChange_wf (port : Nat) (up : Bool) (s : State) (hwf : Memory.wf s.mem = true) :
    NextWf (execEthLinkChange port up s) := by
  unfold execEthLinkChange
  dsimp only
  (repeat' split) <;> simp -implicitDefEqProofs [hwf]

theorem takeFrame_wf {s : State} {p vlan : Nat} {act : State → State} (h : Memory.wf s.mem = true) (ha : ∀ u, u.mem = s.mem → Memory.wf (act u).mem = true) :
    NextWf (takeFrame s p vlan act) := by
  unfold takeFrame
  repeat' split
  all_goals simp [h, ha s rfl]

theorem execArpRequest_wf (port vlan target senderIp senderMac : Nat) (s : State) (hwf : Memory.wf s.mem = true) :
    NextWf (execArpRequest port vlan target senderIp senderMac s) :=
  takeFrame_wf hwf fun u hu => by split <;> simp [hu, hwf]

theorem execIcmpEchoRequest_wf (port vlan : Nat) (v6 : Bool) (dst src : Nat) (data : List Byte) (s : State) (hwf : Memory.wf s.mem = true) :
    NextWf (execIcmpEchoRequest port vlan v6 dst src data s) :=
  takeFrame_wf hwf fun u hu => by split <;> simp [hu, hwf]

theorem execNeighborSolicitation_wf (port vlan target src : Nat) (s : State) (hwf : Memory.wf s.mem = true) :
    NextWf (execNeighborSolicitation port vlan target src s) :=
  takeFrame_wf hwf fun u hu => by split <;> simp [hu, hwf]

theorem execRouterAdvertisement_wf (port vlan router lifetime : Nat) (s : State) (hwf : Memory.wf s.mem = true) :
    NextWf (execRouterAdvertisement port vlan router lifetime s) :=
  takeFrame_wf hwf fun u hu => by (repeat' split) <;> simp [hu, hwf]

@[simp] theorem releaseRdma_mem (s : State) (k : Nat) : (releaseRdma s k).mem = s.mem := by
  unfold releaseRdma
  dsimp only
  (repeat' split) <;> simp

theorem execPfcPause_wf (port priority quanta : Nat) (s : State) (hwf : Memory.wf s.mem = true) :
    NextWf (execPfcPause port priority quanta s) := by
  unfold execPfcPause
  (repeat' split) <;> simp [hwf]

/-! ### RDMA as responder (R336 to R338, Table 12.2) -/

@[simp] theorem putConn_mem (s : State) (k : Nat) (c : Conn) : (putConn s k c).mem = s.mem := by
  simp [putConn]

@[simp] theorem refuseRdma_mem (s : State) (k : Nat) (c : Conn) (psn a n : Nat) : (refuseRdma s k c psn a n).mem = s.mem := by
  simp [refuseRdma]

@[simp] theorem heardBell_mem (s : State) (role : Nat) : (heardBell s role).mem = s.mem := by
  simp [heardBell]

@[simp] theorem ringBell_wf (s : State) (port role r : Nat) (v : W64) (hwf : Memory.wf s.mem = true) :
    Memory.wf (ringBell s port role r v).mem = true := by
  simp [ringBell, hwf]

theorem takePacket_wf {s : State} {k : Packet} {act : Conn → State} (h : Memory.wf s.mem = true) (ha : ∀ c, Memory.wf (act c).mem = true) :
    NextWf (takePacket s k act) := by
  unfold takePacket
  repeat' split
  all_goals simp [h, ha]

@[simp] theorem writeBells_wf (s : State) (c : Conn) (a : Nat) (data : List Byte) (hwf : Memory.wf s.mem = true) :
    Memory.wf (writeBells s c a data).mem = true :=
  foldl_memSound (fun _ _ hu => by dsimp only; split <;> simp -implicitDefEqProofs [hu]) _ hwf

@[simp] theorem answerCe_mem (s : State) (k : Nat) (ce : Bool) : (answerCe s k ce).mem = s.mem := by
  unfold answerCe
  (repeat' split) <;> simp

theorem execDoorbell_wf (k : CePacket) (ring : Nat) (value : W64) (s : State) (hwf : Memory.wf s.mem = true) :
    NextWf (execDoorbell k ring value s) :=
  takePacket_wf hwf fun c => by simp [hwf]

theorem execRdmaWrite_wf (k : Packet) (psn pos addr key : Nat) (data : List Byte) (ce : Bool) (s : State) (hwf : Memory.wf s.mem = true) :
    NextWf (execRdmaWrite k psn pos addr key data ce s) :=
  takePacket_wf hwf fun c => by
    dsimp only
    (repeat' split) <;> simp [hwf]

@[simp] theorem readPackets_mem (k mtu) : ∀ (fuel psn bs) (s : State), (readPackets s k psn mtu fuel bs).mem = s.mem := by
  intro fuel
  induction fuel with
  | zero => intro psn bs s; rfl
  | succ fuel ih => intro psn bs s; simp only [readPackets]; split <;> simp [ih]

@[simp] theorem countRead_mem (s : State) (k : Nat) (c : Conn) : (countRead s k c).mem = s.mem := by
  simp [countRead]

theorem execRdmaRead_wf (k : Packet) (psn addr key len : Nat) (ce : Bool) (s : State) (hwf : Memory.wf s.mem = true) :
    NextWf (execRdmaRead k psn addr key len ce s) :=
  takePacket_wf hwf fun c => by
    dsimp only
    (repeat' split) <;> simp [hwf]

/-! ### RDMA as requester (R337) -/

theorem execRdmaAck_wf (k : CePacket) (psn : Nat) (s : State) (hwf : Memory.wf s.mem = true) : NextWf (execRdmaAck k psn s) :=
  takePacket_wf hwf fun c => by
    rw [drainPump_mem]
    refine foldl_wf (fun _ _ hu => ?_) _ (by simp [hwf])
    split <;> simp [hu]

theorem execCnp_wf (k : Packet) (s : State) (hwf : Memory.wf s.mem = true) : NextWf (execCnp k s) :=
  takePacket_wf hwf fun c => by simp [hwf]

theorem execRdmaRateRecovery_wf (conn : Nat) (s : State) (hwf : Memory.wf s.mem = true) : NextWf (execRdmaRateRecovery conn s) := by
  unfold execRdmaRateRecovery
  (repeat' split) <;> simp [hwf]

theorem execRdmaAckTimeout_wf (conn : Nat) (s : State) (hwf : Memory.wf s.mem = true) : NextWf (execRdmaAckTimeout conn s) := by
  unfold execRdmaAckTimeout
  (repeat' split) <;> simp [hwf]

/-! ### Service between rings (R349, R504, Table 12.9) -/

@[simp] theorem actOn_wf (s : State) (cons q : Nat) (hwf : Memory.wf s.mem = true) : Memory.wf (actOn s cons q).mem = true := by
  simp [actOn, hwf]

theorem execRingEntryTake_wf (consumer : Nat) (s : State) (hwf : Memory.wf s.mem = true) : NextWf (execRingEntryTake consumer s) := by
  unfold execRingEntryTake
  dsimp only
  (repeat' split) <;> simp [hwf]

/-! ### Silence (R367) -/

theorem execRoleSilent_wf (role : Nat) (s : State) (hwf : Memory.wf s.mem = true) : NextWf (execRoleSilent role s) := by
  unfold execRoleSilent
  dsimp only
  (repeat' split) <;> simp [hwf]

end Sys2Proof.Machine

/-! PROOFS. Canonical memory (O59): register writes, the Consist and the requests of the roles. -/

namespace Sys2Proof.Machine

/-! ### Checks -/

@[simp] theorem refuseReg_mem (s : State) (src : Nat) (e : RegErr) (addr : Nat) : (refuseReg s src e addr).mem = s.mem := by
  unfold refuseReg
  (repeat' split) <;> simp

@[simp] theorem accessError_mem (s : State) (src : Nat) (e : RegErr) (addr : Nat) : (accessError s src e addr).mem = s.mem := by
  simp [accessError]

/-! ### Staged copies -/

@[simp] theorem takeStaged_mem (s : State) (as : List Nat) : (takeStaged s as).mem = s.mem := by
  simp [takeStaged]

/-! ### Reads: fields that other state gives -/

@[simp] theorem readEffect_mem (s : State) (a : Nat) : (readEffect s a).mem = s.mem := by
  unfold readEffect
  (repeat' split) <;> simp

/-! ### Commits -/

@[simp] theorem storeFlash_mem (s : State) (as : List Nat) : (storeFlash s as).mem = s.mem := by
  simp [storeFlash]

@[simp] theorem notifyWords_mem (before s : State) : (notifyWords before s).mem = s.mem := by simp [notifyWords]

@[simp] theorem committed_wf (s t : State) (creg gs) (h : Memory.wf t.mem = true) : Memory.wf (committed s t creg gs).mem = true := by
  unfold committed
  split
  · split <;> simp [h]
  · exact foldl_wf (fun _ _ hu => coolCommitted_wf _ _ hu) _ h
  · simp [h]
  · simp [h]
  · exact foldl_wf (fun _ _ hu => closePort_wf _ _ _ hu) _ h
  · exact h

@[simp] theorem commitGroups_wf (s : State) (src creg : Nat) (gs : List Nat) (hwf : Memory.wf s.mem = true) :
    Memory.wf (commitGroups s src creg gs).mem = true := by
  simp -implicitDefEqProofs [commitGroups, hwf]

@[simp] theorem commitWrite_wf (s : State) (src creg : Nat) (v : W64) (hwf : Memory.wf s.mem = true) :
    Memory.wf (commitWrite s src creg v).mem = true := by
  simp [commitWrite, hwf]

/-! ### Writes -/

@[simp] theorem writeFields_mem (s : State) (a : Nat) (d : RegDesc) (v : W64) : (writeFields s a d v).mem = s.mem := by
  simp [writeFields]

@[simp] theorem sideCtlWrite_wf (s : State) (v : W64) (hwf : Memory.wf s.mem = true) : Memory.wf (sideCtlWrite s v).mem = true := by
  refine foldl_wf (fun u n hu => ?_) _ (foldl_wf (fun u n hu => ?_) _ ?_)
  · split <;> simp [hu]
  · (repeat' split) <;> simp [hu]
  · simpa using hwf

@[simp] theorem writeReg_wf (s : State) (src a : Nat) (d : RegDesc) (port : Nat) (v : W64) (hwf : Memory.wf s.mem = true) :
    Memory.wf (writeReg s src a d port v).mem = true := by
  simp [writeReg, hwf]

@[simp] theorem regWrite_wf (s : State) (src addr width : Nat) (v : W64) (hwf : Memory.wf s.mem = true) :
    Memory.wf (regWrite s src addr width v).mem = true := by
  unfold regWrite
  (repeat' split) <;> simp [hwf]

theorem execRegisterWrite_wf (src addr width : Nat) (value : W64) (s : State) (hwf : Memory.wf s.mem = true) :
    NextWf (execRegisterWrite src addr width value s) := by
  simp [execRegisterWrite, hwf]

theorem execCommit_wf (src addr : Nat) (value : W64) (s : State) (hwf : Memory.wf s.mem = true) :
    NextWf (execCommit src addr value s) := by
  simp [execCommit, hwf]

/-! ### Loading -/

@[simp] theorem lastReason_mem (s : State) (r : Nat) : (lastReason s r).mem = s.mem := by
  simp [lastReason]

@[simp] theorem busyWith_mem (s : State) (detail : Nat) : (busyWith s detail).1.mem = s.mem := by
  simp [busyWith]

theorem appendPiece_mem {s t : State} {q : Req} {purpose : Nat} {body buf : List Byte} (h : appendPiece s q purpose body = some (t, buf)) :
    t.mem = s.mem := by
  simp only [appendPiece, Option.ite_none_left_eq_some, Option.some.injEq, Prod.mk.injEq] at h
  obtain ⟨-, rfl, -⟩ := h
  exact putHost_mem _ _

@[simp] theorem clearBuffer_mem (s : State) (role purpose : Nat) : (clearBuffer s role purpose).mem = s.mem := by
  simp [clearBuffer]

@[simp] theorem msgConsistData_wf (q : Req) (body : List Byte) (s : State) (hwf : Memory.wf s.mem = true) :
    Memory.wf (msgConsistData q body s).mem = true :=
  request_wf hwf fun u hu => by
    split
    · next h => simpa [appendPiece_mem h] using hu
    · exact hu

theorem execConsistData_wf (q : Req) (body : List Byte) (s : State) (hwf : Memory.wf s.mem = true) :
    NextWf (execConsistData q body s) := by
  simp [execConsistData, hwf]

@[simp] theorem msgConsistLoad_wf (q : Req) (body : List Byte) (s : State) (hwf : Memory.wf s.mem = true) :
    Memory.wf (msgConsistLoad q body s).mem = true := by
  refine request_wf hwf fun u hu => ?_
  dsimp only
  (repeat' split) <;> simp [hu]

theorem execConsistLoad_wf (q : Req) (body : List Byte) (s : State) (hwf : Memory.wf s.mem = true) :
    NextWf (execConsistLoad q body s) := by
  simp [execConsistLoad, hwf]

theorem execConsistSlotWritten_wf (s : State) (hwf : Memory.wf s.mem = true) : NextWf (execConsistSlotWritten s) := by
  unfold execConsistSlotWritten
  dsimp only
  (repeat' split) <;> simp [hwf]

/-! ### What a between-jobs apply changes (R46) -/

@[simp] theorem zeroGranules_wf (s : State) (lo hi : Nat) (hwf : Memory.wf s.mem = true) :
    Memory.wf (zeroGranules s lo hi).mem = true := by
  simp [zeroGranules, hwf]

@[simp] theorem zeroChanged_wf (s : State) (old new : List Region) (oldOut newOut : BitVec 16) (hwf : Memory.wf s.mem = true) :
    Memory.wf (zeroChanged s old new oldOut newOut).mem = true := by
  unfold zeroChanged
  split
  · simp [hwf]
  · exact foldl_wf (fun _ _ hu => foldl_wf (fun _ _ hv => by simp [hv]) _ hu) _ (foldl_wf (fun _ _ hu => by simp [hu]) _ hwf)

@[simp] theorem clearCoachMemory_wf (s : State) (hwf : Memory.wf s.mem = true) : Memory.wf (clearCoachMemory s).mem = true := by
  simp [clearCoachMemory, hwf]

@[simp] theorem fixMap_wf (s : State) (hwf : Memory.wf s.mem = true) : Memory.wf (fixMap s).mem = true := by
  simp [fixMap, hwf]

@[simp] theorem setCoaches_mem (s : State) : (setCoaches s).mem = s.mem := by
  unfold setCoaches
  refine foldl_mem (fun _ _ => ?_) _ _
  dsimp only
  (repeat' split) <;> simp

@[simp] theorem setPorts_wf (s : State) (hwf : Memory.wf s.mem = true) : Memory.wf (setPorts s).mem = true := by
  simp +contextual -implicitDefEqProofs [setPorts, foldl_wf, hwf]

@[simp] theorem setGuards_wf (s : State) (worlds : BitVec 8) (hwf : Memory.wf s.mem = true) :
    Memory.wf (setGuards s worlds).mem = true := by
  simp +contextual -implicitDefEqProofs [setGuards, foldl_wf, hwf]

@[simp] theorem closeRings_wf (s : State) (hwf : Memory.wf s.mem = true) : Memory.wf (closeRings s).mem = true := by
  simp +contextual -implicitDefEqProofs [closeRings, foldl_wf, hwf]

@[simp] theorem idleEthPorts_wf (s : State) (hwf : Memory.wf s.mem = true) : Memory.wf (idleEthPorts s).mem = true := by
  simp +contextual -implicitDefEqProofs [idleEthPorts, foldl_wf, hwf]

@[simp] theorem applyStructure_wf (s : State) (a : ConsistApply) (hwf : Memory.wf s.mem = true) :
    Memory.wf (applyStructure s a).mem = true := by
  unfold applyStructure
  extract_lets c old storeChanged zeroed same base cfg placed fixed stored ported sourced
  have hplaced : Memory.wf placed.mem = true := by simp [placed, zeroed, hwf]
  have hfixed : Memory.wf fixed.mem = true := by simp [fixed, hplaced]
  have hstored : Memory.wf stored.mem = true := by
    have superseded := foldl_wf (f := supersedeDrains) (fun u i hu => supersedeDrains_wf u i hu) (rangeFrom 0 3) hfixed
    dsimp only [stored]
    (repeat' split) <;> simp [superseded, hfixed]
  have hsourced : Memory.wf sourced.mem = true := by
    dsimp only [sourced, ported]
    split <;> simp [hstored]
  exact closeRings_wf _ (setGuards_wf _ _ (idleEthPorts_wf _ hsourced))

/-! ### The live sections (R47, R52) -/

@[simp] theorem applyRegs_mem (s : State) (l : List (Nat × W64)) : (applyRegs s l).mem = s.mem := by
  simp [applyRegs]

@[simp] theorem applyCaps_mem (s : State) : (applyCaps s).1.mem = s.mem := by
  simp [applyCaps]

@[simp] theorem applyLive_wf (s : State) (m : Consist) (hwf : Memory.wf s.mem = true) : Memory.wf (applyLive s m).1.mem = true := by
  have regs (c : ConsistSt) (l : List (Nat × W64)) (v : Nat) : Memory.wf (regPut (applyRegs (putConsist s c) l) rFltCtl 63 48 v).mem = true := by
    simp -implicitDefEqProofs [hwf]
  have cooled (c : ConsistSt) (l : List (Nat × W64)) (v : Nat) :
      Memory.wf ((rangeFrom 0 12).foldl coolCommitted (regPut (applyRegs (putConsist s c) l) rFltCtl 63 48 v)).mem = true :=
    foldl_wf (f := coolCommitted) (fun u i hu => coolCommitted_wf u i hu) _ (regs c l v)
  simp -implicitDefEqProofs [applyLive, cooled]

@[simp] theorem recordPeal_mem (s : State) (m : Consist) : (recordPeal s m).mem = s.mem := by
  simp [recordPeal]

/-! ### Applying -/

@[simp] theorem setConsistState_mem (s : State) (x : Nat) : (setConsistState s x).mem = s.mem := by
  simp [setConsistState]

@[simp] theorem reassign_mem (s : State) : (reassign s).mem = s.mem := by
  simp [reassign]

@[simp] theorem finishApply_wf (s : State) (a : ConsistApply) (hwf : Memory.wf s.mem = true) :
    Memory.wf (finishApply s a).mem = true := by
  simp [finishApply, hwf]

@[simp] theorem msgConsistApply_wf (q : Req) (body : List Byte) (s : State) (hwf : Memory.wf s.mem = true) :
    Memory.wf (msgConsistApply q body s).mem = true := by
  refine request_wf hwf fun u hu => ?_
  dsimp only
  (repeat' split) <;> simp [hu]

theorem execConsistApply_wf (q : Req) (body : List Byte) (s : State) (hwf : Memory.wf s.mem = true) :
    NextWf (execConsistApply q body s) := by
  simp [execConsistApply, hwf]

@[simp] theorem structureNow_wf (s : State) (a : ConsistApply) (hwf : Memory.wf s.mem = true) :
    Memory.wf (structureNow s a).1.mem = true := by
  unfold structureNow
  (repeat' split) <;> simp [hwf]

theorem execApplyBeat_wf (s : State) (hwf : Memory.wf s.mem = true) : NextWf (execApplyBeat s) := by
  unfold execApplyBeat
  split
  · exact (nextWf_next _).2 hwf
  · split
    · exact (nextWf_next _).2 hwf
    · dsimp only
      generalize hp : structureNow s _ = p
      obtain ⟨t, a⟩ := p
      have ht : Memory.wf t.mem = true := wf_of_fst_eq (by simp [hwf]) hp
      dsimp only
      generalize hq : applyLive (recordPeal t a.merged) a.merged = q
      obtain ⟨u, l⟩ := q
      have hu : Memory.wf u.mem = true := wf_of_fst_eq (by simp [ht]) hq
      dsimp only
      (repeat' split) <;> simp [hu]

theorem execApplyComplete_wf (s : State) (hwf : Memory.wf s.mem = true) : NextWf (execApplyComplete s) := by
  unfold execApplyComplete
  dsimp only
  (repeat' split) <;> simp [hwf]

/-! ### The boot apply (R27, R28) -/

@[simp] theorem reportNone_wf (s : State) (hwf : Memory.wf s.mem = true) : Memory.wf (reportNone s).mem = true := by
  have live (c : ConsistSt) (m : Consist) :
      Memory.wf (applyLive (applyPtp (setConsistState (regPut (idleEthPorts (putConsist s c)) rConsist 31 24 6) 0)) m).1.mem = true :=
    applyLive_wf _ _ (by simp [hwf])
  rw [reportNone, ← memSound_iff]
  split
  · exact fixMap_wf _ (by rw [putConsist_mem]; exact unpowerPartners_wf _ (by rw [putPeal_mem]; exact live _ _))
  · exact unpowerPartners_wf _ (by rw [putPeal_mem]; exact live _ _)

@[simp] theorem startBoot_mem (s : State) (b fallback : Bool) (m : Consist) : (startBoot s b fallback m).mem = s.mem := by
  simp [startBoot]

theorem execConsistBootApply_wf (s : State) (hwf : Memory.wf s.mem = true) : NextWf (execConsistBootApply s) := by
  unfold execConsistBootApply
  (repeat' split) <;> simp [hwf]

/-! ### Status and registers -/

@[simp] theorem msgStatusGet_wf (q : Req) (body : List Byte) (s : State) (hwf : Memory.wf s.mem = true) :
    Memory.wf (msgStatusGet q body s).mem = true := by
  refine request_wf hwf fun u hu => ?_
  dsimp only
  simp [hu]

theorem execStatusGet_wf (q : Req) (body : List Byte) (s : State) (hwf : Memory.wf s.mem = true) :
    NextWf (execStatusGet q body s) := by
  simp [execStatusGet, hwf]

@[simp] theorem msgIdentityGet_wf (q : Req) (body : List Byte) (s : State) (hwf : Memory.wf s.mem = true) :
    Memory.wf (msgIdentityGet q body s).mem = true := by
  refine request_wf hwf fun u hu => ?_
  dsimp only
  simp [hu]

theorem execIdentityGet_wf (q : Req) (body : List Byte) (s : State) (hwf : Memory.wf s.mem = true) :
    NextWf (execIdentityGet q body s) := by
  simp [execIdentityGet, hwf]

@[simp] theorem refusedAccess_mem (s : State) (q : Req) (e : RegErr) (addr : Nat) : (refusedAccess s q e addr).1.mem = s.mem := by
  simp [refusedAccess]

@[simp] theorem msgRegRead_wf (q : Req) (body : List Byte) (s : State) (hwf : Memory.wf s.mem = true) :
    Memory.wf (msgRegRead q body s).mem = true := by
  refine request_wf hwf fun u hu => ?_
  dsimp only
  (repeat' split) <;> simp [hu]

theorem execRegRead_wf (q : Req) (body : List Byte) (s : State) (hwf : Memory.wf s.mem = true) : NextWf (execRegRead q body s) := by
  simp [execRegRead, hwf]

@[simp] theorem msgRegWrite_wf (q : Req) (body : List Byte) (s : State) (hwf : Memory.wf s.mem = true) :
    Memory.wf (msgRegWrite q body s).mem = true := by
  refine request_wf hwf fun u hu => ?_
  dsimp only
  (repeat' split) <;> simp [hu]

theorem execRegWrite_wf (q : Req) (body : List Byte) (s : State) (hwf : Memory.wf s.mem = true) : NextWf (execRegWrite q body s) := by
  simp [execRegWrite, hwf]

/-! ### Rings and connections -/

@[simp] theorem ringSetup_mem (s : State) (role : Nat) (body : List Byte) : (ringSetup s role body).mem = s.mem := by
  simp [ringSetup]

@[simp] theorem msgRingSetup_wf (q : Req) (body : List Byte) (s : State) (hwf : Memory.wf s.mem = true) :
    Memory.wf (msgRingSetup q body s).mem = true := by
  refine request_wf hwf fun u hu => ?_
  dsimp only
  (repeat' split) <;> simp [hu]

theorem execRingSetup_wf (q : Req) (body : List Byte) (s : State) (hwf : Memory.wf s.mem = true) :
    NextWf (execRingSetup q body s) := by
  simp [execRingSetup, hwf]

@[simp] theorem msgNotifySet_wf (q : Req) (body : List Byte) (s : State) (hwf : Memory.wf s.mem = true) :
    Memory.wf (msgNotifySet q body s).mem = true := by
  refine request_wf hwf fun u hu => ?_
  dsimp only
  (repeat' split) <;> simp [hu]

theorem execNotifySet_wf (q : Req) (body : List Byte) (s : State) (hwf : Memory.wf s.mem = true) :
    NextWf (execNotifySet q body s) := by
  simp [execNotifySet, hwf]

@[simp] theorem msgConnOpen_wf (q : Req) (body : List Byte) (s : State) (hwf : Memory.wf s.mem = true) :
    Memory.wf (msgConnOpen q body s).mem = true := by
  refine request_wf hwf fun u hu => ?_
  dsimp only
  (repeat' split) <;> simp [hu]

theorem execConnOpen_wf (q : Req) (body : List Byte) (s : State) (hwf : Memory.wf s.mem = true) : NextWf (execConnOpen q body s) := by
  simp [execConnOpen, hwf]

@[simp] theorem msgConnClose_wf (q : Req) (body : List Byte) (s : State) (hwf : Memory.wf s.mem = true) :
    Memory.wf (msgConnClose q body s).mem = true :=
  request_wf hwf fun u hu => by split <;> simp [hu]

theorem execConnClose_wf (q : Req) (body : List Byte) (s : State) (hwf : Memory.wf s.mem = true) :
    NextWf (execConnClose q body s) := by
  simp [execConnClose, hwf]

@[simp] theorem msgAddrSet_wf (q : Req) (body : List Byte) (s : State) (hwf : Memory.wf s.mem = true) :
    Memory.wf (msgAddrSet q body s).mem = true := by
  refine request_wf hwf fun u hu => ?_
  dsimp only
  (repeat' split) <;> simp [hu]

theorem execAddrSet_wf (q : Req) (body : List Byte) (s : State) (hwf : Memory.wf s.mem = true) : NextWf (execAddrSet q body s) := by
  simp [execAddrSet, hwf]

@[simp] theorem msgHeartbeat_wf (q : Req) (body : List Byte) (s : State) (hwf : Memory.wf s.mem = true) :
    Memory.wf (msgHeartbeat q body s).mem = true := by
  refine request_wf hwf fun u hu => ?_
  dsimp only
  (repeat' split) <;> simp [hu]

theorem execHeartbeat_wf (q : Req) (body : List Byte) (s : State) (hwf : Memory.wf s.mem = true) :
    NextWf (execHeartbeat q body s) := by
  simp [execHeartbeat, hwf]

/-! ### Jobs -/

@[simp] theorem clearJobCounters_mem (s : State) : (clearJobCounters s).mem = s.mem := by
  simp [clearJobCounters]

@[simp] theorem queueServices_mem (s : State) : (queueServices s).mem = s.mem := by
  simp [queueServices]

@[simp] theorem startJob_wf (s : State) (id : Nat) (seed : W64) (startBeat : Nat) (hwf : Memory.wf s.mem = true) :
    Memory.wf (startJob s id seed startBeat).1.mem = true := by
  simp [startJob, hwf]

@[simp] theorem msgJobStart_wf (q : Req) (body : List Byte) (s : State) (hwf : Memory.wf s.mem = true) :
    Memory.wf (msgJobStart q body s).mem = true := by
  refine request_wf hwf fun u hu => ?_
  dsimp only
  (repeat' split) <;> simp [hu]

theorem execJobStart_wf (q : Req) (body : List Byte) (s : State) (hwf : Memory.wf s.mem = true) : NextWf (execJobStart q body s) := by
  simp [execJobStart, hwf]

@[simp] theorem msgJobEnd_wf (q : Req) (body : List Byte) (s : State) (hwf : Memory.wf s.mem = true) :
    Memory.wf (msgJobEnd q body s).mem = true := by
  refine request_wf hwf fun u hu => ?_
  dsimp only
  (repeat' split) <;> simp [hu]

theorem execJobEnd_wf (q : Req) (body : List Byte) (s : State) (hwf : Memory.wf s.mem = true) : NextWf (execJobEnd q body s) := by
  simp [execJobEnd, hwf]

/-! ### Power orders and caps (R359 to R362) -/

@[simp] theorem setOrder_wf (s : State) (role : Nat) (off persist : Bool) (hwf : Memory.wf s.mem = true) :
    Memory.wf (setOrder s role off persist).mem = true := by
  simp [setOrder, hwf]

@[simp] theorem msgPowerSet_wf (q : Req) (body : List Byte) (s : State) (hwf : Memory.wf s.mem = true) :
    Memory.wf (msgPowerSet q body s).mem = true := by
  refine request_wf hwf fun u hu => ?_
  dsimp only
  simp [hu]

@[simp] theorem powerSet_wf (q : Req) (body : List Byte) (on : Bool) (s : State) (hwf : Memory.wf s.mem = true) :
    Memory.wf (powerSet q body on s).mem = true := by
  simp [powerSet, hwf]

theorem execPowerSetOn_wf (q : Req) (body : List Byte) (s : State) (hwf : Memory.wf s.mem = true) :
    NextWf (execPowerSetOn q body s) := by
  simp [execPowerSetOn, hwf]

theorem execPowerSetOff_wf (q : Req) (body : List Byte) (s : State) (hwf : Memory.wf s.mem = true) :
    NextWf (execPowerSetOff q body s) := by
  simp [execPowerSetOff, hwf]

@[simp] theorem msgCapSet_wf (q : Req) (body : List Byte) (s : State) (hwf : Memory.wf s.mem = true) :
    Memory.wf (msgCapSet q body s).mem = true := by
  refine request_wf hwf fun u hu => ?_
  dsimp only
  (repeat' split) <;> simp [hu]

theorem execCapSet_wf (q : Req) (body : List Byte) (s : State) (hwf : Memory.wf s.mem = true) : NextWf (execCapSet q body s) := by
  simp [execCapSet, hwf]

/-! ### Reports -/

@[simp] theorem msgEnergyGet_wf (q : Req) (body : List Byte) (s : State) (hwf : Memory.wf s.mem = true) :
    Memory.wf (msgEnergyGet q body s).mem = true := by
  refine request_wf hwf fun u hu => ?_
  dsimp only
  simp [hu]

theorem execEnergyGet_wf (q : Req) (body : List Byte) (s : State) (hwf : Memory.wf s.mem = true) :
    NextWf (execEnergyGet q body s) := by
  simp [execEnergyGet, hwf]

@[simp] theorem msgTelemetryGet_wf (q : Req) (body : List Byte) (s : State) (hwf : Memory.wf s.mem = true) :
    Memory.wf (msgTelemetryGet q body s).mem = true :=
  request_wf hwf fun u hu => by split <;> exact hu

theorem execTelemetryGet_wf (q : Req) (body : List Byte) (s : State) (hwf : Memory.wf s.mem = true) :
    NextWf (execTelemetryGet q body s) := by
  simp [execTelemetryGet, hwf]

@[simp] theorem msgFaultRead_wf (q : Req) (body : List Byte) (s : State) (hwf : Memory.wf s.mem = true) :
    Memory.wf (msgFaultRead q body s).mem = true := by
  refine request_wf hwf fun u hu => ?_
  dsimp only
  (repeat' split) <;> simp [hu]

theorem execFaultRead_wf (q : Req) (body : List Byte) (s : State) (hwf : Memory.wf s.mem = true) :
    NextWf (execFaultRead q body s) := by
  simp [execFaultRead, hwf]

@[simp] theorem msgFaultAck_wf (q : Req) (body : List Byte) (s : State) (hwf : Memory.wf s.mem = true) :
    Memory.wf (msgFaultAck q body s).mem = true := by
  refine request_wf hwf fun u hu => ?_
  dsimp only
  simp [hu]

theorem execFaultAck_wf (q : Req) (body : List Byte) (s : State) (hwf : Memory.wf s.mem = true) : NextWf (execFaultAck q body s) := by
  simp [execFaultAck, hwf]

@[simp] theorem msgLogRead_wf (q : Req) (body : List Byte) (s : State) (hwf : Memory.wf s.mem = true) :
    Memory.wf (msgLogRead q body s).mem = true := by
  refine request_wf hwf fun u hu => ?_
  dsimp only
  simp [hu]

theorem execLogRead_wf (q : Req) (body : List Byte) (s : State) (hwf : Memory.wf s.mem = true) : NextWf (execLogRead q body s) := by
  simp [execLogRead, hwf]

/-! ### Sessions (R384, R385) -/

@[simp] theorem putSession_mem (s : State) (x : Session) : (putSession s x).mem = s.mem := by
  simp [putSession]

@[simp] theorem lockedBy_mem (s : State) (x : Session) : (lockedBy s x).1.mem = s.mem := by
  simp [lockedBy]

theorem inSession_wf {s : State} {q : Req} {no : Nat} {allowed : Session → Bool} {act : Session → State × Option Ans} (h : Memory.wf s.mem = true)
    (hact : ∀ x, Memory.wf (act x).1.mem = true) : Memory.wf (inSession s q no allowed act).1.mem = true := by
  unfold inSession
  repeat' split
  · exact h
  · simpa using h
  · exact hact _
  · exact h

@[simp] theorem msgUpdBegin_wf (q : Req) (body : List Byte) (s : State) (hwf : Memory.wf s.mem = true) :
    Memory.wf (msgUpdBegin q body s).mem = true := by
  refine request_wf hwf fun u hu => ?_
  dsimp only
  (repeat' split) <;> simp [hu]

theorem execUpdBegin_wf (q : Req) (body : List Byte) (s : State) (hwf : Memory.wf s.mem = true) : NextWf (execUpdBegin q body s) := by
  simp [execUpdBegin, hwf]

@[simp] theorem msgUpdData_wf (q : Req) (body : List Byte) (s : State) (hwf : Memory.wf s.mem = true) :
    Memory.wf (msgUpdData q body s).mem = true :=
  request_wf hwf fun u hu => inSession_wf hu fun x => by
    dsimp only
    (repeat' split) <;> simp [hu]

theorem execUpdData_wf (q : Req) (body : List Byte) (s : State) (hwf : Memory.wf s.mem = true) : NextWf (execUpdData q body s) := by
  simp [execUpdData, hwf]

theorem execUpdDataProgrammed_wf (ok : Bool) (addr : Nat) (s : State) (hwf : Memory.wf s.mem = true) :
    NextWf (execUpdDataProgrammed ok addr s) := by
  unfold execUpdDataProgrammed
  dsimp only
  (repeat' split) <;> simp [hwf]

@[simp] theorem msgUpdEnd_wf (q : Req) (body : List Byte) (s : State) (hwf : Memory.wf s.mem = true) :
    Memory.wf (msgUpdEnd q body s).mem = true :=
  request_wf hwf fun u hu => inSession_wf hu fun x => by split <;> simp [hu]

theorem execUpdEnd_wf (q : Req) (body : List Byte) (s : State) (hwf : Memory.wf s.mem = true) : NextWf (execUpdEnd q body s) := by
  simp [execUpdEnd, hwf]

theorem execUpdVerifyComplete_wf (intact : Bool) (s : State) (hwf : Memory.wf s.mem = true) :
    NextWf (execUpdVerifyComplete intact s) := by
  unfold execUpdVerifyComplete
  dsimp only
  (repeat' split) <;> simp [hwf]

@[simp] theorem msgUpdAbort_wf (q : Req) (body : List Byte) (s : State) (hwf : Memory.wf s.mem = true) :
    Memory.wf (msgUpdAbort q body s).mem = true :=
  request_wf hwf fun u hu => inSession_wf hu fun x => by simp [hu]

theorem execUpdAbort_wf (q : Req) (body : List Byte) (s : State) (hwf : Memory.wf s.mem = true) : NextWf (execUpdAbort q body s) := by
  simp [execUpdAbort, hwf]

theorem execUpdSessionTimeout_wf (s : State) (hwf : Memory.wf s.mem = true) : NextWf (execUpdSessionTimeout s) := by
  unfold execUpdSessionTimeout
  (repeat' split) <;> simp [hwf]

/-! ### Activation (R386, R387, R391) -/

@[simp] theorem raiseFloor_mem (s : State) (k : Nat) (img : List Byte) : (raiseFloor s k img).mem = s.mem := by
  simp [raiseFloor]

@[simp] theorem activate_wf (s : State) (x : Session) (now : Bool) (hwf : Memory.wf s.mem = true) :
    Memory.wf (activate s x now).mem = true := by
  simp [activate, hwf]

@[simp] theorem restartNow_wf (s : State) (hwf : Memory.wf s.mem = true) : Memory.wf (restartNow s).mem = true := by
  unfold restartNow
  dsimp only
  (repeat' split) <;> simp [hwf]

@[simp] theorem msgUpdActivate_wf (q : Req) (body : List Byte) (s : State) (hwf : Memory.wf s.mem = true) :
    Memory.wf (msgUpdActivate q body s).mem = true :=
  restartNow_wf _ (request_wf hwf fun u hu => inSession_wf hu fun x => by
    dsimp only
    (repeat' split) <;> simp [hu])

theorem execUpdActivate_wf (q : Req) (body : List Byte) (s : State) (hwf : Memory.wf s.mem = true) :
    NextWf (execUpdActivate q body s) := by
  simp [execUpdActivate, hwf]

theorem execUpdDeferralEnd_wf (s : State) (hwf : Memory.wf s.mem = true) : NextWf (execUpdDeferralEnd s) := by
  unfold execUpdDeferralEnd
  (repeat' split) <;> simp [hwf]

/-! ### Trials (R388) -/

@[simp] theorem confirmTrial_mem (s : State) (k : Nat) : (confirmTrial s k).mem = s.mem := by
  simp [confirmTrial]

@[simp] theorem confirmBoot_mem (s : State) : (confirmBoot s).mem = s.mem := by
  simp [confirmBoot]

@[simp] theorem abandonTrial_mem (s : State) (k : Nat) : (abandonTrial s k).mem = s.mem := by
  simp [abandonTrial]

theorem execTrialTimeout_wf (s : State) (hwf : Memory.wf s.mem = true) : NextWf (execTrialTimeout s) := by
  unfold execTrialTimeout
  dsimp only
  (repeat' split) <;> simp [hwf]

theorem execStandbyTrialConfirm_wf (s : State) (hwf : Memory.wf s.mem = true) : NextWf (execStandbyTrialConfirm s) := by
  simp [execStandbyTrialConfirm, hwf]

/-! ### Enrolment (R394) -/

@[simp] theorem msgEnrol_wf (q : Req) (body : List Byte) (s : State) (hwf : Memory.wf s.mem = true) :
    Memory.wf (msgEnrol q body s).mem = true :=
  request_wf hwf fun u hu => by
    split
    · exact hu
    · next t buf h =>
      have := appendPiece_mem h
      split
      · simp [this, hu]
      · split
        · exact hu
        · dsimp only
          split <;> simp [this, hu]

theorem execEnrol_wf (q : Req) (body : List Byte) (s : State) (hwf : Memory.wf s.mem = true) : NextWf (execEnrol q body s) := by
  simp [execEnrol, hwf]

/-! ### Exchanges -/

@[simp] theorem spdmAnswer_mem (s : State) (role st : Nat) (body resp : List Byte) :
    (spdmAnswer s role st body resp).1.mem = s.mem := by
  simp [spdmAnswer]

@[simp] theorem takeNonce_mem (s : State) : (takeNonce s).1.mem = s.mem := by
  simp [takeNonce]

@[simp] theorem spdmIn_mem (q : Req) (body : List Byte) (need : Nat) (act : State → State × Option Ans) (s : State) (hact : ∀ s, (act s).1.mem = s.mem) :
    (spdmIn q body need act s).1.mem = s.mem := by
  unfold spdmIn
  generalize (if field body 1 1 = 0x84 then 0x10 else 0x12) = version
  repeat' split
  · rfl
  · rfl
  · exact hact s

@[simp] theorem signed_mem (s : State) (act : State × Option Ans) (h : act.1.mem = s.mem) : (signed s act).1.mem = s.mem := by
  unfold signed
  split
  · exact h
  · rfl

@[simp] theorem getVersion_mem (q body) (s : State) : (getVersion q body s).1.mem = s.mem := spdmIn_mem _ _ _ _ _ fun _ => rfl

@[simp] theorem getCapabilities_mem (q body) (s : State) :
    (getCapabilities q body s).1.mem = s.mem := spdmIn_mem _ _ _ _ _ fun _ => rfl

@[simp] theorem negotiateAlgorithms_mem (q body) (s : State) :
    (negotiateAlgorithms q body s).1.mem = s.mem := spdmIn_mem _ _ _ _ _ fun _ => rfl

@[simp] theorem getDigests_mem (q body) (s : State) : (getDigests q body s).1.mem = s.mem := spdmIn_mem _ _ _ _ _ fun _ => rfl

@[simp] theorem getCertificate_mem (q body) (s : State) : (getCertificate q body s).1.mem = s.mem :=
  spdmIn_mem _ _ _ _ _ fun u => by
    dsimp only
    split <;> rfl

@[simp] theorem challenge_mem (q body) (s : State) : (challenge q body s).1.mem = s.mem :=
  spdmIn_mem _ _ _ _ _ fun u => signed_mem _ _ (by
    dsimp only
    split <;> rfl)

@[simp] theorem getMeasurements_mem (q : Req) (body : List Byte) (s : State) : (getMeasurements q body s).1.mem = s.mem :=
  spdmIn_mem _ _ _ _ _ fun u => by
    extract_lets sign i act
    have hact : act.1.mem = u.mem := by simp [act]
    clear_value act
    split
    · rfl
    · split
      · exact signed_mem _ _ hact
      · exact hact

@[simp] theorem spdmRestarted_mem (s : State) (role code) (start : State → State × Option Ans) (hact : ∀ s, (start s).1.mem = s.mem) :
    (spdmRestarted s role code start).1.mem = s.mem := by
  unfold spdmRestarted
  dsimp only
  split
  · exact hact _
  · rfl

@[simp] theorem msgSpdm_wf (q : Req) (body : List Byte) (s : State) (hwf : Memory.wf s.mem = true) :
    Memory.wf (msgSpdm q body s).mem = true :=
  request_wf hwf fun u hu => by
    (repeat' split) <;> simp [hu]

@[simp] theorem spdm_wf (q : Req) (body : List Byte) (code : Nat) (s : State) (hwf : Memory.wf s.mem = true) :
    Memory.wf (spdm q body code s).mem = true := by
  simp [spdm, hwf]

theorem execGetVersion_wf (q : Req) (body : List Byte) (s : State) (hwf : Memory.wf s.mem = true) :
    NextWf (execGetVersion q body s) := by
  simp [execGetVersion, hwf]

theorem execGetCapabilities_wf (q : Req) (body : List Byte) (s : State) (hwf : Memory.wf s.mem = true) :
    NextWf (execGetCapabilities q body s) := by
  simp [execGetCapabilities, hwf]

theorem execNegotiateAlgorithms_wf (q : Req) (body : List Byte) (s : State) (hwf : Memory.wf s.mem = true) :
    NextWf (execNegotiateAlgorithms q body s) := by
  simp [execNegotiateAlgorithms, hwf]

theorem execGetDigests_wf (q : Req) (body : List Byte) (s : State) (hwf : Memory.wf s.mem = true) :
    NextWf (execGetDigests q body s) := by
  simp [execGetDigests, hwf]

theorem execGetCertificate_wf (q : Req) (body : List Byte) (s : State) (hwf : Memory.wf s.mem = true) :
    NextWf (execGetCertificate q body s) := by
  simp [execGetCertificate, hwf]

theorem execChallenge_wf (q : Req) (body : List Byte) (s : State) (hwf : Memory.wf s.mem = true) :
    NextWf (execChallenge q body s) := by
  simp [execChallenge, hwf]

theorem execGetMeasurements_wf (q : Req) (body : List Byte) (s : State) (hwf : Memory.wf s.mem = true) :
    NextWf (execGetMeasurements q body s) := by
  simp [execGetMeasurements, hwf]

theorem execUnsupportedRequest_wf (q : Req) (body : List Byte) (s : State) (hwf : Memory.wf s.mem = true) :
    NextWf (execUnsupportedRequest q body s) := by
  simp [execUnsupportedRequest, hwf]

end Sys2Proof.Machine

/-! PROOFS. Canonical memory (O59): scalar instructions, the standby domain, and the beat edge as a whole. -/

namespace Sys2Proof.Machine

/-! ### Table 4.5 and Table 4.6: the scalar and branch groups of the coach instruction set (R106 to R108) -/

theorem scalar2_wf {s : State} {op seat : Nat} {w : Fields} {f : W64 → W64 → W64} (h : Memory.wf s.mem = true) :
    NextWf (scalar2 op s seat w f) := issueNext_wf h fun _ => (doneSeat_wf _ _ _).2 h

theorem scalar1_wf {s : State} {seat : Nat} {w : Fields} {form : Form} {f : W64 → W64} (h : Memory.wf s.mem = true) :
    NextWf (scalar1 s seat w form f) := issueNext_wf h fun _ => (doneSeat_wf _ _ _).2 h

theorem execAdd_wf (seat : Nat) (w : Fields) (s : State) (hwf : Memory.wf s.mem = true) : NextWf (execAdd seat w s) := scalar2_wf hwf

theorem execSub_wf (seat : Nat) (w : Fields) (s : State) (hwf : Memory.wf s.mem = true) : NextWf (execSub seat w s) := scalar2_wf hwf

theorem execAnd_wf (seat : Nat) (w : Fields) (s : State) (hwf : Memory.wf s.mem = true) : NextWf (execAnd seat w s) := scalar2_wf hwf

theorem execOr_wf (seat : Nat) (w : Fields) (s : State) (hwf : Memory.wf s.mem = true) : NextWf (execOr seat w s) := scalar2_wf hwf

theorem execXor_wf (seat : Nat) (w : Fields) (s : State) (hwf : Memory.wf s.mem = true) : NextWf (execXor seat w s) := scalar2_wf hwf

theorem execShl_wf (seat : Nat) (w : Fields) (s : State) (hwf : Memory.wf s.mem = true) : NextWf (execShl seat w s) := scalar2_wf hwf

theorem execShr_wf (seat : Nat) (w : Fields) (s : State) (hwf : Memory.wf s.mem = true) : NextWf (execShr seat w s) := scalar2_wf hwf

theorem execSra_wf (seat : Nat) (w : Fields) (s : State) (hwf : Memory.wf s.mem = true) : NextWf (execSra seat w s) := scalar2_wf hwf

theorem execAddi_wf (seat : Nat) (w : Fields) (s : State) (hwf : Memory.wf s.mem = true) : NextWf (execAddi seat w s) := scalar1_wf hwf

theorem execAndi_wf (seat : Nat) (w : Fields) (s : State) (hwf : Memory.wf s.mem = true) : NextWf (execAndi seat w s) := scalar1_wf hwf

theorem execOri_wf (seat : Nat) (w : Fields) (s : State) (hwf : Memory.wf s.mem = true) : NextWf (execOri seat w s) := scalar1_wf hwf

theorem execXori_wf (seat : Nat) (w : Fields) (s : State) (hwf : Memory.wf s.mem = true) : NextWf (execXori seat w s) := scalar1_wf hwf

theorem execShli_wf (seat : Nat) (w : Fields) (s : State) (hwf : Memory.wf s.mem = true) : NextWf (execShli seat w s) := scalar1_wf hwf

theorem execShri_wf (seat : Nat) (w : Fields) (s : State) (hwf : Memory.wf s.mem = true) : NextWf (execShri seat w s) := scalar1_wf hwf

theorem execSrai_wf (seat : Nat) (w : Fields) (s : State) (hwf : Memory.wf s.mem = true) : NextWf (execSrai seat w s) := scalar1_wf hwf

theorem execMovi_wf (seat : Nat) (w : Fields) (s : State) (hwf : Memory.wf s.mem = true) : NextWf (execMovi seat w s) :=
  issueNext_wf hwf fun _ => (doneSeat_wf _ _ _).2 hwf

theorem execMovk_wf (seat : Nat) (w : Fields) (s : State) (hwf : Memory.wf s.mem = true) : NextWf (execMovk seat w s) := by
  refine issueNext_wf hwf fun t => ?_
  dsimp only
  simp [hwf]

theorem execSlt_wf (seat : Nat) (w : Fields) (s : State) (hwf : Memory.wf s.mem = true) : NextWf (execSlt seat w s) := scalar2_wf hwf

theorem execSltu_wf (seat : Nat) (w : Fields) (s : State) (hwf : Memory.wf s.mem = true) : NextWf (execSltu seat w s) := scalar2_wf hwf

theorem execSel_wf (seat : Nat) (w : Fields) (s : State) (hwf : Memory.wf s.mem = true) : NextWf (execSel seat w s) := by
  refine issueNext_wf hwf fun t => ?_
  dsimp only
  (repeat' split) <;> simp [hwf]

theorem execMin_wf (seat : Nat) (w : Fields) (s : State) (hwf : Memory.wf s.mem = true) : NextWf (execMin seat w s) := scalar2_wf hwf

theorem execMax_wf (seat : Nat) (w : Fields) (s : State) (hwf : Memory.wf s.mem = true) : NextWf (execMax seat w s) := scalar2_wf hwf

theorem execMinu_wf (seat : Nat) (w : Fields) (s : State) (hwf : Memory.wf s.mem = true) : NextWf (execMinu seat w s) := scalar2_wf hwf

theorem execMaxu_wf (seat : Nat) (w : Fields) (s : State) (hwf : Memory.wf s.mem = true) : NextWf (execMaxu seat w s) := scalar2_wf hwf

theorem execMul_wf (seat : Nat) (w : Fields) (s : State) (hwf : Memory.wf s.mem = true) : NextWf (execMul seat w s) := scalar2_wf hwf

theorem execMulh_wf (seat : Nat) (w : Fields) (s : State) (hwf : Memory.wf s.mem = true) : NextWf (execMulh seat w s) := scalar2_wf hwf

theorem execMulhu_wf (seat : Nat) (w : Fields) (s : State) (hwf : Memory.wf s.mem = true) : NextWf (execMulhu seat w s) := scalar2_wf hwf

theorem execDiv_wf (seat : Nat) (w : Fields) (s : State) (hwf : Memory.wf s.mem = true) : NextWf (execDiv seat w s) := scalar2_wf hwf

theorem execDivu_wf (seat : Nat) (w : Fields) (s : State) (hwf : Memory.wf s.mem = true) : NextWf (execDivu seat w s) := scalar2_wf hwf

theorem execRem_wf (seat : Nat) (w : Fields) (s : State) (hwf : Memory.wf s.mem = true) : NextWf (execRem seat w s) := scalar2_wf hwf

theorem execRemu_wf (seat : Nat) (w : Fields) (s : State) (hwf : Memory.wf s.mem = true) : NextWf (execRemu seat w s) := scalar2_wf hwf

theorem branch2_wf {s : State} {op seat : Nat} {w : Fields} {f : W64 → W64 → Bool} (h : Memory.wf s.mem = true) :
    NextWf (branch2 op s seat w f) := issueNext_wf h fun t => by
  dsimp only
  (repeat' split) <;> simp [h]

theorem execBeq_wf (seat : Nat) (w : Fields) (s : State) (hwf : Memory.wf s.mem = true) : NextWf (execBeq seat w s) := branch2_wf hwf

theorem execBne_wf (seat : Nat) (w : Fields) (s : State) (hwf : Memory.wf s.mem = true) : NextWf (execBne seat w s) := branch2_wf hwf

theorem execBlt_wf (seat : Nat) (w : Fields) (s : State) (hwf : Memory.wf s.mem = true) : NextWf (execBlt seat w s) := branch2_wf hwf

theorem execBge_wf (seat : Nat) (w : Fields) (s : State) (hwf : Memory.wf s.mem = true) : NextWf (execBge seat w s) := branch2_wf hwf

theorem execBltu_wf (seat : Nat) (w : Fields) (s : State) (hwf : Memory.wf s.mem = true) : NextWf (execBltu seat w s) := branch2_wf hwf

theorem execBgeu_wf (seat : Nat) (w : Fields) (s : State) (hwf : Memory.wf s.mem = true) : NextWf (execBgeu seat w s) := branch2_wf hwf

theorem branchM_wf {s : State} {op seat : Nat} {w : Fields} {f : W64 → Bool} (h : Memory.wf s.mem = true) :
    NextWf (branchM op s seat w f) := issueNext_wf h fun t => by
  split <;> simp [h]

theorem execBmany_wf (seat : Nat) (w : Fields) (s : State) (hwf : Memory.wf s.mem = true) : NextWf (execBmany seat w s) := branchM_wf hwf

theorem execBmnone_wf (seat : Nat) (w : Fields) (s : State) (hwf : Memory.wf s.mem = true) : NextWf (execBmnone seat w s) := branchM_wf hwf

theorem execJal_wf (seat : Nat) (w : Fields) (s : State) (hwf : Memory.wf s.mem = true) : NextWf (execJal seat w s) :=
  issueNext_wf hwf fun _ => by simp [hwf]

theorem execJalr_wf (seat : Nat) (w : Fields) (s : State) (hwf : Memory.wf s.mem = true) : NextWf (execJalr seat w s) := by
  refine issueNext_wf hwf fun t => ?_
  dsimp only
  (repeat' split) <;> simp [hwf]

theorem execLoop_wf (seat : Nat) (w : Fields) (s : State) (hwf : Memory.wf s.mem = true) : NextWf (execLoop seat w s) := by
  refine issueNext_wf hwf fun t => ?_
  dsimp only
  (repeat' split) <;> simp [hwf]

/-! ### The standby domain (R12, R15, R392, R478) -/

@[simp] theorem standbyDown_wf (s : State) : Memory.wf (standbyDown s).mem = true := wf_nil

theorem execStandbyPowerOnReset_wf (s : State) : NextWf (execStandbyPowerOnReset s) := by
  simp [execStandbyPowerOnReset]

@[simp] theorem dropRecord_mem (s : State) (k : Nat) : (dropRecord s k).mem = s.mem := by
  unfold dropRecord
  dsimp only
  (repeat' split) <;> simp

theorem execStandbyResetExit_wf (puf flow vin54 vin12 : Bool) (lead : Nat) (bad : List Nat) (s : State) (hwf : Memory.wf s.mem = true) :
    NextWf (execStandbyResetExit puf flow vin54 vin12 lead bad s) := by
  unfold execStandbyResetExit
  dsimp only
  (repeat' split) <;> simp -implicitDefEqProofs [hwf]

/-! ### Supplies and wake (R476, R477) -/

@[simp] theorem setSupply_mem (s : State) (input mv : Nat) (bad : Bool) : (setSupply s input mv bad).mem = s.mem := by
  simp [setSupply]

theorem execSupplyOutOfRange_wf (input mv : Nat) (s : State) (hwf : Memory.wf s.mem = true) :
    NextWf (execSupplyOutOfRange input mv s) := by
  unfold execSupplyOutOfRange
  dsimp only
  (repeat' split) <;> simp [hwf]

theorem execSupplyInRange_wf (input mv : Nat) (s : State) (hwf : Memory.wf s.mem = true) : NextWf (execSupplyInRange input mv s) := by
  unfold execSupplyInRange
  dsimp only
  (repeat' split) <;> simp [hwf]

theorem execWakeAssert_wf (low : Bool) (s : State) (hwf : Memory.wf s.mem = true) : NextWf (execWakeAssert low s) := by
  unfold execWakeAssert
  dsimp only
  (repeat' split) <;> simp [hwf]

/-! ### Memory (R322, R325, R326, R328) -/

@[simp] theorem memReady_wf (s : State) (hwf : Memory.wf s.mem = true) : Memory.wf (memReady s).mem = true := by
  simp -implicitDefEqProofs [memReady, hwf]

theorem execMemoryTrainingComplete_wf (failed : List Nat) (devs : List (Nat × Int)) (ms : Nat) (s : State) (hwf : Memory.wf s.mem = true) :
    NextWf (execMemoryTrainingComplete failed devs ms s) := by
  unfold execMemoryTrainingComplete
  (repeat' split) <;> simp [hwf]

theorem execMemoryFillComplete_wf (s : State) (hwf : Memory.wf s.mem = true) : NextWf (execMemoryFillComplete s) := by
  unfold execMemoryFillComplete
  dsimp only
  (repeat' split) <;> simp [hwf]

theorem execMr4Poll_wf (hot : List Nat) (s : State) (hwf : Memory.wf s.mem = true) : NextWf (execMr4Poll hot s) := by
  unfold execMr4Poll
  dsimp only
  (repeat' split) <;> simp -implicitDefEqProofs [hwf]

/-! ### Services (R358, R378, R493, R494) -/

@[simp] theorem startGuards_mem (s : State) : (startGuards s).mem = s.mem := by
  simp [startGuards]

theorem execServiceOpen_wf (svc : Nat) (s : State) (hwf : Memory.wf s.mem = true) : NextWf (execServiceOpen svc s) := by
  unfold execServiceOpen
  dsimp only
  (repeat' split) <;> simp [hwf]

/-! ### Restarts of the cores (R371 to R374) -/

@[simp] theorem coreRestart_wf (s : State) (core index owns : Nat) (hwf : Memory.wf s.mem = true) :
    Memory.wf (coreRestart s core index owns).mem = true := by
  simp [coreRestart, hwf]

theorem execCompartmentFault_wf (guard index owns : Nat) (s : State) (hwf : Memory.wf s.mem = true) :
    NextWf (execCompartmentFault guard index owns s) := by
  simp [execCompartmentFault, hwf]

theorem execCompartmentWatchdogExpiry_wf (guard index owns : Nat) (s : State) (hwf : Memory.wf s.mem = true) :
    NextWf (execCompartmentWatchdogExpiry guard index owns s) := by
  simp [execCompartmentWatchdogExpiry, hwf]

theorem execGuardWatchdogExpiry_wf (guard : Nat) (s : State) (hwf : Memory.wf s.mem = true) :
    NextWf (execGuardWatchdogExpiry guard s) := by
  simp [execGuardWatchdogExpiry, hwf]

theorem execGuardKernelFault_wf (guard : Nat) (s : State) (hwf : Memory.wf s.mem = true) : NextWf (execGuardKernelFault guard s) := by
  simp [execGuardKernelFault, hwf]

theorem execSctlWatchdogExpiry_wf (s : State) (hwf : Memory.wf s.mem = true) : NextWf (execSctlWatchdogExpiry s) := by
  simp [execSctlWatchdogExpiry, hwf]

/-! ### DRUM_BEAT (R249): everything that one beat edge does, in the order in which it does it -/

@[simp] theorem serveMsg_wf (q : Req) (code : Nat) (body : List Byte) (s : State) (hwf : Memory.wf s.mem = true) :
    Memory.wf (serveMsg q code body s).mem = true := by
  unfold serveMsg
  (repeat' split) <;> simp [hwf]

@[simp] theorem serveHeld_wf (s : State) (role : Nat) (hwf : Memory.wf s.mem = true) : Memory.wf (serveHeld s role).mem = true := by
  unfold serveHeld
  dsimp only
  (repeat' split) <;> simp [hwf]

theorem execDrumBeat_wf (s : State) (hwf : Memory.wf s.mem = true) : NextWf (execDrumBeat s) := by
  unfold execDrumBeat
  split
  · exact (nextWf_next _).2 hwf
  · refine (nextWf_next _).2 (foldl_wf (fun u r hu => by simp [hu]) _ (mainBeat_wf _ ?_))
    split <;> simp [hwf]

end Sys2Proof.Machine

/-! PROOFS. Canonical memory (O59): every command and every step. -/

namespace Sys2Proof.Machine

/-! ### Every command and every step -/

/-- Every command keeps memory in canonical form. -/
theorem exec_wf {s : State} (hwf : Memory.wf s.mem = true) : ∀ c, NextWf (exec c s)
  | .registerWrite .. => execRegisterWrite_wf _ _ _ _ s hwf
  | .commit .. => execCommit_wf _ _ _ s hwf
  | .standbyPowerOnReset .. => execStandbyPowerOnReset_wf s
  | .standbyResetExit .. => execStandbyResetExit_wf _ _ _ _ _ _ s hwf
  | .mainDomainReset .. => execMainDomainReset_wf s hwf
  | .mainResetRelease .. => execMainResetRelease_wf _ s hwf
  | .supplyOutOfRange .. => execSupplyOutOfRange_wf _ _ s hwf
  | .supplyInRange .. => execSupplyInRange_wf _ _ s hwf
  | .wakeAssert .. => execWakeAssert_wf _ s hwf
  | .consistBootApply .. => execConsistBootApply_wf s hwf
  | .consistData .. => execConsistData_wf _ _ s hwf
  | .consistLoad .. => execConsistLoad_wf _ _ s hwf
  | .consistSlotWritten .. => execConsistSlotWritten_wf s hwf
  | .consistApply .. => execConsistApply_wf _ _ s hwf
  | .applyComplete .. => execApplyComplete_wf s hwf
  | .applyBeat .. => execApplyBeat_wf s hwf
  | .add .. => execAdd_wf _ _ s hwf
  | .sub .. => execSub_wf _ _ s hwf
  | .and .. => execAnd_wf _ _ s hwf
  | .or .. => execOr_wf _ _ s hwf
  | .xor .. => execXor_wf _ _ s hwf
  | .shl .. => execShl_wf _ _ s hwf
  | .shr .. => execShr_wf _ _ s hwf
  | .sra .. => execSra_wf _ _ s hwf
  | .addi .. => execAddi_wf _ _ s hwf
  | .andi .. => execAndi_wf _ _ s hwf
  | .ori .. => execOri_wf _ _ s hwf
  | .xori .. => execXori_wf _ _ s hwf
  | .shli .. => execShli_wf _ _ s hwf
  | .shri .. => execShri_wf _ _ s hwf
  | .srai .. => execSrai_wf _ _ s hwf
  | .movi .. => execMovi_wf _ _ s hwf
  | .movk .. => execMovk_wf _ _ s hwf
  | .slt .. => execSlt_wf _ _ s hwf
  | .sltu .. => execSltu_wf _ _ s hwf
  | .sel .. => execSel_wf _ _ s hwf
  | .min .. => execMin_wf _ _ s hwf
  | .max .. => execMax_wf _ _ s hwf
  | .minu .. => execMinu_wf _ _ s hwf
  | .maxu .. => execMaxu_wf _ _ s hwf
  | .mul .. => execMul_wf _ _ s hwf
  | .mulh .. => execMulh_wf _ _ s hwf
  | .mulhu .. => execMulhu_wf _ _ s hwf
  | .div .. => execDiv_wf _ _ s hwf
  | .divu .. => execDivu_wf _ _ s hwf
  | .rem .. => execRem_wf _ _ s hwf
  | .remu .. => execRemu_wf _ _ s hwf
  | .beq .. => execBeq_wf _ _ s hwf
  | .bne .. => execBne_wf _ _ s hwf
  | .blt .. => execBlt_wf _ _ s hwf
  | .bge .. => execBge_wf _ _ s hwf
  | .bltu .. => execBltu_wf _ _ s hwf
  | .bgeu .. => execBgeu_wf _ _ s hwf
  | .bmany .. => execBmany_wf _ _ s hwf
  | .bmnone .. => execBmnone_wf _ _ s hwf
  | .jal .. => execJal_wf _ _ s hwf
  | .jalr .. => execJalr_wf _ _ s hwf
  | .loop .. => execLoop_wf _ _ s hwf
  | .vadd .. => execVadd_wf _ _ s hwf
  | .vsub .. => execVsub_wf _ _ s hwf
  | .vmul .. => execVmul_wf _ _ s hwf
  | .vfma .. => execVfma_wf _ _ s hwf
  | .vfnma .. => execVfnma_wf _ _ s hwf
  | .vdot .. => execVdot_wf _ _ s hwf
  | .vmin .. => execVmin_wf _ _ s hwf
  | .vmax .. => execVmax_wf _ _ s hwf
  | .vabs .. => execVabs_wf _ _ s hwf
  | .vneg .. => execVneg_wf _ _ s hwf
  | .vdiv .. => execVdiv_wf _ _ s hwf
  | .vsqrt .. => execVsqrt_wf _ _ s hwf
  | .vcmp .. => execVcmp_wf _ _ s hwf
  | .viadd .. => execViadd_wf _ _ s hwf
  | .visub .. => execVisub_wf _ _ s hwf
  | .vimul .. => execVimul_wf _ _ s hwf
  | .vidot .. => execVidot_wf _ _ s hwf
  | .vand .. => execVand_wf _ _ s hwf
  | .vor .. => execVor_wf _ _ s hwf
  | .vxor .. => execVxor_wf _ _ s hwf
  | .vshl .. => execVshl_wf _ _ s hwf
  | .vshr .. => execVshr_wf _ _ s hwf
  | .vsra .. => execVsra_wf _ _ s hwf
  | .vicmp .. => execVicmp_wf _ _ s hwf
  | .vsel .. => execVsel_wf _ _ s hwf
  | .vmovs .. => execVmovs_wf _ _ s hwf
  | .smovv .. => execSmovv_wf _ _ s hwf
  | .viota .. => execViota_wf _ _ s hwf
  | .vperm .. => execVperm_wf _ _ s hwf
  | .mand .. => execMand_wf _ _ s hwf
  | .mor .. => execMor_wf _ _ s hwf
  | .mxor .. => execMxor_wf _ _ s hwf
  | .mnot .. => execMnot_wf _ _ s hwf
  | .mset .. => execMset_wf _ _ s hwf
  | .mget .. => execMget_wf _ _ s hwf
  | .mcnt .. => execMcnt_wf _ _ s hwf
  | .mfirst .. => execMfirst_wf _ _ s hwf
  | .cvt .. => execCvt_wf _ _ s hwf
  | .xalloc .. => execXalloc_wf _ _ s hwf
  | .xallocGrant .. => execXallocGrant_wf _ s hwf
  | .xfree .. => execXfree_wf _ _ s hwf
  | .xacc .. => execXacc_wf _ _ s hwf
  | .xzero .. => execXzero_wf _ _ s hwf
  | .xrd .. => execXrd_wf _ _ s hwf
  | .xadd .. => execXadd_wf _ _ s hwf
  | .xlda .. => execXlda_wf _ _ s hwf
  | .xst .. => execXst_wf _ _ s hwf
  | .ld .. => execLd_wf _ _ s hwf
  | .st .. => execSt_wf _ _ s hwf
  | .vld .. => execVld_wf _ _ s hwf
  | .vst .. => execVst_wf _ _ s hwf
  | .aadd .. => execAadd_wf _ _ s hwf
  | .amin .. => execAmin_wf _ _ s hwf
  | .amax .. => execAmax_wf _ _ s hwf
  | .aswap .. => execAswap_wf _ _ s hwf
  | .acas .. => execAcas_wf _ _ s hwf
  | .ald .. => execAld_wf _ _ s hwf
  | .loadReturn .. => execLoadReturn_wf _ _ s hwf
  | .transactionPerformed .. => execTransactionPerformed_wf _ _ _ s hwf
  | .dsub .. => execDsub_wf _ _ s hwf
  | .dwait .. => execDwait_wf _ _ s hwf
  | .dcnt .. => execDcnt_wf _ _ s hwf
  | .drayTransaction .. => execDrayTransaction_wf _ _ s hwf
  | .drayDescriptorComplete .. => execDrayDescriptorComplete_wf _ _ s hwf
  | .vgather .. => execVgather_wf _ _ s hwf
  | .vscatter .. => execVscatter_wf _ _ s hwf
  | .xscadd .. => execXscadd_wf _ _ s hwf
  | .fence .. => execFence_wf _ _ s hwf
  | .fenceComplete .. => execFenceComplete_wf _ s hwf
  | .bar .. => execBar_wf _ _ s hwf
  | .barrierRelease .. => execBarrierRelease_wf _ _ s hwf
  | .launch .. => execLaunch_wf _ _ s hwf
  | .bwait .. => execBwait_wf _ _ s hwf
  | .bread .. => execBread_wf _ _ s hwf
  | .rpop .. => execRpop_wf _ _ s hwf
  | .rpush .. => execRpush_wf _ _ s hwf
  | .rctx .. => execRctx_wf _ _ s hwf
  | .rand .. => execRand_wf _ _ s hwf
  | .nop .. => execNop_wf _ _ s hwf
  | .halt .. => execHalt_wf _ _ s hwf
  | .trap .. => execTrap_wf _ _ s hwf
  | .launchBlockStart .. => execLaunchBlockStart_wf _ s hwf
  | .kernelCodeLoaded .. => execKernelCodeLoaded_wf _ s hwf
  | .kernelComplete .. => execKernelComplete_wf _ s hwf
  | .kernelTimeout .. => execKernelTimeout_wf _ s hwf
  | .kernelsStopped .. => execKernelsStopped_wf s hwf
  | .reduce .. => execReduce_wf _ _ s hwf
  | .allReduce .. => execAllReduce_wf _ _ s hwf
  | .reduceScatter .. => execReduceScatter_wf _ _ s hwf
  | .allGather .. => execAllGather_wf _ _ s hwf
  | .broadcast .. => execBroadcast_wf _ _ s hwf
  | .allToAll .. => execAllToAll_wf _ _ s hwf
  | .collUnmatched .. => execCollUnmatched_wf _ s hwf
  | .collWindowOpen .. => execCollWindowOpen_wf _ s hwf
  | .collChunkReduce .. => execCollChunkReduce_wf _ s hwf
  | .collComplete .. => execCollComplete_wf _ s hwf
  | .collStall .. => execCollStall_wf _ s hwf
  | .collData .. => execCollData_wf _ s hwf
  | .dispatch .. => execDispatch_wf _ s hwf
  | .dispatchEnd .. => execDispatchEnd_wf _ s hwf
  | .dispatchCredit .. => execDispatchCredit_wf _ _ s hwf
  | .xhPost .. => execXhPost_wf _ s hwf
  | .xhStep .. => execXhStep_wf _ s hwf
  | .collCredit .. => execCollCredit_wf _ s hwf
  | .tableDefine .. => execTableDefine_wf _ _ s hwf
  | .tableRelease .. => execTableRelease_wf _ _ s hwf
  | .stepLinked .. => execStepLinked_wf _ _ s hwf
  | .stepBuffered .. => execStepBuffered_wf _ _ s hwf
  | .stepEmitOnly .. => execStepEmitOnly_wf _ _ s hwf
  | .embGather .. => execEmbGather_wf _ _ s hwf
  | .embScatterAdd .. => execEmbScatterAdd_wf _ _ s hwf
  | .embApply .. => execEmbApply_wf _ _ s hwf
  | .embApplyBegin .. => execEmbApplyBegin_wf _ s hwf
  | .stateCommandHead .. => execStateCommandHead_wf _ s hwf
  | .stepEnd .. => execStepEnd_wf _ s hwf
  | .stateCommandComplete .. => execStateCommandComplete_wf _ s hwf
  | .take .. => execTake_wf _ _ s hwf
  | .restore .. => execRestore_wf _ _ s hwf
  | .drain .. => execDrain_wf _ _ s hwf
  | .importOpen .. => execImportOpen_wf _ _ s hwf
  | .importCheck .. => execImportCheck_wf _ _ s hwf
  | .snapManifest .. => execSnapManifest_wf _ s hwf
  | .snapManifestDeadline .. => execSnapManifestDeadline_wf s hwf
  | .snapCut .. => execSnapCut_wf s hwf
  | .snapData .. => execSnapData_wf _ s hwf
  | .snapSent .. => execSnapSent_wf _ s hwf
  | .snapCommit .. => execSnapCommit_wf s hwf
  | .snapResume .. => execSnapResume_wf s hwf
  | .snapPcredit .. => execSnapPcredit_wf _ s hwf
  | .snapLoadedAck .. => execSnapLoadedAck_wf _ s hwf
  | .mirBegin .. => execMirBegin_wf _ s hwf
  | .mirEnd .. => execMirEnd_wf _ s hwf
  | .mirAck .. => execMirAck_wf _ s hwf
  | .mirNak .. => execMirNak_wf _ s hwf
  | .mirCredit .. => execMirCredit_wf _ s hwf
  | .mirSlots .. => execMirSlots_wf _ s hwf
  | .drumBeat .. => execDrumBeat_wf s hwf
  | .beatSync .. => execBeatSync_wf _ _ _ _ _ _ _ _ _ _ _ _ s hwf
  | .ptpSync .. => execPtpSync_wf _ _ _ _ _ s hwf
  | .ptpFollowUp .. => execPtpFollowUp_wf _ _ _ s hwf
  | .ptpDelayResp .. => execPtpDelayResp_wf _ _ _ _ s hwf
  | .ptpAnnounce .. => execPtpAnnounce_wf _ _ _ s hwf
  | .drumSourceLost .. => execDrumSourceLost_wf s hwf
  | .drumReport .. => execDrumReport_wf _ s hwf
  | .portEnable .. => execPortEnable_wf _ s hwf
  | .trainingFrame .. => execTrainingFrame_wf _ _ _ _ _ _ s hwf
  | .trainingTimeout .. => execTrainingTimeout_wf _ s hwf
  | .laneTestEnd .. => execLaneTestEnd_wf _ _ _ _ s hwf
  | .align .. => execAlign_wf _ _ s hwf
  | .config .. => execConfig_wf _ _ _ s hwf
  | .portFailedRetry .. => execPortFailedRetry_wf _ s hwf
  | .cplLaneLost .. => execCplLaneLost_wf _ _ s hwf
  | .linkWord .. => execLinkWord_wf _ _ _ s hwf
  | .cplLinkDown .. => execCplLinkDown_wf _ s hwf
  | .compensationFrame .. => execCompensationFrame_wf _ s hwf
  | .write .. => execWrite_wf _ s hwf
  | .readReq .. => execReadReq_wf _ s hwf
  | .ringSub .. => execRingSub_wf _ s hwf
  | .ringFree .. => execRingFree_wf _ s hwf
  | .jobAbort .. => execJobAbort_wf _ s hwf
  | .jobAbortAck .. => execJobAbortAck_wf _ s hwf
  | .linkStatePoll .. => execLinkStatePoll_wf _ _ s hwf
  | .inBandInterrupt .. => execInBandInterrupt_wf _ _ s hwf
  | .cplRetest .. => execCplRetest_wf _ s hwf
  | .memoryRead .. => execMemoryRead_wf _ _ _ s hwf
  | .memoryWrite .. => execMemoryWrite_wf _ _ _ _ _ s hwf
  | .mr4Poll .. => execMr4Poll_wf _ s hwf
  | .scrubRead .. => execScrubRead_wf _ _ s hwf
  | .memoryTrainingComplete .. => execMemoryTrainingComplete_wf _ _ _ s hwf
  | .memoryFillComplete .. => execMemoryFillComplete_wf s hwf
  | .memErrorRateSecond .. => execMemErrorRateSecond_wf _ s hwf
  | .ethLinkChange .. => execEthLinkChange_wf _ _ s hwf
  | .arpRequest .. => execArpRequest_wf _ _ _ _ _ s hwf
  | .icmpEchoRequest .. => execIcmpEchoRequest_wf _ _ _ _ _ _ s hwf
  | .neighborSolicitation .. => execNeighborSolicitation_wf _ _ _ _ s hwf
  | .routerAdvertisement .. => execRouterAdvertisement_wf _ _ _ _ s hwf
  | .pfcPause .. => execPfcPause_wf _ _ _ s hwf
  | .rdmaWrite .. => execRdmaWrite_wf _ _ _ _ _ _ _ s hwf
  | .rdmaRead .. => execRdmaRead_wf _ _ _ _ _ _ s hwf
  | .rdmaAck .. => execRdmaAck_wf _ _ s hwf
  | .cnp .. => execCnp_wf _ s hwf
  | .rdmaAckTimeout .. => execRdmaAckTimeout_wf _ s hwf
  | .rdmaRateRecovery .. => execRdmaRateRecovery_wf _ s hwf
  | .doorbell .. => execDoorbell_wf _ _ _ s hwf
  | .ringEntryTake .. => execRingEntryTake_wf _ s hwf
  | .statusGet .. => execStatusGet_wf _ _ s hwf
  | .identityGet .. => execIdentityGet_wf _ _ s hwf
  | .regRead .. => execRegRead_wf _ _ s hwf
  | .regWrite .. => execRegWrite_wf _ _ s hwf
  | .ringSetup .. => execRingSetup_wf _ _ s hwf
  | .notifySet .. => execNotifySet_wf _ _ s hwf
  | .connOpen .. => execConnOpen_wf _ _ s hwf
  | .connClose .. => execConnClose_wf _ _ s hwf
  | .addrSet .. => execAddrSet_wf _ _ s hwf
  | .heartbeat .. => execHeartbeat_wf _ _ s hwf
  | .roleSilent .. => execRoleSilent_wf _ s hwf
  | .jobStart .. => execJobStart_wf _ _ s hwf
  | .jobEnd .. => execJobEnd_wf _ _ s hwf
  | .powerSetOn .. => execPowerSetOn_wf _ _ s hwf
  | .powerSetOff .. => execPowerSetOff_wf _ _ s hwf
  | .capSet .. => execCapSet_wf _ _ s hwf
  | .energyGet .. => execEnergyGet_wf _ _ s hwf
  | .telemetryGet .. => execTelemetryGet_wf _ _ s hwf
  | .enrol .. => execEnrol_wf _ _ s hwf
  | .updBegin .. => execUpdBegin_wf _ _ s hwf
  | .updData .. => execUpdData_wf _ _ s hwf
  | .updDataProgrammed .. => execUpdDataProgrammed_wf _ _ s hwf
  | .updEnd .. => execUpdEnd_wf _ _ s hwf
  | .updVerifyComplete .. => execUpdVerifyComplete_wf _ s hwf
  | .updActivate .. => execUpdActivate_wf _ _ s hwf
  | .updAbort .. => execUpdAbort_wf _ _ s hwf
  | .updSessionTimeout .. => execUpdSessionTimeout_wf s hwf
  | .updDeferralEnd .. => execUpdDeferralEnd_wf s hwf
  | .trialTimeout .. => execTrialTimeout_wf s hwf
  | .standbyTrialConfirm .. => execStandbyTrialConfirm_wf s hwf
  | .getVersion .. => execGetVersion_wf _ _ s hwf
  | .getCapabilities .. => execGetCapabilities_wf _ _ s hwf
  | .negotiateAlgorithms .. => execNegotiateAlgorithms_wf _ _ s hwf
  | .getDigests .. => execGetDigests_wf _ _ s hwf
  | .getCertificate .. => execGetCertificate_wf _ _ s hwf
  | .challenge .. => execChallenge_wf _ _ s hwf
  | .getMeasurements .. => execGetMeasurements_wf _ _ s hwf
  | .faultRead .. => execFaultRead_wf _ _ s hwf
  | .faultAck .. => execFaultAck_wf _ _ s hwf
  | .logRead .. => execLogRead_wf _ _ s hwf
  | .serviceOpen .. => execServiceOpen_wf _ s hwf
  | .compartmentFault .. => execCompartmentFault_wf _ _ _ s hwf
  | .compartmentWatchdogExpiry .. => execCompartmentWatchdogExpiry_wf _ _ _ s hwf
  | .guardWatchdogExpiry .. => execGuardWatchdogExpiry_wf _ s hwf
  | .guardKernelFault .. => execGuardKernelFault_wf _ s hwf
  | .sctlWatchdogExpiry .. => execSctlWatchdogExpiry_wf s hwf
  | .pseqLoadGo .. => execPseqLoadGo_wf _ s hwf
  | .pealLoadComplete .. => execPealLoadComplete_wf s hwf
  | .pealUpperRunStart .. => execPealUpperRunStart_wf s hwf
  | .pealEnd .. => execPealEnd_wf s hwf
  | .pealEn .. => execPealEn_wf s hwf
  | .pealDis .. => execPealDis_wf s hwf
  | .pealWait .. => execPealWait_wf s hwf
  | .pealChk .. => execPealChk_wf s hwf
  | .pealJmp .. => execPealJmp_wf s hwf
  | .pealJfail .. => execPealJfail_wf s hwf
  | .pealStagger .. => execPealStagger_wf s hwf
  | .pealStepTimeout .. => execPealStepTimeout_wf _ s hwf
  | .pealWaitExpiry .. => execPealWaitExpiry_wf s hwf
  | .powerGoodQualified .. => execPowerGoodQualified_wf _ _ _ s hwf
  | .pealRailFault .. => execPealRailFault_wf _ s hwf
  | .dischargeDone .. => execDischargeDone_wf _ _ s hwf
  | .dischargeTimeout .. => execDischargeTimeout_wf s hwf
  | .retryWaitExpiry .. => execRetryWaitExpiry_wf s hwf
  | .attemptCountReset .. => execAttemptCountReset_wf s hwf
  | .hubCapPeriod .. => execHubCapPeriod_wf _ _ _ s hwf
  | .trayScan .. => execTrayScan_wf _ _ _ s hwf
  | .opEvaluation .. => execOpEvaluation_wf s hwf
  | .opStepComplete .. => execOpStepComplete_wf s hwf
  | .droopDetect .. => execDroopDetect_wf _ _ s hwf
  | .slopeRequest .. => execSlopeRequest_wf _ _ s hwf
  | .tempSweep .. => execTempSweep_wf _ s hwf
  | .railStatusPoll .. => execRailStatusPoll_wf _ _ _ s hwf
  | .leakSample .. => execLeakSample_wf _ _ s hwf
  | .emergencyClear .. => execEmergencyClear_wf _ s hwf
  | .ageingTrim .. => execAgeingTrim_wf _ _ s hwf
  | .coolingUpdate .. => execCoolingUpdate_wf s hwf
  | .fanPulseSeen .. => execFanPulseSeen_wf _ _ _ s hwf
  | .fanSpinupTimeout .. => execFanSpinupTimeout_wf _ s hwf
  | .fanStallDetect .. => execFanStallDetect_wf _ s hwf
  | .fanKickStart .. => execFanKickStart_wf _ s hwf
  | .fanKickEnd .. => execFanKickEnd_wf _ s hwf
  | .flowOkLow .. => execFlowOkLow_wf s hwf
  | .tripClear .. => execTripClear_wf _ s hwf
  | .faultMessage .. => execFaultMessage_wf _ _ _ _ s hwf
  | .blockReset .. => execBlockReset_wf _ s hwf
  | .domainQuietExpiry .. => execDomainQuietExpiry_wf _ s hwf
  | .fltAck .. => execFltAck_wf _ s hwf
  | .fltQpopHi .. => execFltQpopHi_wf s hwf
  | .fltGfifoHi .. => execFltGfifoHi_wf _ s hwf
  | .bistSliceStart .. => execBistSliceStart_wf s hwf
  | .bistBudgetExpiry .. => execBistBudgetExpiry_wf s hwf
  | .bistSliceEnd .. => execBistSliceEnd_wf _ _ _ s hwf
  | .bistReqGo .. => execBistReqGo_wf _ s hwf
  | .partnerResetRelease .. => execPartnerResetRelease_wf _ s hwf
  | .sideCtlHold .. => execSideCtlHold_wf _ s hwf
  | .sideCtlPulse .. => execSideCtlPulse_wf _ s hwf
  | .accFaultAssert .. => execAccFaultAssert_wf _ _ s hwf
  | .i3cAddressAssign .. => execI3cAddressAssign_wf _ _ s hwf
  | .hotJoin .. => execHotJoin_wf _ s hwf
  | .partnerWatchPoll .. => execPartnerWatchPoll_wf _ _ _ s hwf
  | .sideNoresp .. => execSideNoresp_wf _ s hwf
  | .failedFlit .. => execFailedFlit_wf _ _ _ s hwf
  | .fecRateSecond .. => execFecRateSecond_wf _ _ s hwf
  | .railLostDown .. => execRailLostDown_wf _ s hwf
  | .embApplyComplete .. => execEmbApplyComplete_wf _ s hwf
  | .restoreComplete .. => execRestoreComplete_wf s hwf
  | .unknownCode .. => execUnknownCode_wf _ _ _ s hwf
  | .unsupportedRequest .. => execUnsupportedRequest_wf _ _ s hwf

theorem step_wf {s : State} (hwf : Memory.wf s.mem = true) : NextWf (step s) := by
  unfold step
  split
  · exact (nextWf_next s).2 hwf
  · next rest _ => exact exec_wf (s := { s with pending := rest }) hwf _

/-- Settles O59: `exec_wf` at the command that stands at the front of the queue. -/
theorem memoryStaysCanonical : Obligations.MemoryStaysCanonical :=
  fun _ _ hwf => step_wf hwf _

end Sys2Proof.Machine

/-! PROOFS. Seats and coaches after an instruction: the laws that the coach obligations share. -/

namespace Sys2Proof.Machine

/-! ### Maps -/

/-- Keys that a filter keeps read as before. -/
theorem kget_filter_of_keep {α : Type} (d : α) {p : Nat × α → Bool} {k : Nat} (h : ∀ v, p (k, v) = true) :
    ∀ m : KMap α, kget d (m.filter p) k = kget d m k
  | [] => rfl
  | (j, v) :: m => by
    by_cases hj : j = k
    · subst hj
      simp [h v, kget]
    · cases hp : p (j, v) <;> simp [hp, kget, hj, kget_filter_of_keep d h m]

/-- Keys that a filter drops read as the default. -/
theorem kget_filter_of_drop {α : Type} (d : α) {p : Nat × α → Bool} {k : Nat} (h : ∀ v, p (k, v) = false) :
    ∀ m : KMap α, kget d (m.filter p) k = d
  | [] => rfl
  | (j, v) :: m => by
    by_cases hj : j = k
    · subst hj
      simp [h v, kget_filter_of_drop d h m]
    · cases hp : p (j, v) <;> simp [hp, kget, hj, kget_filter_of_drop d h m]

/-- A list of keys given one value: each of them reads as it, every other as before. -/
theorem kget_foldl_kput {α : Type} (d : α) (v : α) (k : Nat) :
    ∀ (l : List Nat) (m : KMap α), kget d (l.foldl (fun m x => kput m x v) m) k = if k ∈ l then v else kget d m k
  | [], m => by simp
  | x :: l, m => by
    rw [List.foldl_cons, kget_foldl_kput d v k l]
    by_cases hl : k ∈ l
    · simp [hl]
    · by_cases hx : k = x
      · subst hx
        simp [hl, kget_kput_same]
      · simp [hl, hx, kget_kput_ne d m v hx]

/-! ### Coaches and seats -/

@[simp] theorem getCoach_putCoach_same (s : State) (c : Nat) (t : Coach) : getCoach (putCoach s c t) c = t := by
  simp [getCoach, putCoach]

theorem getCoach_putCoach_ne (s : State) {c d : Nat} (t : Coach) (h : d ≠ c) : getCoach (putCoach s c t) d = getCoach s d :=
  kget_kset_ne _ _ _ h

@[simp] theorem getCoach_putSeat (s : State) (n c : Nat) (t : Seat) : getCoach (putSeat s n t) c = getCoach s c := rfl

@[simp] theorem getSeat_putCoach (s : State) (c n : Nat) (t : Coach) : getSeat (putCoach s c t) n = getSeat s n := rfl

@[simp] theorem getCoach_advance (s : State) (n pc c : Nat) : getCoach (advance s n pc) c = getCoach s c := rfl

theorem getSeat_advance_ne (s : State) {m n : Nat} (pc : Nat) (h : m ≠ n) : getSeat (advance s n pc) m = getSeat s m :=
  getSeat_putSeat_ne _ _ h

/-- Advancing after a change to the seat's coach and the seat touches those two and the count of issues only. -/
theorem onlyCoach_advance (s : State) (n pc : Nat) (c : Coach) (t : Seat) :
    onlyCoach s (advance (putSeat (putCoach s (n / 16) c) n t) n pc) n :=
  ⟨fun _ h => (getSeat_advance_ne _ _ h).trans (getSeat_putSeat_ne _ _ h), fun _ h => getCoach_putCoach_ne s c h, rfl⟩

theorem onlyCoach_advance_self (s : State) (n pc : Nat) (c : Coach) : onlyCoach s (advance (putCoach s (n / 16) c) n pc) n :=
  ⟨fun _ h => getSeat_advance_ne _ _ h, fun _ h => getCoach_putCoach_ne s c h, rfl⟩

/-- A seat that only advanced went on. -/
theorem wentOn_advance (s u : State) (n : Nat) (h : getSeat u n = getSeat s n) :
    wentOn (getSeat s n) (getSeat (advance u n (nextPc (getSeat s n))) n) := by
  rw [getSeat_advance_self, h]
  exact ⟨rfl, fun _ => rfl, fun _ _ => rfl, fun _ => rfl, rfl, rfl, rfl, rfl, rfl, rfl, rfl⟩

/-! ### Issue -/

/-- An instruction that issues and whose result is `done` goes on from what it wrote. -/
theorem issueNext_done {s : State} {n : Nat} {w : Fields} {form : Form} {extra : Bool} {regs : List Nat} {body : Seat → Res} {u : State}
    (h : issuesWord s n w form = true) (he : extra = true) (hr : noneAwaits s n regs = true) (hb : body (getSeat s n) = .done u) :
    issueNext s n w form extra regs body = .next (advance u n (nextPc (getSeat s n))) := by
  have hr' : (regs.any fun r => (getSeat s n).pend.contains r) = false := by
    simpa [noneAwaits, List.any_eq_false, List.all_eq_true] using hr
  rw [issueNext, issue_acts_with h he hr', hb]
  rfl

@[simp] theorem noneAwaits_nil (s : State) (n : Nat) : noneAwaits s n [] = true := rfl

end Sys2Proof.Machine

/-! PROOFS. The exact-accumulator registers: requests, grants, XFREE and XZERO (R59, R60, R114). -/

namespace Sys2Proof.Machine

/-- R59, R114: a seat without a grant asks for registers and parks behind the requests already waiting. -/
theorem exec_xalloc {s : State} {n : Nat} {w : Fields} (h : issuesWord s n w { op := 0x60, imm := 0xF } = true)
    (hlo : 1 ≤ w.imm.toNat % 16) (hhi : w.imm.toNat % 16 ≤ 8) (hg : (getSeat s n).grant = []) :
    exec (.xalloc n w) s = .next (advance (putSeat (putCoach s (n / 16) { getCoach s (n / 16) with
      xwait := (getCoach s (n / 16)).xwait ++ [(n, w.imm.toNat % 16)] }) n { getSeat s n with st := .parked .xalloc }) n
      (nextPc (getSeat s n))) :=
  issueNext_done h (by simp [hlo, hhi]) (noneAwaits_nil s n) (by simp [hg])

/-- R59, R60: the oldest request gets the lowest free registers, with their lanes zero, and its seat wakes. -/
theorem exec_xallocGrant {s : State} {c n k : Nat} {rest : List (Nat × Nat)} (hw : (getCoach s c).xwait = (n, k) :: rest)
    {free : List Nat} (hfree : free = (rangeFrom 0 8).filter fun x => !((getCoach s c).xowner.map Prod.fst).contains x)
    (hk : k ≤ free.length) :
    exec (.xallocGrant c) s = .next (putSeat (putCoach s c { getCoach s c with
      xwait := rest
      xowner := (free.take k).foldl (fun m x => kput m x n) (getCoach s c).xowner
      xlane := (getCoach s c).xlane.filter fun e => !(free.take k).contains (e.1 / 64) }) n
      { getSeat s n with grant := free.take k, st := .ready }) := by
  subst hfree
  have he : exec (.xallocGrant c) s = execXallocGrant c s := rfl
  rw [he, execXallocGrant]
  dsimp only
  rw [hw]
  dsimp only
  rw [if_neg (Nat.not_lt.mpr hk)]

theorem exec_xfree {s : State} {n : Nat} {w : Fields} (h : issuesWord s n w { op := 0x61 } = true)
    (hr : noneAwaits s n [64, 65, 66, 67, 68, 69, 70, 71] = true) :
    exec (.xfree n w) s = .next (advance (releaseX s n) n (nextPc (getSeat s n))) :=
  issueNext_done h rfl hr rfl

theorem exec_xzero {s : State} {n : Nat} {w : Fields} (h : issuesWord s n w { op := 0x63, d := .x } = true)
    (hd : w.d.toNat < (getSeat s n).grant.length) :
    exec (.xzero n w) s = .next (advance (putCoach s (n / 16) { getCoach s (n / 16) with
      xlane := (getCoach s (n / 16)).xlane.filter fun e => e.1 / 64 != xphys (getSeat s n) w.d.toNat }) n (nextPc (getSeat s n))) :=
  issueNext_done h rfl (noneAwaits_nil s n) (if_neg (Nat.not_le.mpr hd))

/-- The lanes of the registers that a filter keeps are as before, those of the others are zero. -/
theorem kget_filter_lanes (c : Coach) (p : Nat → Bool) {x i : Nat} (hi : i < 64) :
    kget XLane.zero (c.xlane.filter fun e => p (e.1 / 64)) (64 * x + i) = if p x then xget c x i else XLane.zero := by
  have hx : (64 * x + i) / 64 = x := by omega
  cases hp : p x
  · exact kget_filter_of_drop _ (fun v => by simp [hx, hp]) _
  · exact kget_filter_of_keep _ (fun v => by simp [hx, hp]) _

theorem rangeFrom_zero_eight : rangeFrom 0 8 = List.range 8 := rfl

/-- Settles O9, by what each of the four commands gives. -/
theorem accumulatorGrants : Obligations.AccumulatorGrants := by
  refine ⟨fun s n w h hlo hhi hg => ?_, fun s c n k rest hw hk => ?_, fun s n w h hr => ?_, fun s n w h hd => ?_⟩
  · refine ⟨_, exec_xalloc h hlo hhi hg, onlyCoach_advance _ _ _ _ _, ?_, ?_, ?_, ?_⟩
    · simp
    · simp [getSeat_advance]
    · simp [getSeat_advance]
    · simp [getSeat_advance, hg]
  · refine ⟨_, exec_xallocGrant hw rfl hk, ?_⟩
    generalize hf : (rangeFrom 0 8).filter (fun x => !((getCoach s c).xowner.map Prod.fst).contains x) = free
    rw [← rangeFrom_zero_eight, hf] at hk
    have hfree : ∀ x ∈ free.take k, x < 8 ∧ x ∉ (getCoach s c).xowner.map Prod.fst := by
      intro x hx
      have := List.mem_of_mem_take hx
      rw [← hf, List.mem_filter, mem_rangeFrom] at this
      exact ⟨by omega, by simpa using this.2⟩
    simp only [getSeat_putSeat_same, getCoach_putSeat, getCoach_putCoach_same]
    refine ⟨trivial, by simp [hk], ?_, trivial, fun x hx => ⟨(hfree x hx).1, (hfree x hx).2, ?_, fun i hi => ?_⟩,
      fun m hm => getSeat_putSeat_ne _ _ hm, fun d hd => getCoach_putCoach_ne s _ hd⟩
    · rw [← hf]
      exact (List.Nodup.filter _ (by decide)).sublist (List.take_sublist _ _)
    · rw [kget_foldl_kput, if_pos hx]
    · exact (kget_filter_lanes _ (fun r => !(free.take k).contains r) hi).trans (by simp [hx])
  · refine ⟨_, exec_xfree h hr, onlyCoach_advance _ _ _ _ _, ?_, ?_, ?_, ?_⟩
    · simp [releaseX, getSeat_advance]
    · simp [releaseX, getSeat_advance]
    · simp [releaseX, List.mem_filter]
    · intro e he hne
      simp [releaseX, List.mem_filter, he, hne]
  · refine ⟨_, exec_xzero h hd, onlyCoach_advance_self _ _ _ _, wentOn_advance _ _ _ rfl, fun x i hi => ?_⟩
    rw [getCoach_advance, getCoach_putCoach_same]
    exact (kget_filter_lanes _ (fun r => r != xphys (getSeat s n) w.d.toNat) hi).trans (by
      by_cases hx : x = xphys (getSeat s n) w.d.toNat <;> simp [hx])

end Sys2Proof.Machine

/-! PROOFS. Bytes, lists and messages: the laws about reads, writes and raised messages that the coach obligations share. -/

namespace Sys2Proof.Machine

/-! ### Lists of numbers -/

@[simp] theorem mem_nadd (n q : Nat) : ∀ l : List Nat, q ∈ nadd l n ↔ q = n ∨ q ∈ l
  | [] => by simp [nadd]
  | a :: l => by
    rw [nadd]
    split
    · next h => simp [h]
    · split
      · simp
      · simp only [List.mem_cons, mem_nadd n q l]
        tauto

@[simp] theorem mem_ndel (n q : Nat) : ∀ l : List Nat, q ∈ ndel l n ↔ q ≠ n ∧ q ∈ l
  | [] => by simp [ndel]
  | a :: l => by
    rw [ndel]
    split
    · next h =>
      simp only [List.mem_cons, mem_ndel n q l, ← h]
      tauto
    · next h =>
      simp only [List.mem_cons, mem_ndel n q l]
      constructor
      · rintro (rfl | hq)
        · exact ⟨fun hn => h hn.symm, .inl rfl⟩
        · exact ⟨hq.1, .inr hq.2⟩
      · rintro ⟨hn, rfl | hq⟩
        · exact .inl rfl
        · exact .inr ⟨hn, hq⟩

theorem lget_map_rangeFrom {α : Type} (d : α) (f : Nat → α) (n : Nat) : ∀ a i, i < n → lget d ((rangeFrom a n).map f) i = f (a + i) := by
  induction n with
  | zero => intro a i h; omega
  | succ n ih =>
    intro a i h
    cases i with
    | zero => rfl
    | succ i =>
      rw [rangeFrom, List.map_cons, lget, ih (a + 1) i (by omega)]
      congr 1
      omega

/-! ### Little-endian bytes -/

@[simp] theorem length_leBytes (n : Nat) : ∀ v, (leBytes n v).length = n := by
  induction n with
  | zero => intro v; rfl
  | succ n ih => intro v; simp [leBytes, ih]

theorem lget_leBytes (n : Nat) : ∀ v i, i < n → lget 0 (leBytes n v) i = BitVec.ofNat 8 (v / 256 ^ i) := by
  induction n with
  | zero => intro v i h; omega
  | succ n ih =>
    intro v i h
    cases i with
    | zero => simp [leBytes, lget]
    | succ i => rw [leBytes, lget, ih _ _ (by omega), Nat.div_div_eq_div_mul, Nat.pow_succ']

theorem mem_cellsAt (a : Nat) (b : Byte) : ∀ (bs : List Byte) (h : Nat),
    (a, b) ∈ cellsAt h bs ↔ ∃ i, i < bs.length ∧ a = h + i ∧ b = lget 0 bs i
  | [], h => by simp
  | c :: bs, h => by
    rw [cellsAt_cons, List.mem_cons, mem_cellsAt a b bs (h + 1)]
    constructor
    · rintro (heq | ⟨i, hi, ha, hb⟩)
      · obtain ⟨rfl, rfl⟩ := Prod.mk.inj heq
        exact ⟨0, by simp, rfl, rfl⟩
      · exact ⟨i + 1, by simpa using hi, by omega, hb⟩
    · rintro ⟨i, hi, ha, hb⟩
      cases i with
      | zero => exact .inl (by rw [ha, hb]; rfl)
      | succ i => exact .inr ⟨i, by simpa using hi, by omega, hb⟩

/-! ### Reads -/

theorem drop_memBytes (s : State) (k : Nat) : ∀ a n, (memBytes s a n).drop k = memBytes s (a + k) (n - k) := by
  induction k with
  | zero => intro a n; rfl
  | succ k ih =>
    intro a n
    cases n with
    | zero => simp [memBytes]
    | succ n => rw [memBytes, List.drop_succ_cons, ih]; congr 1 <;> omega

theorem take_memBytes (s : State) (k : Nat) : ∀ a n, k ≤ n → (memBytes s a n).take k = memBytes s a k := by
  induction k with
  | zero => intro a n _; rfl
  | succ k ih =>
    intro a n h
    cases n with
    | zero => omega
    | succ n => rw [memBytes, List.take_succ_cons, ih _ _ (by omega), memBytes]

/-- A field of bytes read from memory is the value read there. -/
theorem field_memBytes (s : State) (a n : Nat) {off k : Nat} (h : off + k ≤ n) : field (memBytes s a n) off k = memVal s (a + off) k := by
  rw [field, drop_memBytes, take_memBytes _ _ _ _ (by omega), memVal]

/-! ### Writes -/

/-- A byte after scattered bytes were stored, where all that name it agree. -/
theorem memByte_storeCells_of_mem (s : State) {cells : List (Nat × Byte)} (pois : List Nat) {x : Nat} {v : Byte}
    (hmem : (x, v) ∈ cells) (huniq : ∀ u, (x, u) ∈ cells → u = v) : memByte (storeCells s cells pois) x = v := by
  rw [memByte_storeCells]
  cases hf : cells.reverse.find? (fun e => e.1 == x) with
  | none =>
    rw [List.find?_eq_none] at hf
    exact absurd (hf (x, v) (by simpa using hmem)) (by simp)
  | some e =>
    obtain ⟨y, u⟩ := e
    have hy : y = x := by simpa using List.find?_some hf
    subst hy
    exact huniq u (by simpa using List.mem_of_find?_eq_some hf)

/-- A byte that no stored cell names stays. -/
theorem memByte_storeCells_of_notMem (s : State) {cells : List (Nat × Byte)} (pois : List Nat) {x : Nat}
    (h : ∀ u, (x, u) ∉ cells) : memByte (storeCells s cells pois) x = memByte s x := by
  rw [memByte_storeCells]
  have hf : cells.reverse.find? (fun e => e.1 == x) = none := by
    rw [List.find?_eq_none]
    rintro ⟨y, u⟩ he hy
    have hyx : y = x := by simpa using hy
    exact h u (hyx ▸ by simpa using he)
  rw [hf]

/-! ### Raised messages leave the coaches alone -/

@[simp] theorem setSticky_coaches (s : State) (src : Nat) : (setSticky s src).coaches = s.coaches := by simp [setSticky]

@[simp] theorem latchUnit_coaches (s : State) (src : Nat) : (latchUnit s src).coaches = s.coaches := by
  simp only [latchUnit]
  split
  · simp
  split
  · rfl
  split <;> simp

@[simp] theorem accountMsg_coaches (s : State) (src cls : Nat) (escd : Bool) : (accountMsg s src cls escd).coaches = s.coaches := by
  simp [accountMsg, apply_ite State.coaches]

@[simp] theorem holdErr_coaches (s : State) (src cls : Nat) : (holdErr s src cls).coaches = s.coaches := by
  simp [holdErr, apply_ite State.coaches]

@[simp] theorem raiseMsg_coaches (s : State) (m : FaultMsg) : (raiseMsg s m).coaches = s.coaches := by
  simp [raiseMsg, apply_ite State.coaches]

@[simp] theorem raise_coaches (s : State) (src kind cls addr : Nat) : (raise s src kind cls addr).coaches = s.coaches := by
  simp [raise]

@[simp] theorem overflowMsg_coaches (s : State) (c : Nat) (hit : Bool) (addr : Nat) : (overflowMsg s c hit addr).coaches = s.coaches := by
  simp [overflowMsg, apply_ite State.coaches]

theorem getSeat_congr {s t : State} (h : t.coaches = s.coaches) (n : Nat) : getSeat t n = getSeat s n := by rw [getSeat, getSeat, h]

theorem getCoach_congr {s t : State} (h : t.coaches = s.coaches) (c : Nat) : getCoach t c = getCoach s c := by rw [getCoach, getCoach, h]

theorem getTrain_congr {s t : State} (h : t.coaches = s.coaches) (c : Nat) : getTrain t c = getTrain s c := by rw [getTrain, getTrain, h]

@[simp] theorem getSeat_overflowMsg (s : State) (c : Nat) (hit : Bool) (addr n : Nat) :
    getSeat (overflowMsg s c hit addr) n = getSeat s n := getSeat_congr (overflowMsg_coaches _ _ _ _) n

@[simp] theorem getCoach_overflowMsg (s : State) (c : Nat) (hit : Bool) (addr d : Nat) :
    getCoach (overflowMsg s c hit addr) d = getCoach s d := getCoach_congr (overflowMsg_coaches _ _ _ _) d

end Sys2Proof.Machine

/-! PROOFS. Loads and stores of coach instructions: inside the own coach memory at issue, outside it by transaction entries
(R57, R64, R65, R71, R105, R117 to R120). -/

namespace Sys2Proof.Machine

/-! ### Windows -/

theorem reachesWin_iff {s : State} {n : Nat} {w : Fields} {base : BitVec 6} {len align : Nat} {win : Win} :
    reachesWin s n w base len align win = true ↔
      seatWin s (n / 16) (codeLimit s n) (effAddr (getSeat s n) w base) len = some win ∧
        effAddr (getSeat s n) w base % align = 0 ∧ (sget (getSeat s n) base.toNat).2 = false := by
  simp [reachesWin, and_assoc]

theorem reachesVec_iff {s : State} {n : Nat} {w : Fields} {base : BitVec 6} {sel : W64} {win : Win} :
    reachesVec s n w base sel win = true ↔
      vecWin s n sel (effAddr (getSeat s n) w base) = some win ∧
        effAddr (getSeat s n) w base % 64 = 0 ∧ (sget (getSeat s n) base.toNat).2 = false := by
  simp [reachesVec, and_assoc]

/-- R134: an access that reaches its window, aligned and unpoisoned, takes only what may follow those checks. -/
theorem memExc_some (win : Win) {mis pois : Bool} (more : List (Bool × Nat)) (hm : mis = false) (hp : pois = false) :
    memExc (some win) mis pois more = firstExc more := by
  subst hm hp
  rfl

/-! ### Loads and stores of the own coach memory -/

theorem exec_ld_own {s : State} {n : Nat} {w : Fields} {h : Nat}
    (hi : issuesWord s n w { op := 0x70, d := .s, a := .s, fmts := [0, 1, 2, 3], flag := true, imm := 0xFFFFFF } = true)
    (hr : reachesWin s n w w.a (accWidth w) (accWidth w) (.own h) = true) :
    exec (.ld n w) s = .next (advance (putSeat s n (sset (getSeat s n) w.d.toNat (extendVal (wFlag w) (accWidth w) (memVal s h (accWidth w)))
      (poisonedAt s h (accWidth w)))) n (nextPc (getSeat s n))) := by
  obtain ⟨hwin, halign, hpois⟩ := reachesWin_iff.mp hr
  refine issueNext_done hi rfl (noneAwaits_nil s n) ?_
  dsimp only
  rw [hwin, memExc_some _ _ (by simp [halign]) hpois]
  rfl

theorem exec_st_own {s : State} {n : Nat} {w : Fields} {h : Nat}
    (hi : issuesWord s n w { op := 0x71, a := .s, b := .s, fmts := [0, 1, 2, 3], imm := 0xFFFFFF } = true)
    (hr : reachesWin s n w w.b (accWidth w) (accWidth w) (.own h) = true) :
    exec (.st n w) s = .next (advance (storeBytes s h (leBytes (accWidth w) (sget (getSeat s n) w.a.toNat).1.toNat)
      (sget (getSeat s n) w.a.toNat).2) n (nextPc (getSeat s n))) := by
  obtain ⟨hwin, halign, hpois⟩ := reachesWin_iff.mp hr
  refine issueNext_done hi rfl (noneAwaits_nil s n) ?_
  dsimp only
  rw [hwin, memExc_some _ _ (by simp [halign]) hpois]
  rfl

theorem exec_vld_own {s : State} {n : Nat} {w : Fields} {h : Nat}
    (hi : issuesWord s n w { op := 0x72, d := .v, a := .s, c := .mask, imm := 0xFFFFFF } = true)
    (hr : reachesVec s n w w.a (selMask (getSeat s n) w.c) (.own h) = true) :
    exec (.vld n w) s = .next (advance (putSeat s n (vloadSeat (getSeat s n) w.d.toNat (selMask (getSeat s n) w.c) (memBytes s h 256)
      fun i => blockPoisoned s ((h + 4 * i) / 64))) n (nextPc (getSeat s n))) := by
  obtain ⟨hwin, halign, hpois⟩ := reachesVec_iff.mp hr
  refine issueNext_done hi rfl (noneAwaits_nil s n) ?_
  dsimp only
  rw [hwin, memExc_some _ _ (by simp [halign]) hpois]
  rfl

theorem exec_vst_own {s : State} {n : Nat} {w : Fields} {h : Nat}
    (hi : issuesWord s n w { op := 0x73, a := .v, b := .s, c := .mask, imm := 0xFFFFFF } = true)
    (hr : reachesVec s n w w.b (selMask (getSeat s n) w.c) (.own h) = true) :
    exec (.vst n w) s = .next (advance (storeCells s (vstoreCells (getSeat s n) (w.a.toNat - 32) (selMask (getSeat s n) w.c) h).1
      (vstoreCells (getSeat s n) (w.a.toNat - 32) (selMask (getSeat s n) w.c) h).2) n (nextPc (getSeat s n))) := by
  obtain ⟨hwin, halign, hpois⟩ := reachesVec_iff.mp hr
  refine issueNext_done hi rfl (noneAwaits_nil s n) ?_
  dsimp only
  rw [hwin, memExc_some _ _ (by simp [halign]) hpois]
  rfl

/-- R117: the bytes of the 64 records of a seat's X register. -/
def xstBytes (s : State) (n : Nat) (w : Fields) : List Byte :=
  (rangeFrom 0 64).flatMap fun i => recordBytes (xget (getCoach s (n / 16)) (xphys (getSeat s n) w.a.toNat) i)

theorem exec_xst_own {s : State} {n : Nat} {w : Fields} {h : Nat}
    (hi : issuesWord s n w { op := 0x67, a := .x, b := .s, imm := 0xFFFFFF } = true)
    (hr : reachesWin s n w w.b 4096 64 (.own h) = true) (hx : w.a.toNat < (getSeat s n).grant.length) :
    exec (.xst n w) s = .next (advance (storeBytes s h (xstBytes s n w) false) n (nextPc (getSeat s n))) := by
  obtain ⟨hwin, halign, hpois⟩ := reachesWin_iff.mp hr
  refine issueNext_done hi rfl (noneAwaits_nil s n) ?_
  obtain ⟨exc, hexc⟩ : ∃ exc, memExc = exc := ⟨_, rfl⟩
  rw [hexc]
  dsimp only
  rw [hwin, ← hexc, memExc_some _ _ (by simp [halign]) hpois, decide_eq_false (Nat.not_le.mpr hx)]
  rfl

/-- R117: the 64 records from an address, with their poison. -/
def recordsFrom (s : State) (h : Nat) : List (Nat × List Byte × Bool) :=
  (rangeFrom 0 64).map fun i => (h + 64 * i, memBytes s (h + 64 * i) 64, poisonedAt s (h + 64 * i) 64)

theorem exec_xlda_own {s : State} {n : Nat} {w : Fields} {h : Nat}
    (hi : issuesWord s n w { op := 0x66, d := .x, a := .s, imm := 0xFFFFFF } = true)
    (hr : reachesWin s n w w.a 4096 64 (.own h) = true) (hx : w.d.toNat < (getSeat s n).grant.length)
    {r : Coach × Option Nat} (hrec : r = addRecords (getCoach s (n / 16)) (xphys (getSeat s n) w.d.toNat) (recordsFrom s h)) :
    exec (.xlda n w) s = .next (advance (overflowMsg (putCoach s (n / 16) r.1) (n / 16) r.2.isSome (r.2.getD 0)) n
      (nextPc (getSeat s n))) := by
  subst hrec
  obtain ⟨hwin, halign, hpois⟩ := reachesWin_iff.mp hr
  refine issueNext_done hi rfl (noneAwaits_nil s n) ?_
  obtain ⟨exc, hexc⟩ : ∃ exc, memExc = exc := ⟨_, rfl⟩
  rw [hexc]
  obtain ⟨win, hseat⟩ : ∃ win, seatWin s (n / 16) (codeLimit s n) = win := ⟨_, rfl⟩
  rw [hseat] at hwin ⊢
  dsimp only
  rw [hwin, ← hexc, memExc_some _ _ (by simp [halign]) hpois, decide_eq_false (Nat.not_le.mpr hx)]
  rfl

/-! ### What stores change -/

@[simp] theorem getSeat_storeBytes (s : State) (a : Nat) (bs : List Byte) (p : Bool) (n : Nat) :
    getSeat (storeBytes s a bs p) n = getSeat s n := rfl

@[simp] theorem getCoach_storeBytes (s : State) (a : Nat) (bs : List Byte) (p : Bool) (c : Nat) :
    getCoach (storeBytes s a bs p) c = getCoach s c := rfl

@[simp] theorem getSeat_storeCells (s : State) (cells : List (Nat × Byte)) (pois : List Nat) (n : Nat) :
    getSeat (storeCells s cells pois) n = getSeat s n := rfl

@[simp] theorem getCoach_storeCells (s : State) (cells : List (Nat × Byte)) (pois : List Nat) (c : Nat) :
    getCoach (storeCells s cells pois) c = getCoach s c := rfl

/-- A seat that stored contiguous bytes and advanced. -/
theorem storedAt_advance (s : State) (n pc h : Nat) (bytes : List Byte) (p : Bool) :
    storedAt s (advance (storeBytes s h bytes p) n pc) n h bytes :=
  ⟨memByte_storeBytes s h bytes p, fun _ hm => getSeat_advance_ne _ _ hm, rfl⟩

/-- A seat that stored scattered bytes and advanced. -/
theorem onlyStored_advance (s : State) (n pc : Nat) (cells : List (Nat × Byte)) (pois : List Nat) :
    onlyStored s (advance (storeCells s cells pois) n pc) n :=
  ⟨fun _ hm => getSeat_advance_ne _ _ hm, rfl⟩

/-- R103: the cells of a masked vector store: four bytes of each selected lane. -/
theorem mem_vstoreCells (t : Seat) (v : Nat) (sel : W64) (h a : Nat) (b : Byte) :
    (a, b) ∈ (vstoreCells t v sel h).1 ↔ ∃ i j, i < 64 ∧ j < 4 ∧ sel.getLsbD i = true ∧ a = h + 4 * i + j ∧
      b = BitVec.ofNat 8 ((vget t v i).1.toNat / 256 ^ j) := by
  rw [vstoreCells, List.mem_flatMap]
  constructor
  · rintro ⟨i, hi, hmem⟩
    rw [mem_rangeFrom] at hi
    by_cases hsel : sel.getLsbD i = true
    · rw [if_pos hsel, mem_cellsAt, length_leBytes] at hmem
      obtain ⟨j, hj, ha, hb⟩ := hmem
      exact ⟨i, j, by omega, hj, hsel, ha, by rw [hb, lget_leBytes _ _ _ hj]⟩
    · rw [if_neg hsel] at hmem
      exact absurd hmem List.not_mem_nil
  · rintro ⟨i, j, hi, hj, hsel, ha, hb⟩
    refine ⟨i, (mem_rangeFrom 0 64 i).mpr ⟨Nat.zero_le _, by omega⟩, ?_⟩
    rw [if_pos hsel, mem_cellsAt, length_leBytes]
    exact ⟨j, hj, ha, by rw [hb, lget_leBytes _ _ _ hj]⟩

/-- R103: a byte after a masked vector store. -/
theorem memByte_vstoreCells (s : State) (t : Seat) (v : Nat) (sel : W64) (h : Nat) (pois : List Nat) (a : Nat) :
    memByte (storeCells s (vstoreCells t v sel h).1 pois) a =
      if h ≤ a ∧ a < h + 256 ∧ sel.getLsbD ((a - h) / 4) then
        BitVec.ofNat 8 ((vget t v ((a - h) / 4)).1.toNat / 256 ^ ((a - h) % 4)) else memByte s a := by
  split
  · next hin =>
    obtain ⟨hlo, hhi, hsel⟩ := hin
    refine memByte_storeCells_of_mem s pois ?_ fun u hu => ?_
    · exact (mem_vstoreCells t v sel h a _).mpr ⟨(a - h) / 4, (a - h) % 4, by omega, by omega, hsel, by omega, rfl⟩
    · obtain ⟨i, j, hi, hj, _, ha, hb⟩ := (mem_vstoreCells t v sel h a u).mp hu
      rw [hb, show (a - h) / 4 = i by omega, show (a - h) % 4 = j by omega]
  · next hout =>
    refine memByte_storeCells_of_notMem s pois fun u hu => hout ?_
    obtain ⟨i, j, hi, hj, hsel, ha, _⟩ := (mem_vstoreCells t v sel h a u).mp hu
    exact ⟨by omega, by omega, by rwa [show (a - h) / 4 = i by omega]⟩

/-! ### Lanes of the X registers -/

theorem xget_xset (c : Coach) {x y i k : Nat} (l : XLane) (hi : i < 64) (hk : k < 64) :
    xget (xset c x i l) y k = if y = x ∧ k = i then l else xget c y k := by
  rw [xget, xset]
  refine (kget_kset XLane.zero c.xlane (64 * x + i) (64 * y + k) l).trans ?_
  by_cases h : y = x ∧ k = i
  · rw [if_pos h, if_pos (by omega)]
  · rw [if_neg h, if_neg (by omega)]
    rfl

/-- One record added into its lane: the step of `addRecords`. -/
def addRecordStep (x : Nat) (r : (Coach × Option Nat) × Nat) (e : Nat × List Byte × Bool) : (Coach × Option Nat) × Nat :=
  let old := xget r.1.1 x r.2
  let new := addRecord old e.2.1 e.2.2
  ((xset r.1.1 x r.2 new, if r.1.2.isNone && new.ovf && !old.ovf then some e.1 else r.1.2), r.2 + 1)

theorem addRecords_eq_foldl (c : Coach) (x : Nat) (recs : List (Nat × List Byte × Bool)) :
    addRecords c x recs = (recs.foldl (addRecordStep x) ((c, none), 0)).1 := rfl

theorem xget_foldl_addRecordStep (x : Nat) {y k : Nat} (hk : k < 64) : ∀ (recs : List (Nat × List Byte × Bool)) (r : (Coach × Option Nat) × Nat),
    r.2 + recs.length ≤ 64 → xget (recs.foldl (addRecordStep x) r).1.1 y k =
      if y = x ∧ r.2 ≤ k ∧ k < r.2 + recs.length then
        addRecord (xget r.1.1 x k) (lget (0, [], false) recs (k - r.2)).2.1 (lget (0, [], false) recs (k - r.2)).2.2
      else xget r.1.1 y k
  | [], r, _ => by
    rw [if_neg (by simp only [List.length_nil]; omega)]
    rfl
  | e :: recs, r, hlen => by
    rw [List.length_cons] at hlen
    have hlane : ∀ z, xget (addRecordStep x r e).1.1 z k =
        if z = x ∧ k = r.2 then addRecord (xget r.1.1 x r.2) e.2.1 e.2.2 else xget r.1.1 z k := fun z =>
      xget_xset r.1.1 _ (by omega) hk
    rw [List.foldl_cons, xget_foldl_addRecordStep x hk recs _ (by simp only [addRecordStep]; omega), hlane, hlane,
      show (addRecordStep x r e).2 = r.2 + 1 from rfl, List.length_cons]
    by_cases hy : y = x
    · subst hy
      rcases Nat.lt_trichotomy k r.2 with hlt | rfl | hgt
      · rw [if_neg (by omega), if_neg (by omega), if_neg (by omega)]
      · rw [if_neg (by omega), if_pos ⟨rfl, rfl⟩, if_pos ⟨rfl, by omega, by omega⟩, Nat.sub_self]
        rfl
      · have hsub : k - r.2 = (k - (r.2 + 1)) + 1 := by omega
        rw [hsub, lget, if_neg (c := y = y ∧ k = r.2) (by omega)]
        exact if_congr (by omega) rfl rfl
    · rw [if_neg (by simp [hy]), if_neg (by simp [hy]), if_neg (by simp [hy])]

/-- R117, R156: each lane of the register takes its record, no other lane changes. -/
theorem xget_addRecords (c : Coach) (x : Nat) (recs : List (Nat × List Byte × Bool)) (hlen : recs.length = 64) {y k : Nat} (hk : k < 64) :
    xget (addRecords c x recs).1 y k =
      if y = x then addRecord (xget c x k) (lget (0, [], false) recs k).2.1 (lget (0, [], false) recs k).2.2 else xget c y k := by
  rw [addRecords_eq_foldl, xget_foldl_addRecordStep x hk recs _ (by omega)]
  simp [hlen, hk]

theorem wroteV_congr {s t : State} {n d : Nat} {sel : W64} {f g : Nat → W32 × Bool} (hfg : ∀ i, i < 64 → f i = g i)
    (h : wroteV s t n d sel f) : wroteV s t n d sel g := by
  obtain ⟨honly, hpc, hlanes, hrest⟩ := h
  exact ⟨honly, hpc, fun i hi => by rw [hlanes i hi, hfg i hi], hrest⟩

theorem lget_recordsFrom (s : State) (h : Nat) {i : Nat} (hi : i < 64) :
    lget (0, [], false) (recordsFrom s h) i = (h + 64 * i, memBytes s (h + 64 * i) 64, poisonedAt s (h + 64 * i) 64) := by
  rw [recordsFrom, lget_map_rangeFrom _ _ _ _ _ hi, Nat.zero_add]

theorem length_recordsFrom (s : State) (h : Nat) : (recordsFrom s h).length = 64 := by
  rw [recordsFrom, List.length_map]
  rfl

/-- Settles O11, by what each of the six instructions gives for an address in the own coach memory. -/
theorem ownMemoryAccesses : Obligations.OwnMemoryAccesses := by
  refine ⟨fun s n w h hi hr => ?_, fun s n w h hi hr => ?_, fun s n w h hi hr => ?_, fun s n w h hi hr => ?_,
    fun s n w h hi hr hx => ?_, fun s n w h hi hr hx => ?_⟩
  case refine_1 => exact ⟨_, exec_ld_own hi hr, wroteS_sset _ _ _ _ _ _⟩
  case refine_2 => exact ⟨_, exec_st_own hi hr, wentOn_advance _ _ _ rfl, storedAt_advance _ _ _ _ _ _⟩
  case refine_3 =>
    refine ⟨_, exec_vld_own hi hr, wroteV_congr (fun i hi => ?_) (wroteV_vmap s n _ _ _)⟩
    rw [field_memBytes s h 256 (by omega)]
  case refine_4 =>
    refine ⟨_, exec_vst_own hi hr, wentOn_advance _ _ _ rfl, onlyStored_advance _ _ _ _ _, fun a => ?_⟩
    exact memByte_vstoreCells s _ _ _ h (vstoreCells (getSeat s n) (w.a.toNat - 32) (selMask (getSeat s n) w.c) h).2 a
  case refine_5 =>
    refine ⟨_, exec_xst_own hi hr hx, wentOn_advance _ _ _ (getSeat_storeBytes _ _ _ _ _), ?_⟩
    rw [← xstBytes]
    exact storedAt_advance _ _ _ _ _ _
  case refine_6 =>
    have hlane := fun y k => xget_addRecords (getCoach s (n / 16)) (xphys (getSeat s n) w.d.toNat) (recordsFrom s h)
      (length_recordsFrom s h) (y := y) (k := k)
    refine ⟨_, exec_xlda_own hi hr hx rfl, wentOn_advance _ _ _ (by simp), by simp, fun m hm => ?_, fun x i hi hx => ?_, fun i hi => ?_⟩
    · rw [getSeat_advance_ne _ _ hm, getSeat_overflowMsg, getSeat_putCoach]
    · rw [getCoach_advance, getCoach_overflowMsg, getCoach_putCoach_same, hlane x i hi, if_neg hx]
    · rw [getCoach_advance, getCoach_overflowMsg, getCoach_putCoach_same, hlane _ i hi, if_pos rfl, lget_recordsFrom s h hi]

end Sys2Proof.Machine

/-! PROOFS. Accesses outside the own coach memory (R57, R64, R65, R118 to R120): the transaction entries they take. -/

namespace Sys2Proof.Machine

/-! ### Taking entries -/

@[simp] theorem getSeat_addAccess (s : State) (n : Nat) (kind : AccKind) (blocks : List Nat) (got : KMap (List Byte × Bool)) (m : Nat) :
    getSeat (addAccess s n kind blocks got) m = getSeat s m := rfl

theorem withEntries_of_le {s : State} {n k : Nat} (h : k ≤ entriesFree (getCoach s (n / 16))) (r : Res) : withEntries s n k r = r :=
  if_neg (Nat.not_lt.mpr h)

/-- R64, R65: the entry that an instruction takes, whatever the seat becomes. -/
theorem tookAccess_advance_putSeat (s : State) (n pc : Nat) (kind : AccKind) (blocks : List Nat) (got : KMap (List Byte × Bool)) (t : Seat) :
    tookAccess s (advance (putSeat (addAccess s n kind blocks got) n t) n pc) n kind blocks got := by
  refine ⟨?_, by simp only [advance, putSeat, addAccess, putCoach], fun m hm => ?_, fun c hc => ?_,
    by simp only [advance, putSeat, addAccess, putCoach]⟩
  · rw [getCoach_advance, getCoach_putSeat, addAccess]
    exact getCoach_putCoach_same _ _ _
  · rw [getSeat_advance_ne _ _ hm, getSeat_putSeat_ne _ _ hm, getSeat_addAccess]
  · rw [getCoach_advance, getCoach_putSeat, addAccess]
    exact getCoach_putCoach_ne _ _ hc

theorem tookAccess_advance (s : State) (n pc : Nat) (kind : AccKind) (blocks : List Nat) (got : KMap (List Byte × Bool)) :
    tookAccess s (advance (addAccess s n kind blocks got) n pc) n kind blocks got := by
  refine ⟨?_, by simp only [advance, putSeat, addAccess, putCoach], fun m hm => ?_, fun c hc => ?_,
    by simp only [advance, putSeat, addAccess, putCoach]⟩
  · rw [getCoach_advance, addAccess]
    exact getCoach_putCoach_same _ _ _
  · rw [getSeat_advance_ne _ _ hm, getSeat_addAccess]
  · rw [getCoach_advance, addAccess]
    exact getCoach_putCoach_ne _ _ hc

/-- R57: the seat goes on and one more register awaits. -/
theorem awaits_advance (s u : State) (n r : Nat) :
    awaits (getSeat s n) (getSeat (advance (putSeat u n (addPend (getSeat s n) r)) n (nextPc (getSeat s n))) n) r := by
  rw [getSeat_advance]
  exact ⟨rfl, fun _ => rfl, fun _ _ => rfl, fun _ => rfl, fun q => mem_nadd r q _, rfl, rfl⟩

/-! ### The instructions -/

theorem exec_ld_out {s : State} {n : Nat} {w : Fields} {win : Win}
    (hi : issuesWord s n w { op := 0x70, d := .s, a := .s, fmts := [0, 1, 2, 3], flag := true, imm := 0xFFFFFF } = true)
    (hr : reachesWin s n w w.a (accWidth w) (accWidth w) win = true) (ho : win.isOwn = false)
    (hf : 1 ≤ entriesFree (getCoach s (n / 16))) :
    exec (.ld n w) s = .next (advance (putSeat (addAccess s n (.load w.d.toNat (accWidth w) (wFlag w) win.addr)
      (blocksOf win.addr (accWidth w)) []) n (addPend (getSeat s n) w.d.toNat)) n (nextPc (getSeat s n))) := by
  obtain ⟨hwin, halign, hpois⟩ := reachesWin_iff.mp hr
  refine issueNext_done hi rfl (noneAwaits_nil s n) ?_
  dsimp only
  rw [hwin, memExc_some _ _ (by simp [halign]) hpois]
  cases win with
  | own h => exact absurd ho Bool.noConfusion
  | yard h => exact withEntries_of_le hf _
  | mem h => exact withEntries_of_le hf _

theorem exec_st_out {s : State} {n : Nat} {w : Fields} {win : Win}
    (hi : issuesWord s n w { op := 0x71, a := .s, b := .s, fmts := [0, 1, 2, 3], imm := 0xFFFFFF } = true)
    (hr : reachesWin s n w w.b (accWidth w) (accWidth w) win = true) (ho : win.isOwn = false)
    (hf : 1 ≤ entriesFree (getCoach s (n / 16))) :
    exec (.st n w) s = .next (advance (addAccess s n
      (.store (cellsAt win.addr (leBytes (accWidth w) (sget (getSeat s n) w.a.toNat).1.toNat))
        (if (sget (getSeat s n) w.a.toNat).2 then blocksOf win.addr (accWidth w) else []))
      (blocksOf win.addr (accWidth w)) []) n (nextPc (getSeat s n))) := by
  obtain ⟨hwin, halign, hpois⟩ := reachesWin_iff.mp hr
  refine issueNext_done hi rfl (noneAwaits_nil s n) ?_
  dsimp only
  rw [hwin, memExc_some _ _ (by simp [halign]) hpois]
  cases win with
  | own h => exact absurd ho Bool.noConfusion
  | yard h => exact withEntries_of_le hf _
  | mem h => exact withEntries_of_le hf _

theorem exec_vld_out {s : State} {n : Nat} {w : Fields} {win : Win}
    (hi : issuesWord s n w { op := 0x72, d := .v, a := .s, c := .mask, imm := 0xFFFFFF } = true)
    (hr : reachesVec s n w w.a (selMask (getSeat s n) w.c) win = true) (ho : win.isOwn = false)
    (hf : 4 ≤ entriesFree (getCoach s (n / 16))) :
    exec (.vld n w) s = .next (advance (putSeat (addAccess s n (.vload w.d.toNat (selMask (getSeat s n) w.c) win.addr)
      (blocksOf win.addr 256) []) n (addPend (getSeat s n) w.d.toNat)) n (nextPc (getSeat s n))) := by
  obtain ⟨hwin, halign, hpois⟩ := reachesVec_iff.mp hr
  refine issueNext_done hi rfl (noneAwaits_nil s n) ?_
  dsimp only
  rw [hwin, memExc_some _ _ (by simp [halign]) hpois]
  cases win with
  | own h => exact absurd ho Bool.noConfusion
  | yard h => exact withEntries_of_le hf _
  | mem h => exact withEntries_of_le hf _

theorem exec_vst_out {s : State} {n : Nat} {w : Fields} {win : Win}
    (hi : issuesWord s n w { op := 0x73, a := .v, b := .s, c := .mask, imm := 0xFFFFFF } = true)
    (hr : reachesVec s n w w.b (selMask (getSeat s n) w.c) win = true) (ho : win.isOwn = false)
    (hf : 4 ≤ entriesFree (getCoach s (n / 16))) :
    exec (.vst n w) s = .next (advance (addAccess s n
      (.store (vstoreCells (getSeat s n) (w.a.toNat - 32) (selMask (getSeat s n) w.c) win.addr).1
        (vstoreCells (getSeat s n) (w.a.toNat - 32) (selMask (getSeat s n) w.c) win.addr).2)
      (blocksOf win.addr 256) []) n (nextPc (getSeat s n))) := by
  obtain ⟨hwin, halign, hpois⟩ := reachesVec_iff.mp hr
  refine issueNext_done hi rfl (noneAwaits_nil s n) ?_
  dsimp only
  rw [hwin, memExc_some _ _ (by simp [halign]) hpois]
  cases win with
  | own h => exact absurd ho Bool.noConfusion
  | yard h => exact withEntries_of_le hf _
  | mem h => exact withEntries_of_le hf _

theorem exec_xst_out {s : State} {n : Nat} {w : Fields} {win : Win}
    (hi : issuesWord s n w { op := 0x67, a := .x, b := .s, imm := 0xFFFFFF } = true)
    (hr : reachesWin s n w w.b 4096 64 win = true) (ho : win.isOwn = false)
    (hf : 64 ≤ entriesFree (getCoach s (n / 16))) (hx : w.a.toNat < (getSeat s n).grant.length) :
    exec (.xst n w) s = .next (advance (addAccess s n (.store (cellsAt win.addr (xstBytes s n w)) []) (blocksOf win.addr 4096) []) n
      (nextPc (getSeat s n))) := by
  obtain ⟨hwin, halign, hpois⟩ := reachesWin_iff.mp hr
  refine issueNext_done hi rfl (noneAwaits_nil s n) ?_
  obtain ⟨exc, hexc⟩ : ∃ exc, memExc = exc := ⟨_, rfl⟩
  rw [hexc]
  dsimp only
  rw [hwin, ← hexc, memExc_some _ _ (by simp [halign]) hpois, decide_eq_false (Nat.not_le.mpr hx)]
  cases win with
  | own h => exact absurd ho Bool.noConfusion
  | yard h => exact if_neg (Nat.not_lt.mpr hf)
  | mem h => exact if_neg (Nat.not_lt.mpr hf)

theorem exec_xlda_out {s : State} {n : Nat} {w : Fields} {win : Win}
    (hi : issuesWord s n w { op := 0x66, d := .x, a := .s, imm := 0xFFFFFF } = true)
    (hr : reachesWin s n w w.a 4096 64 win = true) (ho : win.isOwn = false)
    (hf : 64 ≤ entriesFree (getCoach s (n / 16))) (hx : w.d.toNat < (getSeat s n).grant.length) :
    exec (.xlda n w) s = .next (advance (putSeat (addAccess s n (.xload [xphys (getSeat s n) w.d.toNat] win.addr)
      (blocksOf win.addr 4096) []) n (addPend (getSeat s n) (64 + w.d.toNat))) n (nextPc (getSeat s n))) := by
  obtain ⟨hwin, halign, hpois⟩ := reachesWin_iff.mp hr
  refine issueNext_done hi rfl (noneAwaits_nil s n) ?_
  obtain ⟨exc, hexc⟩ : ∃ exc, memExc = exc := ⟨_, rfl⟩
  rw [hexc]
  obtain ⟨win', hseat⟩ : ∃ win', seatWin s (n / 16) (codeLimit s n) = win' := ⟨_, rfl⟩
  rw [hseat] at hwin ⊢
  dsimp only
  rw [hwin, ← hexc, memExc_some _ _ (by simp [halign]) hpois, decide_eq_false (Nat.not_le.mpr hx)]
  cases win with
  | own h => exact absurd ho Bool.noConfusion
  | yard h => exact if_neg (Nat.not_lt.mpr hf)
  | mem h => exact if_neg (Nat.not_lt.mpr hf)

/-- R118, R120: what every atomic does outside the own coach memory. -/
theorem atomic_out {s : State} {n : Nat} {w : Fields} {win : Win} {form : Form} (op : AtomicOp)
    (hi : issuesWord s n w form = true) (hr : reachesWin s n w w.a (accWidth w) (accWidth w) win = true) (ho : win.isOwn = false)
    (hf : 1 ≤ entriesFree (getCoach s (n / 16))) {x z : W64 × Bool} (hx : x = if op = .read then (0, false) else sget (getSeat s n) w.b.toNat)
    (hz : z = if op = .cas then sget (getSeat s n) w.c.toNat else (0, false)) :
    atomic s n w form op = .next (advance (putSeat (addAccess s n
      (.atomic op w.d.toNat (accWidth w) win.addr x.1 z.1 (x.2 || z.2)) (blocksOf win.addr (accWidth w)) []) n
      (addPend (getSeat s n) w.d.toNat)) n (nextPc (getSeat s n))) := by
  subst hx hz
  obtain ⟨hwin, halign, hpois⟩ := reachesWin_iff.mp hr
  refine issueNext_done hi rfl (noneAwaits_nil s n) ?_
  dsimp only
  rw [hwin]
  cases win with
  | own h => exact absurd ho Bool.noConfusion
  | yard h =>
    dsimp only
    rw [memExc_some _ _ (by simp [halign]) hpois]
    exact withEntries_of_le hf _
  | mem h =>
    dsimp only
    rw [memExc_some _ _ (by simp [halign]) hpois]
    exact withEntries_of_le hf _

/-- An atomic of one or two data operands, or none, queues them with their poison. -/
theorem queuesAtomic_of_atomic {i : Nat → Fields → Instr} {form : Form} {op : Fields → AtomicOp} {useB useC : Bool}
    (hexec : ∀ n w s, exec (i n w) s = atomic s n w form (op w)) (hb : ∀ w, useB = !decide (op w = .read))
    (hc : ∀ w, useC = decide (op w = .cas)) : queuesAtomic i form op useB useC := by
  intro s n w win hi hr ho hf
  refine ⟨_, (hexec n w s).trans (atomic_out (op w) hi hr ho hf rfl rfl), awaits_advance _ _ _ _, ?_⟩
  rw [hb w, hc w, ← accWidth]
  by_cases hread : op w = .read
  · have hcas : op w ≠ .cas := by rw [hread]; decide
    simpa [hread, hcas] using tookAccess_advance_putSeat s n _ _ _ _ _
  · by_cases hcas : op w = .cas
    · simpa [hread, hcas] using tookAccess_advance_putSeat s n _ _ _ _ _
    · simpa [hread, hcas] using tookAccess_advance_putSeat s n _ _ _ _ _

/-- Settles O12, by the entry that each instruction takes. -/
theorem outsideAccessesAreQueued : Obligations.OutsideAccessesAreQueued := by
  refine ⟨fun s n w win hi hr ho hf => ?_, fun s n w win hi hr ho hf => ?_, fun s n w win hi hr ho hf => ?_,
    fun s n w win hi hr ho hf => ?_, fun s n w win hi hr ho hf hx => ?_, fun s n w win hi hr ho hf hx => ?_, ?_, ?_, ?_, ?_, ?_, ?_⟩
  case refine_1 => exact ⟨_, exec_ld_out hi hr ho hf, awaits_advance _ _ _ _, tookAccess_advance_putSeat _ _ _ _ _ _ _⟩
  case refine_2 => exact ⟨_, exec_st_out hi hr ho hf, wentOn_advance _ _ _ rfl, tookAccess_advance _ _ _ _ _ _⟩
  case refine_3 => exact ⟨_, exec_vld_out hi hr ho hf, awaits_advance _ _ _ _, tookAccess_advance_putSeat _ _ _ _ _ _ _⟩
  case refine_4 =>
    exact ⟨_, _, _, exec_vst_out hi hr ho hf, wentOn_advance _ _ _ rfl, tookAccess_advance _ _ _ _ _ _,
      fun a b => mem_vstoreCells _ _ _ _ a b⟩
  case refine_5 =>
    refine ⟨_, exec_xst_out hi hr ho hf hx, wentOn_advance _ _ _ (by rw [getSeat_addAccess]), ?_⟩
    rw [← xstBytes]
    exact tookAccess_advance _ _ _ _ _ _
  case refine_6 => exact ⟨_, exec_xlda_out hi hr ho hf hx, awaits_advance _ _ _ _, tookAccess_advance_putSeat _ _ _ _ _ _ _⟩
  all_goals exact queuesAtomic_of_atomic (fun _ _ _ => rfl) (fun _ => rfl) (fun _ => rfl)

end Sys2Proof.Machine

/-! PROOFS. Fences and barriers (R79, R125, R126). -/

namespace Sys2Proof.Machine

theorem exec_fence {s : State} {n : Nat} {w : Fields} (h : issuesWord s n w { op := 0xA0, imm := 7 } = true) (hm : w.imm.toNat % 8 ≠ 0) :
    exec (.fence n w) s = .next (advance (putSeat s n { getSeat s n with
      st := .parked (.fence (w.imm.setWidth 3) s.coaches.nextAcc s.coaches.nextDesc) }) n (nextPc (getSeat s n))) :=
  issueNext_done h (by simpa using hm) (noneAwaits_nil s n) rfl

/-- R79: a fence is done once the classes that its mask names are. -/
theorem fenceDone_iff {s : State} {n : Nat} {m : BitVec 3} {a d : Nat} : fenceDone s n m a d = true ↔
    (m.getLsbD 0 = true → loadsDone (getCoach s (n / 16)) n a = true) ∧
      (m.getLsbD 1 = true → storesDone (getCoach s (n / 16)) n a = true) ∧
      (m.getLsbD 2 = true → descsDone (getCoach s (n / 16)) n d = true) := by
  simp only [fenceDone, Bool.and_eq_true, Bool.or_eq_true, Bool.not_eq_true', and_assoc]
  cases m.getLsbD 0 <;> cases m.getLsbD 1 <;> cases m.getLsbD 2 <;> simp

theorem exec_fenceComplete {s : State} {n : Nat} {m : BitVec 3} {a d : Nat} (hst : (getSeat s n).st = .parked (.fence m a d))
    (hdone : fenceDone s n m a d = true) : exec (.fenceComplete n) s = .next (putSeat s n { getSeat s n with st := .ready }) := by
  have he : exec (.fenceComplete n) s = execFenceComplete n s := rfl
  rw [he, execFenceComplete]
  dsimp only
  rw [hst]
  exact if_pos hdone

/-- R126: a seat with one more arrival at the barriers of a scope. -/
def countArrival (t : Seat) (scope : Nat) : Seat := if scope = 0 then { t with bar0 := t.bar0 + 1 } else { t with bar1 := t.bar1 + 1 }

theorem countArrival_bar0 (t : Seat) (scope : Nat) : (countArrival t scope).bar0 = t.bar0 + (if scope = 0 then 1 else 0) := by
  rw [countArrival]
  split <;> simp

theorem countArrival_bar1 (t : Seat) (scope : Nat) : (countArrival t scope).bar1 = t.bar1 + (if scope = 0 then 0 else 1) := by
  rw [countArrival]
  split <;> simp

theorem exec_bar {s : State} {n : Nat} {w : Fields} (h : issuesWord s n w { op := 0xA1, imm := 1 } = true) :
    exec (.bar n w) s = .next (advance (putSeat s n { countArrival (getSeat s n) (w.imm.toNat % 2) with
      st := .parked (.barrier (w.imm.toNat % 2) s.coaches.nextAcc s.coaches.nextDesc) }) n (nextPc (getSeat s n))) :=
  issueNext_done h rfl (noneAwaits_nil s n) rfl

/-- R126: one seat made ready unless it has halted: the step of BARRIER_RELEASE. -/
def readySeat (s : State) (n : Nat) : State :=
  let t := getSeat s n
  if t.st = .halted then s else putSeat s n { t with st := .ready }

theorem getSeat_readySeat (s : State) (n m : Nat) :
    getSeat (readySeat s n) m = if m = n ∧ (getSeat s m).st ≠ .halted then { getSeat s m with st := .ready } else getSeat s m := by
  rw [readySeat]
  dsimp only
  by_cases hmn : m = n
  · subst hmn
    by_cases hst : (getSeat s m).st = .halted <;> simp [hst]
  · rw [if_neg (c := m = n ∧ _) (fun h => hmn h.1)]
    split
    · rfl
    · exact getSeat_putSeat_ne _ _ hmn

theorem getSeat_foldl_readySeat (m : Nat) : ∀ (ns : List Nat) (s : State),
    getSeat (ns.foldl readySeat s) m =
      if m ∈ ns ∧ (getSeat s m).st ≠ .halted then { getSeat s m with st := .ready } else getSeat s m
  | [], s => by simp
  | n :: ns, s => by
    rw [List.foldl_cons, getSeat_foldl_readySeat m ns, getSeat_readySeat]
    by_cases hst : (getSeat s m).st = .halted
    · simp [hst]
    · by_cases hmn : m = n
      · subst hmn
        simp [hst]
      · simp [hmn]

theorem exec_barrierRelease {s : State} {c scope : Nat} (h : ∀ n ∈ barSeats s c scope, arrived s scope n = true) :
    exec (.barrierRelease c scope) s = .next ((barSeats s c scope).foldl readySeat s) := by
  have he : exec (.barrierRelease c scope) s = execBarrierRelease c scope s := rfl
  rw [he, execBarrierRelease]
  exact if_pos (List.all_eq_true.mpr h)

/-- Settles O16, by what each of the four commands gives. -/
theorem fencesAndBarriers : Obligations.FencesAndBarriers := by
  refine ⟨fun s n w h hm => ?_, fun s n m a d hst hl hs hd => ?_, fun s n w h => ?_, fun s c scope h => ?_⟩
  · refine ⟨_, exec_fence h hm, onlySeat_advance _ _ _ _, ?_, ?_⟩ <;> rw [getSeat_advance]
  · exact ⟨_, exec_fenceComplete hst (fenceDone_iff.mpr ⟨hl, hs, hd⟩), getSeat_putSeat_same _ _ _,
      fun k hk => getSeat_putSeat_ne _ _ hk, rfl⟩
  · refine ⟨_, exec_bar h, onlySeat_advance _ _ _ _, ?_, ?_, ?_, ?_⟩ <;> rw [getSeat_advance]
    · exact countArrival_bar0 _ _
    · exact countArrival_bar1 _ _
  · exact ⟨_, exec_barrierRelease h, fun n => getSeat_foldl_readySeat n _ s⟩

end Sys2Proof.Machine

/-! PROOFS. Exceptions at issue (R89, R97, R99, R133 to R135): what stopping a kernel and taking an exception change. -/

namespace Sys2Proof.Machine

/-! ### Folds over seats and coaches -/

/-- A fold that changes the numbered units of a list, each by the same idempotent change. -/
theorem foldl_changes {α : Type} {f : State → Nat → State} (view : State → Nat → α) {g : α → α}
    (hf : ∀ s n m, view (f s n) m = if m = n then g (view s m) else view s m) (hg : ∀ x, g (g x) = g x) (m : Nat) :
    ∀ (ns : List Nat) (s : State), view (ns.foldl f s) m = if m ∈ ns then g (view s m) else view s m
  | [], s => by simp
  | n :: ns, s => by
    rw [List.foldl_cons, foldl_changes view hf hg m ns, hf]
    by_cases hmn : m = n
    · subst hmn
      simp [hg]
    · simp [hmn]

/-! ### Stopping a kernel -/

/-- R89: a seat stopped with its kernel. -/
def Seat.halt (t : Seat) : Seat := { t with st := .halted, grant := [] }

/-- R60, R89: a coach whose kernel is stopped. -/
def Coach.letGo (t : Coach) : Coach :=
  { t with
    xowner := [], xlane := [], xwait := []
    q0 := t.q0.filter fun d => decide (d.issued ≠ 0)
    q1 := t.q1.filter fun d => decide (d.issued ≠ 0) }

theorem Coach.letGo_letGo (t : Coach) : t.letGo.letGo = t.letGo := by
  simp [Coach.letGo, List.filter_filter]

theorem stopKernel_eq_foldl (s : State) (k : Kernel) :
    stopKernel s k = k.coaches.foldl (fun s c => putCoach s c (getCoach s c).letGo)
      ((kernelSeats k).foldl (fun s n => putSeat s n (getSeat s n).halt) s) := rfl

theorem getSeat_putSeat (s : State) (n m : Nat) (t : Seat) : getSeat (putSeat s n t) m = if m = n then t else getSeat s m :=
  kget_kset _ _ _ _ _

theorem getCoach_putCoach (s : State) (c d : Nat) (t : Coach) : getCoach (putCoach s c t) d = if d = c then t else getCoach s d :=
  kget_kset _ _ _ _ _

theorem getTrain_putTrain (s : State) (t u : Nat) (x : TrainUnit) : getTrain (putTrain s t x) u = if u = t then x else getTrain s u :=
  kget_kset _ _ _ _ _

@[simp] theorem getTrain_putCoach (s : State) (c u : Nat) (t : Coach) : getTrain (putCoach s c t) u = getTrain s u := rfl
@[simp] theorem getTrain_putSeat (s : State) (n u : Nat) (t : Seat) : getTrain (putSeat s n t) u = getTrain s u := rfl
@[simp] theorem getSeat_putTrain (s : State) (t n : Nat) (x : TrainUnit) : getSeat (putTrain s t x) n = getSeat s n := rfl
@[simp] theorem getCoach_putTrain (s : State) (t c : Nat) (x : TrainUnit) : getCoach (putTrain s t x) c = getCoach s c := rfl

theorem getSeat_stopKernel (s : State) (k : Kernel) (m : Nat) :
    getSeat (stopKernel s k) m = if m ∈ kernelSeats k then (getSeat s m).halt else getSeat s m := by
  rw [stopKernel_eq_foldl, foldl_keeps (fun s => getSeat s m) _ fun _ _ => getSeat_putCoach _ _ _ _]
  refine foldl_changes getSeat (g := Seat.halt) (fun s n m => ?_) (fun _ => rfl) m _ s
  rw [getSeat_putSeat]
  split
  · next h => rw [h]
  · rfl

theorem getCoach_stopKernel (s : State) (k : Kernel) (c : Nat) :
    getCoach (stopKernel s k) c = if c ∈ k.coaches then (getCoach s c).letGo else getCoach s c := by
  rw [stopKernel_eq_foldl]
  have hseats : getCoach ((kernelSeats k).foldl (fun s n => putSeat s n (getSeat s n).halt) s) c = getCoach s c :=
    foldl_keeps (fun s => getCoach s c) _ (fun _ _ => getCoach_putSeat _ _ _ _) _ s
  rw [← hseats]
  refine foldl_changes getCoach (fun s c d => ?_) Coach.letGo_letGo c _ _
  rw [getCoach_putCoach]
  split
  · next h => rw [h]
  · rfl

@[simp] theorem getTrain_stopKernel (s : State) (k : Kernel) (t : Nat) : getTrain (stopKernel s k) t = getTrain s t := by
  rw [stopKernel_eq_foldl, foldl_keeps (fun s => getTrain s t) _ fun _ _ => getTrain_putCoach _ _ _ _]
  exact foldl_keeps (fun s => getTrain s t) _ (fun _ _ => getTrain_putSeat _ _ _ _) _ s

/-! ### Taking an exception -/

theorem setCond_of_ne_drained {s : State} {c : Nat} (h : (getCoach s c).cond ≠ .drained) (cond : CoachCond) :
    setCond s c cond = putCoach s c { getCoach s c with cond := cond } := if_neg h

/-- R89, R135: the coach of a seat that took an exception. -/
def excCoach (s : State) (n code : Nat) : Coach := { getCoach s (n / 16) with cause := code, seat := n % 16, cond := .stopped }

/-- R89, R135: a kernel one of whose seats took an exception. -/
def excKernel (k : Kernel) (n pc code : Nat) : Kernel :=
  let k' := if k.status = 0 then { k with status := 1, cause := code, seat := n, pc := pc } else k
  { k' with faulted := nadd k'.faulted n, phase := .stopping }

theorem excKernel_faulted (k : Kernel) (n pc code : Nat) : (excKernel k n pc code).faulted = nadd k.faulted n := by
  rw [excKernel]
  dsimp only
  split <;> rfl

theorem excKernel_first {k : Kernel} (h : k.status = 0) (n pc code : Nat) :
    (excKernel k n pc code).status = 1 ∧ (excKernel k n pc code).cause = code ∧ (excKernel k n pc code).seat = n ∧
      (excKernel k n pc code).pc = pc := by
  rw [excKernel, if_pos h]
  exact ⟨rfl, rfl, rfl, rfl⟩

/-- The state between the change of the coach and the stop of its kernel. -/
theorem takeExc_coaches {s : State} {n tr : Nat} {k : Kernel} (hc : (getCoach s (n / 16)).cond ≠ .drained)
    (hk : kernelOn s (n / 16) = some (tr, k)) (pc code : Nat) {u : State}
    (hu : u = putCoach (putCoach s (n / 16) { getCoach s (n / 16) with cause := code, seat := n % 16 }) (n / 16) (excCoach s n code)) :
    (takeExc s n pc code).coaches = (stopKernel (putKernel u tr (excKernel k n pc code)) (excKernel k n pc code)).coaches := by
  have hcond : setCond (putCoach s (n / 16) { getCoach s (n / 16) with cause := code, seat := n % 16 }) (n / 16) .stopped = u := by
    rw [setCond_of_ne_drained (by rw [getCoach_putCoach_same]; exact hc), getCoach_putCoach_same, hu]
    rfl
  have hon : kernelOn u (n / 16) = some (tr, k) := by rw [← hk, hu]; rfl
  rw [takeExc]
  dsimp only
  rw [hcond, hon]
  dsimp only
  split <;> simp only [raise_coaches] <;> rfl

theorem getSeat_takeExc_regs {s : State} {n tr : Nat} {k : Kernel} (hc : (getCoach s (n / 16)).cond ≠ .drained)
    (hk : kernelOn s (n / 16) = some (tr, k)) (pc code m : Nat) :
    getSeat (takeExc s n pc code) m = getSeat s m ∨ getSeat (takeExc s n pc code) m = (getSeat s m).halt := by
  rw [getSeat_congr (takeExc_coaches hc hk pc code rfl), getSeat_stopKernel, putKernel, getSeat_putTrain, getSeat_putCoach, getSeat_putCoach]
  split
  · exact .inr rfl
  · exact .inl rfl

/-- R89, R134, R135: a seat of a running kernel takes an exception at its instruction. -/
theorem tookExc_takeExc {s : State} {n tr : Nat} {k : Kernel} (hc : (getCoach s (n / 16)).cond ≠ .drained)
    (hk : kernelOn s (n / 16) = some (tr, k)) (code : Nat) : tookExc s (takeExc s n (getSeat s n).pc code) n code := by
  have hcoach : getCoach (takeExc s n (getSeat s n).pc code) (n / 16) = excCoach s n code ∨
      getCoach (takeExc s n (getSeat s n).pc code) (n / 16) = (excCoach s n code).letGo := by
    rw [getCoach_congr (takeExc_coaches hc hk _ code rfl), getCoach_stopKernel, putKernel, getCoach_putTrain, getCoach_putCoach_same]
    split
    · exact .inr rfl
    · exact .inl rfl
  have htrain : getTrain (takeExc s n (getSeat s n).pc code) tr =
      { getTrain s tr with kernel := some (excKernel k n (getSeat s n).pc code) } := by
    rw [getTrain_congr (takeExc_coaches hc hk _ code rfl), getTrain_stopKernel, putKernel, getTrain_putTrain, if_pos rfl,
      getTrain_putCoach, getTrain_putCoach]
  refine ⟨?_, ?_, ?_, takeExc_mem _ _ _ _, fun m => ?_, fun tr' k' hk' => ?_⟩
  · rcases hcoach with h | h <;> rw [h] <;> rfl
  · rcases hcoach with h | h <;> rw [h] <;> rfl
  · rcases hcoach with h | h <;> rw [h] <;> rfl
  · rcases getSeat_takeExc_regs hc hk (getSeat s n).pc code m with h | h <;> rw [h] <;> exact ⟨rfl, rfl, rfl, rfl⟩
  · obtain ⟨rfl, rfl⟩ := Prod.mk.inj (Option.some.inj (hk.symm.trans hk'))
    exact ⟨_, by rw [htrain], rfl, excKernel_faulted _ _ _ _, fun h => excKernel_first h _ _ _⟩

/-! ### What stops an instruction before it acts -/

/-- R55, R56: a seat that may issue has a running coach and a kernel. -/
theorem running_of_mayIssue {s : State} {n : Nat} (h : mayIssue s n = true) :
    (getCoach s (n / 16)).cond ≠ .drained ∧ ∃ tr k, kernelOn s (n / 16) = some (tr, k) := by
  simp only [mayIssue, Bool.and_eq_true, decide_eq_true_eq] at h
  obtain ⟨⟨_, hcond⟩, hkernel⟩ := h
  refine ⟨by simp [hcond], ?_⟩
  cases hk : kernelOn s (n / 16) with
  | none => simp [hk] at hkernel
  | some p => exact ⟨p.1, p.2, rfl⟩

theorem tookExc_of_mayIssue {s : State} {n : Nat} (h : mayIssue s n = true) (code : Nat) :
    tookExc s (takeExc s n (getSeat s n).pc code) n code := by
  obtain ⟨hc, tr, k, hk⟩ := running_of_mayIssue h
  exact tookExc_takeExc hc hk code

/-- Table 4.1: the opcode is the highest byte of the word. -/
theorem wordBits_op (op : Nat) (w : Fields) : wordBits op w / 2 ^ 56 = op := by
  have hd := w.d.isLt
  have ha := w.a.isLt
  have hb := w.b.isLt
  have hc := w.c.isLt
  have hfmt := w.fmt.isLt
  have hrf := w.rf.isLt
  have himm := w.imm.isLt
  rw [wordBits]
  omega

section
variable {s : State} {n : Nat} {w : Fields} {form : Form} (extra : Bool) (regs : List Nat) (body : Seat → Res)

/-- R99: FETCH at the end of the code area. -/
theorem issue_fetch (hm : mayIssue s n = true) (hpc : codeLimit s n ≤ (getSeat s n).pc) :
    issue s n w form extra regs body = takeExc s n (getSeat s n).pc 2 := by
  rw [issue, if_pos hm]
  exact if_pos hpc

/-- R97: ILLEGAL for an opcode that no table assigns. -/
theorem issue_unassigned (hm : mayIssue s n = true) (hpc : (getSeat s n).pc < codeLimit s n) (hform : opAssigned form.op = true)
    (hop : opAssigned (fetchWord s n / 2 ^ 56) = false) : issue s n w form extra regs body = takeExc s n (getSeat s n).pc 1 := by
  rw [issue, if_pos hm]
  dsimp only
  have hne : fetchWord s n ≠ wordBits form.op w := fun h => by
    rw [h, wordBits_op, hform] at hop
    exact Bool.noConfusion hop
  rw [if_neg (Nat.not_le.mpr hpc), if_pos hne, hop]
  rfl

/-- R97: ILLEGAL for a word that breaks the form of its opcode. -/
theorem issue_malformed (hm : mayIssue s n = true) (hpc : (getSeat s n).pc < codeLimit s n)
    (hword : fetchWord s n = wordBits form.op w) (hform : wordOk form w = false) :
    issue s n w form extra regs body = takeExc s n (getSeat s n).pc 1 := by
  rw [issue, if_pos hm]
  dsimp only
  rw [if_neg (Nat.not_le.mpr hpc), if_neg (not_not.mpr hword), hform]
  rfl

end

/-- What an instruction is: one that issues words of this form, under an assigned opcode. -/
def IssuesForm (x : (Nat → Fields → Instr) × Form) : Prop :=
  opAssigned x.2.op = true ∧ ∀ s n w, ∃ extra regs body, exec (x.1 n w) s = issueNext s n w x.2 extra regs body

/-- R97, R99: the exceptions that any instruction of the tables takes before it acts. -/
theorem exceptions_of_issuesForm {x : (Nat → Fields → Instr) × Form} (hx : IssuesForm x) {s : State} {n : Nat} {w : Fields}
    (hm : mayIssue s n = true) :
    (codeLimit s n ≤ (getSeat s n).pc → ∃ t, exec (x.1 n w) s = .next t ∧ tookExc s t n 2) ∧
    ((getSeat s n).pc < codeLimit s n → opAssigned (fetchWord s n / 2 ^ 56) = false →
      ∃ t, exec (x.1 n w) s = .next t ∧ tookExc s t n 1) ∧
    ((getSeat s n).pc < codeLimit s n → fetchWord s n = wordBits x.2.op w → wordOk x.2 w = false →
      ∃ t, exec (x.1 n w) s = .next t ∧ tookExc s t n 1) := by
  obtain ⟨hassigned, hexec⟩ := hx
  obtain ⟨extra, regs, body, he⟩ := hexec s n w
  rw [he]
  refine ⟨fun hpc => ⟨_, ?_, tookExc_of_mayIssue hm 2⟩, fun hpc hop => ⟨_, ?_, tookExc_of_mayIssue hm 1⟩,
    fun hpc hword hform => ⟨_, ?_, tookExc_of_mayIssue hm 1⟩⟩ <;> rw [issueNext]
  · rw [issue_fetch _ _ _ hm hpc]
  · rw [issue_unassigned _ _ _ hm hpc hassigned hop]
  · rw [issue_malformed _ _ _ hm hpc hword hform]

/-- Settles O18: every instruction of the list issues words of its form, and issue alone decides these exceptions. -/
theorem exceptionsAtIssue : Obligations.ExceptionsAtIssue := by
  intro s n w x hx hm
  refine exceptions_of_issuesForm ?_ hm
  simp only [List.mem_cons, List.not_mem_nil, or_false] at hx
  rcases hx with rfl | rfl | rfl | rfl | rfl | rfl | rfl | rfl | rfl | rfl | rfl | rfl | rfl | rfl | rfl | rfl | rfl | rfl | rfl | rfl | rfl
  all_goals exact ⟨by decide, fun _ _ _ => ⟨_, _, _, rfl⟩⟩

end Sys2Proof.Machine

/-! PROOFS. Transactions performed and loads returned (R57, R64, R66, R78, R81, R105, R120, R124). -/

namespace Sys2Proof.Machine

/-! ### Waking seats -/

/-- What a seat holds apart from its state: the registers, what they await, its grant, context and counts. -/
def Seat.held (t : Seat) : Seat := { t with st := .halted }

theorem held_ready (t : Seat) : { t with st := SeatSt.ready }.held = t.held := rfl

/-- A seat put back with another state holds what it held. -/
theorem held_putSeat {s : State} {n : Nat} {t : Seat} (h : t.held = (getSeat s n).held) (m : Nat) :
    (getSeat (putSeat s n t) m).held = (getSeat s m).held := by
  rw [getSeat_putSeat]
  split
  · next hm => rw [h, hm]
  · rfl

/-- R56: waking seats changes no register of theirs. -/
theorem held_wakeSeats (s : State) (c m : Nat) : (getSeat (wakeSeats s c) m).held = (getSeat s m).held := by
  rw [wakeSeats]
  refine foldl_keeps (fun s => (getSeat s m).held) _ (fun s n => ?_) _ s
  dsimp only
  split
  · exact held_putSeat (held_ready _) m
  · split
    · exact held_putSeat (held_ready _) m
    · rfl
  · rfl

@[simp] theorem getCoach_wakeSeats (s : State) (c d : Nat) : getCoach (wakeSeats s c) d = getCoach s d := by
  rw [wakeSeats]
  refine foldl_keeps (fun s => getCoach s d) _ (fun s n => ?_) _ s
  dsimp only
  split
  · rfl
  · split <;> rfl
  · rfl

theorem sget_held (t : Seat) (r : Nat) : sget t.held r = sget t r := rfl

theorem pend_held (t : Seat) : t.held.pend = t.pend := rfl

@[simp] theorem sget_wakeSeats (s : State) (c m r : Nat) : sget (getSeat (wakeSeats s c) m) r = sget (getSeat s m) r := by
  rw [← sget_held, held_wakeSeats, sget_held]

@[simp] theorem pend_wakeSeats (s : State) (c m : Nat) : (getSeat (wakeSeats s c) m).pend = (getSeat s m).pend := by
  rw [← pend_held, held_wakeSeats, pend_held]

theorem memByte_congr {s t : State} (h : t.mem = s.mem) (x : Nat) : memByte t x = memByte s x := by rw [memByte, memByte, h]

/-! ### The transaction table -/

theorem id_of_findAcc {c : Coach} {id : Nat} {a : Access} (h : findAcc c id = some a) : a.id = id := by
  simpa using List.find?_some h

theorem id_of_performs {s : State} {c id b : Nat} {a : Access} (h : performs s c id b a = true) : a.id = id := by
  simp only [performs, Bool.and_eq_true, decide_eq_true_eq] at h
  obtain ⟨⟨⟨⟨hfind, _⟩, _⟩, _⟩, _⟩ := h
  exact id_of_findAcc hfind

/-- R64: an access whose block was performed no longer holds it. -/
theorem notMem_of_putAcc {c : Coach} {a a' : Access} {b : Nat} {keep : Bool} (hid : a'.id = a.id) (hb : b ∉ a'.blocks) :
    ∀ r ∈ (putAcc c a' keep).acc, r.id = a.id → b ∉ r.blocks := by
  intro r hr hrid
  rw [← hid] at hrid
  cases keep with
  | true =>
    obtain ⟨x, _, hx⟩ := List.mem_map.mp hr
    by_cases hxid : x.id = a'.id
    · rw [if_pos hxid] at hx
      exact hx ▸ hb
    · rw [if_neg hxid] at hx
      exact absurd (hx ▸ hrid) hxid
  | false =>
    have hne := (List.mem_filter.mp hr).2
    exact absurd hrid (by simpa using hne)

/-- R64: an access taken out of the table. -/
theorem id_ne_of_putAcc_false {c : Coach} {a : Access} : ∀ r ∈ (putAcc c a false).acc, r.id ≠ a.id := by
  intro r hr
  simpa using (List.mem_filter.mp hr).2

theorem notMem_less (a : Access) (b : Nat) : b ∉ (a.less b).blocks := by
  simp [Access.less]

/-! ### Performing a block -/

/-- R64, R78, R467: a permitted block of a seat's access is performed and the seats that waited wake. -/
theorem exec_transactionPerformed {s : State} {c id b : Nat} {a : Access} (h : performs s c id b a = true) (hd : a.kind.isDray = false) :
    exec (.transactionPerformed c id b) s = .next (flushPushes (wakeSeats (performBlock s c a b) c)) := by
  simp only [performs, Bool.and_eq_true, decide_eq_true_eq] at h
  obtain ⟨⟨⟨⟨hfind, hblock⟩, horder⟩, hmay⟩, hbank⟩ := h
  have he : exec (.transactionPerformed c id b) s = .next (flushPushes (transact s c id b)) := rfl
  have hreach : reachBlock s c a b = performBlock s c a b := if_pos hmay
  rw [he, transact, hfind]
  simp only [hblock, horder, hbank, Bool.and_self, if_true]
  split
  · next hk => exact absurd hd (by simp [hk, AccKind.isDray])
  · rw [hreach]

/-- R105, R321: a byte of a store's block after the block was performed. -/
theorem memByte_store_block (s : State) (cells : List (Nat × Byte)) (pois : List Nat) (b x : Nat) :
    memByte (storeCells s (cells.filter fun e => e.1 / 64 == b) pois) x =
      match cells.reverse.find? (fun e => e.1 == x && e.1 / 64 == b) with | some e => e.2 | none => memByte s x := by
  rw [memByte_storeCells, ← List.filter_reverse, List.find?_filter]
  simp only [Bool.decide_and, Bool.decide_eq_true, Bool.and_comm] <;> rfl

/-- R66, R105: a store's block. -/
theorem performBlock_store {s : State} {c b : Nat} {a : Access} {cells : List (Nat × Byte)} {pois : List Nat} (hk : a.kind = .store cells pois) :
    performBlock s c a b = (let u := storeCells s (cells.filter fun e => e.1 / 64 == b) (pois.filter fun x => x == b)
      putCoach u c (putAcc (getCoach u c) (a.less b) ((a.less b).blocks != []))) := by
  rw [performBlock]
  dsimp only
  rw [hk]

/-- R57, R81: an atomic's block. -/
theorem performBlock_atomic {s : State} {c b : Nat} {a : Access} {op : AtomicOp} {rd k addr : Nat} {arg cmp : W64} {p : Bool}
    (hk : a.kind = .atomic op rd k addr arg cmp p) :
    performBlock s c a b = (let u := performAtomic s a op rd k addr arg cmp p
      putCoach u c (putAcc (getCoach u c) (a.less b) false)) := by
  rw [performBlock]
  dsimp only
  rw [hk]

/-- R124, R158: the block of a scatter-add. -/
theorem performBlock_scadd {s : State} {c b : Nat} {a : Access} {adds : List (Nat × AddVal)} {told : Bool} (hk : a.kind = .scadd adds told) :
    performBlock s c a b = (let r := performScadd s adds b
      let u := overflowMsg r.1 c (r.2 && !told) (64 * b)
      putCoach u c (putAcc (getCoach u c) { a.less b with kind := .scadd adds (told || r.2) } ((a.less b).blocks != []))) := by
  rw [performBlock]
  dsimp only
  rw [hk]

/-- R81, R105, R120: what an atomic writes to memory and to its register. -/
theorem memByte_performAtomic (s : State) (a : Access) (op : AtomicOp) (rd k addr : Nat) (arg cmp : W64) (p : Bool) (x : Nat) :
    memByte (performAtomic s a op rd k addr arg cmp p) x = match atomicNew op k (memVal s addr k) arg cmp with
      | some v => if addr ≤ x ∧ x < addr + k then BitVec.ofNat 8 (v / 256 ^ (x - addr)) else memByte s x
      | none => memByte s x := by
  rw [performAtomic]
  dsimp only
  cases atomicNew op k (memVal s addr k) arg cmp with
  | none => rfl
  | some v =>
    refine (memByte_storeBytes s addr (leBytes k v) p x).trans ?_
    rw [length_leBytes]
    exact ite_congr rfl (fun h => lget_leBytes _ _ _ (by omega)) fun _ => rfl

theorem sget_performAtomic (s : State) (a : Access) (op : AtomicOp) (rd k addr : Nat) (arg cmp : W64) (p : Bool) :
    sget (getSeat (performAtomic s a op rd k addr arg cmp p) a.seat) rd = (BitVec.ofNat 64 (memVal s addr k), poisonedAt s addr k) := by
  rw [performAtomic]
  dsimp only
  rw [getSeat_putSeat_same]
  exact sget_sset_same _ _ _ _

theorem pend_performAtomic (s : State) (a : Access) (op : AtomicOp) (rd k addr : Nat) (arg cmp : W64) (p : Bool) :
    rd ∉ (getSeat (performAtomic s a op rd k addr arg cmp p) a.seat).pend := by
  rw [performAtomic]
  dsimp only
  rw [getSeat_putSeat_same, mem_ndel]
  exact fun h => h.1 rfl

theorem length_recordBytes (l : XLane) : (recordBytes l).length = 64 := by
  simp [recordBytes]

/-- R124, R159: the record of a scatter-add's block. -/
theorem memByte_performScadd {s : State} {adds : List (Nat × AddVal)} {b : Nat} (hb : blockPoisoned s b = false) {r : XLane}
    (hr : r = (adds.filter fun x => x.1 / 64 == b).foldl (fun l x => l.addVal x.2) (recordLane (memBytes s (64 * b) 64))) (x : Nat) :
    memByte (performScadd s adds b).1 x =
      if 64 * b ≤ x ∧ x < 64 * b + 64 then lget 0 (recordBytes r) (x - 64 * b) else memByte s x := by
  rw [performScadd, if_neg (by simp [hb])]
  dsimp only
  rw [← hr, memByte_storeBytes, length_recordBytes]

/-! ### Loads -/

theorem blocksOf_one {addr k : Nat} (hk : 1 ≤ k) (hone : addr / 64 = (addr + k - 1) / 64) : blocksOf addr k = [addr / 64] := by
  rw [blocksOf, if_neg (by omega), ← hone, show addr / 64 + 1 - addr / 64 = 1 by omega]
  rfl

theorem map_rangeFrom_memByte (s : State) (k : Nat) : ∀ a, (rangeFrom a k).map (memByte s) = memBytes s a k := by
  induction k with
  | zero => intro a; rfl
  | succ k ih => intro a; rw [rangeFrom, List.map_cons, ih, memBytes]

/-- R66: the bytes of a load whose one block has returned. -/
theorem gotBytes_one {s : State} {a : Access} {addr k : Nat} (hone : addr / 64 = (addr + k - 1) / 64)
    (hgot : kget ([], false) a.got (addr / 64) = (memBytes s (64 * (addr / 64)) 64, blockPoisoned s (addr / 64))) :
    gotBytes a addr k = memBytes s addr k := by
  rw [gotBytes, ← map_rangeFrom_memByte]
  refine List.map_congr_left fun x hx => ?_
  have hx' := (mem_rangeFrom _ _ _).mp hx
  rw [show x / 64 = addr / 64 by omega, hgot, lget_memBytes _ _ _ _ (by omega), show 64 * (addr / 64) + x % 64 = x by omega]

/-- R57, R66: a scalar load of one block returns: its register is written from memory and the access ends. -/
def loadReturned (s : State) (c : Nat) (a : Access) (rd k addr : Nat) (sx : Bool) : State :=
  let t := getSeat s a.seat
  let u := putSeat s a.seat { sset t rd (extendVal sx k (memVal s addr k)) (poisonedAt s addr k) with pend := ndel t.pend rd }
  wakeSeats (putCoach u c (putAcc (getCoach u c) a false)) c

/-- R57, R66: the register that a scalar load of one block writes. -/
theorem finishLoad_load {s : State} {a : Access} (c : Nat) {rd k addr : Nat} {sx : Bool} (hkind : a.kind = .load rd k sx addr)
    (hone : addr / 64 = (addr + k - 1) / 64) (hk : 1 ≤ k)
    (hgot : kget ([], false) a.got (addr / 64) = (memBytes s (64 * (addr / 64)) 64, blockPoisoned s (addr / 64))) :
    finishLoad s c a = putSeat s a.seat { sset (getSeat s a.seat) rd (extendVal sx k (memVal s addr k)) (poisonedAt s addr k) with
      pend := ndel (getSeat s a.seat).pend rd } := by
  rw [finishLoad, hkind]
  dsimp only
  rw [gotBytes_one hone hgot, gotPoison, hgot, memVal, poisonedAt, blocksOf_one hk hone, List.any_cons, List.any_nil, Bool.or_false]

theorem exec_loadReturn {s : State} {c id : Nat} {a : Access} {rd k addr : Nat} {sx : Bool} (hfind : findAcc (getCoach s c) id = some a)
    (hkind : a.kind = .load rd k sx addr) (hgot : a.got = []) (hblocks : a.blocks = [addr / 64])
    (horder : inOrder (getCoach s c) a (addr / 64) = true) (hk : 1 ≤ k) (hone : addr / 64 = (addr + k - 1) / 64)
    (hmay : coachMay s c (64 * (addr / 64)) false = true) (hbank : bankTested s (64 * (addr / 64)) = false) :
    exec (.loadReturn c id) s = .next (loadReturned s c a rd k addr sx) := by
  have he : exec (.loadReturn c id) s = execLoadReturn c id s := rfl
  have hreach : accReaches (.load rd k sx addr) (addr / 64) = true := rfl
  rw [he, execLoadReturn]
  dsimp only
  rw [hfind]
  dsimp only
  rw [hblocks]
  simp only [hkind, hgot, List.all_cons, List.all_nil, List.find?_cons, List.find?_nil, List.filter_cons, List.filter_nil, hreach, hmay,
    horder, hbank, Bool.not_true, Bool.not_false, Bool.and_self, Bool.false_eq_true, if_true, if_false, List.foldl_cons, List.foldl_nil]
  rw [finishLoad_load c rfl hone hk (kget_kput_same _ _ _ _)]
  rfl

/-- Settles O13, by what one performed block of each kind of access changes. -/
theorem transactionsAreApplied : Obligations.TransactionsAreApplied := by
  refine ⟨fun s c id b a cells pois h hk => ?_, fun s c id b a op rd k addr arg cmp p h hk => ?_,
    fun s c id b a adds told h hk hb => ?_, fun s c id a rd k addr sx hfind hkind hgot hblocks horder hone hk hmay hbank => ?_⟩
  case refine_1 =>
    have hid := id_of_performs h
    refine ⟨_, exec_transactionPerformed h (by rw [hk]; rfl), fun x => ?_, ?_⟩
    · rw [memByte_congr (wakeSeats_mem _ _), performBlock_store hk]
      dsimp only
      rw [memByte_congr (putCoach_mem _ _ _), memByte_store_block]
      exact ⟨fun hn => by rw [hn], fun v hv => by rw [hv]⟩
    · rw [getCoach_wakeSeats, performBlock_store hk]
      dsimp only
      rw [getCoach_putCoach_same, ← hid]
      exact notMem_of_putAcc rfl (notMem_less a b)
  case refine_2 =>
    have hid := id_of_performs h
    refine ⟨_, exec_transactionPerformed h (by rw [hk]; rfl), ?_, ?_, fun x => ?_, ?_⟩
    · rw [sget_wakeSeats, performBlock_atomic hk]
      exact sget_performAtomic _ _ _ _ _ _ _ _ _
    · rw [pend_wakeSeats, performBlock_atomic hk]
      exact pend_performAtomic _ _ _ _ _ _ _ _ _
    · rw [memByte_congr (wakeSeats_mem _ _), performBlock_atomic hk]
      dsimp only
      rw [memByte_congr (putCoach_mem _ _ _)]
      exact memByte_performAtomic s a op rd k addr arg cmp p x
    · rw [getCoach_wakeSeats, performBlock_atomic hk]
      dsimp only
      rw [getCoach_putCoach_same, ← hid]
      exact id_ne_of_putAcc_false (a := a.less b)
  case refine_3 =>
    have hid := id_of_performs h
    refine ⟨_, exec_transactionPerformed h (by rw [hk]; rfl), fun x => ?_, ?_⟩
    · rw [memByte_congr (wakeSeats_mem _ _), performBlock_scadd hk]
      dsimp only
      rw [memByte_congr (putCoach_mem _ _ _), memByte_congr (overflowMsg_mem _ _ _ _), memByte_performScadd hb rfl]
    · rw [getCoach_wakeSeats, performBlock_scadd hk]
      dsimp only
      rw [getCoach_putCoach_same, ← hid]
      exact notMem_of_putAcc rfl (notMem_less a b)
  case refine_4 =>
    have hblock : a.blocks = [addr / 64] := by rw [hblocks, blocksOf_one hk hone]
    have hmem : addr / 64 ∈ a.blocks := by simp [hblock]
    have hid := id_of_findAcc hfind
    refine ⟨_, exec_loadReturn hfind hkind hgot hblock (List.all_eq_true.mp horder _ hmem) hk hone (hmay _ hmem) (hbank _ hmem), ?_, ?_, ?_, ?_⟩
    · rw [loadReturned]
      dsimp only
      rw [sget_wakeSeats, getSeat_putCoach, getSeat_putSeat_same]
      exact sget_sset_same _ _ _ _
    · rw [loadReturned]
      dsimp only
      rw [pend_wakeSeats, getSeat_putCoach, getSeat_putSeat_same, mem_ndel]
      exact fun h => h.1 rfl
    · rw [loadReturned]
      dsimp only
      rw [getCoach_wakeSeats, getCoach_putCoach_same, ← hid]
      exact id_ne_of_putAcc_false
    · rw [loadReturned]
      dsimp only
      rw [wakeSeats_mem, putCoach_mem, putSeat_mem]

end Sys2Proof.Machine

/-! PROOFS. The dray engines (R67 to R70, R121, Table 3.5). -/

namespace Sys2Proof.Machine

/-! ### Instructions -/

/-- R55: a seat that issues is ready. -/
theorem ready_of_issuesWord {s : State} {n : Nat} {w : Fields} {form : Form} (h : issuesWord s n w form = true) : (getSeat s n).st = .ready := by
  simp only [issuesWord, mayIssue, Bool.and_eq_true, decide_eq_true_eq] at h
  obtain ⟨⟨⟨⟨⟨⟨⟨_, hst⟩, _⟩, _⟩, _⟩, _⟩, _⟩, _⟩ := h
  exact hst

/-- R67, R121: the descriptor that DSUB queues. -/
def submitted (s : State) (n : Nat) (d : DrayDesc) : DrayDesc :=
  { d with id := s.coaches.nextDesc, seat := n, pc := (getSeat s n).pc, accBound := s.coaches.nextAcc, descBound := s.coaches.nextDesc }

theorem exec_dsub {s : State} {n : Nat} {w : Fields} {h : Nat} {d : DrayDesc} (hi : issuesWord s n w { op := 0x80, a := .s, imm := 1 } = true)
    (hwin : seatWin s (n / 16) (codeLimit s n) (sget (getSeat s n) w.a.toNat).1.toNat 32 = some (.own h))
    (halign : (sget (getSeat s n) w.a.toNat).1.toNat % 32 = 0) (hpois : (sget (getSeat s n) w.a.toNat).2 = false)
    (hd : drayParse (memBytes s h 32) = some d) (hroom : (drayQ (getCoach s (n / 16)) (w.imm.toNat % 2)).length < 16) :
    exec (.dsub n w) s = .next (advance (putCoach { s with coaches := { s.coaches with nextDesc := s.coaches.nextDesc + 1 } } (n / 16)
      (putDrayQ (getCoach s (n / 16)) (w.imm.toNat % 2) (drayQ (getCoach s (n / 16)) (w.imm.toNat % 2) ++ [submitted s n d]))) n
      (nextPc (getSeat s n))) := by
  refine issueNext_done hi rfl (noneAwaits_nil s n) ?_
  obtain ⟨parse, hparse⟩ : ∃ f, drayParse = f := ⟨_, rfl⟩
  obtain ⟨win, hseat⟩ : ∃ f, seatWin s (n / 16) (codeLimit s n) = f := ⟨_, rfl⟩
  obtain ⟨exc, hexc⟩ : ∃ f, firstExc = f := ⟨_, rfl⟩
  rw [hseat] at hwin
  rw [hparse] at hd
  rw [hseat, hparse, hexc]
  dsimp only
  rw [hwin]
  dsimp only
  rw [if_pos halign]
  dsimp only
  rw [hd, ← hexc, hpois]
  exact if_neg (Nat.not_le.mpr hroom)

theorem exec_dwait {s : State} {n : Nat} {w : Fields} (h : issuesWord s n w { op := 0x81, a := .s, imm := 1 } = true)
    (hpois : (sget (getSeat s n) w.a.toNat).2 = false) :
    exec (.dwait n w) s = .next (advance (
      if drayReached (getCoach s (n / 16)) (w.imm.toNat % 2) ((sget (getSeat s n) w.a.toNat).1.setWidth 32) then s
      else putSeat s n { getSeat s n with
        st := .parked (.drayCount (w.imm.toNat % 2) ((sget (getSeat s n) w.a.toNat).1.setWidth 32)) }) n (nextPc (getSeat s n))) := by
  refine issueNext_done h rfl (noneAwaits_nil s n) ?_
  dsimp only
  rw [hpois]
  exact (apply_ite Res.done _ _ _).symm

theorem exec_dcnt {s : State} {n : Nat} {w : Fields} (h : issuesWord s n w { op := 0x82, d := .s, imm := 1 } = true) :
    exec (.dcnt n w) s = .next (advance (putSeat s n (sset (getSeat s n) w.d.toNat
      ((drayCount (getCoach s (n / 16)) (w.imm.toNat % 2)).setWidth 64) false)) n (nextPc (getSeat s n))) :=
  issueNext_done h rfl (noneAwaits_nil s n) rfl

/-! ### Queues and counts -/

@[simp] theorem drayQ_putDrayQ (c : Coach) (e : Nat) (q : List DrayDesc) : drayQ (putDrayQ c e q) e = q := by
  by_cases h : e = 0 <;> simp [drayQ, putDrayQ, h]

@[simp] theorem drayCount_putDrayQ (c : Coach) (e e' : Nat) (q : List DrayDesc) : drayCount (putDrayQ c e q) e' = drayCount c e' := by
  by_cases h : e = 0 <;> simp [drayCount, putDrayQ, h]

@[simp] theorem acc_putDrayQ (c : Coach) (e : Nat) (q : List DrayDesc) : (putDrayQ c e q).acc = c.acc := by
  by_cases h : e = 0 <;> simp [putDrayQ, h]

/-- R69: a coach whose completion count is raised by a descriptor with INC. -/
def countDray (c : Coach) (e : Nat) (inc : Bool) : Coach :=
  if inc then (if e = 0 then { c with dc0 := c.dc0 + 1 } else { c with dc1 := c.dc1 + 1 }) else c

theorem drayQ_countDray (c : Coach) (e : Nat) (inc : Bool) : drayQ (countDray c e inc) e = drayQ c e := by
  cases inc <;> by_cases h : e = 0 <;> simp [drayQ, countDray, h]

theorem drayCount_countDray (c : Coach) (e : Nat) (inc : Bool) :
    drayCount (countDray c e inc) e = drayCount c e + (if inc then 1 else 0) := by
  cases inc <;> by_cases h : e = 0 <;> simp [drayCount, countDray, h]

@[simp] theorem getCoach_wakeDray (s : State) (c d : Nat) : getCoach (wakeDray s c) d = getCoach s d := by
  rw [wakeDray]
  refine foldl_keeps (fun s => getCoach s d) _ (fun s n => ?_) _ s
  dsimp only
  split
  · split <;> rfl
  · split <;> rfl
  · rfl
  · rfl

/-! ### Engine events -/

/-- R64, R65: the entry that an access takes. -/
def newAccess (s : State) (n : Nat) (kind : AccKind) (blocks : List Nat) (got : KMap (List Byte × Bool)) : Access :=
  { id := s.coaches.nextAcc, seat := n, pc := (getSeat s n).pc, kind := kind, blocks := blocks, got := got }

/-- R64: a coach whose transaction table has one more entry. -/
def Coach.withAccess (t : Coach) (a : Access) : Coach := { t with acc := t.acc ++ [a] }

theorem getCoach_addAccess (s : State) (n : Nat) (kind : AccKind) (blocks : List Nat) (got : KMap (List Byte × Bool)) :
    getCoach (addAccess s n kind blocks got) (n / 16) = (getCoach s (n / 16)).withAccess (newAccess s n kind blocks got) :=
  getCoach_putCoach_same _ _ _

/-- R64, R65, R67, R69: the next transaction of the current descriptor takes an entry. -/
theorem exec_drayTransaction {s : State} {c e : Nat} {d : DrayDesc} (he : e < 2) (h : drayRuns s c e d = true) {u : State}
    (hu : u = addAccess s (16 * c + d.seat % 16) (.dray e d d.issued) [drayDst d d.issued / 64] []) :
    exec (.drayTransaction c e) s = .next (putCoach u c (putDrayQ (getCoach u c) e
      ((drayQ (getCoach u c) e).map fun x => if x.id = d.id then { x with issued := d.issued + 1 } else x))) := by
  subst hu
  simp only [drayRuns, Bool.and_eq_true, decide_eq_true_eq] at h
  obtain ⟨⟨⟨⟨⟨hfind, hdrained⟩, hexcluded⟩, hstart⟩, hfree⟩, hheld⟩ := h
  have hexec : exec (.drayTransaction c e) s = execDrayTransaction c e s := rfl
  rw [hexec, execDrayTransaction]
  dsimp only
  rw [Nat.mod_eq_of_lt he, hfind]
  dsimp only
  refine if_neg ?_
  simp only [hdrained, hexcluded, hfree, decide_false, Bool.false_or, Bool.or_false, Bool.or_eq_true, Bool.not_eq_true', decide_eq_true_eq, not_or]
  exact ⟨ne_false_of_eq_true hstart, Nat.not_le.mpr hheld⟩

/-- R66, R69: a transaction between two blocks the engine reaches copies 64 bytes, or writes zeros. -/
theorem performDray_copies {s : State} {c e k sa da : Nat} {d : DrayDesc}
    (hsrc : d.zero = true ∨ ∃ p, drayTarget s c (draySrc d k) false = some (sa, p))
    (hdst : drayTarget s c (drayDst d k) true = some (da, false)) :
    ∃ p, performDray s c e d k = storeBytes s da (if d.zero then List.replicate 64 0 else memBytes s sa 64) p := by
  rw [performDray, hdst]
  cases hz : d.zero with
  | true => exact ⟨_, rfl⟩
  | false =>
    obtain ⟨p, hp⟩ := hsrc.resolve_left (by simp [hz])
    rw [if_neg Bool.false_ne_true, hp]
    exact ⟨_, rfl⟩

theorem lget_replicate {α : Type} (d x : α) : ∀ n i, i < n → lget d (List.replicate n x) i = x := by
  intro n
  induction n with
  | zero => intro i h; omega
  | succ n ih =>
    intro i h
    cases i with
    | zero => rfl
    | succ i => exact ih i (by omega)

/-- A copied or zeroed block of 64 bytes. -/
theorem memByte_storeBytes_block (s : State) (sa da : Nat) (zero p : Bool) (a : Nat) :
    memByte (storeBytes s da (if zero then List.replicate 64 0 else memBytes s sa 64) p) a =
      if da ≤ a ∧ a < da + 64 then (if zero then 0 else memByte s (sa + (a - da))) else memByte s a := by
  cases zero with
  | true =>
    refine (memByte_storeBytes s da _ p a).trans (ite_congr (by simp) (fun h => ?_) fun _ => rfl)
    exact lget_replicate _ _ _ _ (by omega)
  | false =>
    refine (memByte_storeBytes s da _ p a).trans (ite_congr (by simp) (fun h => ?_) fun _ => rfl)
    exact lget_memBytes _ _ _ _ (by omega)

theorem exec_transactionPerformed_dray {s : State} {c e id b k : Nat} {d : DrayDesc} {x : Access}
    (hfind : findAcc (getCoach s c) id = some x) (hk : x.kind = .dray e d k) (hb : b ∈ x.blocks) (hbank : bankWaits s c x b = false) :
    exec (.transactionPerformed c id b) s =
      .next (flushPushes (wakeSeats (performDray (putCoach s c (putAcc (getCoach s c) x false)) c e d k) c)) := by
  have he : exec (.transactionPerformed c id b) s = .next (flushPushes (transact s c id b)) := rfl
  have horder : inOrder (getCoach s c) x b = true := by rw [inOrder, hk]; rfl
  have hblock : x.blocks.contains b = true := by simpa using hb
  rw [he, transact, hfind]
  simp only [hblock, horder, hbank, Bool.not_false, Bool.and_self, if_true]
  rw [hk]

/-- R69: the oldest descriptor, all of it performed, leaves its queue. -/
theorem exec_drayDescriptorComplete {s : State} {c e : Nat} {d : DrayDesc} {rest : List DrayDesc} (he : e < 2)
    (hq : drayQ (getCoach s c) e = d :: rest) (hdone : drayAllDone (getCoach s c) d = true) :
    exec (.drayDescriptorComplete c e) s =
      .next (flushPushes (wakeDray (putCoach s c (countDray (putDrayQ (getCoach s c) e rest) e d.inc)) c)) := by
  have hexec : exec (.drayDescriptorComplete c e) s = .next (flushPushes (drayComplete s c e)) := rfl
  rw [hexec, drayComplete]
  dsimp only
  rw [Nat.mod_eq_of_lt he, hq]
  dsimp only
  rw [hdone]
  rfl

/-- Settles O15, by what each instruction and each event of the engines gives. -/
theorem drayEngineEffects : Obligations.DrayEngineEffects := by
  refine ⟨fun s n w h d hi hwin halign hpois hd hroom => ?_, fun s n w hi hpois => ?_, fun s n w hi => ?_, fun s c e d he h => ?_,
    fun s c e id b k sa da d x hfind hk hb hbank hsrc hdst => ?_, fun s c e d rest he hq hdone => ?_⟩
  case refine_1 =>
    refine ⟨_, exec_dsub hi hwin halign hpois hd hroom, wentOn_advance _ _ _ rfl, rfl, ?_⟩
    rw [getCoach_advance, getCoach_putCoach_same, drayQ_putDrayQ]
    rfl
  case refine_2 =>
    have hst := ready_of_issuesWord hi
    refine ⟨_, exec_dwait hi hpois, ?_⟩
    by_cases hreached : drayReached (getCoach s (n / 16)) (w.imm.toNat % 2) ((sget (getSeat s n) w.a.toNat).1.setWidth 32) = true
    · rw [if_pos hreached, if_pos (of_decide_eq_true hreached)]
      refine ⟨onlySeat_advance_self _ _ _, ?_, ?_⟩ <;> rw [getSeat_advance_self]
      exact hst
    · rw [if_neg hreached, if_neg fun hlt => hreached (decide_eq_true hlt)]
      refine ⟨onlySeat_advance _ _ _ _, ?_, ?_⟩ <;> rw [getSeat_advance]
  case refine_3 =>
    refine ⟨_, exec_dcnt hi, ?_⟩
    rw [BitVec.ofNat_toNat]
    exact wroteS_sset _ _ _ _ _ _
  case refine_4 =>
    have hc : (16 * c + d.seat % 16) / 16 = c := by omega
    have hcoach : getCoach (addAccess s (16 * c + d.seat % 16) (.dray e d d.issued) [drayDst d d.issued / 64] []) c =
        (getCoach s c).withAccess (newAccess s (16 * c + d.seat % 16) (.dray e d d.issued) [drayDst d d.issued / 64] []) := by
      have hadd := getCoach_addAccess s (16 * c + d.seat % 16) (.dray e d d.issued) [drayDst d d.issued / 64] []
      rwa [hc] at hadd
    refine ⟨_, newAccess s (16 * c + d.seat % 16) (.dray e d d.issued) [drayDst d d.issued / 64] [], exec_drayTransaction he h rfl,
      ?_, ?_, rfl, rfl, rfl, ?_⟩
    · rw [putCoach_mem, addAccess_mem]
    · rw [getCoach_putCoach_same, acc_putDrayQ, hcoach]
      rfl
    · rw [getCoach_putCoach_same, drayQ_putDrayQ, hcoach]
      rfl
  case refine_5 =>
    obtain ⟨p, hp⟩ := performDray_copies (s := putCoach s c (putAcc (getCoach s c) x false)) (e := e) hsrc hdst
    refine ⟨_, exec_transactionPerformed_dray hfind hk hb hbank, fun a => ?_, ?_⟩
    · rw [memByte_congr (wakeSeats_mem _ _), hp]
      exact memByte_storeBytes_block (putCoach s c (putAcc (getCoach s c) x false)) sa da d.zero p a
    · rw [getCoach_wakeSeats, hp, getCoach_storeBytes, getCoach_putCoach_same, ← id_of_findAcc hfind]
      exact id_ne_of_putAcc_false
  case refine_6 =>
    refine ⟨_, exec_drayDescriptorComplete he hq hdone, ?_, ?_, ?_⟩
    · rw [getCoach_wakeDray, getCoach_putCoach_same, drayQ_countDray, drayQ_putDrayQ]
    · rw [getCoach_wakeDray, getCoach_putCoach_same, drayCount_countDray, drayCount_putDrayQ]
    · rw [wakeDray_mem, putCoach_mem]

end Sys2Proof.Machine

/-! PROOFS. LAUNCH and the ring instructions (R80, R83, R127, R129, R130, R342, R343). -/

namespace Sys2Proof.Machine

/-! ### What sending leaves as it was -/

theorem Sends.prod {s t : State} (h : Sends s t) : t.host.prod = s.host.prod := by obtain ⟨_, _, _, rfl⟩ := h; rfl
theorem Sends.cons {s t : State} (h : Sends s t) : t.host.cons = s.host.cons := by obtain ⟨_, _, _, rfl⟩ := h; rfl
theorem Sends.coaches {s t : State} (h : Sends s t) : t.coaches = s.coaches := by obtain ⟨_, _, _, rfl⟩ := h; rfl

/-! ### Taking and posting entries -/

/-- R305, R342: an entry taken: only its ring's consumer index and what goes out changed. -/
theorem takeEntry_sends (s : State) (q : Nat) : ∃ u, u.host.cons = kset 0 s.host.cons q (getCons s q + 1) ∧ u.mem = s.mem ∧
    u.coaches = s.coaches ∧ Sends u (takeEntry s q) := by
  rw [takeEntry]
  split
  · exact ⟨setCons s q (getCons s q + 1), rfl, rfl, rfl, notifyWord_sends _ _⟩
  · split
    · let s' := setCons s q (getCons s q + 1)
      exact ⟨putHost s' { s'.host with subCredit := kset 0 s'.host.subCredit q (kget 0 s'.host.subCredit q + 1) }, rfl, rfl, rfl,
        sendCtl_sends _ _ _ _⟩
    · exact ⟨setCons s q (getCons s q + 1), rfl, rfl, rfl, Sends.refl _⟩

theorem getCons_takeEntry (s : State) (q : Nat) : getCons (takeEntry s q) q = getCons s q + 1 := by
  obtain ⟨u, hcons, _, _, hsends⟩ := takeEntry_sends s q
  rw [getCons, hsends.cons, hcons, kget_kset_same]

theorem takeEntry_coaches (s : State) (q : Nat) : (takeEntry s q).coaches = s.coaches := by
  obtain ⟨u, _, _, hcoaches, hsends⟩ := takeEntry_sends s q
  rw [hsends.coaches, hcoaches]

/-- R341, R342: where the producer's next entry goes. -/
def prodAddr (s : State) (q : Nat) : Nat := ringBase s q + 64 * ((getProd s q).toNat % ringDepth s q)

/-- R306, R342, R343: a 64-byte entry put into a ring: its slot, the producer index and what goes out changed. -/
theorem putEntry_sends (s : State) (q : Nat) {e : List Byte} (he : e.length = 64) : ∃ u,
    u.host.prod = kset 0 s.host.prod q (getProd s q + 1) ∧ u.coaches = s.coaches ∧
    u.mem = (if isHostRing q then putBytes s.mem (prodAddr s q) e else s.mem) ∧ Sends u (putEntry s q e) := by
  have hplace : placeBody s q (getProd s q).toNat e = (s, e) := by
    rw [placeBody]
    dsimp only
    rw [he, if_pos (.inl rfl), List.take_of_length_le (by omega)]
  rw [putEntry]
  dsimp only
  rw [hplace]
  dsimp only
  split
  · refine ⟨setProd (storeBytes s (prodAddr s q) e false) q (getProd s q + 1), rfl, rfl, ?_, ?_⟩
    · exact putCells_cellsAt _ _ _
    · exact Sends.trans ⟨_, _, _, rfl⟩ (notifyWord_sends _ _)
  · exact ⟨setProd s q (getProd s q + 1), rfl, rfl, rfl, sendFlit_sends _ _ _ _ _ _⟩

theorem getProd_putEntry (s : State) (q : Nat) {e : List Byte} (he : e.length = 64) : getProd (putEntry s q e) q = getProd s q + 1 := by
  obtain ⟨u, hprod, _, _, hsends⟩ := putEntry_sends s q he
  rw [getProd, hsends.prod, hprod, kget_kset_same]

theorem memByte_putEntry (s : State) (q : Nat) {e : List Byte} (he : e.length = 64) (a : Nat) :
    memByte (putEntry s q e) a = if q < 256 ∧ prodAddr s q ≤ a ∧ a < prodAddr s q + 64 then lget 0 e (a - prodAddr s q) else memByte s a := by
  obtain ⟨u, _, _, hmem, hsends⟩ := putEntry_sends s q he
  rw [memByte, hsends.mem, hmem]
  by_cases hq : q < 256
  · have hhost : isHostRing q = true := decide_eq_true hq
    rw [if_pos hhost, kget_putBytes, he]
    simp only [hq, true_and]
    rfl
  · rw [if_neg (by simpa [isHostRing] using hq), if_neg fun h => hq h.1]
    rfl

theorem postEntry_now {s : State} {q : Nat} {e : List Byte} (he : e.length = 64) (hw : kget [] s.host.waiting q = [])
    (hpost : canPost s q e = true) : postEntry s q e = putEntry s q e := by
  rw [postEntry]
  dsimp only
  rw [he, Nat.sub_self, List.replicate_zero, List.append_nil]
  exact if_pos ⟨hw, hpost⟩

/-! ### Pushes -/

/-- R80, R130: the only push, when what its seat did before has been performed. -/
theorem flushPushes_ready {s : State} {p : RingPush} (hp : s.coaches.pushes = [p]) (hr : pushReady s p = true) (hring : p.ring < 0xFF40) :
    flushPushes s = { postEntry s p.ring p.entry with coaches := { (postEntry s p.ring p.entry).coaches with pushes := [] } } := by
  have hpush : performPush s p = postEntry s p.ring p.entry := if_neg (Nat.not_le.mpr hring)
  rw [flushPushes, hp]
  dsimp only [List.foldl_cons, List.foldl_nil]
  rw [hr, ← hpush]
  rfl

/-- R80, R130: the only push waits while something that its seat did before has not been performed. -/
theorem flushPushes_waits {s : State} {p : RingPush} (hp : s.coaches.pushes = [p]) (hr : pushReady s p = false) :
    flushPushes s = s := by
  have hs : { s with coaches := { s.coaches with pushes := [p] } } = s := by rw [← hp]
  rw [flushPushes, hp]
  dsimp only [List.foldl_cons, List.foldl_nil]
  rw [hr]
  exact hs

/-! ### LAUNCH -/

/-- R83, R127: what LAUNCH does once nothing holds it. -/
theorem exec_launch {s : State} {n : Nat} {w : Fields} {me : Nat} (hi : issuesWord s n w (formSSS 0xA2) = true)
    (hr : launchReady s n w me = true) {tr : Nat} (htr : tr = (sget (getSeat s n) w.b.toNat).1.toNat) :
    exec (.launch n w) s = .next (advance (
      if 64 ≤ (getTrain s tr).queue.length then putSeat s n (sset (getSeat s n) w.d.toNat 1 false)
      else putSeat (putTrain s tr { getTrain s tr with queue := (getTrain s tr).queue ++
        [{ raw := memBytes s (sget (getSeat s n) w.a.toNat).1.toNat 64, src := .seat n }] }) n (sset (getSeat s n) w.d.toNat 0 false))
      n (nextPc (getSeat s n))) := by
  subst htr
  simp only [launchReady, Bool.and_eq_true, Bool.not_eq_true', decide_eq_true_eq, beq_iff_eq] at hr
  obtain ⟨⟨⟨⟨⟨⟨⟨⟨hme, hpa⟩, hpb⟩, htrain⟩, hworld⟩, hend⟩, hmay⟩, hstores⟩, hdescs⟩ := hr
  refine issueNext_done hi rfl (noneAwaits_nil s n) ?_
  obtain ⟨exc, hexc⟩ : ∃ f, firstExc = f := ⟨_, rfl⟩
  rw [hexc]
  dsimp only
  rw [hme, Option.getD_some, hpa, hpb, hworld, hmay, decide_eq_false (Nat.not_le.mpr htrain), decide_eq_false (Nat.not_lt.mpr hend),
    hstores, hdescs, ← hexc]
  simp only [bne_self_eq_false, Bool.or_self, Bool.not_true, firstExc, Bool.false_eq_true, if_false, Bool.and_self]
  exact (apply_ite Res.done _ _ _).symm

/-! ### RPOP -/

/-- R129: a ring instruction that may go on has its window, its operands and its ring. -/
theorem ringReady_iff {s : State} {n : Nat} {w : Fields} {me h q : Nat} {compl : Bool} : ringReady s n w me h q compl = true ↔
    trainOfCoach s (n / 16) = some me ∧ q = (sget (getSeat s n) w.a.toNat).1.toNat % 2 ^ 16 ∧
      seatWin s (n / 16) (codeLimit s n) (sget (getSeat s n) w.b.toNat).1.toNat 64 = some (.own h) ∧
      (compl = true ∨ (sget (getSeat s n) w.b.toNat).1.toNat % 64 = 0) ∧ (sget (getSeat s n) w.a.toNat).2 = false ∧
      (sget (getSeat s n) w.b.toNat).2 = false ∧ ringOfSeat s me q compl = true := by
  simp [ringReady, and_assoc]

/-- R129, R130, R212, R342: what RPOP moves, and the value of Sd. -/
def popped (s : State) (n h q : Nat) : State × W64 :=
  if q < 0xFF00 then
    (if ringFill s q = 0 then (s, BitVec.allOnes 64)
     else (takeEntry (storeBytes s h (headEntry s q) (poisonedAt s (headAddr s q) 64)) q, (getCons s q).setWidth 64))
  else
    match popChunk s (q - 0xFF00) (n / 16 / 32) with
    | (s, some e) => (setCons (storeBytes s h e false) q (getCons s q + 1), (getCons s q).setWidth 64)
    | (s, none) => (s, BitVec.allOnes 64)

theorem exec_rpop {s : State} {n : Nat} {w : Fields} {me h q : Nat} (hi : issuesWord s n w (formSSS 0xC0) = true)
    (hr : ringReady s n w me h q false = true) :
    exec (.rpop n w) s = .next (advance (putSeat (popped s n h q).1 n (sset (getSeat s n) w.d.toNat (popped s n h q).2 false)) n
      (nextPc (getSeat s n))) := by
  obtain ⟨hme, hq, hwin, halign, hpa, hpb, hring⟩ := ringReady_iff.mp hr
  have halign := halign.resolve_left Bool.false_ne_true
  refine issueNext_done hi rfl (noneAwaits_nil s n) ?_
  obtain ⟨exc, hexc⟩ : ∃ f, firstExc = f := ⟨_, rfl⟩
  obtain ⟨win, hseat⟩ : ∃ f, seatWin s (n / 16) (codeLimit s n) = f := ⟨_, rfl⟩
  rw [hseat] at hwin
  rw [hexc, hseat]
  dsimp only
  rw [hwin, hme, Option.getD_some, hpa, hpb, halign, ← hq, hring, ← hexc]
  simp only [Option.isNone_some, bne_self_eq_false, Bool.or_self, Bool.not_true, firstExc, Bool.false_eq_true, if_false]
  rw [popped]
  split
  · split <;> rfl
  · cases popChunk s (q - 0xFF00) (n / 16 / 32) with
    | mk u e => cases e <;> rfl

/-! ### RPUSH -/

/-- R130: the push that RPUSH makes. -/
def pushOf (s : State) (n h q : Nat) : RingPush :=
  { seat := n, ring := q, entry := memBytes s h 64, accBound := s.coaches.nextAcc, descBound := s.coaches.nextDesc }

/-- R130: a state with one more push. -/
def withPush (s : State) (p : RingPush) : State := { s with coaches := { s.coaches with pushes := s.coaches.pushes ++ [p] } }

theorem exec_rpush {s : State} {n : Nat} {w : Fields} {me h q : Nat} (hi : issuesWord s n w (formSSS 0xC1) = true)
    (hr : ringReady s n w me h q true = true) :
    exec (.rpush n w) s = .next (advance (
      if pushRoom s q then putSeat (flushPushes (withPush s (pushOf s n h q))) n (sset (getSeat s n) w.d.toNat 0 false)
      else putSeat s n (sset (getSeat s n) w.d.toNat 1 false)) n (nextPc (getSeat s n))) := by
  obtain ⟨hme, hq, hwin, _, hpa, hpb, hring⟩ := ringReady_iff.mp hr
  refine issueNext_done hi rfl (noneAwaits_nil s n) ?_
  obtain ⟨exc, hexc⟩ : ∃ f, firstExc = f := ⟨_, rfl⟩
  obtain ⟨win, hseat⟩ : ∃ f, seatWin s (n / 16) (codeLimit s n) = f := ⟨_, rfl⟩
  rw [hseat] at hwin
  rw [hexc, hseat]
  dsimp only
  rw [hwin, hme, Option.getD_some, hpa, hpb, ← hq, hring, ← hexc]
  simp only [Option.isNone_some, Bool.or_self, Bool.not_true, firstExc, Bool.false_eq_true, if_false]
  exact (apply_ite Res.done _ _ _).symm

/-! ### The state service's chunks -/

@[simp] theorem latchUnit_host (s : State) (src : Nat) : (latchUnit s src).host = s.host := by
  simp only [latchUnit]
  split
  · simp
  split
  · rfl
  split <;> simp

@[simp] theorem setSticky_host (s : State) (src : Nat) : (setSticky s src).host = s.host := by simp [setSticky]

@[simp] theorem accountMsg_host (s : State) (src cls : Nat) (escd : Bool) : (accountMsg s src cls escd).host = s.host := by
  simp [accountMsg, apply_ite State.host]

@[simp] theorem holdErr_host (s : State) (src cls : Nat) : (holdErr s src cls).host = s.host := by
  simp [holdErr, apply_ite State.host]

@[simp] theorem raise_host (s : State) (src kind cls addr : Nat) : (raise s src kind cls addr).host = s.host := by
  simp [raise, raiseMsg, apply_ite State.host]

/-- R212: a chunk of a user step touches nothing of the host side. -/
theorem userProduce_host (s : State) (x : Table) (r : StepRun) : (userProduce s x r).1.host = s.host := by
  have hpoison : ∀ l : List Nat, (l.foldl (fun s b => statePoison s x (64 * b)) s).host = s.host := fun l =>
    foldl_keeps State.host _ (fun _ _ => raise_host _ _ _ _ _) l s
  rw [userProduce]
  split
  · rfl
  · dsimp only
    rw [putChunks_host]
    split
    · exact hpoison _
    · rfl

theorem onRun_host (s : State) (t : Nat) (f : StepRun → StepRun) : (onRun s t f).host = s.host := by
  rw [onRun]
  split
  · exact putTable_host _ _ _
  · rfl

theorem popChunk_host (s : State) (t k : Nat) : (popChunk s t k).1.host = s.host := by
  unfold popChunk
  dsimp only
  (repeat' split) <;> simp -implicitDefEqProofs [userProduce_host, onRun_host]

/-! ### The seat after the instruction -/

theorem pc_advance (s : State) (n pc : Nat) : (getSeat (advance s n pc) n).pc = pc := by rw [getSeat_advance_self]

theorem sget_advance_sset (u : State) (n pc d : Nat) (t : Seat) (x : W64) (p : Bool) :
    sget (getSeat (advance (putSeat u n (sset t d x p)) n pc) n) d = (x, p) := by
  rw [getSeat_advance]
  exact kget_kset_same _ _ _ _

theorem st_advance_sset (u : State) (n pc d : Nat) (t : Seat) (x : W64) (p : Bool) :
    (getSeat (advance (putSeat u n (sset t d x p)) n pc) n).st = t.st := by
  rw [getSeat_advance]
  rfl

theorem memByte_advance_putSeat (u : State) (n pc : Nat) (t : Seat) (a : Nat) :
    memByte (advance (putSeat u n t) n pc) a = memByte u a := rfl

theorem getTrain_advance_putSeat (u : State) (n pc tr : Nat) (t : Seat) :
    getTrain (advance (putSeat u n t) n pc) tr = getTrain u tr := rfl

theorem getCons_advance_putSeat (u : State) (n pc q : Nat) (t : Seat) : getCons (advance (putSeat u n t) n pc) q = getCons u q := rfl

theorem getProd_advance_putSeat (u : State) (n pc q : Nat) (t : Seat) : getProd (advance (putSeat u n t) n pc) q = getProd u q := rfl

theorem pushes_advance_putSeat (u : State) (n pc : Nat) (t : Seat) : (advance (putSeat u n t) n pc).coaches.pushes = u.coaches.pushes := rfl

/-- R342: the entry of a ring that holds one, popped. -/
theorem popped_entry {s : State} {q : Nat} (n h : Nat) (hq : q < 0xFF00) (hfill : ringFill s q ≠ 0) : popped s n h q =
    (takeEntry (storeBytes s h (headEntry s q) (poisonedAt s (headAddr s q) 64)) q, (getCons s q).setWidth 64) := by
  rw [popped, if_pos hq, if_neg hfill]

/-- R342: an empty ring. -/
theorem popped_empty {s : State} {q : Nat} (n h : Nat) (hq : q < 0xFF00) (hfill : ringFill s q = 0) : popped s n h q =
    (s, BitVec.allOnes 64) := by
  rw [popped, if_pos hq, if_pos hfill]

/-- R212: the value that a step ring gives. -/
theorem popped_chunk {s : State} {q : Nat} (n h : Nat) (hq : 0xFF00 ≤ q) : (popped s n h q).2 =
    if (popChunk s (q - 0xFF00) (n / 16 / 32)).2.isNone then BitVec.allOnes 64 else BitVec.ofNat 64 (getCons s q).toNat := by
  have hhost := popChunk_host s (q - 0xFF00) (n / 16 / 32)
  rw [popped, if_neg (Nat.not_lt.mpr hq)]
  cases hpop : popChunk s (q - 0xFF00) (n / 16 / 32) with
  | mk u e =>
    rw [hpop] at hhost
    cases e with
    | none => rfl
    | some e =>
      dsimp only
      rw [BitVec.ofNat_toNat, getCons, getCons, hhost]
      rfl

/-- R130, R343: a ring that can take an entry has room for a push when none waits. -/
theorem pushRoom_of_canPost {s : State} {q : Nat} {e : List Byte} (hp : s.coaches.pushes = []) (hw : kget [] s.host.waiting q = [])
    (hpost : canPost s q e = true) : pushRoom s q = true := by
  simp only [canPost, Bool.and_eq_true, decide_eq_true_eq] at hpost
  simp [pushRoom, hw, hp, hpost.1]

/-- Settles O19, by what LAUNCH, RPOP and RPUSH give and how pushes are flushed. -/
theorem launchAndRingInstructions : Obligations.LaunchAndRingInstructions := by
  refine ⟨fun s n w me hi hr => ?_, fun s n w me h q hi hr hq hfill => ?_, fun s n w me h q hi hr => ⟨fun hq hfill => ?_, fun hq => ?_⟩,
    fun s n w me h q hi hr => ?_, fun s n w me h q hi hr hroom hp hwait => ?_, fun s p hp hr hring => flushPushes_ready hp hr hring,
    fun s n w me h q hi hr hq hstores hdescs hp hw hpost => ?_⟩
  case refine_1 =>
    refine ⟨_, exec_launch hi hr rfl, pc_advance _ _ _, ?_⟩
    by_cases hfull : 64 ≤ (getTrain s (sget (getSeat s n) w.b.toNat).1.toNat).queue.length
    · rw [if_pos hfull]
      dsimp only
      rw [if_neg (Nat.not_lt.mpr hfull)]
      exact ⟨rfl, sget_advance_sset _ _ _ _ _ _ _, rfl⟩
    · rw [if_neg hfull]
      dsimp only
      rw [if_pos (Nat.lt_of_not_le hfull)]
      refine ⟨rfl, sget_advance_sset _ _ _ _ _ _ _, ?_⟩
      rw [getTrain_advance_putSeat, getTrain_putTrain, if_pos rfl]
  case refine_2 =>
    refine ⟨_, exec_rpop hi hr, pc_advance _ _ _, ?_, ?_, fun a => ?_⟩
    · rw [sget_advance_sset, popped_entry n h hq hfill, BitVec.ofNat_toNat]
    · rw [getCons_advance_putSeat, popped_entry n h hq hfill, getCons_takeEntry]
      rfl
    · rw [memByte_advance_putSeat, popped_entry n h hq hfill, memByte_congr (takeEntry_mem _ _), memByte_storeBytes, headEntry,
        length_memBytes]
      exact ite_congr rfl (fun ha => lget_memBytes _ _ _ _ (by omega)) fun _ => rfl
  case refine_3 =>
    refine ⟨_, exec_rpop hi hr, ?_⟩
    rw [popped_empty n h hq hfill]
    exact wroteS_sset _ _ _ _ _ _
  case refine_4 =>
    refine ⟨_, exec_rpop hi hr, pc_advance _ _ _, ?_⟩
    rw [sget_advance_sset, popped_chunk n h hq]
  case refine_5 =>
    refine ⟨_, exec_rpush hi hr, pc_advance _ _ _, ?_⟩
    cases hroom : pushRoom s q with
    | true => exact ⟨st_advance_sset _ _ _ _ _ _ _, sget_advance_sset _ _ _ _ _ _ _, fun h => absurd h Bool.noConfusion⟩
    | false => exact ⟨st_advance_sset _ _ _ _ _ _ _, sget_advance_sset _ _ _ _ _ _ _, fun _ => rfl⟩
  case refine_6 =>
    have hready : pushReady (withPush s (pushOf s n h q)) (pushOf s n h q) = false := by
      rw [pushReady, Bool.and_eq_false_iff]
      exact hwait
    have hflush : flushPushes (withPush s (pushOf s n h q)) = withPush s (pushOf s n h q) :=
      flushPushes_waits (by rw [withPush, hp]; rfl) hready
    refine ⟨_, pushOf s n h q, exec_rpush hi hr, ?_, rfl, rfl, rfl, ?_, ?_⟩ <;> rw [if_pos hroom, hflush]
    · rw [pushes_advance_putSeat, withPush, hp]
      rfl
    · rfl
    · rw [getProd_advance_putSeat]
      rfl
  case refine_7 =>
    have hlen : (memBytes s h 64).length = 64 := length_memBytes s 64 h
    have hready : pushReady (withPush s (pushOf s n h q)) (pushOf s n h q) = true := by
      rw [pushReady, Bool.and_eq_true]
      exact ⟨hstores, hdescs⟩
    have hput : postEntry (withPush s (pushOf s n h q)) q (memBytes s h 64) = putEntry (withPush s (pushOf s n h q)) q (memBytes s h 64) :=
      postEntry_now hlen hw hpost
    have hflush := flushPushes_ready (s := withPush s (pushOf s n h q)) (p := pushOf s n h q) (by rw [withPush, hp]; rfl) hready
      (show q < 0xFF40 by omega)
    refine ⟨_, exec_rpush hi hr, pc_advance _ _ _, ?_⟩
    rw [if_pos (pushRoom_of_canPost hp hw hpost), hflush]
    refine ⟨sget_advance_sset _ _ _ _ _ _ _, ?_, fun a => ?_⟩
    · rw [getProd_advance_putSeat]
      refine Eq.trans ?_ (getProd_putEntry (withPush s (pushOf s n h q)) q hlen)
      rw [← hput]
      rfl
    · rw [memByte_advance_putSeat]
      have haddr : prodAddr (withPush s (pushOf s n h q)) q = ringBase s q + 64 * ((getProd s q).toNat % ringDepth s q) := rfl
      have hbyte := memByte_putEntry (withPush s (pushOf s n h q)) q hlen a
      rw [← hput, haddr] at hbyte
      refine hbyte.trans (ite_congr rfl (fun ha => lget_memBytes _ _ _ _ ?_) fun _ => rfl)
      omega

end Sys2Proof.Machine

/-! PROOFS. The life of a kernel: launch, start, timeout, completion and the end of a job (R83 to R90, R364). -/

namespace Sys2Proof.Machine

/-! ### The condition of a coach -/

@[simp] theorem getTrain_setCond (s : State) (c t : Nat) (cond : CoachCond) : getTrain (setCond s c cond) t = getTrain s t := by
  rw [setCond]
  split
  · split <;> rfl
  · rfl

@[simp] theorem getSeat_setCond (s : State) (c n : Nat) (cond : CoachCond) : getSeat (setCond s c cond) n = getSeat s n := by
  rw [setCond]
  split
  · split <;> rfl
  · rfl

@[simp] theorem setCond_drum (s : State) (c : Nat) (cond : CoachCond) : (setCond s c cond).drum = s.drum := by
  rw [setCond]
  split
  · split <;> rfl
  · rfl

/-- A coach that no self-test holds, after the condition of some coach was set. -/
theorem getCoach_setCond {s : State} {c : Nat} (h : (getCoach s c).cond ≠ .drained) (d : Nat) (cond : CoachCond) :
    getCoach (setCond s d cond) c = if c = d then { getCoach s c with cond := cond } else getCoach s c := by
  by_cases hcd : c = d
  · subst hcd
    rw [setCond_of_ne_drained h, getCoach_putCoach_same, if_pos rfl]
  · rw [if_neg hcd, setCond]
    split
    · split <;> rfl
    · exact getCoach_putCoach_ne _ _ hcd

/-- The same after the conditions of several coaches were set. -/
theorem getCoach_foldl_setCond {cond : CoachCond} (hcond : cond ≠ .drained) {c : Nat} : ∀ (cs : List Nat) (s : State),
    (getCoach s c).cond ≠ .drained → getCoach (cs.foldl (fun s d => setCond s d cond) s) c =
      if c ∈ cs then { getCoach s c with cond := cond } else getCoach s c
  | [], s, _ => by simp
  | d :: cs, s, h => by
    have hd := getCoach_setCond h d cond
    by_cases hcd : c = d
    · subst hcd
      rw [if_pos rfl] at hd
      rw [List.foldl_cons, getCoach_foldl_setCond hcond cs _ (by rw [hd]; exact hcond), hd]
      simp
    · rw [if_neg hcd] at hd
      rw [List.foldl_cons, getCoach_foldl_setCond hcond cs _ (by rw [hd]; exact h), hd]
      simp [hcd]

theorem getTrain_foldl_setCond (cond : CoachCond) (t : Nat) (cs : List Nat) (s : State) :
    getTrain (cs.foldl (fun s c => setCond s c cond) s) t = getTrain s t :=
  foldl_keeps (fun s => getTrain s t) _ (fun _ _ => getTrain_setCond _ _ _ _) cs s

/-! ### LAUNCH_BLOCK_START -/

theorem nextBlock_head {u : TrainUnit} {l : Launch} {rest : List Launch} (hs : u.service = none) (hq : u.queue = l :: rest) :
    nextBlock u = some (l, rest) := by
  rw [nextBlock, hs, hq]

/-- R212: beside the service firmware's kernel only an optimizer kernel is next. -/
theorem nextBlock_none {u : TrainUnit} (hs : u.service.isSome = true) (hq : (u.queue.all fun l => !l.ofStep) = true) : nextBlock u = none := by
  obtain ⟨l, hl⟩ := Option.isSome_iff_exists.mp hs
  have hfind : (u.queue.find? fun l => l.ofStep) = none := by
    rw [List.find?_eq_none]
    intro x hx
    simpa using List.all_eq_true.mp hq x hx
  rw [nextBlock, hl]
  dsimp only
  rw [hfind]
  rfl

/-- R83: the train whose next block has been taken off its queue. -/
def dequeued (s : State) (tr : Nat) (rest : List Launch) : State := putTrain s tr { getTrain s tr with queue := rest }

/-- R84, R87: the kernel that a good block starts. -/
def loadingKernel (s : State) (tr : Nat) (l : Launch) : Kernel :=
  { newKernel l (launchCoaches s tr l) with image := memBytes s (lbCodeAddr l) (4096 * lbCodeSize l) }

theorem image_loadingKernel (s : State) (tr : Nat) (rest : List Launch) (l : Launch) :
    (loadingKernel (dequeued s tr rest) tr l).image = memBytes s (lbCodeAddr l) (4096 * lbCodeSize l) := by
  rw [loadingKernel]
  exact memBytes_congr fun _ _ _ => rfl

/-- R84, R87: the state in which the kernel of a good block loads. -/
def loading (s : State) (tr : Nat) (k : Kernel) : State :=
  k.coaches.foldl (fun s c => setCond s c .loading) (putTrain s tr { getTrain s tr with kernel := some k })

theorem exec_launchBlockStart_good {s : State} {tr : Nat} {l : Launch} {rest : List Launch} (hk : (getTrain s tr).kernel = none)
    (hs : (getTrain s tr).service = none) (hq : (getTrain s tr).queue = l :: rest) (hsrc : l.src ≠ .firmware)
    (hend : s.host.ending = none) (hwait : svcWaits s tr = false) (hok : launchOk s tr l = true) :
    exec (.launchBlockStart tr) s = .next (loading (dequeued s tr rest) tr (loadingKernel (dequeued s tr rest) tr l)) := by
  have he : exec (.launchBlockStart tr) s = execLaunchBlockStart tr s := rfl
  have hok' : launchOk (dequeued s tr rest) tr l = true := hok
  rw [he, execLaunchBlockStart]
  dsimp only
  split
  · next hnext =>
    obtain ⟨rfl, rfl⟩ := Prod.mk.inj (Option.some.inj ((nextBlock_head hs hq).symm.trans hnext))
    rw [hend, hwait, if_neg (by simp), if_neg hsrc]
    exact if_pos hok'
  · next hother => exact absurd (nextBlock_head hs hq) (hother l rest hk)

theorem exec_launchBlockStart_waits {s : State} {tr : Nat} (h : s.host.ending.isSome = true ∨ svcWaits s tr = true) :
    exec (.launchBlockStart tr) s = .next s := by
  have he : exec (.launchBlockStart tr) s = execLaunchBlockStart tr s := rfl
  rw [he, execLaunchBlockStart]
  dsimp only
  split
  · exact if_pos h
  · rfl

theorem exec_launchBlockStart_firmware {s : State} {tr : Nat} {l : Launch} {rest : List Launch} (hk : (getTrain s tr).kernel = none)
    (hs : (getTrain s tr).service = none) (hq : (getTrain s tr).queue = l :: rest) (hsrc : l.src = .firmware)
    (hend : s.host.ending = none) (hwait : svcWaits s tr = false) :
    exec (.launchBlockStart tr) s = .next (putTrain (dequeued s tr rest) tr { getTrain (dequeued s tr rest) tr with
      service := some l, launches := (getTrain (dequeued s tr rest) tr).launches + 1 }) := by
  have he : exec (.launchBlockStart tr) s = execLaunchBlockStart tr s := rfl
  rw [he, execLaunchBlockStart]
  dsimp only
  split
  · next hnext =>
    obtain ⟨rfl, rfl⟩ := Prod.mk.inj (Option.some.inj ((nextBlock_head hs hq).symm.trans hnext))
    rw [hend, hwait, if_neg (by simp), if_pos hsrc]
    rfl
  · next hother => exact absurd (nextBlock_head hs hq) (hother l rest hk)

theorem exec_launchBlockStart_none {s : State} {tr : Nat} (h : nextBlock (getTrain s tr) = none) :
    exec (.launchBlockStart tr) s = .next s := by
  have he : exec (.launchBlockStart tr) s = execLaunchBlockStart tr s := rfl
  rw [he, execLaunchBlockStart]
  dsimp only
  split
  · next hnext => exact absurd (h.symm.trans hnext) (Option.some_ne_none _).symm
  · rfl

/-- R83, R84, R87: what a good block's start leaves. -/
theorem loading_result (s : State) (tr : Nat) (rest : List Launch) (k : Kernel) :
    getTrain (loading (dequeued s tr rest) tr k) tr = { getTrain s tr with queue := rest, kernel := some k } ∧
      (∀ c ∈ k.coaches, (getCoach s c).cond ≠ .drained → (getCoach (loading (dequeued s tr rest) tr k) c).cond = .loading) ∧
      (loading (dequeued s tr rest) tr k).mem = s.mem := by
  refine ⟨?_, fun c hc hne => ?_, ?_⟩
  · rw [loading, getTrain_foldl_setCond, getTrain_putTrain, if_pos rfl, dequeued, getTrain_putTrain, if_pos rfl]
  · have hcoach := getCoach_foldl_setCond (cond := .loading) (by decide) k.coaches
      (putTrain (dequeued s tr rest) tr { getTrain (dequeued s tr rest) tr with kernel := some k }) hne
    rw [loading, hcoach, if_pos hc]
  · rw [loading, foldl_mem (fun _ _ => setCond_mem _ _ _), putTrain_mem, dequeued, putTrain_mem]

/-! ### KERNEL_TIMEOUT -/

theorem exec_kernelTimeout {s : State} {tr : Nat} {k k' : Kernel} (hk : (getTrain s tr).kernel = some k) (hp : k.phase = .running)
    (ht : lbTimeout k.launch ≠ 0) (hd : k.startBeat.toNat + lbTimeout k.launch ≤ s.drum.count.toNat)
    (hk' : k' = { k with phase := .stopping, status := 2 }) :
    exec (.kernelTimeout tr) s = .next (stopKernel (putKernel s tr k') k') := by
  have he : exec (.kernelTimeout tr) s = execKernelTimeout tr s := rfl
  rw [he, execKernelTimeout, hk, hk']
  exact if_pos ⟨hp, ht, hd⟩

/-! ### KERNEL_COMPLETE -/

/-- What stopping kernels changes: the seats, coaches and trains only. -/
def CoachesOnly (s t : State) : Prop := ∃ coaches, t = { s with coaches := coaches }

theorem CoachesOnly.refl (s : State) : CoachesOnly s s := ⟨s.coaches, rfl⟩

theorem CoachesOnly.trans {s t u : State} (hst : CoachesOnly s t) (htu : CoachesOnly t u) : CoachesOnly s u := by
  obtain ⟨_, rfl⟩ := hst
  obtain ⟨_, rfl⟩ := htu
  exact ⟨_, rfl⟩

theorem CoachesOnly.foldl {α : Type} {f : State → α → State} (h : ∀ s a, CoachesOnly s (f s a)) (l : List α) (s : State) :
    CoachesOnly s (l.foldl f s) :=
  List.foldlRecOn l f (CoachesOnly.refl s) fun t ht a _ => ht.trans (h t a)

theorem stopKernel_coachesOnly (s : State) (k : Kernel) : CoachesOnly s (stopKernel s k) := by
  rw [stopKernel_eq_foldl]
  exact (CoachesOnly.foldl (fun _ _ => ⟨_, rfl⟩) _ _).trans (CoachesOnly.foldl (fun _ _ => ⟨_, rfl⟩) _ _)

theorem CoachesOnly.complOk {s t : State} (h : CoachesOnly s t) (tr : Nat) (l : Launch) : complOk t tr l = complOk s tr l := by
  obtain ⟨_, rfl⟩ := h
  rfl

theorem CoachesOnly.drum {s t : State} (h : CoachesOnly s t) : t.drum = s.drum := by
  obtain ⟨_, rfl⟩ := h
  rfl

theorem length_completionRecord (k : Kernel) (status : Nat) (b : W64) : (completionRecord k status b).length = 32 := by
  simp [completionRecord]

/-- R88: a seat's launch is reported by the record in memory alone. -/
theorem completeLaunch_seat {s : State} {tr r : Nat} {k : Kernel} (hsrc : k.launch.src = .seat r) (hz : lbCompl k.launch ≠ 0)
    (hok : complOk s tr k.launch = true) (status : Nat) :
    completeLaunch s tr k status = storeBytes s (lbCompl k.launch) (completionRecord k status s.drum.count) false := by
  have hfirm : k.launch.src ≠ .firmware := by simp [hsrc]
  rw [completeLaunch, if_neg (by simp [hz, hok, hfirm]), hsrc]
  rfl

theorem exec_kernelComplete {s : State} {tr : Nat} {k : Kernel} (hk : (getTrain s tr).kernel = some k) (hp : k.phase = .running)
    (hhalt : kernelHalted s k = true) (hquiet : kernelQuiet s k = true) :
    exec (.kernelComplete tr) s = .next (endKernel (completeLaunch (stopKernel s k) tr k k.status) tr k) := by
  have he : exec (.kernelComplete tr) s = execKernelComplete tr s := rfl
  rw [he, execKernelComplete, hk]
  exact if_pos ⟨.inl ⟨hp, hhalt⟩, hquiet⟩

theorem kernel_endKernel (s : State) (tr : Nat) (k : Kernel) : (getTrain (endKernel s tr k) tr).kernel = none := by
  rw [endKernel]
  dsimp only
  rw [getTrain_putTrain, if_pos rfl]

/-! ### KERNELS_STOPPED -/

theorem Tells.coaches {s t : State} (h : Tells s t) : t.coaches = s.coaches := by
  obtain ⟨_, _, _, _, _, _, _, _, _, _, _, _, rfl⟩ := h
  rfl

theorem Tells.ending {s t : State} (h : Tells s t) : t.host.ending = s.host.ending := by
  obtain ⟨_, _, _, _, _, _, _, _, _, _, _, _, rfl⟩ := h
  rfl

/-- R88: reporting a kernel touches no seat, coach or train. -/
theorem reportKernel_coaches (s : State) (src : LaunchSrc) (status : Nat) (result : List Byte) :
    (reportKernel s src status result).coaches = s.coaches := by
  unfold reportKernel
  split
  · exact (postEntry_posts _ _ _).tells.coaches
  · exact (postEntry_posts _ _ _).tells.coaches
  · rfl
  · rfl
  · split
    · split <;> rfl
    · rfl

theorem completeLaunch_coaches (s : State) (t : Nat) (k : Kernel) (status : Nat) : (completeLaunch s t k status).coaches = s.coaches := by
  rw [completeLaunch, reportKernel_coaches]
  split <;> rfl

theorem getTrain_endKernel_ne (s : State) {t u : Nat} (k : Kernel) (h : u ≠ t) : getTrain (endKernel s t k) u = getTrain s u := by
  rw [endKernel]
  dsimp only
  rw [getTrain_putTrain, if_neg h]
  exact foldl_keeps (fun s => getTrain s u) _ (fun _ _ => getTrain_setCond _ _ _ _) _ _

theorem getTrain_completeLaunch (s : State) (t u : Nat) (k : Kernel) (status : Nat) :
    getTrain (completeLaunch s t k status) u = getTrain s u := getTrain_congr (completeLaunch_coaches _ _ _ _) u

/-- R90: a train whose kernel and queue were aborted. -/
theorem getTrain_abortTrain_same (s : State) (t : Nat) :
    (getTrain (abortTrain s t) t).kernel = none ∧ (getTrain (abortTrain s t) t).queue = [] := by
  rw [abortTrain]
  dsimp only
  rw [getTrain_putTrain, if_pos rfl]
  refine ⟨?_, rfl⟩
  dsimp only
  rw [foldl_keeps (fun s => getTrain s t) _ (fun _ _ => getTrain_completeLaunch _ _ _ _ _)]
  split
  · exact kernel_endKernel _ _ _
  · assumption

theorem getTrain_abortTrain_ne (s : State) {t u : Nat} (h : u ≠ t) : getTrain (abortTrain s t) u = getTrain s u := by
  rw [abortTrain]
  dsimp only
  rw [getTrain_putTrain, if_neg h, foldl_keeps (fun s => getTrain s u) _ (fun _ _ => getTrain_completeLaunch _ _ _ _ _)]
  split
  · rw [getTrain_endKernel_ne _ _ h, getTrain_completeLaunch, foldl_keeps (fun s => getTrain s u) _ (fun _ _ => getTrain_putCoach _ _ _ _),
      getTrain_stopKernel]
  · rfl

/-- R90: every train of a list is aborted. -/
theorem getTrain_foldl_abortTrain (u : Nat) : ∀ (l : List Nat) (s : State),
    u ∈ l ∨ (getTrain s u).kernel = none ∧ (getTrain s u).queue = [] →
      (getTrain (l.foldl abortTrain s) u).kernel = none ∧ (getTrain (l.foldl abortTrain s) u).queue = []
  | [], s, h => h.resolve_left List.not_mem_nil
  | t :: l, s, h => by
    refine getTrain_foldl_abortTrain u l (abortTrain s t) ?_
    by_cases hut : u = t
    · subst hut
      exact .inr (getTrain_abortTrain_same s u)
    · rw [getTrain_abortTrain_ne s hut]
      simpa [hut] using h

theorem getTrain_dropQueues (s : State) (q : List Nat) (p : List RingPush) (u : Nat) :
    getTrain { s with coaches := { s.coaches with g4cQueue := q, pushes := p } } u = getTrain s u := rfl

theorem getTrain_abortAllKernels (s : State) {u : Nat} (h : u < 8) :
    (getTrain (abortAllKernels s) u).kernel = none ∧ (getTrain (abortAllKernels s) u).queue = [] := by
  have hall := getTrain_foldl_abortTrain u (rangeFrom 0 8) s (.inl ((mem_rangeFrom 0 8 u).mpr ⟨Nat.zero_le _, by omega⟩))
  rw [abortAllKernels, getTrain_dropQueues]
  exact hall

/-- R364: reporting the end of a job touches no train and no ending. -/
theorem postRecord_keeps (s : State) : (postRecord s).coaches = s.coaches ∧ (postRecord s).host.ending = s.host.ending := by
  have hnotify : ∀ (u : State) (body : List Byte), Tells u (notifyRole (notifyRole u 0 0x81 body) 1 0x81 body) := fun u body =>
    (notifyRole_tells _ _ _ _).trans (notifyRole_tells _ _ _ _)
  rw [postRecord]
  split
  · split
    · exact ⟨rfl, rfl⟩
    · exact ⟨(hnotify _ _).coaches, (hnotify _ _).ending⟩
  · exact ⟨rfl, rfl⟩

theorem exec_kernelsStopped {s : State} {e : Ending} (he : s.host.ending = some e) (hhost : e.byHost = false) :
    exec .kernelsStopped s = .next (postRecord (putHost (abortAllKernels s) { (abortAllKernels s).host with ending := none })) := by
  have hexec : exec .kernelsStopped s = execKernelsStopped s := rfl
  rw [hexec, execKernelsStopped, he]
  dsimp only
  rw [hhost]
  rfl

/-! ### KERNEL_CODE_LOADED -/

/-- R86: seat `i` of a kernel coach before the kernel starts. -/
def seatAtStart (t : Nat) (k : Kernel) (idx c i : Nat) : Seat :=
  if i < lbSeats k.launch then kernelSeat t (16 * c + i) idx k.coaches.length k.launch else Seat.init

theorem getSeat_foldl_putSeat (b : Nat) (f : Nat → Seat) (m : Nat) : ∀ (l : List Nat) (s : State),
    getSeat (l.foldl (fun s i => putSeat s (b + i) (f i)) s) m = if b ≤ m ∧ m - b ∈ l then f (m - b) else getSeat s m
  | [], s => by simp
  | i :: l, s => by
    rw [List.foldl_cons, getSeat_foldl_putSeat b f m l, getSeat_putSeat]
    by_cases hl : b ≤ m ∧ m - b ∈ l
    · rw [if_pos hl, if_pos ⟨hl.1, List.mem_cons_of_mem _ hl.2⟩]
    · rw [if_neg hl]
      by_cases hm : m = b + i
      · rw [if_pos hm, if_pos ⟨by omega, by rw [hm]; simp⟩, hm, Nat.add_sub_cancel_left]
      · rw [if_neg hm, if_neg]
        rintro ⟨hb, hmem⟩
        rcases List.mem_cons.mp hmem with h | h
        · exact hm (by omega)
        · exact hl ⟨hb, h⟩

/-- R86: the coach of a kernel before its seats are set up. -/
def clearedCoach (s : State) (k : Kernel) (c : Nat) : State :=
  putCoach (loadCode s c k) c { getCoach (loadCode s c k) c with dc0 := 0, dc1 := 0, xowner := [], xlane := [], xwait := [] }

theorem setUpCoach_eq (s : State) (t : Nat) (k : Kernel) (idx c : Nat) : setUpCoach s t k idx c =
    (rangeFrom 0 16).foldl (fun s i => putSeat s (16 * c + i) (seatAtStart t k idx c i)) (clearedCoach s k c) := rfl

theorem getSeat_setUpCoach (s : State) (t : Nat) (k : Kernel) (idx c m : Nat) : getSeat (setUpCoach s t k idx c) m =
    if m / 16 = c then seatAtStart t k idx c (m % 16) else getSeat s m := by
  rw [setUpCoach_eq, getSeat_foldl_putSeat]
  by_cases h : m / 16 = c
  · rw [if_pos h, if_pos ⟨by omega, (mem_rangeFrom _ _ _).mpr ⟨Nat.zero_le _, by omega⟩⟩, show m - 16 * c = m % 16 by omega]
  · rw [if_neg h, if_neg fun hm => h (by have := (mem_rangeFrom _ _ _).mp hm.2; omega)]
    rfl

/-- What loading code and setting up coaches leaves as it was: the conditions of the coaches, the trains, the Drum, the Consist. -/
def SetsUp (s t : State) : Prop :=
  (∀ d, (getCoach t d).cond = (getCoach s d).cond) ∧ (∀ u, getTrain t u = getTrain s u) ∧ t.drum = s.drum ∧ t.consist = s.consist

theorem SetsUp.refl (s : State) : SetsUp s s := ⟨fun _ => rfl, fun _ => rfl, rfl, rfl⟩

theorem SetsUp.trans {s t u : State} (hst : SetsUp s t) (htu : SetsUp t u) : SetsUp s u := by
  obtain ⟨hcond, htrain, hdrum, hconsist⟩ := hst
  obtain ⟨hcond', htrain', hdrum', hconsist'⟩ := htu
  exact ⟨fun d => (hcond' d).trans (hcond d), fun u => (htrain' u).trans (htrain u), hdrum'.trans hdrum, hconsist'.trans hconsist⟩

theorem SetsUp.foldl {α : Type} {f : State → α → State} (h : ∀ s a, SetsUp s (f s a)) (l : List α) (s : State) : SetsUp s (l.foldl f s) :=
  List.foldlRecOn l f (SetsUp.refl s) fun t ht a _ => ht.trans (h t a)

theorem storeBytes_setsUp (s : State) (a : Nat) (bs : List Byte) (p : Bool) : SetsUp s (storeBytes s a bs p) :=
  ⟨fun _ => rfl, fun _ => rfl, rfl, rfl⟩

theorem putSeat_setsUp (s : State) (n : Nat) (t : Seat) : SetsUp s (putSeat s n t) := ⟨fun _ => rfl, fun _ => rfl, rfl, rfl⟩

theorem putCoach_setsUp {s : State} {c : Nat} {t : Coach} (h : t.cond = (getCoach s c).cond) : SetsUp s (putCoach s c t) := by
  refine ⟨fun d => ?_, fun _ => rfl, rfl, rfl⟩
  rw [getCoach_putCoach]
  split
  · next hd => rw [h, hd]
  · rfl

theorem clearedCoach_setsUp (s : State) (k : Kernel) (c : Nat) : SetsUp s (clearedCoach s k c) := by
  have hload : SetsUp s (loadCode s c k) := storeBytes_setsUp _ _ _ _
  rw [clearedCoach]
  refine hload.trans (putCoach_setsUp ?_)
  rfl

theorem setUpCoach_setsUp (s : State) (t : Nat) (k : Kernel) (idx c : Nat) : SetsUp s (setUpCoach s t k idx c) := by
  rw [setUpCoach_eq]
  exact (clearedCoach_setsUp s k c).trans (SetsUp.foldl (fun _ _ => putSeat_setsUp _ _ _) _ _)

/-- R86: a coach that is set up has its seats at their start, whatever other coaches are set up as well. -/
theorem getSeat_foldl_setUpCoach (t : Nat) (k : Kernel) (m : Nat) : ∀ (l : List (Nat × Nat)) (s : State),
    (m / 16 ∈ l.map Prod.snd ∨ ∃ idx, getSeat s m = seatAtStart t k idx (m / 16) (m % 16)) →
      ∃ idx, getSeat (l.foldl (fun s p => setUpCoach s t k p.1 p.2) s) m = seatAtStart t k idx (m / 16) (m % 16)
  | [], s, h => h.resolve_left List.not_mem_nil
  | (idx, c) :: l, s, h => by
    rw [List.foldl_cons]
    refine getSeat_foldl_setUpCoach t k m l (setUpCoach s t k idx c) ?_
    have hseat := getSeat_setUpCoach s t k idx c m
    by_cases hc : m / 16 = c
    · rw [if_pos hc, ← hc] at hseat
      exact .inr ⟨idx, hc ▸ hseat⟩
    · rw [if_neg hc] at hseat
      rw [hseat]
      simpa [hc] using h

/-- R87: the coaches of a kernel loaded and set up. -/
def kernelSetUp (s : State) (t : Nat) (k : Kernel) : State :=
  ((rangeFrom 0 k.coaches.length).zip k.coaches).foldl (fun s p => setUpCoach s t k p.1 p.2)
    ((kernelRakes k).foldl (fun s r => stageCode s r k) s)

theorem kernelSetUp_setsUp (s : State) (t : Nat) (k : Kernel) : SetsUp s (kernelSetUp s t k) :=
  (SetsUp.foldl (fun _ _ => storeBytes_setsUp _ _ _ _) _ _).trans (SetsUp.foldl (fun _ _ => setUpCoach_setsUp _ _ _ _ _) _ _)

theorem snd_zip_rangeFrom {α : Type} : ∀ (l : List α) (a : Nat), ((rangeFrom a l.length).zip l).map Prod.snd = l
  | [], _ => rfl
  | x :: l, a => by rw [List.length_cons, rangeFrom, List.zip_cons_cons, List.map_cons, snd_zip_rangeFrom l (a + 1)]

theorem getSeat_kernelSetUp (s : State) (t : Nat) {k : Kernel} {c i : Nat} (hc : c ∈ k.coaches) (hi : i < 16) :
    ∃ idx, getSeat (kernelSetUp s t k) (16 * c + i) = seatAtStart t k idx c i := by
  have h := getSeat_foldl_setUpCoach t k (16 * c + i) ((rangeFrom 0 k.coaches.length).zip k.coaches)
    ((kernelRakes k).foldl (fun s r => stageCode s r k) s)
  rw [snd_zip_rangeFrom, show (16 * c + i) / 16 = c by omega, show (16 * c + i) % 16 = i by omega] at h
  exact h (.inl hc)

/-! The registers of a seat at the start (R86). -/

theorem sreg_kernelSeat (t n idx count : Nat) (l : Launch) : (kernelSeat t n idx count l).sreg =
    (sset (sset (sset (sset (sset (sset Seat.init 0 (BitVec.ofNat 64 n) false) 1 (BitVec.ofNat 64 idx) false) 2 (BitVec.ofNat 64 t) false)
      3 (BitVec.ofNat 64 (lbArg l)) false) 4 (BitVec.ofNat 64 (lbTag l)) false) 6 (BitVec.ofNat 64 count) false).sreg := rfl

theorem sget_kernelSeat_number (t n idx count : Nat) (l : Launch) : sget (kernelSeat t n idx count l) 0 = (BitVec.ofNat 64 n, false) := by
  rw [sget, sreg_kernelSeat, ← sget]
  rw [sget_sset_ne _ _ _ (by decide), sget_sset_ne _ _ _ (by decide), sget_sset_ne _ _ _ (by decide), sget_sset_ne _ _ _ (by decide),
    sget_sset_ne _ _ _ (by decide), sget_sset_same]

theorem sget_kernelSeat_train (t n idx count : Nat) (l : Launch) : sget (kernelSeat t n idx count l) 2 = (BitVec.ofNat 64 t, false) := by
  rw [sget, sreg_kernelSeat, ← sget]
  rw [sget_sset_ne _ _ _ (by decide), sget_sset_ne _ _ _ (by decide), sget_sset_ne _ _ _ (by decide), sget_sset_same]

theorem pc_kernelSeat (t n idx count : Nat) (l : Launch) : (kernelSeat t n idx count l).pc = 0 := rfl

/-! The start itself (R86, R87). -/

/-- What the start of a kernel says of a seat: state, PC and scalar registers. -/
def seatView (s : State) (n : Nat) : SeatSt × Nat × (Nat → W64 × Bool) := ((getSeat s n).st, (getSeat s n).pc, sget (getSeat s n))

/-- A seat made ready with the start beat in S5. -/
def startView (b : W64) (v : SeatSt × Nat × (Nat → W64 × Bool)) : SeatSt × Nat × (Nat → W64 × Bool) :=
  (.ready, v.2.1, Function.update v.2.2 5 (b, false))

theorem startView_startView (b : W64) (v : SeatSt × Nat × (Nat → W64 × Bool)) : startView b (startView b v) = startView b v := by
  simp [startView]

/-- R86: one seat made ready with the start beat in S5. -/
def startSeat (b : W64) (s : State) (n : Nat) : State := putSeat s n { sset (getSeat s n) 5 b false with st := .ready }

theorem seatView_startSeat (b : W64) (s : State) (n m : Nat) :
    seatView (startSeat b s n) m = if m = n then startView b (seatView s m) else seatView s m := by
  rw [seatView, startSeat, getSeat_putSeat]
  by_cases h : m = n
  · subst h
    rw [if_pos rfl, if_pos rfl, startView, seatView]
    refine Prod.ext rfl (Prod.ext rfl (funext fun r => ?_))
    exact (kget_kset _ _ _ _ _).trans (Function.update_apply _ _ _ _).symm
  · rw [if_neg h, if_neg h, seatView]

theorem startKernel_eq {s : State} (t : Nat) {k : Kernel} (hlate : k.late = 0) {u : State}
    (hu : u = (kernelSeats k).foldl (startSeat s.drum.count) (k.coaches.foldl (fun s c => setCond s c .running) s)) :
    startKernel s t k = putTrain u t { getTrain u t with
      kernel := some { k with phase := .running, startBeat := s.drum.count }, launches := (getTrain u t).launches + 1 } := by
  subst hu
  rw [startKernel]
  dsimp only
  rw [if_pos hlate]
  rfl

theorem exec_kernelCodeLoaded {s : State} {tr : Nat} {k : Kernel} (hk : (getTrain s tr).kernel = some k) (hp : k.phase = .loading)
    (hend : s.host.ending = none) (hg : s.consist.cfg.drum.g4cMode = false) (hflags : lbFlags k.launch % 2 = 0) :
    exec (.kernelCodeLoaded tr) s = .next (startKernel (kernelSetUp s tr k) tr k) := by
  have he : exec (.kernelCodeLoaded tr) s = execKernelCodeLoaded tr s := rfl
  obtain ⟨_, _, _, hconsist⟩ := kernelSetUp_setsUp s tr k
  rw [he, execKernelCodeLoaded, hk]
  dsimp only
  rw [if_neg (by simp [hp, hend]), ← kernelSetUp, hconsist, hg, if_neg Bool.false_ne_true, if_pos hflags]

theorem mem_kernelSeats {k : Kernel} {c i : Nat} (hc : c ∈ k.coaches) (hi : i < lbSeats k.launch) : 16 * c + i ∈ kernelSeats k :=
  List.mem_flatMap.mpr ⟨c, hc, (mem_rangeFrom _ _ _).mpr ⟨Nat.le_add_right _ _, by omega⟩⟩

/-- R86, R87: a kernel that starts when its code is loaded. -/
theorem startKernel_result {s : State} {tr c i : Nat} {k : Kernel} (hlate : k.late = 0) (hc : c ∈ k.coaches)
    (hcond : (getCoach s c).cond ≠ .drained) (hi : i < lbSeats k.launch) :
    (getTrain (startKernel s tr k) tr).kernel = some { k with phase := .running, startBeat := s.drum.count } ∧
      (getCoach (startKernel s tr k) c).cond = .running ∧
      seatView (startKernel s tr k) (16 * c + i) = startView s.drum.count (seatView s (16 * c + i)) := by
  rw [startKernel_eq tr hlate rfl]
  refine ⟨by rw [getTrain_putTrain, if_pos rfl], ?_, ?_⟩
  · rw [getCoach_putTrain, foldl_keeps (fun s => getCoach s c) (startSeat s.drum.count) fun _ _ => getCoach_putSeat _ _ _ _,
      getCoach_foldl_setCond (by decide) _ _ hcond, if_pos hc]
  · have hseats := foldl_changes seatView (seatView_startSeat s.drum.count) (startView_startView _) (16 * c + i) (kernelSeats k)
      (k.coaches.foldl (fun s c => setCond s c .running) s)
    rw [if_pos (mem_kernelSeats hc hi)] at hseats
    refine hseats.trans (congrArg _ ?_)
    rw [seatView, foldl_keeps (fun s => getSeat s (16 * c + i)) _ fun _ _ => getSeat_setCond _ _ _ _, ← seatView]

/-- Settles O20, by what each event of a kernel's life gives. -/
theorem kernelLifecycle : Obligations.KernelLifecycle := by
  refine ⟨fun s tr l rest hk hs hq hsrc hend hwait hok => ?_, fun s tr l rest hk hq => ⟨exec_launchBlockStart_waits, fun hsrc hs hend hwait => ?_⟩,
    fun s tr hs hq => exec_launchBlockStart_none (nextBlock_none hs hq), fun s tr c i k hk hp hend hg hcond hflags hlate _ hc hi hi' => ?_,
    fun s tr k hk hp ht hd => ?_, fun s tr k r q hk hp hhalt hquiet hsrc hz hok hq => ?_, fun s e he hhost => ?_⟩
  case refine_1 =>
    obtain ⟨htrain, hcoaches, hmem⟩ := loading_result s tr rest (loadingKernel (dequeued s tr rest) tr l)
    exact ⟨_, _, exec_launchBlockStart_good hk hs hq hsrc hend hwait hok, by rw [htrain], by rw [htrain], rfl, rfl,
      image_loadingKernel s tr rest l, hcoaches, hmem⟩
  case refine_2 =>
    refine ⟨_, exec_launchBlockStart_firmware hk hs hq hsrc hend hwait, ?_⟩
    simp [getTrain_putTrain, dequeued, hk]
  case refine_3 =>
    obtain ⟨hkept, _, hdrum, _⟩ := kernelSetUp_setsUp s tr k
    obtain ⟨idx, hidx⟩ := getSeat_kernelSetUp s tr hc (Nat.lt_of_lt_of_le hi hi')
    obtain ⟨htrain, hcoach, hseat⟩ := startKernel_result (s := kernelSetUp s tr k) (tr := tr) hlate hc (by rw [hkept]; exact hcond) hi
    have hstart : getSeat (kernelSetUp s tr k) (16 * c + i) = kernelSeat tr (16 * c + i) idx k.coaches.length k.launch := by
      rw [hidx, seatAtStart, if_pos hi]
    rw [seatView, seatView, startView, hstart, hdrum] at hseat
    obtain ⟨hst, hrest⟩ := Prod.mk.inj hseat
    obtain ⟨hpc, hregs⟩ := Prod.mk.inj hrest
    refine ⟨_, exec_kernelCodeLoaded hk hp hend hg hflags, by rw [htrain, hdrum], hcoach, hst, hpc, ?_, ?_, ?_⟩ <;> rw [hregs] <;> dsimp only
    · rw [Function.update_of_ne (by decide), sget_kernelSeat_number]
    · rw [Function.update_of_ne (by decide), sget_kernelSeat_train]
    · rw [Function.update_self]
  case refine_4 =>
    refine ⟨_, exec_kernelTimeout hk hp ht hd rfl, ?_, fun n hn => ?_, ?_⟩
    · rw [getTrain_stopKernel, putKernel, getTrain_putTrain, if_pos rfl]
    · rw [getSeat_stopKernel]
      exact congrArg Seat.st (if_pos hn)
    · rw [stopKernel_mem, putKernel_mem]
  case refine_5 =>
    have hstop := stopKernel_coachesOnly s k
    refine ⟨_, exec_kernelComplete hk hp hhalt hquiet, kernel_endKernel _ _ _, ?_⟩
    rw [memByte_congr (endKernel_mem _ _ _), completeLaunch_seat hsrc hz ((hstop.complOk tr k.launch).trans hok), hstop.drum,
      memByte_storeBytes, length_completionRecord, if_pos ⟨by omega, by omega⟩, Nat.add_sub_cancel_left]
  case refine_6 =>
    have htrains : ∀ tr, tr < 8 → (getTrain (abortAllKernels s) tr).kernel = none ∧ (getTrain (abortAllKernels s) tr).queue = [] :=
      fun _ => getTrain_abortAllKernels s
    have hexec := exec_kernelsStopped he hhost
    generalize abortAllKernels s = u at htrains hexec
    obtain ⟨hcoaches, hending⟩ := postRecord_keeps (putHost u { u.host with ending := none })
    exact ⟨_, hexec, hending, fun tr htr => by rw [getTrain_congr hcoaches]; exact htrains tr htr⟩

end Sys2Proof.Machine

/-! PROOFS. Slices of the self-test (R93, R466, R468 to R473). -/

namespace Sys2Proof.Machine

/-! ### BIST_REQ_GO and BIST_BUDGET_EXPIRY -/

theorem exec_bistReqGo {s : State} (k : Nat) (hup : s.mainDom = .up) :
    exec (.bistReqGo k) s = .next (regPut (regPut s rBistReq 9 0 k) rBistReq 63 63 1) := if_pos hup

theorem exec_bistBudgetExpiry {s : State} {sl : Slice} (h : s.bist.run = some sl) :
    exec .bistBudgetExpiry s = .next { s with bist := { s.bist with run := some { sl with stopped := true } } } := by
  have he : exec .bistBudgetExpiry s = execBistBudgetExpiry s := rfl
  rw [he, execBistBudgetExpiry, h]

/-! ### BIST_SLICE_START -/

theorem sliceCoach_even (c : Nat) : sliceCoach (2 * c) = some c := by
  rw [sliceCoach, if_pos (by omega), show 2 * c / 2 = c by omega]

/-- R468: the slice that starts on a coach at the operating point. -/
def startedSlice (s : State) (c : Nat) : Slice :=
  { slice := 2 * c, set := patternSet (regBits s rPcapStatus 63 60) (regBits s rBistCtl 31 16), start := s.drum.beats,
    saved := some (getCoach s c).cond, restore := true, stopped := false }

theorem exec_bistSliceStart {s : State} {c : Nat} (hup : s.mainDom = .up) (hrun : s.bist.run = none) (hurgent : s.bist.urgent = [])
    (hreq : regBits s rBistReq 63 63 = 0) (hstatus : regBits s rBistStatus 63 54 = 2 * c) (hservice : coachInService s c = true)
    (hwaits : sliceWaits s (2 * c) = false) :
    exec .bistSliceStart s = .next (drainCoach { s with bist := { s.bist with run := some (startedSlice s c) } } c) := by
  have he : exec .bistSliceStart s = execBistSliceStart s := rfl
  have hdue : dueSlice s = 2 * c := by
    rw [dueSlice, hurgent]
    dsimp only
    rw [hreq, if_neg (by decide), hstatus]
  have habsent : sliceAbsent s (2 * c) = false := by rw [sliceAbsent, sliceCoach_even]; simp [hservice]
  have hscheduled : (!(s.bist.urgent != []) && !(!(s.bist.urgent != []) && regBits s rBistReq 63 63 == 1)) = true := by
    simp [hurgent, hreq]
  rw [he, execBistSliceStart, if_pos hup, bistStart]
  dsimp only
  rw [hdue, habsent, hwaits, if_neg (by simp [hrun]), if_neg Bool.false_ne_true, if_neg Bool.false_ne_true, sliceCoach_even]
  dsimp only
  rw [if_pos hscheduled]
  rfl

/-! ### The result of a slice -/

/-- R473: BIST_LAST shows the result and the slice. -/
theorem regBits_bistLast (s : State) (sl : Slice) (result : Nat) (complete : Bool) :
    regBits (bistLast s sl result complete) rBistLast 63 62 = result % 4 ∧
      regBits (bistLast s sl result complete) rBistLast 57 48 = sl.slice % 1024 := by
  rw [bistLast]
  refine ⟨?_, ?_⟩
  · rw [regBits_regPut_apart _ _ _ (by decide) (by decide) (by decide), regBits_regPut_apart _ _ _ (by decide) (by decide) (by decide),
      regBits_regPut_apart _ _ _ (by decide) (by decide) (by decide), regBits_regPut_apart _ _ _ (by decide) (by decide) (by decide),
      regBits_regPut_same _ _ _ (by decide) (by decide)]
    rfl
  · rw [regBits_regPut_apart _ _ _ (by decide) (by decide) (by decide), regBits_regPut_same _ _ _ (by decide) (by decide)]
    rfl

theorem regGet_bistLast_ne (s : State) (sl : Slice) (result : Nat) (complete : Bool) {a : Nat} (h : a ≠ rBistLast) :
    regGet (bistLast s sl result complete) a = regGet s a := by
  rw [bistLast, regGet_regPut_ne _ _ _ _ h, regGet_regPut_ne _ _ _ _ h, regGet_regPut_ne _ _ _ _ h, regGet_regPut_ne _ _ _ _ h,
    regGet_regPut_ne _ _ _ _ h]

/-- What the schedule's step and a result leave as they were. -/
theorem bistLast_keeps (s : State) (sl : Slice) (result : Nat) (complete : Bool) :
    (bistLast s sl result complete).bist = s.bist ∧ (bistLast s sl result complete).coaches = s.coaches := by
  simp [bistLast]

/-- R466: the state whose schedule moves on: as it was, or with a sweep counted. -/
theorem nextSlice_eq (s : State) : ∃ u, (u = s ∨ u = regAddSat s rBistStatus 47 32 1) ∧
    nextSlice s = regPut { u with bist := { u.bist with aborts := 0, waits := 0 } } rBistStatus 63 54 ((regBits s rBistStatus 63 54 + 1) % 1024) := by
  by_cases hn : regBits s rBistStatus 63 54 = 1023
  · exact ⟨_, .inr rfl, by simp only [nextSlice, if_pos hn]⟩
  · exact ⟨_, .inl rfl, by simp only [nextSlice, if_neg hn]⟩

theorem nextSlice_keeps (s : State) : (nextSlice s).bist.run = s.bist.run ∧ (nextSlice s).coaches = s.coaches := by
  obtain ⟨u, hu, h⟩ := nextSlice_eq s
  rw [h]
  rcases hu with rfl | rfl <;> simp [regAddSat]

theorem regGet_bist (s : State) (b : Bist) (a : Nat) : regGet { s with bist := b } a = regGet s a := rfl

theorem regGet_nextSlice_ne (s : State) {a : Nat} (h : a ≠ rBistStatus) : regGet (nextSlice s) a = regGet s a := by
  obtain ⟨u, hu, hn⟩ := nextSlice_eq s
  rw [hn, regGet_regPut_ne _ _ _ _ h, regGet_bist]
  rcases hu with rfl | rfl
  · rfl
  · exact regGet_regAddSat_ne s _ _ _ h

/-- R466: the schedule's slice is the next one, modulo 1024. -/
theorem regBits_nextSlice (s : State) : regBits (nextSlice s) rBistStatus 63 54 = (regBits s rBistStatus 63 54 + 1) % 1024 := by
  rw [nextSlice, regBits_regPut_same _ _ _ (by decide) (by decide)]
  exact Nat.mod_mod _ _

/-! ### Giving the coach back -/

theorem restoreCoach_coachesOnly (s : State) (c : Nat) (cond : CoachCond) : CoachesOnly s (restoreCoach s c cond) := by
  rw [restoreCoach]
  refine CoachesOnly.trans ⟨_, rfl⟩ (CoachesOnly.foldl (fun u n => ?_) _ _)
  dsimp only
  split
  · split
    · exact ⟨_, rfl⟩
    · exact CoachesOnly.refl u
  · exact CoachesOnly.refl u

theorem giveBack_coachesOnly (s : State) (sl : Slice) : CoachesOnly s (giveBack s sl) := by
  rw [giveBack]
  split
  · split
    · exact restoreCoach_coachesOnly _ _ _
    · exact ⟨_, rfl⟩
  · exact CoachesOnly.refl s

theorem getCoach_restoreCoach (s : State) (c : Nat) (cond : CoachCond) : (getCoach (restoreCoach s c cond) c).cond = cond := by
  rw [restoreCoach, foldl_keeps (fun s => getCoach s c) _ fun u n => ?_, getCoach_putCoach_same]
  dsimp only
  split
  · split <;> rfl
  · rfl

/-- R93, R469, R472: the state at a slice's end, its coach given back and the signature shown. -/
def sliceOver (s : State) (sl : Slice) (sig : W64) : State :=
  let u := giveBack { s with bist := { s.bist with run := none } } sl
  if (sliceCoach sl.slice).isSome then regSet u rBistSig sig else u

theorem sliceOver_run (s : State) (sl : Slice) (sig : W64) : (sliceOver s sl sig).bist.run = none := by
  obtain ⟨_, h⟩ := giveBack_coachesOnly { s with bist := { s.bist with run := none } } sl
  rw [sliceOver, h]
  dsimp only
  split <;> rfl

theorem regGet_sliceOver_ne (s : State) (sl : Slice) (sig : W64) {a : Nat} (ha : a ≠ rBistSig) : regGet (sliceOver s sl sig) a = regGet s a := by
  obtain ⟨_, h⟩ := giveBack_coachesOnly { s with bist := { s.bist with run := none } } sl
  rw [sliceOver, h]
  dsimp only
  split
  · exact regGet_regSet_ne _ _ ha
  · rfl

/-! ### BIST_SLICE_END -/

theorem exec_bistSliceEnd_waits {s : State} {sl : Slice} (h : s.bist.run = some sl) (hd : sliceDrained s sl = false) (l : List W64) (x y : W64) :
    exec (.bistSliceEnd l x y) s = .next s := by
  have he : exec (.bistSliceEnd l x y) s = execBistSliceEnd l x y s := rfl
  rw [he, execBistSliceEnd, h]
  exact if_pos (by rw [hd]; rfl)

/-- R469: the signature of the responses taken. -/
def sliceSig (sl : Slice) (l : List W64) : W64 :=
  let applied := l.take (1024 * 2 ^ sl.set)
  if sliceComplete sl applied then misrCount (misrRun applied) applied.length else misrRun applied

theorem exec_bistSliceEnd {s : State} {sl : Slice} (h : s.bist.run = some sl) (hd : sliceDrained s sl = true) (l : List W64) (x y : W64)
    {complete : Bool} (hc : complete = sliceComplete sl (l.take (1024 * 2 ^ sl.set))) {r : Nat}
    (hr : r = sliceResult sl complete (x == y) (sliceSig sl l)) :
    exec (.bistSliceEnd l x y) s = .next (afterSlice (bistLast (sliceOver s sl (sliceSig sl l)) sl r complete) sl r) := by
  subst hr hc
  have he : exec (.bistSliceEnd l x y) s = execBistSliceEnd l x y s := rfl
  rw [he, execBistSliceEnd, h]
  exact if_neg (by rw [hd]; decide)

/-! ### RESULT stays ABORTED

The message of a stopped slice counts in registers of its source. A slice of any number is allowed here, so one of them may be BIST_LAST
itself; still nothing that the accounting writes there clears the two bits of RESULT. -/

/-- R473: BIST_LAST shows ABORTED. -/
def LastAborted (s : State) : Prop := (regGet s rBistLast).getLsbD 62 = true ∧ (regGet s rBistLast).getLsbD 63 = true

theorem lastAborted_iff (s : State) : LastAborted s ↔ regBits s rBistLast 63 62 = 3 := by
  rw [LastAborted, regBits, bits, BitVec.getLsbD, BitVec.getLsbD, Nat.testBit_eq_decide_div_mod_eq, Nat.testBit_eq_decide_div_mod_eq]
  simp only [decide_eq_true_eq]
  have := (regGet s rBistLast).isLt
  omega

theorem LastAborted.congr {s t : State} (h : LastAborted s) (hregs : t.regs = s.regs) : LastAborted t := by
  rwa [LastAborted, regGet_congr hregs]

/-- A field put whose bits in the place of RESULT are set. -/
theorem LastAborted.regPut {s : State} (h : LastAborted s) (a : Nat) {hi lo x : Nat} (hle : lo ≤ hi) (h64 : hi < 64)
    (hx : a = rBistLast → ∀ k, 62 ≤ k → k ≤ hi → lo ≤ k → x.testBit (k - lo) = true) : LastAborted (regPut s a hi lo x) := by
  by_cases ha : a = rBistLast
  · subst ha
    rw [LastAborted, regGet_regPut_same, getLsbD_setBits _ _ _ hle h64, getLsbD_setBits _ _ _ hle h64]
    refine ⟨?_, ?_⟩
    · split
      case isTrue hk => exact hx rfl 62 (by decide) hk.2 hk.1
      case isFalse => exact h.1
    · split
      case isTrue hk => exact hx rfl 63 (by decide) hk.2 hk.1
      case isFalse => exact h.2
  · rwa [LastAborted, regGet_regPut_ne _ _ _ _ (Ne.symm ha)]

theorem LastAborted.regPut_one {s : State} (h : LastAborted s) (a : Nat) {k : Nat} (hk : k < 64) : LastAborted (Machine.regPut s a k k 1) :=
  h.regPut a (Nat.le_refl k) hk fun _ j _ hj hj' => by rw [show j - k = 0 by omega]; rfl

theorem LastAborted.regAddSat_low {s : State} (h : LastAborted s) (a : Nat) {hi lo : Nat} (n : Nat) (hle : lo ≤ hi) (hhi : hi < 62) :
    LastAborted (regAddSat s a hi lo n) :=
  h.regPut a hle (by omega) fun _ _ h1 h2 _ => absurd h1 (by omega)

/-- A counter in bits 63 to 48 only rises, and does not pass all ones. -/
theorem LastAborted.regAddSat_high {s : State} (h : LastAborted s) (a : Nat) : LastAborted (regAddSat s a 63 48 1) := by
  refine h.regPut a (by decide) (by decide) fun ha k h1 h2 _ => ?_
  subst ha
  rw [lastAborted_iff, regBits, bits] at h
  rw [regBits, bits, Nat.testBit_eq_decide_div_mod_eq, decide_eq_true_eq]
  have hk : k = 62 ∨ k = 63 := by omega
  have := (regGet s rBistLast).isLt
  rcases hk with rfl | rfl <;> omega

theorem LastAborted.setSticky {s : State} (h : LastAborted s) (src : Nat) : LastAborted (setSticky s src) :=
  h.regPut_one _ (Nat.mod_lt _ (by decide))

theorem LastAborted.accountMsg {s : State} (h : LastAborted s) (src : Nat) {cls : Nat} (escd : Bool) (hcls : cls < 3) :
    LastAborted (accountMsg s src cls escd) := by
  simp only [Machine.accountMsg, if_neg (show ¬cls = 3 by omega)]
  have hcount : ∀ t, LastAborted t → LastAborted (if cls = 1 then regAddSat t (rSrc src) 63 48 1 else regAddSat t (rSrc src) 47 40 1) :=
    fun t ht => by
      split
      · exact ht.regAddSat_high _
      · exact ht.regAddSat_low _ _ (by decide) (by decide)
  have hescd : ∀ t, LastAborted t → LastAborted (if escd = true then regAddSat t (rSrc src) 31 16 1 else t) := fun t ht => by
    split
    · exact ht.regAddSat_low _ _ (by decide) (by decide)
    · exact ht
  have hunacked : ∀ t, LastAborted t →
      LastAborted (if reactionOf t src cls = 0 then t else Machine.regPut t (rSrc src) (35 + cls) (35 + cls) 1) := fun t ht => by
    split
    · exact ht
    · exact ht.regPut_one _ (by omega)
  exact hunacked _ (hescd _ (hcount _ (h.setSticky src)))

/-- R458: a message of class C escalates to class U at most. -/
theorem escalate_minor_lt (s : State) (src : Nat) : (escalate s src 1).1 < 3 := by
  rw [escalate]
  split <;> decide

theorem LastAborted.raise {s : State} (h : LastAborted s) (src kind addr : Nat) : LastAborted (raise s src kind 1 addr) := by
  have hsrc : (newMsg s src kind 1 addr).source = src := rfl
  have hcls : (newMsg s src kind 1 addr).cls = 1 := rfl
  rw [Machine.raise]
  generalize newMsg s src kind 1 addr = m at hsrc hcls ⊢
  simp only [raiseMsg, hsrc, hcls]
  split
  · exact h
  · split
    · split
      · exact h
      · exact (h.accountMsg src _ (escalate_minor_lt s src)).regAddSat_low _ _ (by decide) (by decide)
    · split
      · split
        · refine LastAborted.congr (s := holdErr (Machine.setSticky s src) src 1) ?_ rfl
          rw [holdErr]
          split
          · exact h.setSticky src
          · exact h.setSticky src
        · exact h.setSticky src
      · exact h

theorem LastAborted.nextSlice {s : State} (h : LastAborted s) : LastAborted (nextSlice s) := by
  rwa [LastAborted, regGet_nextSlice_ne s (by decide)]

theorem raise_run (s : State) (src kind addr : Nat) : (raise s src kind 1 addr).bist.run = s.bist.run := by
  obtain ⟨⟨_, _, h⟩, -⟩ := raise_accounts s src kind addr
  rw [h]

/-- R473: a stopped slice is counted, and taken again or given up. -/
theorem afterSlice_aborted {s : State} (sl : Slice) (hrun : s.bist.run = none) (h : LastAborted s) :
    (afterSlice s sl 3).bist.run = none ∧ LastAborted (afterSlice s sl 3) := by
  have hraised : ∀ src kind addr, (raise s src kind 1 addr).bist.run = none := fun src kind addr => (raise_run s src kind addr).trans hrun
  have hsweep : ∀ u : State, u.bist.run = none → LastAborted u → (nextSlice u).bist.run = none ∧ LastAborted (nextSlice u) :=
    fun u hu hl => ⟨(nextSlice_keeps u).1.trans hu, hl.nextSlice⟩
  have hcount : ∀ u : State, LastAborted u → LastAborted (regAddSat u rBistStatus 31 16 1) := fun u hl =>
    hl.regAddSat_low _ _ (by decide) (by decide)
  simp only [afterSlice, if_neg (show ¬(3 : Nat) = 1 by decide), if_neg (show ¬(3 : Nat) = 2 by decide)]
  split
  case isTrue hasked =>
    have hother : (sl.slice == regBits s rBistStatus 63 54) = false := by simpa using hasked
    simp only [hother, Bool.false_eq_true, if_false]
    split
    · exact ⟨hraised _ _ _, (hcount _ (h.raise _ _ _)).congr rfl⟩
    · exact ⟨hraised _ _ _, (h.raise _ _ _).congr rfl⟩
  case isFalse =>
    split
    · exact hsweep _ (hraised _ _ _) (hcount _ (h.raise _ _ _))
    · exact ⟨hraised _ _ _, (h.raise _ _ _).congr rfl⟩

/-! ### The obligation -/

theorem bistReqGo_holds (s : State) (k : Nat) (hup : s.mainDom = .up) (hk : k < 1024) :
    ∃ t, exec (.bistReqGo k) s = .next t ∧ regBits t rBistReq 63 63 = 1 ∧ regBits t rBistReq 9 0 = k ∧
      (∀ a, a ≠ rBistReq → regGet t a = regGet s a) ∧ t.mem = s.mem := by
  refine ⟨_, exec_bistReqGo k hup, ?_, ?_, fun a ha => ?_, by simp⟩
  · exact regBits_regPut_same _ _ _ (by decide) (by decide)
  · rw [regBits_regPut_apart _ _ _ (by decide) (by decide) (by decide), regBits_regPut_same _ _ _ (by decide) (by decide)]
    exact Nat.mod_eq_of_lt hk
  · rw [regGet_regPut_ne _ _ _ _ ha, regGet_regPut_ne _ _ _ _ ha]

/-- R473: with every pattern answered as expected the result is PASS. -/
theorem sliceResult_pass {sl : Slice} {c : Nat} {l : List W64} (hsl : sl.slice = 2 * c) (hstop : sl.stopped = false)
    (hlen : l.length = 1024 * 2 ^ sl.set) (hsig : misrCount (misrRun l) l.length = Config.bistExpect sl.set) :
    sliceComplete sl (l.take (1024 * 2 ^ sl.set)) = true ∧ sliceSig sl l = misrCount (misrRun l) l.length ∧
      ∀ m : W64, sliceResult sl true (m == m) (sliceSig sl l) = 1 := by
  have htake : l.take (1024 * 2 ^ sl.set) = l := by rw [← hlen]; exact List.take_length
  have hcomplete : sliceComplete sl l = true := by simp [sliceComplete, hstop, hlen]
  have hshown : sliceSig sl l = misrCount (misrRun l) l.length := by
    rw [sliceSig, htake]
    exact if_pos hcomplete
  refine ⟨by rw [htake]; exact hcomplete, hshown, fun m => ?_⟩
  rw [hshown, hsig]
  simp [sliceResult]

/-- R473: a slice stopped, or of a coach with a pattern unanswered, is not complete. -/
theorem sliceComplete_short {sl : Slice} {l : List W64} (h : sl.stopped = true ∨ (sl.slice % 2 = 0 ∧ l.length < 1024 * 2 ^ sl.set)) :
    sliceComplete sl (l.take (1024 * 2 ^ sl.set)) = false := by
  rcases h with hstop | ⟨heven, hlen⟩
  · simp [sliceComplete, hstop]
  · rw [List.take_of_length_le (by omega), sliceComplete, sliceCoach, if_pos heven,
      show (l.length == 1024 * 2 ^ sl.set) = false from beq_eq_false_iff_ne.mpr (by omega)]
    simp

theorem bistSliceEnd_aborted (s : State) (sl : Slice) (l : List W64) (x y : W64) (h : s.bist.run = some sl) (hd : sliceDrained s sl = true)
    (hshort : sl.stopped = true ∨ (sl.slice % 2 = 0 ∧ l.length < 1024 * 2 ^ sl.set)) :
    ∃ t, exec (.bistSliceEnd l x y) s = .next t ∧ t.bist.run = none ∧ regBits t rBistLast 63 62 = 3 := by
  have hresult : 3 = sliceResult sl false (x == y) (sliceSig sl l) := by simp [sliceResult]
  refine ⟨_, exec_bistSliceEnd h hd l x y (sliceComplete_short hshort).symm hresult, ?_⟩
  rw [← lastAborted_iff]
  refine afterSlice_aborted sl ?_ ?_
  · rw [(bistLast_keeps _ _ _ _).1]
    exact sliceOver_run s sl _
  · rw [lastAborted_iff, (regBits_bistLast _ _ _ _).1]

/-- R466: a slice of the schedule that passed moves it on. -/
theorem afterSlice_pass {s : State} {sl : Slice} (h : sl.slice = regBits s rBistStatus 63 54) : afterSlice s sl 1 = nextSlice s := by
  rw [afterSlice]
  simp only [if_true, h, beq_self_eq_true]

theorem bistSliceEnd_passes (s : State) (sl : Slice) (c : Nat) (l : List W64) (m sig : W64) (h : s.bist.run = some sl) (hsl : sl.slice = 2 * c)
    (hstop : sl.stopped = false) (hsaved : sl.saved.isSome = true) (hd : sliceDrained s sl = true) (hrestore : sl.restore = true)
    (hlen : l.length = 1024 * 2 ^ sl.set) (hsig : sig = misrCount (misrRun l) l.length) (hexpect : sig = Config.bistExpect sl.set)
    (hsched : sl.slice = regBits s rBistStatus 63 54) :
    ∃ t, exec (.bistSliceEnd l m m) s = .next t ∧ t.bist.run = none ∧ regBits t rBistLast 63 62 = 1 ∧
      regBits t rBistLast 57 48 = sl.slice ∧ regGet t rBistSig = sig ∧ some (getCoach t c).cond = sl.saved ∧
      regBits t rBistStatus 63 54 = (sl.slice + 1) % 1024 := by
  obtain ⟨hcomplete, hshown, hpass⟩ := sliceResult_pass hsl hstop hlen (hsig.symm.trans hexpect)
  obtain ⟨cond, hcond⟩ := Option.isSome_iff_exists.mp hsaved
  have hcoach : sliceCoach sl.slice = some c := by rw [hsl, sliceCoach_even]
  have hover : sliceOver s sl sig = regSet (restoreCoach { s with bist := { s.bist with run := none } } c cond) rBistSig sig := by
    rw [sliceOver, giveBack, hcoach, hcond]
    simp only [hrestore, if_true, Option.isSome_some]
  rw [← hsig] at hshown
  have hlt : sl.slice < 1024 := hsched ▸ bits_lt _ _ _
  have hstatus : ∀ r complete, sl.slice = regBits (bistLast (sliceOver s sl sig) sl r complete) rBistStatus 63 54 := fun r complete => by
    rw [regBits, regGet_bistLast_ne _ _ _ _ (by decide), regGet_sliceOver_ne _ _ _ (by decide)]
    exact hsched
  refine ⟨_, exec_bistSliceEnd h hd l m m hcomplete.symm (hpass m).symm, ?_⟩
  rw [hshown, afterSlice_pass (hstatus 1 true)]
  obtain ⟨hrun, hcoaches⟩ := nextSlice_keeps (bistLast (sliceOver s sl sig) sl 1 true)
  obtain ⟨hlast, hnumber⟩ := regBits_bistLast (sliceOver s sl sig) sl 1 true
  refine ⟨?_, ?_, ?_, ?_, ?_, ?_⟩
  · rw [hrun, (bistLast_keeps _ _ _ _).1]
    exact sliceOver_run s sl sig
  · rw [regBits, regGet_nextSlice_ne _ (by decide)]
    exact hlast
  · rw [regBits, regGet_nextSlice_ne _ (by decide)]
    exact hnumber.trans (Nat.mod_eq_of_lt hlt)
  · rw [regGet_nextSlice_ne _ (by decide), regGet_bistLast_ne _ _ _ _ (by decide), hover, regGet_regSet_same]
  · have hback : (sliceOver s sl sig).coaches = (restoreCoach { s with bist := { s.bist with run := none } } c cond).coaches := by
      simp [hover]
    rw [hcond, getCoach_congr (hcoaches.trans ((bistLast_keeps _ _ _ _).2.trans hback)), getCoach_restoreCoach]
  · rw [regBits_nextSlice, ← hstatus 1 true]

/-- R93, R468: only the coach under test is drained. -/
theorem bistSliceStart_holds (s : State) (c : Nat) (hup : s.mainDom = .up) (hrun : s.bist.run = none) (hurgent : s.bist.urgent = [])
    (hreq : regBits s rBistReq 63 63 = 0) (hstatus : regBits s rBistStatus 63 54 = 2 * c) (hservice : coachInService s c = true)
    (hwaits : sliceWaits s (2 * c) = false) :
    ∃ t sl, exec .bistSliceStart s = .next t ∧ t.bist.run = some sl ∧ sl.slice = 2 * c ∧ sl.saved = some (getCoach s c).cond ∧
      sl.set = patternSet (regBits s rPcapStatus 63 60) (regBits s rBistCtl 31 16) ∧
      getCoach t c = { getCoach s c with cond := .drained } ∧ (∀ d, d ≠ c → getCoach t d = getCoach s d) ∧ t.mem = s.mem :=
  ⟨_, startedSlice s c, exec_bistSliceStart hup hrun hurgent hreq hstatus hservice hwaits, rfl, rfl, rfl, rfl, getCoach_putCoach_same _ _ _,
    fun _ hd => getCoach_putCoach_ne _ _ hd, rfl⟩

/-- Settles O24, clause by clause: the PASS clause through the schedule's step, the ABORTED clause by the two bits of RESULT, which nothing
that the slice's message writes can clear. -/
theorem selfTestSlices : Obligations.SelfTestSlices := by
  unfold Obligations.SelfTestSlices
  refine ⟨bistReqGo_holds, bistSliceStart_holds, fun s sl h => exec_bistBudgetExpiry h, ?_, fun s sl l x y h hd => exec_bistSliceEnd_waits h hd l x y,
    bistSliceEnd_aborted⟩
  intro s sl c l m sig h hsl hstop hsaved hd hrestore _ hlen hsig hexpect hsched
  exact bistSliceEnd_passes s sl c l m sig h hsl hstop hsaved hd hrestore hlen hsig hexpect hsched

end Sys2Proof.Machine

/-! PROOFS. The scalar and branch groups of the coach instructions (R105 to R108, Tables 4.5 and 4.6). -/

namespace Sys2Proof.Machine

/-! ### Values -/

theorem eq_ofInt_of_toInt {n : Nat} {x : BitVec n} {z : Int} (h : x.toInt = z) : x = BitVec.ofInt n z := by
  rw [← h, BitVec.ofInt_toInt]

theorem eq_ofNat_of_toNat {x : W64} {k : Nat} (h : x.toNat = k) : x = BitVec.ofNat 64 k := by
  rw [← h, BitVec.ofNat_toNat, BitVec.setWidth_eq]

/-- R106: a left shift multiplies, the product cut to the register. -/
theorem shl_eq_ofNat (x : W64) (k : Nat) : x <<< k = BitVec.ofNat 64 (x.toNat * 2 ^ k) := by
  apply BitVec.eq_of_toNat_eq
  rw [BitVec.toNat_shiftLeft, BitVec.toNat_ofNat, Nat.shiftLeft_eq]

theorem ushr_eq_ofNat (x : W64) (k : Nat) : x >>> k = BitVec.ofNat 64 (x.toNat / 2 ^ k) :=
  eq_ofNat_of_toNat (by rw [BitVec.toNat_ushiftRight, Nat.shiftRight_eq_div_pow])

/-- R106: an arithmetic right shift divides, rounding down. -/
theorem sshr_eq_ofInt {n : Nat} (x : BitVec n) (k : Nat) : x.sshiftRight k = BitVec.ofInt n (x.toInt / 2 ^ k) :=
  eq_ofInt_of_toInt (by rw [BitVec.toInt_sshiftRight, Int.shiftRight_eq_div_pow]; norm_cast)

/-- R106: the signed minimum as a choice between the operands. -/
theorem smin_eq_ofInt (x y : W64) : (if x.slt y then x else y) = BitVec.ofInt 64 (min x.toInt y.toInt) := by
  split
  · next h => exact eq_ofInt_of_toInt (min_eq_left (BitVec.slt_iff_toInt_lt.mp h).le).symm
  · next h => exact eq_ofInt_of_toInt (min_eq_right (not_lt.mp fun hlt => h (BitVec.slt_iff_toInt_lt.mpr hlt))).symm

theorem smax_eq_ofInt (x y : W64) : (if x.slt y then y else x) = BitVec.ofInt 64 (max x.toInt y.toInt) := by
  split
  · next h => exact eq_ofInt_of_toInt (max_eq_right (BitVec.slt_iff_toInt_lt.mp h).le).symm
  · next h => exact eq_ofInt_of_toInt (max_eq_left (not_lt.mp fun hlt => h (BitVec.slt_iff_toInt_lt.mpr hlt))).symm

theorem umin_eq_ofNat (x y : W64) : (if x.ult y then x else y) = BitVec.ofNat 64 (min x.toNat y.toNat) := by
  split
  · next h => exact eq_ofNat_of_toNat (min_eq_left (BitVec.ult_iff_toNat_lt.mp h).le).symm
  · next h => exact eq_ofNat_of_toNat (min_eq_right (not_lt.mp fun hlt => h (BitVec.ult_iff_toNat_lt.mpr hlt))).symm

theorem umax_eq_ofNat (x y : W64) : (if x.ult y then y else x) = BitVec.ofNat 64 (max x.toNat y.toNat) := by
  split
  · next h => exact eq_ofNat_of_toNat (max_eq_right (BitVec.ult_iff_toNat_lt.mp h).le).symm
  · next h => exact eq_ofNat_of_toNat (max_eq_left (not_lt.mp fun hlt => h (BitVec.ult_iff_toNat_lt.mpr hlt))).symm

theorem mul_eq_ofNat (x y : W64) : x * y = BitVec.ofNat 64 (x.toNat * y.toNat) := by
  apply BitVec.eq_of_toNat_eq
  rw [BitVec.toNat_mul, BitVec.toNat_ofNat]

/-- R107: the signed quotient rounds towards zero; −2^63 ÷ −1 wraps to −2^63 on both sides. -/
theorem sdiv_eq_ofInt (x y : W64) : x.sdiv y = BitVec.ofInt 64 (x.toInt.tdiv y.toInt) := by
  apply BitVec.eq_of_toInt_eq
  rw [BitVec.toInt_sdiv, BitVec.toInt_ofInt]

theorem divS_eq (x y : W64) : divS x y = if y = 0 then BitVec.allOnes 64 else BitVec.ofInt 64 (x.toInt.tdiv y.toInt) := by
  rw [divS, sdiv_eq_ofInt]

theorem divU_eq (x y : W64) : divU x y = if y = 0 then BitVec.allOnes 64 else BitVec.ofNat 64 (x.toNat / y.toNat) := by
  rw [divU, eq_ofNat_of_toNat (BitVec.toNat_udiv (x := x) (y := y))]

theorem remS_eq (x y : W64) : remS x y = if y = 0 then x else BitVec.ofInt 64 (x.toInt.tmod y.toInt) := by
  rw [remS, eq_ofInt_of_toInt (BitVec.toInt_srem x y)]

theorem remU_eq (x y : W64) : remU x y = if y = 0 then x else BitVec.ofNat 64 (x.toNat % y.toNat) := by
  rw [remU, eq_ofNat_of_toNat (BitVec.toNat_umod (x := x) (y := y))]

/-! ### Results of an instruction without further registers -/

section
variable {s u : State} {n : Nat} {w : Fields} {form : Form} {body : Seat → Res}

/-- R99: a taken branch goes on from what it wrote at its target. -/
theorem issueNext_jump {p : Nat} (h : issuesWord s n w form = true) (hb : body (getSeat s n) = .jump u p) :
    issueNext s n w form true [] body = .next (advance u n p) := by
  rw [issueNext, issue_acts h, hb]
  rfl

/-- An instruction that issues and goes on from what it wrote. -/
theorem issueNext_goesOn (h : issuesWord s n w form = true) (hb : body (getSeat s n) = .done u) :
    issueNext s n w form true [] body = .next (advance u n (nextPc (getSeat s n))) :=
  issueNext_done h rfl (noneAwaits_nil s n) hb

end

/-! ### Table 4.5 -/

/-- R105, R106: what every instruction of two scalar sources gives. -/
theorem givesSSS_of_scalar2 {op : Nat} {i : Nat → Fields → Instr} {f : W64 → W64 → W64}
    (hexec : ∀ n w s, exec (i n w) s = scalar2 op s n w f) : givesSSS op i f := by
  intro s n w h
  rw [hexec]
  exact ⟨_, issueNext_goesOn h rfl, wroteS_sset _ _ _ _ _ _⟩

theorem givesSSS_congr {op : Nat} {i : Nat → Fields → Instr} {f g : W64 → W64 → W64} (hfg : ∀ x y, g x y = f x y)
    (h : givesSSS op i g) : givesSSS op i f := by
  rwa [← funext₂ hfg]

/-- R105, R106: what every instruction of one scalar source and an immediate gives. -/
theorem givesSSI_of_scalar1 {i : Nat → Fields → Instr} {form : Form} {f : W64 → Fields → W64}
    (hexec : ∀ n w s, exec (i n w) s = scalar1 s n w form fun x => f x w) : givesSSI i form f := by
  intro s n w h
  rw [hexec]
  exact ⟨_, issueNext_goesOn h rfl, wroteS_sset _ _ _ _ _ _⟩

theorem givesSSI_congr {i : Nat → Fields → Instr} {form : Form} {f g : W64 → Fields → W64} (hfg : ∀ x w, g x w = f x w)
    (h : givesSSI i form g) : givesSSI i form f := by
  rwa [← funext₂ hfg]

/-- Settles O1: each instruction is `scalar2` of its operation. -/
theorem scalarRegisterResults : Obligations.ScalarRegisterResults := by
  refine ⟨?add, ?sub, ?and, ?or, ?xor, ?shl, ?shr, ?sra, ?slt, ?sltu, ?min, ?max, ?minu, ?maxu, ?mul, ?mulh, ?mulhu⟩
  case add | sub | and | or | xor | mulh | mulhu => exact givesSSS_of_scalar2 fun _ _ _ => rfl
  case shl => exact givesSSS_congr (fun x y => shl_eq_ofNat x (y.toNat % 64)) (givesSSS_of_scalar2 fun _ _ _ => rfl)
  case shr => exact givesSSS_congr (fun x y => ushr_eq_ofNat x (y.toNat % 64)) (givesSSS_of_scalar2 fun _ _ _ => rfl)
  case sra => exact givesSSS_congr (fun x y => sshr_eq_ofInt x (y.toNat % 64)) (givesSSS_of_scalar2 fun _ _ _ => rfl)
  case slt => exact givesSSS_congr (fun x y => if_congr (BitVec.slt_iff_toInt_lt (x := x) (y := y)) rfl rfl) (givesSSS_of_scalar2 fun _ _ _ => rfl)
  case sltu => exact givesSSS_congr (fun x y => if_congr (BitVec.ult_iff_toNat_lt (x := x) (y := y)) rfl rfl) (givesSSS_of_scalar2 fun _ _ _ => rfl)
  case min => exact givesSSS_congr smin_eq_ofInt (givesSSS_of_scalar2 fun _ _ _ => rfl)
  case max => exact givesSSS_congr smax_eq_ofInt (givesSSS_of_scalar2 fun _ _ _ => rfl)
  case minu => exact givesSSS_congr umin_eq_ofNat (givesSSS_of_scalar2 fun _ _ _ => rfl)
  case maxu => exact givesSSS_congr umax_eq_ofNat (givesSSS_of_scalar2 fun _ _ _ => rfl)
  case mul => exact givesSSS_congr mul_eq_ofNat (givesSSS_of_scalar2 fun _ _ _ => rfl)

/-- Settles O2, by the value of each quotient and remainder. -/
theorem divisionResults : Obligations.DivisionResults :=
  ⟨givesSSS_congr divS_eq (givesSSS_of_scalar2 fun _ _ _ => rfl), givesSSS_congr divU_eq (givesSSS_of_scalar2 fun _ _ _ => rfl),
    givesSSS_congr remS_eq (givesSSS_of_scalar2 fun _ _ _ => rfl), givesSSS_congr remU_eq (givesSSS_of_scalar2 fun _ _ _ => rfl)⟩

/-- R106: the bits of a register after MOVK replaced the 16 from 16k on. -/
theorem getLsbD_movk (v : W64) (imm : BitVec 24) (i : Nat) :
    (setBits v (16 * (imm.toNat / 2 ^ 22) + 15) (16 * (imm.toNat / 2 ^ 22)) (imm.toNat % 2 ^ 16)).getLsbD i =
      if i / 16 = imm.toNat / 2 ^ 22 then imm.getLsbD (i % 16) else v.getLsbD i := by
  have hk : imm.toNat / 2 ^ 22 < 4 := by have := imm.isLt; omega
  generalize imm.toNat / 2 ^ 22 = k at hk
  rw [getLsbD_setBits v _ i (by omega) (by omega)]
  by_cases hik : i / 16 = k
  · have hlow : i - 16 * k = i % 16 := by omega
    rw [if_pos (by omega), if_pos hik, hlow, Nat.testBit_mod_two_pow, decide_eq_true (by omega), Bool.true_and]
    rfl
  · rw [if_neg (by omega), if_neg hik]

/-- Settles O3: the immediate forms are `scalar1` of their operation, MOVI, MOVK and SEL write Sd on their own. -/
theorem scalarImmediateResults : Obligations.ScalarImmediateResults := by
  refine ⟨?addi, ?andi, ?ori, ?xori, ?shli, ?shri, ?srai, fun s n w h => ?movi, fun s n w h => ?movk, fun s n w h => ?sel⟩
  case addi | andi | ori | xori => exact givesSSI_of_scalar1 fun _ _ _ => rfl
  case shli => exact givesSSI_congr (fun x w => shl_eq_ofNat x (shImm w)) (givesSSI_of_scalar1 fun _ _ _ => rfl)
  case shri => exact givesSSI_congr (fun x w => ushr_eq_ofNat x (shImm w)) (givesSSI_of_scalar1 fun _ _ _ => rfl)
  case srai => exact givesSSI_congr (fun x w => sshr_eq_ofInt x (shImm w)) (givesSSI_of_scalar1 fun _ _ _ => rfl)
  case movi => exact ⟨_, issueNext_goesOn h rfl, wroteS_sset _ _ _ _ _ _⟩
  case movk => exact ⟨_, _, issueNext_goesOn h rfl, wroteS_sset _ _ _ _ _ _, fun i _ => getLsbD_movk _ _ i⟩
  case sel =>
    refine ⟨_, issueNext_goesOn h rfl, ?_⟩
    by_cases hc : (sget (getSeat s n) w.c.toNat).1 = 0
    · simpa only [hc, ne_eq, not_true_eq_false, if_true, if_false] using wroteS_sset _ _ _ _ _ _
    · simpa only [hc, ne_eq, not_false_eq_true, if_true, if_false] using wroteS_sset _ _ _ _ _ _

/-! ### Table 4.6 -/

/-- R108: a seat that branches on a condition and changes nothing else. -/
theorem issueNext_branch {s : State} {n p : Nat} {w : Fields} {form : Form} {body : Seat → Res} (c : Bool)
    (h : issuesWord s n w form = true) (hb : body (getSeat s n) = if c then .jump s p else .done s) :
    ∃ t, issueNext s n w form true [] body = .next t ∧ wentTo s t n (if c then p else nextPc (getSeat s n)) := by
  cases c with
  | true => exact ⟨_, issueNext_jump h hb, wentTo_advance _ _ _⟩
  | false => exact ⟨_, issueNext_goesOn h hb, wentTo_advance _ _ _⟩

theorem branchesSS_of_branch2 {op : Nat} {i : Nat → Fields → Instr} {c : W64 → W64 → Bool}
    (hexec : ∀ n w s, exec (i n w) s = branch2 op s n w c) : branchesSS op i c := by
  intro s n w h ha hb
  rw [hexec]
  refine issueNext_branch _ h ?_
  dsimp only
  rw [ha, hb]
  rfl

theorem branchesSS_congr {op : Nat} {i : Nat → Fields → Instr} {c d : W64 → W64 → Bool} (hcd : ∀ x y, d x y = c x y)
    (h : branchesSS op i d) : branchesSS op i c := by
  rwa [← funext₂ hcd]

theorem branchesM_of_branchM {op : Nat} {i : Nat → Fields → Instr} {c : W64 → Bool}
    (hexec : ∀ n w s, exec (i n w) s = branchM op s n w c) : branchesM op i c := by
  intro s n w h
  rw [hexec]
  exact issueNext_branch _ h rfl

theorem branchesM_congr {op : Nat} {i : Nat → Fields → Instr} {c d : W64 → Bool} (hcd : ∀ m, d m = c m) (h : branchesM op i d) :
    branchesM op i c := by
  rwa [← funext hcd]

theorem bne_eq_decide_ne (x y : W64) : (x != y) = decide (x ≠ y) := by rw [bne, beq_eq_decide, decide_not]

/-- R108: a signed comparison that fails is the reverse one. -/
theorem not_slt_eq_decide {n : Nat} (x y : BitVec n) : (!x.slt y) = decide (y.toInt ≤ x.toInt) :=
  BitVec.sle_eq_not_slt.symm.trans BitVec.sle_eq_decide

theorem not_ult_eq_decide {n : Nat} (x y : BitVec n) : (!x.ult y) = decide (y.toNat ≤ x.toNat) :=
  (BitVec.ule_eq_not_ult y x).symm.trans BitVec.ule_eq_decide

/-- Settles O4: the conditional branches are `branch2` and `branchM` of their condition; JAL, JALR and LOOP write Sd and branch. -/
theorem branchOutcomes : Obligations.BranchOutcomes := by
  refine ⟨?beq, ?bne, ?blt, ?bge, ?bltu, ?bgeu, ?bmany, ?bmnone, fun s n w h => ?jal, fun s n w target h ht halign hp => ?jalr,
    fun s n w h hp => ?loop⟩
  case beq | bne => exact branchesSS_of_branch2 fun _ _ _ => rfl
  case blt => exact branchesSS_congr (fun _ _ => BitVec.slt_eq_decide) (branchesSS_of_branch2 fun _ _ _ => rfl)
  case bge => exact branchesSS_congr not_slt_eq_decide (branchesSS_of_branch2 fun _ _ _ => rfl)
  case bltu => exact branchesSS_congr (fun _ _ => BitVec.ult_eq_decide) (branchesSS_of_branch2 fun _ _ _ => rfl)
  case bgeu => exact branchesSS_congr not_ult_eq_decide (branchesSS_of_branch2 fun _ _ _ => rfl)
  case bmany => exact branchesM_congr (fun m => bne_eq_decide_ne m 0) (branchesM_of_branchM fun _ _ _ => rfl)
  case bmnone => exact branchesM_congr (fun m => beq_eq_decide m 0) (branchesM_of_branchM fun _ _ _ => rfl)
  case jal => exact ⟨_, issueNext_jump h rfl, wroteS_sset _ _ _ _ _ _⟩
  case jalr =>
    refine ⟨_, issueNext_jump (p := target) h ?_, wroteS_sset _ _ _ _ _ _⟩
    dsimp only
    rw [wImm, ← ht, hp, halign]
    rfl
  case loop =>
    by_cases hone : (sget (getSeat s n) w.d.toNat).1 = 1
    · rw [if_pos hone]
      refine ⟨_, issueNext_goesOn h ?_, wroteS_sset _ _ _ _ _ _⟩
      dsimp only
      rw [hp, if_neg (not_not.mpr (sub_eq_zero.mpr hone))]
      rfl
    · rw [if_neg hone]
      refine ⟨_, issueNext_jump h ?_, wroteS_sset _ _ _ _ _ _⟩
      dsimp only
      rw [hp, if_pos (sub_ne_zero.mpr hone)]
      rfl

end Sys2Proof.Machine

/-! PROOFS. The vector, lane and mask groups of the coach instructions (R101 to R105, R109 to R112, R131, R149, R150). -/

namespace Sys2Proof.Machine

/-! ### Ranges and elements -/

theorem rangeFrom_eq_range' (n : Nat) : ∀ a, rangeFrom a n = List.range' a n := by
  induction n with
  | zero => intro a; rfl
  | succ n ih => intro a; rw [rangeFrom, ih, List.range'_succ]

theorem rangeFrom_zero_eq_range (n : Nat) : rangeFrom 0 n = List.range n := by
  rw [rangeFrom_eq_range', List.range_eq_range']

theorem elemOf_lt (x : W32) (wd e : Nat) : elemOf x wd e < 2 ^ wd := Nat.mod_lt _ (Nat.two_pow_pos _)

theorem fmtWidth_pos (f : Fmt) : 0 < fmtWidth f := by cases f <;> decide

/-! ### Results of an instruction with further registers -/

/-- The bits of a mask of one lane. -/
theorem getLsbD_one_shiftLeft {i k : Nat} (hi : i < 64) : (1#64 <<< k).getLsbD i = decide (i = k) := by
  rw [← BitVec.twoPow_eq, BitVec.getLsbD_twoPow, ← Bool.decide_and, decide_eq_decide]
  omega

/-- R105: a write of one lane, as a masked write that selects it alone. -/
theorem wroteV_vset (s : State) (n d : Nat) {k : Nat} (hk : k < 64) (x : W32) (p : Bool) :
    wroteV s (advance (putSeat s n (vset (getSeat s n) d k x p)) n (nextPc (getSeat s n))) n d (1#64 <<< k) fun _ => (x, p) := by
  have hsel : ∀ i, i < 64 → ((1#64 <<< k).getLsbD i = true ↔ i = k) := fun i hi => by
    rw [getLsbD_one_shiftLeft hi, decide_eq_true_eq]
  refine ⟨onlySeat_advance _ _ _ _, ?_, fun i hi => ?_, fun v i hv hi => ?_, ?_, ?_, ?_⟩ <;> rw [getSeat_advance]
  · by_cases hik : i = k
    · rw [if_pos ((hsel i hi).mpr hik), hik]
      exact vget_vset_same _ _ _ _ _
    · rw [if_neg fun h => hik ((hsel i hi).mp h)]
      exact vget_vset_ne _ _ _ hk hi fun h => hik h.2
  · exact vget_vset_ne _ _ _ hk hi fun h => hv h.1
  · exact fun _ => rfl
  · exact fun _ => rfl
  · exact ⟨rfl, rfl, rfl, rfl, rfl, rfl, rfl⟩

/-! ### Elementwise instructions -/

/-- R101, R103, R105, R109: what every elementwise instruction gives. -/
theorem givesV_of_vecElem {i : Nat → Fields → Instr} {form : Form} {useB useD : Bool}
    {f : State → Seat → Fields → Nat → Nat → Nat → Nat → Nat}
    (hexec : ∀ n w s, exec (i n w) s = vecElem s n w form useB useD fun t a b d j => f s t w a b d j) : givesV i form useB useD f := by
  intro s n w h
  rw [hexec]
  exact ⟨_, issueNext_goesOn h rfl, wroteV_vmap _ _ _ _ _⟩

/-- Only the results for elements of the format's width matter. -/
theorem givesV_congr {i : Nat → Fields → Instr} {form : Form} {useB useD : Bool}
    {f g : State → Seat → Fields → Nat → Nat → Nat → Nat → Nat}
    (hfg : ∀ s t w a b d j, a < 2 ^ fmtWidth (wFmt w) → g s t w a b d j = f s t w a b d j) (h : givesV i form useB useD g) :
    givesV i form useB useD f := by
  intro s n w hi
  obtain ⟨t, ht, hw⟩ := h s n w hi
  refine ⟨t, ht, wroteV_congr (fun l _ => ?_) hw⟩
  simp only [hfg _ _ _ _ _ _ _ (elemOf_lt _ _ _)]

/-- R109: flipping the sign bit adds it, the carry cut. -/
theorem xor_two_pow_eq_add_mod {a k : Nat} (ha : a < 2 ^ (k + 1)) : a ^^^ 2 ^ k = (a + 2 ^ k) % 2 ^ (k + 1) := by
  refine Nat.eq_of_testBit_eq fun j => ?_
  rw [Nat.testBit_xor, Nat.testBit_two_pow, Nat.testBit_mod_two_pow, Nat.add_comm a]
  rcases Nat.lt_trichotomy j k with hlt | rfl | hgt
  · rw [Nat.testBit_two_pow_add_gt hlt, decide_eq_false (by omega), decide_eq_true (by omega), Bool.xor_false, Bool.true_and]
  · rw [Nat.testBit_two_pow_add_eq, decide_eq_true rfl, decide_eq_true (by omega), Bool.xor_true, Bool.true_and]
  · have hbig : a < 2 ^ j := ha.trans_le (Nat.pow_le_pow_right (by omega) hgt)
    rw [Nat.testBit_lt_two_pow hbig, decide_eq_false (by omega), decide_eq_false (by omega)]
    rfl

/-- Settles O5: each instruction is `vecElem` of its operation on elements. -/
theorem vectorElementResults : Obligations.VectorElementResults := by
  refine ⟨?vadd, ?vsub, ?vmul, ?vfma, ?vfnma, ?vmin, ?vmax, ?vabs, ?vneg, ?vdiv, ?vsqrt, ?viadd, ?visub, ?vimul, ?vand, ?vor, ?vxor,
    ?vshl, ?vshr, ?vsra⟩
  case vadd | vsub | vmul | vfma | vfnma | vmin | vmax | vabs | vdiv | vsqrt | viadd | vimul | vand | vor | vxor | vshl | vshr =>
    exact givesV_of_vecElem fun _ _ _ => rfl
  case vneg =>
    refine givesV_congr (g := fun _ _ w a _ _ _ => a ^^^ 2 ^ (fmtWidth (wFmt w) - 1)) (fun _ _ w a _ _ _ ha => ?_)
      (givesV_of_vecElem fun _ _ _ => rfl)
    have hwd : fmtWidth (wFmt w) = fmtWidth (wFmt w) - 1 + 1 := by have := fmtWidth_pos (wFmt w); omega
    rw [hwd] at ha
    exact (xor_two_pow_eq_add_mod ha).trans (by rw [← hwd])
  case visub =>
    exact givesV_congr (g := fun _ _ w a b _ _ => a + 2 ^ fmtWidth (wFmt w) - b) (fun _ _ w a b _ _ _ => by rw [Nat.add_comm])
      (givesV_of_vecElem fun _ _ _ => rfl)
  case vsra =>
    exact givesV_congr (g := fun _ _ _ a b _ _ => ((BitVec.ofNat 32 a).sshiftRight (b % 32)).toNat)
      (fun _ _ _ a b _ _ _ => congrArg BitVec.toNat (sshr_eq_ofInt _ _)) (givesV_of_vecElem fun _ _ _ => rfl)

/-! ### Lanes -/

/-- R109, R111: what VDOT needs before it acts. -/
theorem issuesDot_iff {s : State} {n : Nat} {w : Fields} : issuesDot s n w = true ↔
    issuesWord s n w { op := 0x35, d := .v, a := if fmtIsMx (wFmt w) then .v else .sv, b := if fmtIsMx (wFmt w) then .v else .sv,
                       c := .mask, fmts := [0, 1, 2, 3, 4, 5, 6, 7, 8, 9], rounds := true, imm := 0x3FF } = true ∧
      (scaleOk (wFmt w) (w.imm.toNat / 32 % 32) && scaleOk (wFmt w) (w.imm.toNat % 32)) = true ∧
      noneAwaits s n (scaleRegs (wFmt w) (w.imm.toNat / 32 % 32) ++ scaleRegs (wFmt w) (w.imm.toNat % 32)) = true := by
  simp only [issuesDot, noneAwaits, Bool.and_eq_true, and_assoc]

/-- R112: the count of VIOTA from the low bits of Sa. -/
theorem setWidth_add_ofNat (x : W64) (i : Nat) : x.setWidth 32 + BitVec.ofNat 32 i = BitVec.ofNat 32 (x.toNat + i) := by
  apply BitVec.eq_of_toNat_eq
  rw [BitVec.toNat_add, BitVec.toNat_setWidth, BitVec.toNat_ofNat, BitVec.toNat_ofNat, ← Nat.add_mod]

/-- R112: the four terms of a VIDOT lane. -/
theorem foldl_add_four (p : Nat → Int) (z : Int) : (rangeFrom 0 4).foldl (fun acc e => acc + p e) z = z + p 0 + p 1 + p 2 + p 3 := rfl

/-- Settles O6, by the lanes that each instruction writes. -/
theorem laneResults : Obligations.LaneResults := by
  refine ⟨fun s n w h => ?vdot, fun s n w h => ?vidot, fun s n w h => ?vsel, fun s n w h => ?vmovs, fun s n w h => ?smovv,
    fun s n w h => ?viota, fun s n w h => ?vperm, fun s n w h => ?rand⟩
  case vdot =>
    obtain ⟨hword, hscales, hawait⟩ := issuesDot_iff.mp h
    exact ⟨_, issueNext_done hword hscales hawait rfl, wroteV_vmap _ _ _ _ _⟩
  case vsel | vperm | rand => exact ⟨_, issueNext_goesOn h rfl, wroteV_vmap _ _ _ _ _⟩
  case vidot => exact ⟨_, issueNext_goesOn h rfl, wroteV_congr (fun i _ => by dsimp only; rw [foldl_add_four]) (wroteV_vmap _ _ _ _ _)⟩
  case vmovs => exact ⟨_, issueNext_goesOn h rfl, wroteV_vset _ _ _ (Nat.mod_lt _ (by decide)) _ _⟩
  case smovv => exact ⟨_, issueNext_goesOn h rfl, wroteS_sset _ _ _ _ _ _⟩
  case viota =>
    exact ⟨_, issueNext_goesOn h rfl, wroteV_congr (fun i _ => by rw [setWidth_add_ofNat]) (wroteV_vmap _ _ _ _ _)⟩

/-! ### Masks -/

/-- One bit of a mask set or cleared, when selected: the step of `maskWrite`. -/
def maskStep (sel : W64) (f : Nat → Bool) (m : W64) (i : Nat) : W64 :=
  if sel.getLsbD i then (if f i then m ||| (1#64 <<< i) else m &&& ~~~(1#64 <<< i)) else m

theorem maskWrite_eq_foldl (old sel : W64) (f : Nat → Bool) : maskWrite old sel f = (rangeFrom 0 64).foldl (maskStep sel f) old := rfl

theorem getLsbD_maskStep (sel : W64) (f : Nat → Bool) (m : W64) (k : Nat) {i : Nat} (hi : i < 64) :
    (maskStep sel f m k).getLsbD i = if i = k ∧ sel.getLsbD i = true then f i else m.getLsbD i := by
  have hbit := getLsbD_one_shiftLeft (k := k) hi
  rw [maskStep]
  by_cases hik : i = k
  · subst hik
    rw [decide_eq_true rfl] at hbit
    by_cases hs : sel.getLsbD i = true
    · rw [if_pos hs, if_pos (c := i = i ∧ _) ⟨rfl, hs⟩]
      by_cases hf : f i = true
      · rw [if_pos hf, BitVec.getLsbD_or, hbit, Bool.or_true, hf]
      · rw [if_neg hf, BitVec.getLsbD_and, BitVec.getLsbD_not, hbit, Bool.not_true, Bool.and_false, Bool.and_false,
          Bool.eq_false_of_not_eq_true hf]
    · rw [if_neg hs, if_neg fun h => hs h.2]
  · rw [decide_eq_false hik] at hbit
    rw [if_neg (c := i = k ∧ _) fun h => hik h.1]
    split
    · split
      · rw [BitVec.getLsbD_or, hbit, Bool.or_false]
      · rw [BitVec.getLsbD_and, BitVec.getLsbD_not, hbit, Bool.not_false, Bool.and_true, decide_eq_true hi, Bool.and_true]
    · rfl

theorem getLsbD_foldl_maskStep (sel : W64) (f : Nat → Bool) {i : Nat} (hi : i < 64) : ∀ (l : List Nat) (m : W64),
    (l.foldl (maskStep sel f) m).getLsbD i = if i ∈ l ∧ sel.getLsbD i = true then f i else m.getLsbD i
  | [], m => by simp
  | k :: l, m => by
    rw [List.foldl_cons, getLsbD_foldl_maskStep sel f hi l, getLsbD_maskStep sel f m k hi]
    by_cases hs : sel.getLsbD i = true
    · by_cases hl : i ∈ l
      · rw [if_pos ⟨hl, hs⟩, if_pos ⟨List.mem_cons_of_mem _ hl, hs⟩]
      · rw [if_neg fun h => hl h.1]
        simp only [List.mem_cons, hl, or_false]
    · rw [if_neg fun h => hs h.2, if_neg fun h => hs h.2, if_neg fun h => hs h.2]

/-- R103, Table 4.7: each bit of a mask after a masked write. -/
theorem getLsbD_maskWrite (old sel : W64) (f : Nat → Bool) {i : Nat} (hi : i < 64) :
    (maskWrite old sel f).getLsbD i = if sel.getLsbD i then f i else old.getLsbD i := by
  rw [maskWrite_eq_foldl, getLsbD_foldl_maskStep sel f hi]
  simp [mem_rangeFrom, hi]

/-- R105: what a compare needs before it acts. -/
theorem comparesWord_iff {op : Nat} {s : State} {n : Nat} {w : Fields} {fmts : List Nat} : comparesWord op s n w fmts = true ↔
    issuesWord s n w { op := op, d := .m, a := .sv, b := .sv, c := .mask, fmts := fmts, imm := 7 } = true ∧ w.imm.toNat % 8 ≠ 7 ∧
      ((rangeFrom 0 64).any fun i => (selMask (getSeat s n) w.c).getLsbD i &&
        ((srcLane (getSeat s n) w.a 32 i).2 || (srcLane (getSeat s n) w.b 32 i).2)) = false := by
  rw [comparesWord, rangeFrom_zero_eq_range, List.any_eq_not_all_not, Bool.not_eq_false']
  simp only [Bool.and_eq_true, decide_eq_true_eq, and_assoc, Bool.not_and, Bool.not_or]

/-- R105, Table 4.8: a compare without a poisoned selected lane replaces the selected bits of Md. -/
theorem vecCompare_mask {op : Nat} {s : State} {n : Nat} {w : Fields} {fmts : List Nat} {f g : Nat → W32 → W32 → Bool}
    (h : comparesWord op s n w fmts = true) (hfg : ∀ c x y, c < 7 → f c x y = g c x y) :
    ∃ t m, vecCompare op s n w fmts f = .next t ∧ wroteM s t n w.d.toNat m ∧ ∀ i, i < 64 → m.getLsbD i =
      if (selMask (getSeat s n) w.c).getLsbD i then
        g (w.imm.toNat % 8) (srcLane (getSeat s n) w.a 32 i).1 (srcLane (getSeat s n) w.b 32 i).1
      else (mget (getSeat s n) w.d.toNat).getLsbD i := by
  obtain ⟨hword, hcond, hpois⟩ := comparesWord_iff.mp h
  refine ⟨_, _, issueNext_done hword (bne_iff_ne.mpr hcond) (noneAwaits_nil s n) (if_neg ?_), wroteM_mset s n w.d.toNat _, fun i hi => ?_⟩
  · rw [hpois]
    exact Bool.false_ne_true
  · rw [getLsbD_maskWrite _ _ _ hi, hfg _ _ _ (by omega)]

/-- Table 4.8: the conditions of VICMP by number. -/
def intCmp (c : Nat) (x y : W32) : Bool :=
  match c with
  | 0 => x == y
  | 1 => x != y
  | 2 => x.slt y
  | 3 => !y.slt x
  | 4 => y.slt x
  | 5 => !x.slt y
  | _ => x.ult y

theorem intCmp_eq (c : Nat) (x y : W32) (hc : c < 7) : intCmp c x y = intCond c x y := by
  interval_cases c
  · exact beq_eq_decide x y
  · exact (congrArg not (beq_eq_decide x y)).trans (decide_not ..).symm
  · exact BitVec.slt_eq_decide
  · exact not_slt_eq_decide y x
  · exact BitVec.slt_eq_decide
  · exact not_slt_eq_decide x y
  · exact BitVec.ult_eq_decide

theorem givesMMM_of_mask2 {op : Nat} {i : Nat → Fields → Instr} {f : W64 → W64 → W64}
    (hexec : ∀ n w s, exec (i n w) s = mask2 op s n w f) : givesMMM op i f := by
  intro s n w h
  rw [hexec]
  exact ⟨_, issueNext_goesOn h rfl, wroteM_mset _ _ _ _⟩

theorem lsum_map_ite (p : Nat → Bool) : ∀ l : List Nat, lsum (l.map fun i => if p i then 1 else 0) = l.countP p
  | [] => rfl
  | i :: l => by
    rw [List.map_cons, lsum, lsum_map_ite p l, List.countP_cons, Nat.add_comm]

theorem popCount_eq_countP (m : W64) : popCount m = (List.range 64).countP fun i => m.getLsbD i := by
  rw [popCount, rangeFrom_zero_eq_range, lsum_map_ite]

/-- R112: the mask of the first `k` lanes. -/
theorem getLsbD_firstLanes (k : Nat) {i : Nat} (hi : i < 64) :
    (BitVec.ofNat 64 (2 ^ min 64 k - 1)).getLsbD i = decide (i < k) := by
  rw [BitVec.getLsbD_ofNat, Nat.testBit_two_pow_sub_one, decide_eq_true hi, Bool.true_and, decide_eq_decide]
  omega

/-- Settles O7: the compares by the bits of `maskWrite`, the mask instructions by the register that each writes. -/
theorem maskResults : Obligations.MaskResults := by
  refine ⟨fun s n w h => ?vcmp, fun s n w h => ?vicmp, ?mand, ?mor, ?mxor, fun s n w h => ?mnot, fun s n w h hp => ?mset,
    fun s n w h => ?mget, fun s n w h => ?mcnt, fun s n w h hp => ?mfirst⟩
  case vcmp =>
    exact vecCompare_mask (f := fun c x y => cmpCond c (numDecode .fp32 x.toNat) (numDecode .fp32 y.toNat))
      (g := fun c x y => cmpCond c (numDecode .fp32 x.toNat) (numDecode .fp32 y.toNat)) h fun _ _ _ _ => rfl
  case vicmp => exact vecCompare_mask (f := intCmp) h intCmp_eq
  case mand | mor | mxor => exact givesMMM_of_mask2 fun _ _ _ => rfl
  case mnot => exact ⟨_, issueNext_goesOn h rfl, wroteM_mset _ _ _ _⟩
  case mset =>
    refine ⟨_, issueNext_goesOn h ?_, wroteM_mset _ _ _ _⟩
    exact if_neg (by rw [hp]; exact Bool.false_ne_true)
  case mget => exact ⟨_, issueNext_goesOn h rfl, wroteS_sset _ _ _ _ _ _⟩
  case mcnt =>
    rw [← popCount_eq_countP]
    exact ⟨_, issueNext_goesOn h rfl, wroteS_sset _ _ _ _ _ _⟩
  case mfirst =>
    refine ⟨_, _, issueNext_goesOn h ?_, wroteM_mset _ _ _ _, fun i hi => getLsbD_firstLanes _ hi⟩
    exact if_neg (by rw [hp]; exact Bool.false_ne_true)

end Sys2Proof.Machine

/-! PROOFS. The beat and system groups of the coach instructions (R60, R128, R131 to R133). -/

namespace Sys2Proof.Machine

theorem mayIssue_of_issuesWord {s : State} {n : Nat} {w : Fields} {form : Form} (h : issuesWord s n w form = true) :
    mayIssue s n = true := by
  simp only [issuesWord, Bool.and_eq_true] at h
  obtain ⟨⟨⟨⟨hmay, _⟩, _⟩, _⟩, _⟩ := h
  exact hmay

/-- R89, R133 to R135: an instruction that issues and takes an exception. -/
theorem issueNext_exc {s : State} {n : Nat} {w : Fields} {form : Form} {body : Seat → Res} {code : Nat}
    (h : issuesWord s n w form = true) (hb : body (getSeat s n) = .exc code) :
    ∃ t, issueNext s n w form true [] body = .next t ∧ tookExc s t n code := by
  refine ⟨_, ?_, tookExc_of_mayIssue (mayIssue_of_issuesWord h) code⟩
  rw [issueNext, issue_acts h, hb]
  rfl

/-- R128: BWAIT of a beat that has come goes on. -/
theorem exec_bwait_reached {s : State} {n : Nat} {w : Fields} (h : issuesWord s n w { op := 0xB0, a := .s, imm := 0xFFFFFF } = true)
    (hp : (sget (getSeat s n) w.a.toNat).2 = false)
    (hle : ((sget (getSeat s n) w.a.toNat).1 + w.imm.signExtend 64).toNat ≤ s.drum.count.toNat) :
    exec (.bwait n w) s = .next (advance s n (nextPc (getSeat s n))) := by
  refine issueNext_goesOn h ?_
  dsimp only
  rw [hp, wImm, if_neg Bool.false_ne_true, if_pos (BitVec.ule_iff_toNat_le.mpr hle)]

/-- R128: BWAIT of a beat to come parks. -/
theorem exec_bwait_parks {s : State} {n : Nat} {w : Fields} (h : issuesWord s n w { op := 0xB0, a := .s, imm := 0xFFFFFF } = true)
    (hp : (sget (getSeat s n) w.a.toNat).2 = false)
    (hgt : ¬((sget (getSeat s n) w.a.toNat).1 + w.imm.signExtend 64).toNat ≤ s.drum.count.toNat) :
    exec (.bwait n w) s = .next (advance (putSeat s n { getSeat s n with
      st := .parked (.beat ((sget (getSeat s n) w.a.toNat).1 + w.imm.signExtend 64)) }) n (nextPc (getSeat s n))) := by
  refine issueNext_goesOn h ?_
  dsimp only
  rw [hp, wImm, if_neg Bool.false_ne_true, if_neg (BitVec.ule_iff_toNat_le.not.mpr hgt)]
  rfl

/-- R60, R132: HALT releases the X registers and halts the seat. -/
theorem exec_halt {s : State} {n : Nat} {w : Fields} (h : issuesWord s n w { op := 0xE1 } = true) :
    exec (.halt n w) s = .next (advance (putSeat (releaseX s n) n { getSeat s n with grant := [], st := .halted }) n
      (nextPc (getSeat s n))) := by
  refine issueNext_goesOn h ?_
  dsimp only
  rw [releaseX, getSeat_putSeat_same]
  rfl

/-- A further write of the seat leaves the rest as before. -/
theorem onlyCoach.putSeat {s u : State} {n : Nat} (h : onlyCoach s u n) (t : Seat) : onlyCoach s (putSeat u n t) n := by
  obtain ⟨hseats, hcoaches, hrest⟩ := h
  exact ⟨fun m hm => (getSeat_putSeat_ne _ _ hm).trans (hseats m hm), hcoaches, hrest⟩

theorem onlyCoach.advance {s u : State} {n : Nat} (h : onlyCoach s u n) (pc : Nat) : onlyCoach s (advance u n pc) n := by
  obtain ⟨hseats, hcoaches, hrest⟩ := h
  exact ⟨fun m hm => (getSeat_advance_ne _ _ hm).trans (hseats m hm), hcoaches, hrest⟩

theorem onlyCoach_releaseX (s : State) (n : Nat) : onlyCoach s (releaseX s n) n :=
  ⟨fun _ hm => getSeat_putSeat_ne _ _ hm, fun _ hc => getCoach_putCoach_ne _ _ hc, rfl⟩

theorem xowner_releaseX (s : State) (n : Nat) :
    (getCoach (releaseX s n) (n / 16)).xowner = (getCoach s (n / 16)).xowner.filter fun e => e.2 != n := by
  rw [releaseX, getCoach_putSeat, getCoach_putCoach_same]

/-- Settles O17, by what each instruction gives; BWAIT by whether its beat has come. -/
theorem beatAndSystemInstructions : Obligations.BeatAndSystemInstructions := by
  refine ⟨fun s n w h => ?bread, fun s n w h hp => ?bwait, fun s n w h => ?rctx, fun s n w h => ?nop, fun s n w h => ?halt,
    fun s n w h => ?trap⟩
  case bread => exact ⟨_, issueNext_goesOn h rfl, wroteS_sset _ _ _ _ _ _⟩
  case bwait =>
    by_cases hle : ((sget (getSeat s n) w.a.toNat).1 + w.imm.signExtend 64).toNat ≤ s.drum.count.toNat
    · refine ⟨_, exec_bwait_reached h hp hle, onlySeat_advance_self _ _ _, ?_, ?_⟩ <;> rw [getSeat_advance_self]
      rw [if_pos hle]
      exact ready_of_issuesWord h
    · refine ⟨_, exec_bwait_parks h hp hle, onlySeat_advance _ _ _ _, ?_, ?_⟩ <;> rw [getSeat_advance]
      rw [if_neg hle]
  case rctx =>
    refine ⟨_, issueNext_goesOn h rfl, onlySeat_advance _ _ _ _, ?_, ?_, ?_, ?_, ?_, ?_⟩ <;> rw [getSeat_advance]
    · exact fun _ => rfl
    · exact fun _ _ => rfl
    · exact fun _ => rfl
  case nop => exact ⟨_, issueNext_goesOn h rfl, wentTo_advance _ _ _⟩
  case trap =>
    have he : exec (.trap n w) s = issueNext s n w { op := 0xE2 } true [] fun _ => .exc 0xB := rfl
    rw [he]
    exact issueNext_exc h rfl
  case halt =>
    refine ⟨_, exec_halt h, ((onlyCoach_releaseX s n).putSeat _).advance _, ?_, ?_, ?_, ?_, ?_, ?_⟩
    · rw [getSeat_advance]
    · rw [getSeat_advance]
    · rw [getSeat_advance]
      exact fun _ => rfl
    · rw [getSeat_advance]
      exact fun _ _ => rfl
    · rw [getSeat_advance]
      exact fun _ => rfl
    · intro e he
      rw [getCoach_advance, getCoach_putSeat, xowner_releaseX] at he
      exact bne_iff_ne.mp (List.mem_filter.mp he).2

end Sys2Proof.Machine

/-! PROOFS. The exact accumulators: XACC, XADD and XRD lane by lane (R114 to R116, R155 to R161). -/

namespace Sys2Proof.Machine

/-! ### Folds that change one part of what they build -/

/-- A fold none of whose steps changes a part leaves that part. -/
theorem foldl_view_kept {σ ι α : Type} {f : σ → ι → σ} {view : σ → α} : ∀ (l : List ι) (r : σ),
    (∀ j ∈ l, ∀ r, view (f r j) = view r) → view (l.foldl f r) = view r
  | [], _, _ => rfl
  | j :: l, r, h => by
    rw [List.foldl_cons, foldl_view_kept l _ fun k hk => h k (List.mem_cons_of_mem _ hk), h j List.mem_cons_self]

/-- A fold one of whose steps changes a part changes it once. -/
theorem foldl_view_once {σ ι α : Type} {f : σ → ι → σ} {view : σ → α} {F : α → α} {j₀ : ι}
    (hone : ∀ r, view (f r j₀) = F (view r)) : ∀ (l : List ι) (r : σ), j₀ ∈ l → l.Nodup →
      (∀ j ∈ l, j ≠ j₀ → ∀ r, view (f r j) = view r) → view (l.foldl f r) = F (view r)
  | [], _, hmem, _, _ => absurd hmem List.not_mem_nil
  | j :: l, r, hmem, hnodup, hkeep => by
    obtain ⟨hj, hl⟩ := List.nodup_cons.mp hnodup
    rw [List.foldl_cons]
    by_cases hjj : j = j₀
    · subst hjj
      rw [foldl_view_kept l _ fun k hk => hkeep k (List.mem_cons_of_mem _ hk) fun h => hj (h ▸ hk), hone]
    · have hmem' : j₀ ∈ l := (List.mem_cons.mp hmem).resolve_left fun h => hjj h.symm
      rw [foldl_view_once hone l _ hmem' hl fun k hk => hkeep k (List.mem_cons_of_mem _ hk), hkeep j List.mem_cons_self hjj]

theorem nodup_rangeFrom (a n : Nat) : (rangeFrom a n).Nodup := rangeFrom_eq_range' n a ▸ List.nodup_range'

/-! ### The registers of a grant -/

theorem lget_eq_getElem {α : Type} (d : α) : ∀ (l : List α) (i : Nat) (h : i < l.length), lget d l i = l[i]
  | _ :: _, 0, _ => rfl
  | _ :: l, i + 1, h => lget_eq_getElem d l i (Nat.lt_of_succ_lt_succ h)

/-- R60: the registers of a grant without repeats are different ones. -/
theorem xphys_inj {t : Seat} (hnodup : t.grant.Nodup) {x y : Nat} (hx : x < t.grant.length) (hy : y < t.grant.length) :
    xphys t x = xphys t y ↔ x = y := by
  rw [xphys, xphys, lget_eq_getElem 0 _ x hx, lget_eq_getElem 0 _ y hy, hnodup.getElem_inj_iff]

theorem fmtCount_eq (f : Fmt) : fmtCount f = 64 * fmtXRegs f := by cases f <;> rfl

/-! ### XACC -/

/-- R115: what element `j` of Va adds to its lane. -/
def xaccVal (t : Seat) (w : Fields) (j : Nat) : AddVal :=
  let f := wFmt w
  let x := vget t (w.a.toNat - 32) (j / (32 / fmtWidth f))
  let scale := w.imm.toNat / 32 % 32
  if x.2 || (fmtIsMx f && (scaleOf t f scale (j / 32)).2) then .poisoned else addValOf (elemNum t f scale j x.1) (wFlag w)

/-- R103, R115: element `j` added into its lane, when its lane of Va is selected: the step of XACC. -/
def xaccStep (t : Seat) (w : Fields) (r : Coach × Bool) (j : Nat) : Coach × Bool :=
  if (selMask t w.c).getLsbD (j / (32 / fmtWidth (wFmt w))) then
    let x := xphys t (w.d.toNat + j / 64)
    let old := xget r.1 x (j % 64)
    let new := old.addVal (xaccVal t w j)
    (xset r.1 x (j % 64) new, r.2 || (new.ovf && !old.ovf))
  else r

theorem applyAdds_xaccVals (t : Seat) (w : Fields) (c : Coach) :
    applyAdds t c (xaccVals t w) = (rangeFrom 0 (fmtCount (wFmt w))).foldl (xaccStep t w) (c, false) := by
  rw [applyAdds, xaccVals]
  dsimp only
  rw [List.foldl_filterMap]
  congr 1
  funext r j
  rw [xaccStep, xaccVal]
  by_cases h : (selMask t w.c).getLsbD (j / (32 / fmtWidth (wFmt w))) = true
  · simp only [h, if_true]
  · simp only [h, if_false, Bool.false_eq_true]

theorem xget_xaccStep (t : Seat) (w : Fields) (r : Coach × Bool) (j y : Nat) {k : Nat} (hk : k < 64) :
    xget (xaccStep t w r j).1 y k =
      if (y = xphys t (w.d.toNat + j / 64) ∧ k = j % 64) ∧ (selMask t w.c).getLsbD (j / (32 / fmtWidth (wFmt w))) = true
      then (xget r.1 y k).addVal (xaccVal t w j) else xget r.1 y k := by
  rw [xaccStep]
  by_cases hs : (selMask t w.c).getLsbD (j / (32 / fmtWidth (wFmt w))) = true
  · rw [if_pos hs]
    dsimp only
    rw [xget_xset _ _ (by omega) hk]
    by_cases hy : y = xphys t (w.d.toNat + j / 64) ∧ k = j % 64
    · rw [if_pos hy, if_pos ⟨hy, hs⟩, hy.1, hy.2]
    · rw [if_neg hy, if_neg fun h => hy h.1]
  · rw [if_neg hs, if_neg fun h => hs h.2]

/-- R115: XACC leaves every register that is none of its own. -/
theorem xget_xacc_other (t : Seat) (w : Fields) (c : Coach) {x i : Nat} (hi : i < 64)
    (hx : ∀ q, q < fmtXRegs (wFmt w) → x ≠ xphys t (w.d.toNat + q)) :
    xget (applyAdds t c (xaccVals t w)).1 x i = xget c x i := by
  rw [applyAdds_xaccVals]
  refine foldl_view_kept (view := fun r : Coach × Bool => xget r.1 x i) _ _ fun j hj r => ?_
  have hcount := fmtCount_eq (wFmt w)
  have hj' := (mem_rangeFrom _ _ _).mp hj
  exact (xget_xaccStep t w r j x hi).trans (if_neg fun ⟨⟨hphys, _⟩, _⟩ => hx (j / 64) (by omega) hphys)

/-- R115: XACC adds element 64q + i into lane i of its register q. -/
theorem xget_xacc_lane {t : Seat} {w : Fields} (c : Coach) {q i : Nat} (hnodup : t.grant.Nodup)
    (hgrant : w.d.toNat + fmtXRegs (wFmt w) ≤ t.grant.length) (hq : q < fmtXRegs (wFmt w)) (hi : i < 64) :
    xget (applyAdds t c (xaccVals t w)).1 (xphys t (w.d.toNat + q)) i =
      if (selMask t w.c).getLsbD ((64 * q + i) / (32 / fmtWidth (wFmt w))) = true
      then (xget c (xphys t (w.d.toNat + q)) i).addVal (xaccVal t w (64 * q + i)) else xget c (xphys t (w.d.toNat + q)) i := by
  have hcount := fmtCount_eq (wFmt w)
  have hdiv : (64 * q + i) / 64 = q := by omega
  have hmod : (64 * q + i) % 64 = i := by omega
  rw [applyAdds_xaccVals]
  refine foldl_view_once (view := fun r : Coach × Bool => xget r.1 (xphys t (w.d.toNat + q)) i)
    (F := fun l => if (selMask t w.c).getLsbD ((64 * q + i) / (32 / fmtWidth (wFmt w))) = true
      then l.addVal (xaccVal t w (64 * q + i)) else l) (j₀ := 64 * q + i) (fun r => ?_) _ _ ?_ (nodup_rangeFrom _ _) fun j hj hne r => ?_
  · refine (xget_xaccStep t w r _ _ hi).trans (if_congr ?_ rfl rfl)
    rw [hdiv, hmod]
    exact and_iff_right ⟨rfl, rfl⟩
  · exact (mem_rangeFrom _ _ _).mpr ⟨by omega, by omega⟩
  · have hj' := (mem_rangeFrom _ _ _).mp hj
    refine (xget_xaccStep t w r j _ hi).trans (if_neg fun h => hne ?_)
    obtain ⟨⟨hphys, hlane⟩, _⟩ := h
    have hreg := (xphys_inj hnodup (by omega) (by omega)).mp hphys
    omega

theorem exec_xacc {s : State} {n : Nat} {w : Fields}
    (h : issuesWord s n w { op := 0x62, d := .x, a := .v, c := .mask, fmts := [0, 1, 2, 3, 4, 5, 6, 7, 8, 9, 10, 11], flag := true,
                            imm := 0x3E0 } = true)
    (hscale : scaleOk (wFmt w) (w.imm.toNat / 32 % 32) = true) (hd : w.d.toNat % fmtXRegs (wFmt w) = 0)
    (hawait : noneAwaits s n (scaleRegs (wFmt w) (w.imm.toNat / 32 % 32) ++ rangeFrom (64 + w.d.toNat) (fmtXRegs (wFmt w))) = true)
    (hgrant : w.d.toNat + fmtXRegs (wFmt w) ≤ (getSeat s n).grant.length) {r : Coach × Bool}
    (hr : r = applyAdds (getSeat s n) (getCoach s (n / 16)) (xaccVals (getSeat s n) w)) :
    exec (.xacc n w) s = .next (advance (overflowMsg (putCoach s (n / 16) r.1) (n / 16) r.2 0) n (nextPc (getSeat s n))) := by
  subst hr
  exact issueNext_done h (by rw [hscale, hd]; rfl) hawait (if_neg (Nat.not_lt.mpr hgrant))

/-! ### XADD -/

/-- R156: one lane of XADD. -/
def xaddStep (c : Coach) (xd xa : Nat) (r : Coach × Bool) (i : Nat) : Coach × Bool :=
  let old := xget r.1 xd i
  let new := old.addLane (xget c xa i)
  (xset r.1 xd i new, r.2 || (new.ovf && !old.ovf))

theorem xget_xadd_lane (c : Coach) (xd xa : Nat) {i : Nat} (hi : i < 64) :
    xget ((rangeFrom 0 64).foldl (xaddStep c xd xa) (c, false)).1 xd i = (xget c xd i).addLane (xget c xa i) := by
  refine foldl_view_once (view := fun r : Coach × Bool => xget r.1 xd i) (F := fun l => l.addLane (xget c xa i)) (j₀ := i)
    (fun r => ?_) _ _ ?_ (nodup_rangeFrom _ _) fun j hj hne r => ?_
  · exact (xget_xset _ _ hi hi).trans (if_pos ⟨rfl, rfl⟩)
  · exact (mem_rangeFrom _ _ _).mpr ⟨by omega, by omega⟩
  · have hj' := (mem_rangeFrom _ _ _).mp hj
    exact (xget_xset _ _ (by omega) hi).trans (if_neg fun h => hne h.2.symm)

theorem xget_xadd_other (c : Coach) {xd x : Nat} (xa : Nat) {i : Nat} (hi : i < 64) (hx : x ≠ xd) :
    xget ((rangeFrom 0 64).foldl (xaddStep c xd xa) (c, false)).1 x i = xget c x i := by
  refine foldl_view_kept (view := fun r : Coach × Bool => xget r.1 x i) _ _ fun j hj r => ?_
  have hj' := (mem_rangeFrom _ _ _).mp hj
  exact (xget_xset _ _ (by omega) hi).trans (if_neg fun h => hx h.1)

theorem exec_xadd {s : State} {n : Nat} {w : Fields} (h : issuesWord s n w { op := 0x65, d := .x, a := .x } = true)
    (hd : w.d.toNat < (getSeat s n).grant.length) (ha : w.a.toNat < (getSeat s n).grant.length) {r : Coach × Bool}
    (hr : r = (rangeFrom 0 64).foldl (xaddStep (getCoach s (n / 16)) (xphys (getSeat s n) w.d.toNat) (xphys (getSeat s n) w.a.toNat))
      (getCoach s (n / 16), false)) :
    exec (.xadd n w) s = .next (advance (overflowMsg (putCoach s (n / 16) r.1) (n / 16) r.2 0) n (nextPc (getSeat s n))) := by
  subst hr
  exact issueNext_goesOn h (if_neg (by omega))

/-! ### Lanes of a vector register written from a list -/

/-- R103: the lanes of `l` that `sel` selects written by a function of the lane number. -/
def putLanes (t : Seat) (v : Nat) (sel : W64) (f : Nat → W32 × Bool) (l : List Nat) : Seat :=
  l.foldl (fun t i => if sel.getLsbD i then (let x := f i; vset t v i x.1 x.2) else t) t

theorem vget_putLanes (t : Seat) (v : Nat) (sel : W64) (f : Nat → W32 × Bool) {l : List Nat} (hl : ∀ i ∈ l, i < 64) (u : Nat) {j : Nat}
    (hj : j < 64) : vget (putLanes t v sel f l) u j = if u = v ∧ j ∈ l ∧ sel.getLsbD j = true then f j else vget t u j :=
  vget_vmap_aux v sel f u j hj l t hl

theorem putLanes_rest (v : Nat) (sel : W64) (f : Nat → W32 × Bool) (l : List Nat) :
    ∀ t, putLanes t v sel f l = { t with vlane := (putLanes t v sel f l).vlane } := by
  induction l with
  | nil => intro t; rfl
  | cons i l ih =>
    intro t
    rw [putLanes, List.foldl_cons, ← putLanes]
    split
    · rw [ih]; rfl
    · exact ih t

/-! ### XRD -/

/-- R116, R161: the lane of Vd that XRD writes. -/
def xrdLane (s : State) (n : Nat) (w : Fields) (i : Nat) : W32 × Bool :=
  let k := 32 / fmtWidth (wFmt w)
  let es := (rangeFrom 0 k).map fun e => readOut (wFmt w) (wRm w) (wSat w) (drawFor s (getSeat s n) (i * k + e))
    (xget (getCoach s (n / 16)) (xphys (getSeat s n) w.a.toNat) (i * k + e - 64 * (w.imm.toNat % 8)))
  (BitVec.ofNat 32 (joinElems (fmtWidth (wFmt w)) (es.map Prod.fst)), es.any Prod.snd)

theorem exec_xrd {s : State} {n : Nat} {w : Fields}
    (h : issuesWord s n w { op := 0x64, d := .v, a := .x, c := .mask, fmts := [0, 1, 2, 3, 4, 11], rounds := true, imm := 7 } = true)
    (hp : w.imm.toNat % 8 < fmtCount (wFmt w) / 64) (ha : w.a.toNat < (getSeat s n).grant.length) :
    exec (.xrd n w) s = .next (advance (putSeat s n (putLanes (getSeat s n) (w.d.toNat - 32) (selMask (getSeat s n) w.c) (xrdLane s n w)
      (rangeFrom (64 * (w.imm.toNat % 8) / (32 / fmtWidth (wFmt w))) (64 / (32 / fmtWidth (wFmt w)))))) n (nextPc (getSeat s n))) :=
  issueNext_done h (decide_eq_true hp) (noneAwaits_nil s n) (if_neg (Nat.not_le.mpr ha))

/-- R116: the lanes that a part of XRD names are lanes of a register. -/
theorem xrd_lanes_lt {f : Fmt} {p : Nat} (hp : p < fmtCount f / 64) :
    64 * p / (32 / fmtWidth f) + 64 / (32 / fmtWidth f) ≤ 64 := by
  cases f <;> simp only [fmtCount, fmtWidth] at hp ⊢ <;> omega

/-- R105, R159: a poisoned element counts as such, any other by its value. -/
theorem addVal_xaccVal (l : XLane) (t : Seat) (w : Fields) (j : Nat) :
    l.addVal (xaccVal t w j) =
      (let f := wFmt w
       let x := vget t (w.a.toNat - 32) (j / (32 / fmtWidth f))
       let scale := w.imm.toNat / 32 % 32
       if x.2 || (fmtIsMx f && (scaleOf t f scale (j / 32)).2) then l.addPoisoned
       else l.addVal (addValOf (elemNum t f scale j x.1) (wFlag w))) := by
  rw [xaccVal]
  dsimp only
  split <;> rfl

/-- Settles O10: XACC and XADD by the one step of their fold that reaches a lane, XRD by the lanes that it writes. -/
theorem exactAccumulation : Obligations.ExactAccumulation := by
  refine ⟨fun s n w h hscale hd hawait hgrant hnodup => ?xacc, fun s n w h hd ha => ?xadd, fun s n w h hp ha => ?xrd⟩
  case xacc =>
    refine ⟨_, exec_xacc h hscale hd hawait hgrant rfl, wentOn_advance _ _ _ (by simp), by simp, fun m hm => ?_, fun x i hi hx => ?_,
      fun q i hq hi => ?_⟩
    · rw [getSeat_advance_ne _ _ hm, getSeat_overflowMsg, getSeat_putCoach]
    · rw [getCoach_advance, getCoach_overflowMsg, getCoach_putCoach_same]
      exact xget_xacc_other _ _ _ hi hx
    · rw [getCoach_advance, getCoach_overflowMsg, getCoach_putCoach_same, xget_xacc_lane _ hnodup hgrant hq hi, addVal_xaccVal]
  case xadd =>
    refine ⟨_, exec_xadd h hd ha rfl, wentOn_advance _ _ _ (by simp), by simp, fun m hm => ?_, fun i hi => ⟨?_, fun x hx => ?_⟩⟩
    · rw [getSeat_advance_ne _ _ hm, getSeat_overflowMsg, getSeat_putCoach]
    · rw [getCoach_advance, getCoach_overflowMsg, getCoach_putCoach_same]
      exact xget_xadd_lane _ _ _ hi
    · rw [getCoach_advance, getCoach_overflowMsg, getCoach_putCoach_same]
      exact xget_xadd_other _ _ hi hx
  case xrd =>
    have hlanes : ∀ i ∈ rangeFrom (64 * (w.imm.toNat % 8) / (32 / fmtWidth (wFmt w))) (64 / (32 / fmtWidth (wFmt w))), i < 64 := by
      intro i hi
      have hlt := xrd_lanes_lt hp
      have hi' := (mem_rangeFrom _ _ _).mp hi
      omega
    refine ⟨_, exec_xrd h hp ha, onlySeat_advance _ _ _ _, ?_, ?_, ?_, ?_, fun v i hv hi => ?_, fun i hi => ?_⟩ <;> rw [getSeat_advance]
    · rw [putLanes_rest]
      exact fun _ => rfl
    · rw [putLanes_rest]
      exact fun _ => rfl
    · rw [putLanes_rest]
      exact ⟨rfl, rfl, rfl, rfl, rfl, rfl, rfl⟩
    · exact (vget_putLanes _ _ _ _ hlanes _ hi).trans (if_neg fun h => hv h.1)
    · refine (vget_putLanes _ _ _ _ hlanes _ hi).trans (if_congr ?_ rfl rfl)
      rw [mem_rangeFrom]
      tauto

end Sys2Proof.Machine

/-! PROOFS. Gather, scatter and exact scatter-add by lane addresses (R103, R105, R118, R122 to R124). -/

namespace Sys2Proof.Machine

/-! ### Values and their bytes -/

theorem leVal_leBytes (n : Nat) : ∀ v, leVal (leBytes n v) = v % 256 ^ n := by
  induction n with
  | zero => intro v; rw [leBytes, leVal, Nat.pow_zero, Nat.mod_one]
  | succ n ih => 
    intro v
    rw [leBytes, leVal, ih, BitVec.toNat_ofNat, (Nat.pow_succ' : 256 ^ (n + 1) = _)]
    exact Nat.mod_mul.symm

theorem leVal_leBytes_word (x : W32) : leVal (leBytes 4 x.toNat) = x.toNat := by
  rw [leVal_leBytes]
  exact Nat.mod_eq_of_lt x.isLt

theorem putCells_append (k l : List (Nat × Byte)) : ∀ m, putCells m (k ++ l) = putCells (putCells m k) l := by
  induction k with
  | nil => intro m; rfl
  | cons e k ih => intro m; exact ih _

/-- A byte of the last contiguous bytes among stored cells that name it. -/
theorem memByte_storeCells_last (s : State) (pre post : List (Nat × Byte)) (a : Nat) (bs : List Byte) (pois : List Nat) {x : Nat}
    (hlo : a ≤ x) (hhi : x < a + bs.length) (hpost : ∀ u, (x, u) ∉ post) :
    memByte (storeCells s (pre ++ (cellsAt a bs ++ post)) pois) x = lget 0 bs (x - a) := by
  have hcells : memByte (storeCells s (pre ++ (cellsAt a bs ++ post)) pois) x =
      memByte (storeCells (storeBytes (storeCells s pre []) a bs false) post []) x := by
    simp only [memByte, storeBytes, storeCells, putCells_append]
  rw [hcells, memByte_storeCells_of_notMem _ _ hpost, memByte_storeBytes, if_pos ⟨hlo, hhi⟩]

/-- Bytes that read one after another as these have their value. -/
theorem memVal_of_memByte {s : State} {a : Nat} {bs : List Byte}
    (h : ∀ x, a ≤ x → x < a + bs.length → memByte s x = lget 0 bs (x - a)) : memVal s a bs.length = leVal bs := by
  have hbytes : memBytes s a bs.length = memBytes (storeBytes s a bs false) a bs.length :=
    memBytes_congr fun x hlo hhi => by rw [h x hlo hhi, memByte_storeBytes, if_pos ⟨hlo, hhi⟩]
  rw [memVal, hbytes, memBytes_storeBytes_same]

/-! ### The selected lanes -/

theorem mem_selLanes (sel : W64) (i : Nat) : i ∈ selLanes sel ↔ i < 64 ∧ sel.getLsbD i = true := by
  rw [selLanes, List.mem_filter, mem_rangeFrom]
  exact and_congr_left fun _ => by omega

theorem pairwise_selLanes (sel : W64) : (selLanes sel).Pairwise (· < ·) := by
  rw [selLanes, rangeFrom_eq_range']
  exact (List.pairwise_lt_range').filter _

/-- The selected lanes before and after one of them. -/
theorem selLanes_split {sel : W64} {i : Nat} (hi : i ∈ selLanes sel) :
    ∃ pre post, selLanes sel = pre ++ i :: post ∧ ∀ j ∈ post, i < j := by
  obtain ⟨pre, post, hsplit⟩ := List.append_of_mem hi
  have hpair := pairwise_selLanes sel
  rw [hsplit, List.pairwise_append] at hpair
  obtain ⟨_, hpost, _⟩ := hpair
  exact ⟨pre, post, hsplit, (List.pairwise_cons.mp hpost).1⟩

/-- The lane addresses of an instruction, by selected lane. -/
def laneAddrs (t : Seat) (sel : W64) (base idx : BitVec 6) (k : Nat) : List (Nat × Nat × Bool) :=
  (selLanes sel).map fun i => (i, laneAddr t base idx k i)

section
variable {s : State} {n : Nat} {sel : W64} {base idx : BitVec 6} {k len align : Nat} {win : Nat → Win}

/-- R122: the windows that the lanes reach. -/
theorem lanesReach.wins (h : lanesReach s n sel base idx k len align win) :
    ((laneAddrs (getSeat s n) sel base idx k).map fun l => (l.1, seatWin s (n / 16) (codeLimit s n) l.2.1 len)) =
      (selLanes sel).map fun i => (i, some (win i)) := by
  obtain ⟨_, hlanes⟩ := h
  rw [laneAddrs, List.map_map]
  refine List.map_congr_left fun i hi => ?_
  obtain ⟨hwin, _, _⟩ := hlanes i hi
  exact congrArg (Prod.mk i) hwin

theorem lanesReach.aligned (h : lanesReach s n sel base idx k len align win) :
    ((laneAddrs (getSeat s n) sel base idx k).any fun l => l.2.1 % align != 0) = false := by
  obtain ⟨_, hlanes⟩ := h
  rw [laneAddrs, List.any_map, List.any_eq_false]
  intro i hi
  obtain ⟨_, halign, _⟩ := hlanes i hi
  simp [halign]

/-- R105: no lane address of an instruction is poisoned. -/
theorem lanesReach.clean (h : lanesReach s n sel base idx k len align win) :
    ((sget (getSeat s n) base.toNat).2 || (laneAddrs (getSeat s n) sel base idx k).any fun l => l.2.2) = false := by
  obtain ⟨hbase, hlanes⟩ := h
  rw [hbase, Bool.false_or, laneAddrs, List.any_map, List.any_eq_false]
  intro i hi
  obtain ⟨_, _, hpois⟩ := hlanes i hi
  simp [hpois]

end

theorem firstExc_nil : firstExc [] = none := rfl

theorem firstExc_false (code : Nat) (l : List (Bool × Nat)) : firstExc ((false, code) :: l) = firstExc l := rfl

theorem any_isNone_wins (win : Nat → Win) (l : List Nat) : ((l.map fun i => (i, some (win i))).any fun x => x.2.isNone) = false := by
  rw [List.any_map, List.any_eq_false]
  intro i _
  exact Bool.false_ne_true

/-- Each selected lane with its window. -/
theorem filterMap_wins {α : Type} (win : Nat → Win) (f : Nat → Win → α) (l : List Nat) :
    ((l.map fun i => (i, some (win i))).filterMap fun x => x.2.map fun h => f x.1 h) = l.map fun i => f i (win i) := by
  rw [List.filterMap_map, ← List.filterMap_eq_map]
  rfl

theorem dedup_nil : dedup [] = [] := rfl

theorem dedup_ne_nil {l : List Nat} (h : l ≠ []) : dedup l ≠ [] := by
  have hgrow : ∀ (l acc : List Nat), acc ≠ [] → l.foldl (fun acc n => if acc.contains n then acc else acc ++ [n]) acc ≠ [] := by
    intro l
    induction l with
    | nil => intro acc hacc; exact hacc
    | cons a l ih =>
      intro acc hacc
      rw [List.foldl_cons]
      split
      · exact ih acc hacc
      · exact ih _ (List.append_ne_nil_of_left_ne_nil hacc _)
  cases l with
  | nil => exact absurd rfl h
  | cons a l => exact hgrow l [a] (List.cons_ne_nil _ _)

/-! ### VGATHER -/

/-- The selected lanes whose words lie outside the own coach memory. -/
theorem filter_notOwn_wins (win : Nat → Win) (l : List Nat) :
    (((l.map fun i => (i, win i)).filter fun x => !x.2.isOwn).map fun x => x.2.addr / 64) =
      (l.filter fun i => !(win i).isOwn).map fun i => (win i).addr / 64 := by
  rw [List.filter_map, List.map_map]
  rfl

theorem filter_notOwn_eq_nil {win : Nat → Win} (hown : ∀ i, (win i).isOwn = true) (l : List Nat) :
    (l.filter fun i => !(win i).isOwn) = [] := by
  simp [hown]

/-- R103: lanes written one by one are a masked write. -/
theorem foldl_vset_selLanes (t : Seat) (v : Nat) (sel : W64) (win : Nat → Win) (x : Win → W32) (p : Win → Bool) :
    ((selLanes sel).map fun i => (i, win i)).foldl (fun u l => vset u v l.1 (x l.2) (p l.2)) t =
      vmap t v sel fun i => (x (win i), p (win i)) := by
  rw [List.foldl_map, selLanes, List.foldl_filter]
  rfl

/-- R122, R123: VGATHER inside the own coach memory writes its lanes at issue. -/
theorem exec_vgather_own {s : State} {n : Nat} {w : Fields} {win : Nat → Win}
    (h : issuesWord s n w { op := 0x90, d := .v, a := .s, b := .v, c := .mask, imm := 3 } = true)
    (hreach : lanesReach s n (selMask (getSeat s n) w.c) w.a w.b (w.imm.toNat % 4) 4 4 win) (hown : ∀ i, (win i).isOwn = true) :
    exec (.vgather n w) s = .next (advance (putSeat s n (vmap (getSeat s n) (w.d.toNat - 32) (selMask (getSeat s n) w.c) fun i =>
      (BitVec.ofNat 32 (memVal s (win i).addr 4), poisonedAt s (win i).addr 4))) n (nextPc (getSeat s n))) := by
  refine issueNext_goesOn h ?_
  dsimp only
  rw [← laneAddrs, hreach.wins, any_isNone_wins, hreach.aligned, hreach.clean, firstExc_false, firstExc_false, firstExc_false, firstExc_nil]
  dsimp only
  rw [filterMap_wins win fun i h => (i, h), filter_notOwn_wins, filter_notOwn_eq_nil hown, List.map_nil, dedup_nil, if_pos rfl,
    foldl_vset_selLanes (getSeat s n) (w.d.toNat - 32) (selMask (getSeat s n) w.c) win (fun h => BitVec.ofNat 32 (memVal s h.addr 4))
      fun h => poisonedAt s h.addr 4]
  rfl

/-- R123: VGATHER takes an entry for each block outside. -/
theorem exec_vgather_out {s : State} {n : Nat} {w : Fields} {win : Nat → Win} {blocks : List Nat}
    (h : issuesWord s n w { op := 0x90, d := .v, a := .s, b := .v, c := .mask, imm := 3 } = true)
    (hreach : lanesReach s n (selMask (getSeat s n) w.c) w.a w.b (w.imm.toNat % 4) 4 4 win)
    (hblocks : blocks = dedup (((selLanes (selMask (getSeat s n) w.c)).filter fun i => !(win i).isOwn).map fun i => (win i).addr / 64))
    (hne : blocks ≠ []) (hfree : blocks.length ≤ entriesFree (getCoach s (n / 16))) :
    ∃ got, exec (.vgather n w) s = .next (advance (putSeat (addAccess s n
      (.gather w.d.toNat ((selLanes (selMask (getSeat s n) w.c)).map fun i => (i, (win i).addr))) blocks got) n
      (addPend (getSeat s n) w.d.toNat)) n (nextPc (getSeat s n))) := by
  refine ⟨?list, issueNext_goesOn h ?body⟩
  case body =>
    dsimp only
    rw [← laneAddrs, hreach.wins, any_isNone_wins, hreach.aligned, hreach.clean, firstExc_false, firstExc_false, firstExc_false, firstExc_nil]
    dsimp only
    rw [filterMap_wins win fun i h => (i, h), filter_notOwn_wins, ← hblocks, if_neg hne, withEntries_of_le hfree, List.map_map]
    rfl

/-! ### VSCATTER -/

/-- R123: the cells of a scatter: four bytes of each lane, in the order of the lanes. -/
def scatterCells (t : Seat) (v : Nat) (win : Nat → Win) (l : List Nat) : List (Nat × Byte) :=
  l.flatMap fun i => cellsAt (win i).addr (leBytes 4 (vget t v i).1.toNat)

theorem filter_notOwn_blocks (win : Nat → Win) (l : List Nat) :
    (((l.map fun i => (i, win i)).filter fun x => !x.2.isOwn).flatMap fun x => blocksOf x.2.addr 4) =
      (l.filter fun i => !(win i).isOwn).flatMap fun i => blocksOf (win i).addr 4 := by
  rw [List.filter_map, List.flatMap_map]
  rfl

theorem filter_own_cells {win : Nat → Win} (hown : ∀ i, (win i).isOwn = true) (t : Seat) (v : Nat) (l : List Nat) :
    (((l.map fun i => (i, win i)).filter fun x => x.2.isOwn == true).flatMap fun x =>
      cellsAt x.2.addr (leBytes 4 (vget t v x.1).1.toNat)) = scatterCells t v win l := by
  have hall : ((l.map fun i => (i, win i)).filter fun x => x.2.isOwn == true) = l.map fun i => (i, win i) := by
    simp [hown]
  rw [hall, List.flatMap_map, scatterCells]

theorem exec_vscatter_own {s : State} {n : Nat} {w : Fields} {win : Nat → Win}
    (h : issuesWord s n w { op := 0x91, d := .mask, a := .v, b := .s, c := .v, imm := 3 } = true)
    (hreach : lanesReach s n (selMask (getSeat s n) w.d) w.b w.c (w.imm.toNat % 4) 4 1 win) (hown : ∀ i, (win i).isOwn = true) :
    ∃ pois, exec (.vscatter n w) s = .next (advance (storeCells s
      (scatterCells (getSeat s n) (w.a.toNat - 32) win (selLanes (selMask (getSeat s n) w.d))) pois) n (nextPc (getSeat s n))) := by
  refine ⟨?list, issueNext_goesOn h ?body⟩
  case body =>
    dsimp only
    rw [← laneAddrs, hreach.wins, any_isNone_wins, hreach.clean, firstExc_false, firstExc_false, firstExc_nil]
    dsimp only
    rw [filterMap_wins win fun i h => (i, h), filter_notOwn_blocks, filter_notOwn_eq_nil hown, List.flatMap_nil, dedup_nil, if_pos rfl,
      filter_own_cells hown]

/-- R123: the bytes that a scatter names. -/
theorem mem_scatterCells {t : Seat} {v : Nat} {win : Nat → Win} {l : List Nat} {a : Nat} {b : Byte} (h : (a, b) ∈ scatterCells t v win l) :
    ∃ i ∈ l, (win i).addr ≤ a ∧ a < (win i).addr + 4 := by
  obtain ⟨i, hi, hmem⟩ := List.mem_flatMap.mp h
  obtain ⟨j, hj, ha, _⟩ := (mem_cellsAt _ _ _ _).mp hmem
  rw [length_leBytes] at hj
  exact ⟨i, hi, by omega, by omega⟩

/-- R123: the word of a lane that no higher one overlaps holds that lane's value. -/
theorem memVal_scatterCells (s : State) (t : Seat) (v : Nat) {win : Nat → Win} {sel : W64} (pois : List Nat) {i : Nat} (hi : i ∈ selLanes sel)
    (hlast : ∀ j ∈ selLanes sel, i < j → (win j).addr + 4 ≤ (win i).addr ∨ (win i).addr + 4 ≤ (win j).addr) :
    memVal (storeCells s (scatterCells t v win (selLanes sel)) pois) (win i).addr 4 = (vget t v i).1.toNat := by
  obtain ⟨pre, post, hsplit, hpost⟩ := selLanes_split hi
  rw [← leVal_leBytes_word]
  refine memVal_of_memByte (bs := leBytes 4 (vget t v i).1.toNat) fun x hlo hhi => ?_
  rw [hsplit, scatterCells, List.flatMap_append, List.flatMap_cons]
  refine memByte_storeCells_last s _ _ _ _ pois hlo hhi fun u hu => ?_
  obtain ⟨j, hj, hjlo, hjhi⟩ := mem_scatterCells hu
  rw [length_leBytes] at hhi
  have hapart := hlast j (by rw [hsplit]; exact List.mem_append_right _ (List.mem_cons_of_mem _ hj)) (hpost j hj)
  omega

/-! ### XSCADD -/

/-- R118, R124: a scatter-add reaches no lane in the own coach memory. -/
theorem any_own_wins {win : Nat → Win} (hout : ∀ i, (win i).isOwn = false) {p : Nat × Option Win → Bool}
    (hp : ∀ i h, p (i, some h) = h.isOwn) (l : List Nat) : (l.map fun i => (i, some (win i))).any p = false := by
  rw [List.any_map, List.any_eq_false]
  intro i _
  simp [hp, hout]


/-- R124: what the lane `i` of a scatter-add adds. -/
def scaddVal (t : Seat) (w : Fields) (i : Nat) : AddVal :=
  let j := 64 * (w.imm.toNat % 2) + i
  let v := vget t (w.a.toNat - 32) (j / (32 / fmtWidth (wFmt w)))
  if v.2 then .poisoned else addValOf (elemNum t (wFmt w) 0 j v.1) (wFlag w)

/-- R65, R124: the additions of a scatter-add take an entry for each record. -/
theorem scadd_takes {s : State} {n : Nat} {adds l : List (Nat × AddVal)} (hl : l = adds) (hne : adds ≠ [])
    (hfree : (dedup (adds.map fun x => x.1 / 64)).length ≤ entriesFree (getCoach s (n / 16))) :
    (if dedup (l.map fun x => x.1 / 64) = [] then Res.done s
      else withEntries s n (dedup (l.map fun x => x.1 / 64)).length
        (.done (addAccess s n (.scadd l false) (dedup (l.map fun x => x.1 / 64)) []))) =
      .done (addAccess s n (.scadd adds false) (dedup (adds.map fun x => x.1 / 64)) []) := by
  subst hl
  rw [if_neg (dedup_ne_nil (List.map_eq_nil_iff.not.mpr hne)), withEntries_of_le hfree]

theorem exec_xscadd {s : State} {n : Nat} {w : Fields} {win : Nat → Win} {adds : List (Nat × AddVal)}
    (h : issuesWord s n w { op := 0x92, d := .mask, a := .v, b := .s, c := .v, fmts := [0, 1, 2, 11], flag := true, imm := 1 } = true)
    (hpart : 64 * (w.imm.toNat % 2) < fmtCount (wFmt w)) (hreach : lanesReach s n (selMask (getSeat s n) w.d) w.b w.c 6 64 64 win)
    (hout : ∀ i, (win i).isOwn = false)
    (hadds : adds = (selLanes (selMask (getSeat s n) w.d)).map fun i => ((win i).addr, scaddVal (getSeat s n) w i)) (hne : adds ≠ [])
    (hfree : (dedup (adds.map fun x => x.1 / 64)).length ≤ entriesFree (getCoach s (n / 16))) :
    exec (.xscadd n w) s = .next (advance (addAccess s n (.scadd adds false) (dedup (adds.map fun x => x.1 / 64)) []) n
      (nextPc (getSeat s n))) := by
  refine issueNext_done h (decide_eq_true hpart) (noneAwaits_nil s n) ?_
  dsimp only
  rw [← laneAddrs, hreach.wins, hreach.aligned, hreach.clean]
  rw [any_own_wins hout fun _ _ => rfl, firstExc_false, firstExc_false, firstExc_false, firstExc_nil]
  dsimp only
  exact scadd_takes ((filterMap_wins win (fun i h => (h.addr, scaddVal (getSeat s n) w i)) _).trans hadds.symm) hne hfree

/-- Settles O14, by the lanes that VGATHER writes, the cells that VSCATTER stores and the entries taken. -/
theorem gatherAndScatterResults : Obligations.GatherAndScatterResults := by
  refine ⟨fun s n w win h hreach hown => ?gather, fun s n w win blocks h hreach hblocks hne hfree => ?gatherOut,
    fun s n w win h hreach hown => ?scatter, fun s n w win adds h hpart hreach hout hadds hne hfree => ?scadd⟩
  case gather => exact ⟨_, exec_vgather_own h hreach hown, wroteV_vmap _ _ _ _ _⟩
  case gatherOut =>
    obtain ⟨got, he⟩ := exec_vgather_out h hreach hblocks hne hfree
    exact ⟨_, got, he, awaits_advance _ _ _ _, tookAccess_advance_putSeat _ _ _ _ _ _ _⟩
  case scatter =>
    obtain ⟨pois, he⟩ := exec_vscatter_own h hreach hown
    refine ⟨_, he, wentOn_advance _ _ _ (getSeat_storeCells _ _ _ _), fun a ha => ?_, fun i hi hlast => memVal_scatterCells s _ _ pois hi hlast⟩
    refine memByte_storeCells_of_notMem s pois fun u hu => ?_
    obtain ⟨i, hi, hlo, hhi⟩ := mem_scatterCells hu
    exact ha i hi ⟨hlo, hhi⟩
  case scadd =>
    exact ⟨_, exec_xscadd h hpart hreach hout hadds hne hfree, wentOn_advance _ _ _ (getSeat_addAccess _ _ _ _ _ _),
      tookAccess_advance _ _ _ _ _ _⟩

end Sys2Proof.Machine

/-! PROOFS. CVT: the lanes and scales that a conversion writes (R100, R101, R105, R113, R151 to R154). -/

namespace Sys2Proof.Machine

/-! ### Elements of a lane -/

theorem joinElems_lt (wd : Nat) : ∀ l : List Nat, joinElems wd l < 2 ^ (wd * l.length)
  | [] => by simp [joinElems]
  | e :: l => by
    have he : e % 2 ^ wd < 2 ^ wd := Nat.mod_lt _ (Nat.two_pow_pos _)
    rw [joinElems, List.length_cons, Nat.mul_succ, Nat.add_comm (wd * l.length), Nat.pow_add]
    calc e % 2 ^ wd + 2 ^ wd * joinElems wd l < 2 ^ wd + 2 ^ wd * joinElems wd l := by omega
      _ = 2 ^ wd * (joinElems wd l + 1) := by ring
      _ ≤ 2 ^ wd * 2 ^ (wd * l.length) := Nat.mul_le_mul_left _ (joinElems_lt wd l)

/-- R101: an element of joined elements. -/
theorem joinElems_elem (wd : Nat) : ∀ (l : List Nat) (e : Nat), e < l.length → joinElems wd l / 2 ^ (wd * e) % 2 ^ wd = lget 0 l e % 2 ^ wd
  | x :: l, 0, _ => by
    rw [joinElems, Nat.mul_zero, Nat.pow_zero, Nat.div_one, Nat.add_mul_mod_self_left, Nat.mod_mod, lget]
  | x :: l, e + 1, he => by
    have hx : x % 2 ^ wd < 2 ^ wd := Nat.mod_lt _ (Nat.two_pow_pos _)
    rw [joinElems, Nat.mul_succ, Nat.add_comm (wd * e), Nat.pow_add, ← Nat.div_div_eq_div_mul, Nat.add_mul_div_left _ _ (Nat.two_pow_pos _),
      Nat.div_eq_of_lt hx, Nat.zero_add, joinElems_elem wd l e (Nat.lt_of_succ_lt_succ he), lget]

theorem fmtWidth_mul_elems (f : Fmt) : fmtWidth f * (32 / fmtWidth f) = 32 := by cases f <;> rfl

theorem fmtCount_eq_lanes (f : Fmt) : fmtCount f = 64 * (32 / fmtWidth f) := by cases f <;> rfl

theorem elem_lt_of_lane {i e k : Nat} (hi : i < 64) (he : e < k) : i * k + e < 64 * k :=
  calc i * k + e < (i + 1) * k := by rw [Nat.succ_mul]; omega
    _ ≤ 64 * k := Nat.mul_le_mul_right _ hi

/-- R101: each element of a lane is one of the register's. -/
theorem elem_lt_fmtCount {f : Fmt} {i e : Nat} (hi : i < 64) (he : e < 32 / fmtWidth f) : i * (32 / fmtWidth f) + e < fmtCount f :=
  fmtCount_eq_lanes f ▸ elem_lt_of_lane hi he

/-- R101: an element of a lane built from its elements. -/
theorem elemOf_joinElems {f : Fmt} {l : List Nat} (hl : l.length = 32 / fmtWidth f) {e : Nat} (he : e < 32 / fmtWidth f) :
    elemOf (BitVec.ofNat 32 (joinElems (fmtWidth f) l)) (fmtWidth f) e = lget 0 l e % 2 ^ fmtWidth f := by
  have hlt := joinElems_lt (fmtWidth f) l
  rw [hl, fmtWidth_mul_elems] at hlt
  rw [elemOf, BitVec.toNat_ofNat, Nat.mod_eq_of_lt hlt, joinElems_elem _ _ _ (hl ▸ he)]

theorem elemOf_mod (x : W32) (wd e : Nat) : elemOf x wd e % 2 ^ wd = elemOf x wd e := Nat.mod_eq_of_lt (elemOf_lt x wd e)

/-! ### Lists without repeats -/

theorem mem_dedup (l : List Nat) (a : Nat) : a ∈ dedup l ↔ a ∈ l := by
  have hfold : ∀ (l acc : List Nat), a ∈ l.foldl (fun acc n => if acc.contains n then acc else acc ++ [n]) acc ↔ a ∈ acc ∨ a ∈ l := by
    intro l
    induction l with
    | nil => intro acc; simp
    | cons b l ih =>
      intro acc
      rw [List.foldl_cons, ih, List.mem_cons]
      split
      · next hb =>
        have hmem : b ∈ acc := by simpa using hb
        exact ⟨fun h => h.imp_right .inr, fun h => h.elim .inl fun h => h.elim (fun h => .inl (h ▸ hmem)) .inr⟩
      · rw [List.mem_append, List.mem_singleton, or_assoc]
  rw [dedup, hfold]
  simp

/-! ### The parts of a conversion -/

/-- R113: the lanes of the destination that a conversion reaches. -/
def cvtLanes (w : Fields) : List Nat :=
  dedup ((cvtRange (cvtSrc w) (wFmt w) (cvtPart w)).map fun j => j / (32 / fmtWidth (wFmt w)))

/-- R154: the scale of each block of the destination that a conversion writes. -/
def cvtScales (t : Seat) (w : Fields) : List (Nat × Nat × Bool) :=
  if fmtIsMx (wFmt w) then
    (cvtBlocks (cvtSrc w) (wFmt w) (cvtPart w)).map fun m =>
      let vs := cvtBlockVals t (cvtSrc w) (wFmt w) (w.a.toNat - 32) (cvtSs w) (cvtPart w) m
      (m, blockScale (wFmt w) (vs.map Prod.fst), vs.any Prod.snd)
  else []

/-- R113, R151 to R154: element `e` of lane `i` of the destination after a conversion, and the poison it brings. -/
def cvtElem (s : State) (t : Seat) (w : Fields) (i e : Nat) : Nat × Bool :=
  let old := vget t (w.d.toNat - 32) i
  let j := i * (32 / fmtWidth (wFmt w)) + e
  match cvtFrom (cvtSrc w) (wFmt w) (cvtPart w) j with
  | none => (elemOf old.1 (fmtWidth (wFmt w)) e, old.2)
  | some g =>
    let x := cvtVal t (cvtSrc w) (w.a.toNat - 32) (cvtSs w) g
    if fmtIsMx (wFmt w) then
      match (cvtScales t w).find? fun b => b.1 == j / 32 with
      | some b => (mxEncode (wFmt w) (wRm w) (drawFor s t j) b.2.1 x.1, b.2.2)
      | none => (0, x.2)
    else (roundNum (wFmt w) (wRm w) (wSat w) (drawFor s t j) x.1, x.2)

/-- R101, R105: lane `i` of the destination, when a conversion reaches it. -/
def cvtLane (s : State) (t : Seat) (w : Fields) (i : Nat) : W32 × Bool :=
  let parts := (rangeFrom 0 (32 / fmtWidth (wFmt w))).map (cvtElem s t w i)
  (BitVec.ofNat 32 (joinElems (fmtWidth (wFmt w)) (parts.map Prod.fst)), parts.any Prod.snd)

/-- R113: a scale put into its register: the step of the scales. -/
def putScaleOf (w : Fields) (u : Seat) (b : Nat × Nat × Bool) : Seat := putScale u (wFmt w) (cvtDs w) b.1 b.2.1 b.2.2

theorem cvtSeat_eq (s : State) (t : Seat) (w : Fields) :
    cvtSeat s t w = (cvtScales t w).foldl (putScaleOf w)
      (putLanes t (w.d.toNat - 32) (selMask t w.c) (cvtLane s t w) (cvtLanes w)) := rfl

theorem issuesCvt_iff {s : State} {n : Nat} {w : Fields} : issuesCvt s n w = true ↔
    issuesWord s n w { op := 0x50, d := .v, a := .v, c := .mask, fmts := [0, 1, 2, 3, 4, 5, 6, 7, 8, 9, 10, 11], rounds := true,
                       imm := 0x3FF7F } = true ∧
      (decide (w.imm.toNat % 16 < 12) && decide (cvtPart w < cvtParts (cvtSrc w) (wFmt w)) && scaleOk (cvtSrc w) (cvtSs w) &&
        scaleOk (wFmt w) (cvtDs w) && !(fmtIsMx (wFmt w) && w.c.getLsbD 5)) = true ∧
      noneAwaits s n (scaleRegs (cvtSrc w) (cvtSs w) ++ scaleRegs (wFmt w) (cvtDs w)) = true := by
  simp only [issuesCvt, noneAwaits, Bool.and_eq_true, and_assoc]

theorem exec_cvt {s : State} {n : Nat} {w : Fields} (h : issuesCvt s n w = true) :
    exec (.cvt n w) s = .next (advance (putSeat s n (cvtSeat s (getSeat s n) w)) n (nextPc (getSeat s n))) := by
  obtain ⟨hword, hfits, hawait⟩ := issuesCvt_iff.mp h
  exact issueNext_done hword hfits hawait rfl

/-! ### What a conversion leaves -/

theorem mem_cvtRange (src dst : Fmt) (p j : Nat) : j ∈ cvtRange src dst p ↔ j < fmtCount dst ∧ (cvtFrom src dst p j).isSome = true := by
  rw [cvtRange, List.mem_filter, mem_rangeFrom]
  exact and_congr_left fun _ => by omega

/-- R113: a lane is reached when one of its elements lies in the converted range. -/
theorem mem_cvtLanes (w : Fields) (i : Nat) : i ∈ cvtLanes w ↔ i < 64 ∧ ∃ e, e < 32 / fmtWidth (wFmt w) ∧
    (cvtFrom (cvtSrc w) (wFmt w) (cvtPart w) (i * (32 / fmtWidth (wFmt w)) + e)).isSome = true := by
  have hcount := fmtCount_eq_lanes (wFmt w)
  have hmul := fmtWidth_mul_elems (wFmt w)
  rw [cvtLanes, mem_dedup, List.mem_map]
  generalize 32 / fmtWidth (wFmt w) = k at *
  have hk : 0 < k := Nat.pos_of_ne_zero fun h => by simp [h] at hmul
  constructor
  · rintro ⟨j, hj, rfl⟩
    obtain ⟨hlt, hfrom⟩ := (mem_cvtRange _ _ _ _).mp hj
    refine ⟨(Nat.div_lt_iff_lt_mul hk).mpr (hcount ▸ hlt), j % k, Nat.mod_lt _ hk, ?_⟩
    rwa [Nat.div_add_mod']
  · rintro ⟨hi, e, he, hfrom⟩
    refine ⟨i * k + e, (mem_cvtRange _ _ _ _).mpr ⟨?_, hfrom⟩, ?_⟩
    · calc i * k + e < 64 * k := elem_lt_of_lane hi he
        _ = fmtCount (wFmt w) := hcount.symm
    · rw [Nat.mul_comm, Nat.mul_add_div hk, Nat.div_eq_of_lt he, Nat.add_zero]

/-- A conversion leaves all of its seat but scalar registers and lanes. -/
theorem cvtSeat_rest (s : State) (t : Seat) (w : Fields) :
    cvtSeat s t w = { t with sreg := (cvtSeat s t w).sreg, vlane := (cvtSeat s t w).vlane } := by
  have hscales : { cvtSeat s t w with sreg := t.sreg, vlane := t.vlane } = t := by
    rw [cvtSeat_eq]
    refine (foldl_view_kept (f := putScaleOf w) (view := fun u : Seat => { u with sreg := t.sreg, vlane := t.vlane }) _ _
      fun _ _ _ => rfl).trans ?_
    rw [putLanes_rest]
  exact congrArg (fun u : Seat => { u with sreg := (cvtSeat s t w).sreg, vlane := (cvtSeat s t w).vlane }) hscales

theorem vget_foldl_putScaleOf (w : Fields) (l : List (Nat × Nat × Bool)) (t : Seat) (v i : Nat) :
    vget (l.foldl (putScaleOf w) t) v i = vget t v i :=
  foldl_view_kept (view := fun u : Seat => vget u v i) l t fun _ _ _ => rfl

/-- R111, R154: the blocks of an MXFP4 register fill two scale registers. -/
theorem div_eight_lt_of_mem_cvtScales {t : Seat} {w : Fields} {b : Nat × Nat × Bool} (hb : b ∈ cvtScales t w)
    (hf : wFmt w = .mxE2m1) : b.1 / 8 < 2 := by
  rw [cvtScales] at hb
  split at hb
  · obtain ⟨m, hm, rfl⟩ := List.mem_map.mp hb
    rw [cvtBlocks, mem_dedup, List.mem_map] at hm
    obtain ⟨j, hj, rfl⟩ := hm
    obtain ⟨hlt, _⟩ := (mem_cvtRange _ _ _ _).mp hj
    rw [hf, show fmtCount .mxE2m1 = 512 from rfl] at hlt
    dsimp only
    omega
  · exact absurd hb List.not_mem_nil

theorem cvtScales_eq_nil {t : Seat} {w : Fields} (hf : fmtIsMx (wFmt w) = false) : cvtScales t w = [] := by
  rw [cvtScales, hf]
  rfl

/-- R113: the scales of a conversion go to the registers that DS names. -/
theorem sget_foldl_putScaleOf (w : Fields) (t u : Seat) {r : Nat} (hr : r ∉ scaleRegs (wFmt w) (cvtDs w)) :
    sget ((cvtScales t w).foldl (putScaleOf w) u) r = sget u r := by
  refine foldl_view_kept (view := fun u : Seat => sget u r) _ u fun b hb u => ?_
  have hmx : fmtIsMx (wFmt w) = true := by
    cases hf : fmtIsMx (wFmt w) with
    | true => rfl
    | false => exact absurd (cvtScales_eq_nil hf ▸ hb) List.not_mem_nil
  rw [scaleRegs, hmx, if_pos rfl] at hr
  refine sget_sset_ne u _ _ ?_
  rintro rfl
  by_cases hf : wFmt w = .mxE2m1
  · have hlt := div_eight_lt_of_mem_cvtScales hb hf
    rw [if_pos hf, if_pos hf] at hr
    simp only [List.mem_cons, List.not_mem_nil, or_false] at hr
    omega
  · rw [if_neg hf, if_neg hf] at hr
    exact hr (List.mem_singleton.mpr rfl)

theorem sget_cvtSeat (s : State) (t : Seat) (w : Fields) {r : Nat} (hr : r ∉ scaleRegs (wFmt w) (cvtDs w)) :
    sget (cvtSeat s t w) r = sget t r := by
  rw [cvtSeat_eq, sget_foldl_putScaleOf w t _ hr, putLanes_rest]
  rfl

/-! ### The lanes of a conversion to a format without scales -/

/-- R105, R113: a lane of the destination after a conversion. -/
theorem vget_cvtSeat (s : State) (t : Seat) (w : Fields) (v : Nat) {i : Nat} (hi : i < 64) :
    vget (cvtSeat s t w) v i =
      if v = w.d.toNat - 32 ∧ i ∈ cvtLanes w ∧ (selMask t w.c).getLsbD i = true then cvtLane s t w i else vget t v i := by
  rw [cvtSeat_eq, vget_foldl_putScaleOf]
  exact vget_putLanes _ _ _ _ (fun i hi => ((mem_cvtLanes w i).mp hi).1) v hi

theorem elemOf_cvtLane (s : State) (t : Seat) (w : Fields) (i : Nat) {e : Nat} (he : e < 32 / fmtWidth (wFmt w)) :
    elemOf (cvtLane s t w i).1 (fmtWidth (wFmt w)) e = (cvtElem s t w i e).1 % 2 ^ fmtWidth (wFmt w) := by
  rw [cvtLane]
  dsimp only
  rw [elemOf_joinElems (by rw [List.length_map, List.length_map, rangeFrom_eq_range', List.length_range']) he, List.map_map,
    lget_map_rangeFrom _ _ _ _ _ he, Nat.zero_add]
  rfl

theorem snd_cvtLane (s : State) (t : Seat) (w : Fields) (i : Nat) :
    (cvtLane s t w i).2 = (List.range (32 / fmtWidth (wFmt w))).any fun e => (cvtElem s t w i e).2 := by
  rw [cvtLane]
  dsimp only
  rw [rangeFrom_zero_eq_range, List.any_map]
  rfl

section
variable {s : State} {t : Seat} {w : Fields} {i e : Nat}

theorem cvtElem_of_none (h : cvtFrom (cvtSrc w) (wFmt w) (cvtPart w) (i * (32 / fmtWidth (wFmt w)) + e) = none) :
    cvtElem s t w i e = (elemOf (vget t (w.d.toNat - 32) i).1 (fmtWidth (wFmt w)) e, (vget t (w.d.toNat - 32) i).2) := by
  rw [cvtElem]
  dsimp only
  rw [h]

/-- R151: an element converted to a format without scales is rounded once. -/
theorem cvtElem_of_some {g : Nat} (hmx : fmtIsMx (wFmt w) = false)
    (h : cvtFrom (cvtSrc w) (wFmt w) (cvtPart w) (i * (32 / fmtWidth (wFmt w)) + e) = some g) :
    cvtElem s t w i e = (roundNum (wFmt w) (wRm w) (wSat w) (drawFor s t (i * (32 / fmtWidth (wFmt w)) + e))
      (cvtVal t (cvtSrc w) (w.a.toNat - 32) (cvtSs w) g).1, (cvtVal t (cvtSrc w) (w.a.toNat - 32) (cvtSs w) g).2) := by
  rw [cvtElem]
  dsimp only
  rw [h, hmx]
  rfl

/-- R113: an element of the destination that no source element becomes stays. -/
theorem elemOf_cvtSeat_of_none (hi : i < 64) (he : e < 32 / fmtWidth (wFmt w))
    (h : cvtFrom (cvtSrc w) (wFmt w) (cvtPart w) (i * (32 / fmtWidth (wFmt w)) + e) = none) :
    elemOf (vget (cvtSeat s t w) (w.d.toNat - 32) i).1 (fmtWidth (wFmt w)) e =
      elemOf (vget t (w.d.toNat - 32) i).1 (fmtWidth (wFmt w)) e := by
  rw [vget_cvtSeat _ _ _ _ hi]
  split
  · rw [elemOf_cvtLane _ _ _ _ he, cvtElem_of_none h, elemOf_mod]
  · rfl

/-- R113, R151: an element of the destination that a source element becomes, when its lane is selected. -/
theorem elemOf_cvtSeat_of_some {g : Nat} (hmx : fmtIsMx (wFmt w) = false) (hi : i < 64) (he : e < 32 / fmtWidth (wFmt w))
    (h : cvtFrom (cvtSrc w) (wFmt w) (cvtPart w) (i * (32 / fmtWidth (wFmt w)) + e) = some g) :
    elemOf (vget (cvtSeat s t w) (w.d.toNat - 32) i).1 (fmtWidth (wFmt w)) e =
      if (selMask t w.c).getLsbD i ∧ i * (32 / fmtWidth (wFmt w)) + e < fmtCount (wFmt w) then
        roundNum (wFmt w) (wRm w) (wSat w) (drawFor s t (i * (32 / fmtWidth (wFmt w)) + e))
          (cvtVal t (cvtSrc w) (w.a.toNat - 32) (cvtSs w) g).1 % 2 ^ fmtWidth (wFmt w)
      else elemOf (vget t (w.d.toNat - 32) i).1 (fmtWidth (wFmt w)) e := by
  have hlane : i ∈ cvtLanes w := (mem_cvtLanes w i).mpr ⟨hi, e, he, Option.isSome_of_eq_some h⟩
  rw [vget_cvtSeat _ _ _ _ hi]
  by_cases hsel : (selMask t w.c).getLsbD i = true
  · rw [if_pos ⟨rfl, hlane, hsel⟩, if_pos ⟨hsel, elem_lt_fmtCount hi he⟩, elemOf_cvtLane _ _ _ _ he, cvtElem_of_some hmx h]
  · rw [if_neg fun ⟨_, _, h⟩ => hsel h, if_neg fun ⟨h, _⟩ => hsel h]

/-- R105, R113: a lane written is poisoned as one of its elements is. -/
theorem poison_cvtSeat (hi : i < 64) :
    (vget (cvtSeat s t w) (w.d.toNat - 32) i).2 =
      if (selMask t w.c).getLsbD i ∧ ((List.range (32 / fmtWidth (wFmt w))).any fun e =>
          (cvtFrom (cvtSrc w) (wFmt w) (cvtPart w) (i * (32 / fmtWidth (wFmt w)) + e)).isSome) = true
      then (List.range (32 / fmtWidth (wFmt w))).any fun e => (cvtElem s t w i e).2
      else (vget t (w.d.toNat - 32) i).2 := by
  have hreach : i ∈ cvtLanes w ↔ ((List.range (32 / fmtWidth (wFmt w))).any fun e =>
      (cvtFrom (cvtSrc w) (wFmt w) (cvtPart w) (i * (32 / fmtWidth (wFmt w)) + e)).isSome) = true := by
    rw [mem_cvtLanes, List.any_eq_true]
    simp only [hi, true_and, List.mem_range]
  rw [vget_cvtSeat _ _ _ _ hi, if_congr (((and_iff_right rfl).trans and_comm).trans (and_congr_right fun _ => hreach)) rfl rfl]
  split
  · exact snd_cvtLane s t w i
  · rfl

end

/-- Settles O8: a conversion writes the lanes of `cvtLanes` from their elements, and the scales that DS names. -/
theorem conversionResults : Obligations.ConversionResults := by
  intro s n w h
  refine ⟨_, exec_cvt h, onlySeat_advance _ _ _ _, ?_, ?_, ?_, fun v i hv hi => ?_, fun r hr => ?_, fun hmx i e hi he => ?_,
    fun hmx i hi => ?_⟩ <;> rw [getSeat_advance]
  · rw [cvtSeat_rest]
    exact fun _ => rfl
  · rw [cvtSeat_rest]
    exact ⟨rfl, rfl, rfl, rfl, rfl, rfl, rfl⟩
  · exact (vget_cvtSeat s (getSeat s n) w v hi).trans (if_neg fun h => hv h.1)
  · exact sget_cvtSeat s (getSeat s n) w hr
  · cases hfrom : cvtFrom (cvtSrc w) (wFmt w) (cvtPart w) (i * (32 / fmtWidth (wFmt w)) + e) with
    | none => exact elemOf_cvtSeat_of_none hi he hfrom
    | some g => exact elemOf_cvtSeat_of_some hmx hi he hfrom
  · refine (poison_cvtSeat hi).trans (if_congr Iff.rfl (congrArg _ (funext fun e => ?_)) rfl)
    cases hfrom : cvtFrom (cvtSrc w) (wFmt w) (cvtPart w) (i * (32 / fmtWidth (wFmt w)) + e) with
    | none => rw [cvtElem_of_none hfrom]
    | some g => rw [cvtElem_of_some hmx hfrom]

end Sys2Proof.Machine

/-! PROOFS. Sets of additions: the lane that a list of additions leaves, in a form that shows no order and no split (R155 to R162). -/

namespace Sys2Proof.Machine

/-! ### What a set of additions comes to -/

/-- R156, R157, R159: what an addition brings to VALUE while the lane does not overflow, in units of 2^-149. -/
def AddVal.toUnits : AddVal → Int
  | .units n => n
  | .special | .poisoned => 0

/-- R157: an addition below 2^138 in magnitude: every element that does not set OVF by itself. -/
def AddVal.Bounded (v : AddVal) : Prop := |v.toUnits| < accLimit

/-- The exact sum of a set of additions. -/
def unitsSum (l : List AddVal) : Int := (l.map AddVal.toUnits).sum

/-- R157: a set of additions that sets OVF: one of them does so by itself, or there are more than 2^31 of them. -/
def overflows (l : List AddVal) : Bool := decide (.special ∈ l ∨ 2 ^ 31 < l.length)

/-- R162: the lane that a set of additions leaves of a zeroed lane. -/
def laneAfter (l : List AddVal) : XLane :=
  if overflows l then { value := 0, adds := 0xFFFFFFFF, ovf := true, poi := decide (.poisoned ∈ l) }
  else { value := BitVec.ofInt 320 (unitsSum l), adds := BitVec.ofNat 32 l.length, ovf := false, poi := decide (.poisoned ∈ l) }

theorem accLimit_pos : 0 < accLimit := Int.pow_pos (by decide)

theorem bounded_special : AddVal.special.Bounded := accLimit_pos

theorem bounded_poisoned : AddVal.poisoned.Bounded := accLimit_pos

theorem bounded_addValOf (x : Num) (sub : Bool) : (addValOf x sub).Bounded := by
  cases x with
  | nan | inf => exact bounded_special
  | fin neg m e =>
    simp only [addValOf]
    split
    · exact bounded_special
    · next h => exact abs_lt.mpr ⟨lt_of_not_ge fun hle => h (.inr hle), lt_of_not_ge fun hge => h (.inl hge)⟩

theorem abs_unitsSum_le {l : List AddVal} (h : ∀ v ∈ l, v.Bounded) : |unitsSum l| ≤ l.length * accLimit := by
  induction l with
  | nil => simp [unitsSum]
  | cons v l ih =>
    have hv : |v.toUnits| ≤ accLimit := (h v List.mem_cons_self).le
    have hl := ih fun u hu => h u (List.mem_cons_of_mem _ hu)
    calc |unitsSum (v :: l)| ≤ |v.toUnits| + |unitsSum l| := abs_add_le _ _
      _ ≤ accLimit + l.length * accLimit := add_le_add hv hl
      _ = (v :: l).length * accLimit := by rw [List.length_cons]; push_cast; ring

/-- R157, Table 5.6: a set of additions that does not overflow stays inside the range of VALUE. -/
theorem abs_unitsSum_lt {l : List AddVal} (h : ∀ v ∈ l, v.Bounded) (hfit : overflows l = false) : |unitsSum l| < 2 ^ 319 := by
  have hlen : l.length ≤ 2 ^ 31 := not_lt.mp (not_or.mp (of_decide_eq_false hfit)).2
  calc |unitsSum l| ≤ l.length * accLimit := abs_unitsSum_le h
    _ ≤ 2 ^ 31 * 2 ^ 287 := mul_le_mul_of_nonneg_right (by exact_mod_cast hlen) accLimit_pos.le
    _ = 2 ^ 318 := (pow_add 2 31 287).symm
    _ < 2 ^ 319 := pow_lt_pow_right₀ (by decide) (by decide)

/-! ### The lane of a set of additions -/

theorem laneAfter_of_overflows {l : List AddVal} (h : overflows l = true) :
    laneAfter l = { value := 0, adds := 0xFFFFFFFF, ovf := true, poi := decide (.poisoned ∈ l) } := if_pos h

theorem laneAfter_of_fits {l : List AddVal} (h : overflows l = false) :
    laneAfter l =
      { value := BitVec.ofInt 320 (unitsSum l), adds := BitVec.ofNat 32 l.length, ovf := false, poi := decide (.poisoned ∈ l) } :=
  if_neg (by simp [h])

theorem ovf_laneAfter (l : List AddVal) : (laneAfter l).ovf = overflows l := by
  cases h : overflows l with
  | true => rw [laneAfter_of_overflows h]
  | false => rw [laneAfter_of_fits h]

theorem poi_laneAfter (l : List AddVal) : (laneAfter l).poi = decide (.poisoned ∈ l) := by
  rw [laneAfter]
  split <;> rfl

theorem toInt_value_laneAfter {l : List AddVal} (hl : ∀ v ∈ l, v.Bounded) (h : overflows l = false) :
    (laneAfter l).value.toInt = unitsSum l := by
  obtain ⟨hlo, hhi⟩ := abs_lt.mp (abs_unitsSum_lt hl h)
  rw [laneAfter_of_fits h]
  exact BitVec.toInt_ofInt_eq_self (by decide) hlo.le hhi

theorem toNat_adds_laneAfter {l : List AddVal} (h : overflows l = false) : (laneAfter l).adds.toNat = l.length := by
  have hlen : l.length ≤ 2 ^ 31 := not_lt.mp (not_or.mp (of_decide_eq_false h)).2
  rw [laneAfter_of_fits h]
  exact Nat.mod_eq_of_lt (by omega)

theorem laneAfter_nil : laneAfter [] = XLane.zero := by
  simp [laneAfter, overflows, unitsSum, XLane.zero]

/-- R162: the lane of a set of additions shows nothing of their order. -/
theorem laneAfter_perm {l m : List AddVal} (h : l.Perm m) : laneAfter l = laneAfter m := by
  have hovf : overflows l = overflows m := decide_eq_decide.mpr (by rw [h.mem_iff, h.length_eq])
  have hsum : unitsSum l = unitsSum m := (h.map AddVal.toUnits).sum_eq
  have hpoi : decide (AddVal.poisoned ∈ l) = decide (AddVal.poisoned ∈ m) := decide_eq_decide.mpr h.mem_iff
  rw [laneAfter, laneAfter, hovf, hsum, hpoi, h.length_eq]

/-! ### Lanes added to lanes -/

theorem overflows_append (l m : List AddVal) :
    overflows (l ++ m) = (overflows l || overflows m || decide (2 ^ 31 < l.length + m.length)) := by
  rw [Bool.eq_iff_iff]
  simp only [overflows, List.mem_append, List.length_append, Bool.or_eq_true, decide_eq_true_eq]
  constructor
  · rintro ((hl | hm) | hlen)
    exacts [.inl (.inl (.inl hl)), .inl (.inr (.inl hm)), .inr hlen]
  · rintro (((hl | hlen) | (hm | hlen)) | hlen)
    exacts [.inl (.inl hl), .inr (by omega), .inl (.inr hm), .inr (by omega), .inr hlen]

theorem unitsSum_append (l m : List AddVal) : unitsSum (l ++ m) = unitsSum l + unitsSum m := by
  simp [unitsSum]

/-- R157: additions into a lane that has overflowed change neither VALUE nor ADDS. -/
theorem addCounted_of_ovf {l : XLane} (h : l.ovf = true) (n : Int) (k : Nat) : l.addCounted n k = l := if_pos h

/-- R156, R157: a counted addition that exceeds neither ADDS nor the range of VALUE. -/
theorem addCounted_of_fits {l : XLane} (h : l.ovf = false) {n : Int} {k : Nat} (hk : l.adds.toNat + k ≤ 2 ^ 31)
    (hn : |l.value.toInt + n| < 2 ^ 319) :
    l.addCounted n k = { l with value := BitVec.ofInt 320 (l.value.toInt + n), adds := BitVec.ofNat 32 (l.adds.toNat + k) } := by
  obtain ⟨hlo, hhi⟩ := abs_lt.mp hn
  rw [XLane.addCounted, if_neg (by simp [h])]
  exact if_neg fun hout => hout.elim hk.not_gt fun h => h.elim hhi.not_ge hlo.not_gt

theorem poi_addCounted (l : XLane) (n : Int) (k : Nat) : (l.addCounted n k).poi = l.poi := by
  simp only [XLane.addCounted, XLane.overflow]
  split_ifs <;> rfl

theorem addCounted_of_tooMany {l : XLane} (h : l.ovf = false) (n : Int) {k : Nat} (hk : 2 ^ 31 < l.adds.toNat + k) :
    l.addCounted n k = l.overflow := by
  rw [XLane.addCounted, if_neg (by simp [h])]
  exact if_pos (.inl hk)

/-- R157, R159: an addition after which a lane has overflowed leaves the one state that overflow has. -/
theorem laneAfter_append_of_overflows {l m : List AddVal} (h : overflows (l ++ m) = true) :
    laneAfter (l ++ m) = { (laneAfter l).overflow with poi := (laneAfter l).poi || (laneAfter m).poi } := by
  simp only [laneAfter_of_overflows h, poi_laneAfter, XLane.overflow, List.mem_append, Bool.decide_or]

/-- R156: where neither of two sets of additions overflows, the sum and the number of the second count into the lane of the first. -/
theorem addCounted_laneAfter {l m : List AddVal} (hl : ∀ v ∈ l, v.Bounded) (hm : ∀ v ∈ m, v.Bounded) (hol : overflows l = false)
    (hom : overflows m = false) :
    { (laneAfter l).addCounted (unitsSum m) m.length with poi := (laneAfter l).poi || (laneAfter m).poi } = laneAfter (l ++ m) := by
  have hovf := (ovf_laneAfter l).trans hol
  have happend := overflows_append l m
  rw [hol, hom, Bool.false_or, Bool.false_or] at happend
  cases hop : overflows (l ++ m) with
  | true =>
    have hmany : 2 ^ 31 < l.length + m.length := of_decide_eq_true (happend.symm.trans hop)
    rw [laneAfter_append_of_overflows hop, addCounted_of_tooMany hovf]
    rwa [toNat_adds_laneAfter hol]
  | false =>
    have hfew : l.length + m.length ≤ 2 ^ 31 := not_lt.mp (of_decide_eq_false (happend.symm.trans hop))
    have hrange : |unitsSum l + unitsSum m| < 2 ^ 319 :=
      unitsSum_append l m ▸ abs_unitsSum_lt (List.forall_mem_append.mpr ⟨hl, hm⟩) hop
    rw [addCounted_of_fits hovf, toInt_value_laneAfter hl hol, toNat_adds_laneAfter hol, poi_laneAfter, poi_laneAfter, hovf,
      laneAfter_of_fits hop, unitsSum_append, List.length_append]
    · simp only [List.mem_append, Bool.decide_or]
    · rwa [toNat_adds_laneAfter hol]
    · rwa [toInt_value_laneAfter hl hol]

/-- R156, R162: a partial lane added to another leaves the lane of both sets of additions. -/
theorem addLane_laneAfter {l m : List AddVal} (hl : ∀ v ∈ l, v.Bounded) (hm : ∀ v ∈ m, v.Bounded) :
    (laneAfter l).addLane (laneAfter m) = laneAfter (l ++ m) := by
  have happend := overflows_append l m
  rw [XLane.addLane, ovf_laneAfter, ovf_laneAfter]
  cases hol : overflows l with
  | true =>
    rw [laneAfter_append_of_overflows (by simp [happend, hol]), addCounted_of_ovf ((ovf_laneAfter l).trans hol), if_pos rfl, ite_self,
      laneAfter_of_overflows hol]
    rfl
  | false =>
    cases hom : overflows m with
    | true =>
      rw [laneAfter_append_of_overflows (by simp [happend, hom])]
      rfl
    | false =>
      rw [if_neg Bool.false_ne_true, toInt_value_laneAfter hm hom, toNat_adds_laneAfter hom]
      exact addCounted_laneAfter hl hm hol hom

/-! ### Elements added to lanes -/

theorem withPoi_same {l : XLane} {p : Bool} (h : l.poi = p) : { l with poi := p } = l := by
  subst h
  rfl

theorem poi_addVal (l : XLane) (v : AddVal) : (l.addVal v).poi = (l.poi || decide (.poisoned ∈ [v])) := by
  cases v with
  | units n => simp [XLane.addVal, poi_addCounted]
  | special =>
    rw [XLane.addVal]
    split <;> simp [XLane.overflow]
  | poisoned => simp [XLane.addVal, XLane.addPoisoned]

/-- R156, R157, R159: an element added does what the lane of that one addition does when it is added. -/
theorem addVal_eq_addLane (l : XLane) {v : AddVal} (hv : v.Bounded) : l.addVal v = l.addLane (laneAfter [v]) := by
  have hone : ∀ u ∈ [v], u.Bounded := List.forall_mem_singleton.mpr hv
  have hcounted (hfit : overflows [v] = false) :
      l.addLane (laneAfter [v]) = { l.addCounted v.toUnits 1 with poi := l.poi || decide (.poisoned ∈ [v]) } := by
    rw [XLane.addLane, ovf_laneAfter, hfit, if_neg Bool.false_ne_true, toInt_value_laneAfter hone hfit, toNat_adds_laneAfter hfit,
      poi_laneAfter, unitsSum, List.map_singleton, List.sum_singleton, List.length_singleton]
  have hlane : l.addLane (laneAfter [v]) = { l.addVal v with poi := l.poi || decide (.poisoned ∈ [v]) } := by
    cases v with
    | units n => exact hcounted rfl
    | special => rw [XLane.addLane, ovf_laneAfter, poi_laneAfter]; rfl
    | poisoned => exact hcounted rfl
  rw [hlane, withPoi_same (poi_addVal l v)]

/-- R162: the elements of a set added one after another into the lane of another set. -/
theorem foldl_addVal_laneAfter {l m : List AddVal} (hl : ∀ v ∈ l, v.Bounded) (hm : ∀ v ∈ m, v.Bounded) :
    m.foldl XLane.addVal (laneAfter l) = laneAfter (l ++ m) := by
  induction m generalizing l with
  | nil => rw [List.foldl_nil, List.append_nil]
  | cons v m ih =>
    obtain ⟨hv, hm⟩ := List.forall_mem_cons.mp hm
    have hone : ∀ u ∈ [v], u.Bounded := List.forall_mem_singleton.mpr hv
    rw [List.foldl_cons, addVal_eq_addLane _ hv, addLane_laneAfter hl hone, ih (List.forall_mem_append.mpr ⟨hl, hone⟩) hm,
      List.append_assoc, List.singleton_append]

theorem foldl_addVal_zero {l : List AddVal} (hl : ∀ v ∈ l, v.Bounded) : l.foldl XLane.addVal XLane.zero = laneAfter l := by
  rw [← laneAfter_nil, foldl_addVal_laneAfter (List.forall_mem_nil _) hl, List.nil_append]

/-- R162: partial lanes added one after another leave the lane of all their additions. -/
theorem foldl_addLane_laneAfter {l : List AddVal} {ps : List (List AddVal)} (hl : ∀ v ∈ l, v.Bounded)
    (hps : ∀ m ∈ ps, ∀ v ∈ m, v.Bounded) :
    (ps.map laneAfter).foldl XLane.addLane (laneAfter l) = laneAfter (l ++ ps.flatten) := by
  induction ps generalizing l with
  | nil => rw [List.map_nil, List.foldl_nil, List.flatten_nil, List.append_nil]
  | cons m ps ih =>
    obtain ⟨hm, hps⟩ := List.forall_mem_cons.mp hps
    rw [List.map_cons, List.foldl_cons, addLane_laneAfter hl hm, ih (List.forall_mem_append.mpr ⟨hl, hm⟩) hps, List.flatten_cons,
      List.append_assoc]

/-! ### Records -/

theorem field_append_length (bs cs : List Byte) : field (bs ++ cs) 0 bs.length = leVal bs := by
  rw [field, List.drop_zero, List.take_left]

theorem field_append_add (bs cs : List Byte) (off n : Nat) : field (bs ++ cs) (bs.length + off) n = field cs off n := by
  rw [field, field, ← List.drop_drop, List.drop_left]

theorem field_recordBytes_value (l : XLane) : field (recordBytes l) 0 40 = l.value.toNat := by
  rw [recordBytes, List.append_assoc, List.append_assoc]
  refine (congrArg _ (length_leBytes 40 l.value.toNat).symm).trans ((field_append_length _ _).trans ?_)
  rw [leVal_leBytes]
  exact Nat.mod_eq_of_lt (l.value.isLt.trans_eq (pow_mul 2 8 40))

theorem field_recordBytes_adds (l : XLane) : field (recordBytes l) 0x28 4 = l.adds.toNat := by
  have hskip := field_append_add (leBytes 40 l.value.toNat)
  rw [recordBytes, List.append_assoc, List.append_assoc]
  rw [length_leBytes] at hskip
  refine (hskip _ 0 4).trans ?_
  refine (congrArg _ (length_leBytes 4 l.adds.toNat).symm).trans ((field_append_length _ _).trans ?_)
  exact leVal_leBytes_word l.adds

theorem field_recordBytes_flags (l : XLane) :
    field (recordBytes l) 0x2C 1 = (if l.ovf then 1 else 0) + (if l.poi then 2 else 0) := by
  have hskip := field_append_add (leBytes 40 l.value.toNat ++ leBytes 4 l.adds.toNat)
  rw [List.length_append, length_leBytes, length_leBytes] at hskip
  rw [recordBytes, List.append_assoc (_ ++ _)]
  refine (hskip _ 0 1).trans ?_
  cases l.ovf <;> cases l.poi <;> rfl

/-- R117, R160: the record that XST writes stands for the lane itself. -/
theorem recordLane_recordBytes (l : XLane) : recordLane (recordBytes l) = l := by
  rw [recordLane, field_recordBytes_value, field_recordBytes_adds, field_recordBytes_flags]
  obtain ⟨value, adds, ovf, poi⟩ := l
  cases ovf <;> cases poi <;> simp

/-- R162: elements added into zeroed partial lanes that are then combined leave the lane that they leave one after another. -/
theorem foldl_addLane_partials {ps : List (List AddVal)} (hps : ∀ l ∈ ps, ∀ v ∈ l, v.Bounded) :
    (ps.map fun l => l.foldl XLane.addVal XLane.zero).foldl XLane.addLane XLane.zero =
      ps.flatten.foldl XLane.addVal XLane.zero := by
  have hflat : ∀ v ∈ ps.flatten, v.Bounded := fun v hv => by
    obtain ⟨l, hl, hv⟩ := List.mem_flatten.mp hv
    exact hps l hl v hv
  rw [foldl_addVal_zero hflat, List.map_congr_left fun l hl => foldl_addVal_zero (hps l hl), ← laneAfter_nil,
    foldl_addLane_laneAfter (List.forall_mem_nil _) hps, List.nil_append]

/-- R156, R159: every element, poisoned or not, is added by a bounded addition. -/
theorem bounded_of_element {v : AddVal} (h : v = .poisoned ∨ ∃ x sub, v = addValOf x sub) : v.Bounded := by
  obtain rfl | ⟨x, sub, rfl⟩ := h
  · exact bounded_poisoned
  · exact bounded_addValOf x sub

/-- Settles O56: every order and every split leaves the lane `laneAfter` of the additions, and records stand for their lanes. -/
theorem additionsDependOnTheirSetAlone : Obligations.AdditionsDependOnTheirSetAlone := by
  refine ⟨fun l m hl hperm => ?_, fun ps hps => ?_⟩
  · have hbl : ∀ v ∈ l, v.Bounded := fun v hv => bounded_of_element (hl v hv)
    have hbm : ∀ v ∈ m, v.Bounded := fun v hv => hbl v (hperm.mem_iff.mpr hv)
    rw [foldl_addVal_zero hbl, foldl_addVal_zero hbm, laneAfter_perm hperm]
  · have hsplit := foldl_addLane_partials fun l hl v hv => bounded_of_element (hps l hl v hv)
    refine ⟨hsplit, ?_, fun f rm sat r => congrArg _ hsplit⟩
    simpa only [recordLane_recordBytes] using hsplit

end Sys2Proof.Machine

/-! PROOFS. Collectives: the list of collectives under replaced records, grants, sends and posts (R168 to R175, R306). -/

namespace Sys2Proof.Machine

/-! ### What sends and posts leave of the collectives -/

theorem Sends.colls {s t : State} (h : Sends s t) : t.colls = s.colls := by obtain ⟨_, _, _, rfl⟩ := h; rfl
theorem Sends.job {s t : State} (h : Sends s t) : t.host.job = s.host.job := by obtain ⟨_, _, _, rfl⟩ := h; rfl
theorem Posts.colls {s t : State} (h : Posts s t) : t.colls = s.colls := by obtain ⟨_, _, _, _, _, _, _, _, _, rfl⟩ := h; rfl

theorem collReport_colls (s : State) (n : Nat) (e : List Byte) : (collReport s n e).colls = s.colls := (postEntry_posts _ _ _).colls
theorem endCmd_colls (s : State) (c : Cmd) (status fld : Nat) : (endCmd s c status fld).colls = s.colls := (postEntry_posts _ _ _).colls
theorem endStep_colls (s : State) (x : Table) (r : StepRun) (status : Nat) : (endStep s x r status).colls = s.colls :=
  (postEntry_posts _ _ _).colls

theorem poolUsed_congr {s t : State} (h : t.colls = s.colls) (a b : Nat) : poolUsed t a b = poolUsed s a b := by
  rw [poolUsed, poolUsed, h]

theorem collOf_congr {s t : State} (h : t.colls.list = s.colls.list) (slot : Nat) : collOf t slot = collOf s slot := by
  rw [collOf, collOf, h]

/-! ### A record replaced -/

/-- The list that `putColl` leaves. -/
def replaceColl (l : List Coll) (d : Coll) : List Coll := l.map fun e => if e.uid = d.uid then d else e

theorem putColl_list (s : State) (d : Coll) : (putColl s d).colls.list = replaceColl s.colls.list d := rfl

@[simp] theorem replaceColl_cons_same {l : List Coll} {a d : Coll} (h : a.uid = d.uid) : replaceColl (a :: l) d = d :: replaceColl l d := by
  rw [replaceColl, List.map_cons, if_pos h]
  rfl

@[simp] theorem replaceColl_cons_other {l : List Coll} {a d : Coll} (h : a.uid ≠ d.uid) : replaceColl (a :: l) d = a :: replaceColl l d := by
  rw [replaceColl, List.map_cons, if_neg h]
  rfl

theorem mem_replaceColl {l : List Coll} {c d : Coll} (hc : c ∈ l) (huid : d.uid = c.uid) : d ∈ replaceColl l d :=
  List.mem_map.mpr ⟨c, hc, if_pos huid.symm⟩

theorem uids_replaceColl (d : Coll) : ∀ l : List Coll, (replaceColl l d).map Coll.uid = l.map Coll.uid
  | [] => rfl
  | a :: l => by
    by_cases h : a.uid = d.uid
    · rw [replaceColl_cons_same h, List.map_cons, List.map_cons, uids_replaceColl d l, h]
    · rw [replaceColl_cons_other h, List.map_cons, List.map_cons, uids_replaceColl d l]

/-- A record of another UID than the first with the properties does not stand before it with them. -/
theorem find_tail_of_uid_ne {p : Coll → Bool} {a c : Coll} {l : List Coll} (h : (a :: l).find? p = some c) (huid : a.uid ≠ c.uid) :
    ¬ p a = true ∧ l.find? p = some c := by
  have hp : ¬ p a = true := fun hp => by
    rw [List.find?_cons_of_pos hp] at h
    exact huid (congrArg Coll.uid (Option.some.inj h))
  rw [List.find?_cons_of_neg hp] at h
  exact ⟨hp, h⟩

/-- The replaced record is the first with its properties where the record that it replaces was. -/
theorem find_replaceColl_same {p : Coll → Bool} {c d : Coll} (huid : d.uid = c.uid) (hd : p d = true) :
    ∀ {l : List Coll}, l.find? p = some c → (replaceColl l d).find? p = some d
  | a :: l, h => by
    by_cases ha : a.uid = d.uid
    · rw [replaceColl_cons_same ha, List.find?_cons_of_pos hd]
    · obtain ⟨hp, htail⟩ := find_tail_of_uid_ne h fun hac => ha (hac.trans huid.symm)
      rw [replaceColl_cons_other ha, List.find?_cons_of_neg hp]
      exact find_replaceColl_same huid hd htail

/-- A record without the properties takes no place before the first one that has them. -/
theorem find_replaceColl_none {p : Coll → Bool} {c d : Coll} (huid : d.uid ≠ c.uid) (hd : ¬ p d = true) :
    ∀ {l : List Coll}, l.find? p = some c → (replaceColl l d).find? p = some c
  | a :: l, h => by
    by_cases ha : a.uid = d.uid
    · obtain ⟨-, htail⟩ := find_tail_of_uid_ne h (ha.trans_ne huid)
      rw [replaceColl_cons_same ha, List.find?_cons_of_neg hd]
      exact find_replaceColl_none huid hd htail
    · rw [replaceColl_cons_other ha]
      by_cases hp : p a = true
      · rwa [List.find?_cons_of_pos hp] at h ⊢
      · rw [List.find?_cons_of_neg hp] at h ⊢
        exact find_replaceColl_none huid hd h

/-- Another collective's record, replaced by one that has the properties just where the first of its UID has them, leaves the first
record that has them. -/
theorem find_replaceColl_other {p : Coll → Bool} {c d x : Coll} (huid : d.uid ≠ c.uid) (hpx : p d = p x) :
    ∀ {l : List Coll}, l.find? (fun e => e.uid == d.uid) = some x → l.find? p = some c → (replaceColl l d).find? p = some c
  | a :: l, hx, h => by
    by_cases ha : a.uid = d.uid
    · rw [List.find?_cons_of_pos (by simp [ha])] at hx
      obtain rfl := Option.some.inj hx
      obtain ⟨hp, -⟩ := find_tail_of_uid_ne h (ha.trans_ne huid)
      exact find_replaceColl_none huid (hpx ▸ hp) h
    · rw [List.find?_cons_of_neg (by simp [ha])] at hx
      rw [replaceColl_cons_other ha]
      by_cases hp : p a = true
      · rwa [List.find?_cons_of_pos hp] at h ⊢
      · rw [List.find?_cons_of_neg hp] at h ⊢
        exact find_replaceColl_other huid hpx hx h

theorem collOf_some {s : State} {slot : Nat} {c : Coll} (h : collOf s slot = some c) :
    c ∈ s.colls.list ∧ c.slot = slot ∧ c.phase ≠ .posted := by
  have hp := List.find?_some h
  simp only [Bool.and_eq_true, beq_iff_eq, bne_iff_ne] at hp
  exact ⟨List.mem_of_find?_eq_some h, hp⟩

/-- The collective of a SLOT, its record replaced by one of the same UID and SLOT. -/
theorem collOf_putColl {s : State} {slot : Nat} {c d : Coll} (hc : collOf s slot = some c) (huid : d.uid = c.uid) (hslot : d.slot = slot)
    (hphase : d.phase ≠ .posted) : collOf (putColl s d) slot = some d :=
  find_replaceColl_same huid (by simp [hslot, hphase]) hc

theorem findUid_putColl {s : State} {uid : Nat} {c d : Coll} (hc : s.colls.list.find? (fun e => e.uid == uid) = some c)
    (huid : d.uid = uid) : (putColl s d).colls.list.find? (fun e => e.uid == uid) = some d := by
  have hcu : c.uid = uid := by simpa using List.find?_some hc
  exact find_replaceColl_same (huid.trans hcu.symm) (by simp [huid]) hc

/-! ### The UIDs of the collectives -/

/-- The UIDs of the hub's collectives, in the order of the list. -/
def uids (s : State) : List Nat := s.colls.list.map Coll.uid

theorem uids_congr {s t : State} (h : t.colls.list = s.colls.list) : uids t = uids s := by rw [uids, uids, h]

@[simp] theorem uids_putColl (s : State) (d : Coll) : uids (putColl s d) = uids s := uids_replaceColl d _

theorem not_mem_uids {s : State} {uid : Nat} (h : uid ∉ uids s) : ∀ e ∈ s.colls.list, e.uid ≠ uid :=
  fun e he heq => h (List.mem_map.mpr ⟨e, he, heq⟩)

/-! ### Grants (R175) -/

/-- R175: a grant leaves every collective as it is, or replaces the first of its UID by one that differs in what is granted alone. -/
theorem grantOne_cases (s : State) (uid : Nat) : grantOne s uid = s ∨
    ∃ c g, s.colls.list.find? (fun e => e.uid == uid) = some c ∧ grantOne s uid = putColl s { c with granted := g } := by
  unfold grantOne
  split
  · next c hc =>
    dsimp only
    split
    · exact .inr ⟨c, _, hc, rfl⟩
    · exact .inl rfl
  · exact .inl rfl

/-- R175, R298: grants reserve chunks and then tell the senders. -/
theorem grantColl_sends (s : State) (uid : Nat) : Sends ((rangeFrom 0 4).foldl (fun s _ => grantOne s uid) s) (grantColl s uid) := by
  unfold grantColl
  dsimp only
  split
  · split
    · exact Sends.foldl (fun _ _ => sendCtl_sends _ _ _ _) _ _
    · exact Sends.refl _
  · exact Sends.refl _

theorem uids_grantOne (s : State) (uid : Nat) : uids (grantOne s uid) = uids s := by
  obtain h | ⟨c, g, -, h⟩ := grantOne_cases s uid
  · rw [h]
  · rw [h, uids_putColl]

theorem uids_grantColl (s : State) (uid : Nat) : uids (grantColl s uid) = uids s :=
  (uids_congr (congrArg Colls.list (grantColl_sends s uid).colls)).trans
    (foldl_keeps uids _ (fun u _ => uids_grantOne u uid) _ s)

theorem uids_grantAll (s : State) : uids (grantAll s) = uids s :=
  foldl_keeps uids (fun u (c : Coll) => grantColl u c.uid) (fun u c => uids_grantColl u c.uid) _ s

/-! ### Completion entries (R168, R170, R306) -/

/-- R306: room in a completion ring does not depend on the collectives. -/
theorem entryRoom_putColl (s : State) (c : Coll) (n : Nat) : entryRoom (putColl s c) n = entryRoom s n := rfl

theorem takeSteps_list (s : State) (t : Nat) : (takeSteps s t).colls.list = s.colls.list :=
  foldl_keeps (fun u => u.colls.list) _ (fun u o => by dsimp only; split <;> rfl) _ s

theorem failLink_list (s : State) (t : Nat) (raw : List Byte) : (failLink s t raw).colls.list = s.colls.list := by
  unfold failLink
  dsimp only
  repeat' split
  · rw [putTable_colls, endStep_colls, takeSteps_list]
  · rw [putTable_colls, endStep_colls]
  · rw [putTable_colls, endCmd_colls]
  · rfl
  · rw [putTable_colls, endCmd_colls]
  · rfl

theorem onRun_colls (s : State) (t : Nat) (f : StepRun → StepRun) : (onRun s t f).colls = s.colls := by
  rw [onRun]
  split
  · exact putTable_colls _ _ _
  · rfl

theorem outFailed_colls (s : State) (t : Nat) (raw : List Byte) (status : Nat) : (outFailed s t raw status).colls = s.colls := by
  unfold outFailed
  dsimp only
  repeat' split
  · exact onRun_colls _ _ _
  · exact putTable_colls _ _ _
  · exact putTable_colls _ _ _

theorem linkEnded_list (s : State) (id status : Nat) : (linkEnded s id status).colls.list = s.colls.list :=
  (foldl_keeps (fun u => u.colls.list) _ (fun _ _ => congrArg Colls.list (outFailed_colls _ _ _ _)) _ _).trans
    (foldl_keeps (fun u => u.colls.list) _ (fun _ _ => failLink_list _ _ _) _ s)

/-- R206, R213: the step that is told of a collective's end changes no collective. -/
theorem collTold_list (s : State) (c : Coll) : (collTold s c).colls.list = s.colls.list := by
  unfold collTold
  repeat' split
  · exact linkEnded_list _ _ _
  · rfl
  · rw [onRun_colls]
  · rw [onRun_colls]
  · rfl

theorem syncLevels_colls (s : State) : (syncLevels s).colls = s.colls :=
  foldl_keeps State.colls _ (fun _ _ => by simp only [regPut_colls]) _ s

/-- R191: held changes that apply put off start beats and end no collective. -/
theorem uids_releaseHeld (s : State) : uids (releaseHeld s) = uids s := by
  unfold releaseHeld
  extract_lets ws free p₀ p₁ p₂ t was now freed after
  have hafter : ∀ c, (after c).uid = c.uid := fun c => by
    dsimp only [after]
    split <;> rfl
  have ht : t.colls = s.colls := syncLevels_colls _
  rw [uids, List.map_map, ht]
  exact List.map_congr_left fun c _ => hafter c

/-- R306: the entries wait for room. -/
theorem tellColl_waits {s : State} {uid : Nat} {c : Coll} (hc : s.colls.list.find? (fun e => e.uid == uid) = some c)
    (hroom : ∃ n ∈ c.due, entryRoom s n = false) : tellColl s uid = s := by
  obtain ⟨n, hn, hfull⟩ := hroom
  have hall : ¬ (c.phase = .posting ∧ c.due.all (fun n => entryRoom s n) = true) := fun h =>
    Bool.false_ne_true (hfull.symm.trans (List.all_eq_true.mp h.2 n hn))
  unfold tellColl
  rw [hc]
  exact if_neg hall

/-- R168, R170: a collective whose entries are posted leaves. -/
theorem tellColl_leaves {s : State} {uid : Nat} {c : Coll} (hc : s.colls.list.find? (fun e => e.uid == uid) = some c)
    (hphase : c.phase = .posting) (hroom : ∀ n ∈ c.due, entryRoom s n = true) : uid ∉ uids (tellColl s uid) := by
  have hgone : ∀ (u : State) (x : Colls), x.list = u.colls.list.filter (fun e => e.uid != uid) → uid ∉ uids (collTold (putColls u x) c) := by
    intro u x hx
    rw [uids_congr (collTold_list _ _), uids, putColls_colls, hx]
    simp
  unfold tellColl
  rw [hc]
  dsimp only
  rw [if_pos ⟨hphase, List.all_eq_true.mpr hroom⟩, uids_grantAll]
  split
  · exact hgone _ _ rfl
  · rw [uids_releaseHeld]
    exact hgone _ _ rfl

/-- The record of a collective that has ended with a status. -/
def endedColl (c : Coll) (status fld : Nat) : Coll :=
  { c with phase := .posting, status := status, fld := fld, due := c.posts.map fun p => p.1 }

/-- R306: a collective that has ended stays until every member's ring has room. -/
theorem endColl_waits {s : State} {c : Coll} (hc : s.colls.list.find? (fun e => e.uid == c.uid) = some c) (status fld : Nat)
    (hroom : ∃ p ∈ c.posts, entryRoom s p.1 = false) : endColl s c status fld = putColl s (endedColl c status fld) := by
  obtain ⟨p, hp, hfull⟩ := hroom
  exact tellColl_waits (findUid_putColl (d := endedColl c status fld) hc rfl)
    ⟨p.1, List.mem_map.mpr ⟨p, hp, rfl⟩, (entryRoom_putColl _ _ _).trans hfull⟩

/-- R168, R170: a collective that has ended leaves when every member's ring has room. -/
theorem endColl_leaves {s : State} {c : Coll} (hc : s.colls.list.find? (fun e => e.uid == c.uid) = some c) (status fld : Nat)
    (hroom : ∀ p ∈ c.posts, entryRoom s p.1 = true) : ∀ e ∈ (endColl s c status fld).colls.list, e.uid ≠ c.uid := by
  refine not_mem_uids (tellColl_leaves (findUid_putColl (d := endedColl c status fld) hc rfl) rfl fun n hn => ?_)
  obtain ⟨p, hp, rfl⟩ := List.mem_map.mp hn
  exact (entryRoom_putColl _ _ _).trans (hroom p hp)

end Sys2Proof.Machine

/-! PROOFS. Collectives posted, unmatched, opened and granted over the P ports (R163 to R173, R191, R302). -/

namespace Sys2Proof.Machine

/-! ### Descriptors posted (R163, R165) -/

theorem exec_collective {s : State} {n op : Nat} {raw : List Byte} {i : Instr}
    (hi : (i, op) ∈ [(Instr.reduce (.port n) raw, 1), (.allReduce (.port n) raw, 2), (.reduceScatter (.port n) raw, 3),
      (.allGather (.port n) raw, 4), (.broadcast (.port n) raw, 5), (.allToAll (.port n) raw, 6)])
    (hlen : raw.length = 64) (hop : dOp raw = op) (hn : n < 8) (htakes : collTakes s n = true) : exec i s = .next (postColl s n raw) := by
  have hpost : exec i s = .next (collPost s (.port n) raw op) := by
    simp only [List.mem_cons, Prod.mk.injEq, List.not_mem_nil, or_false] at hi
    obtain ⟨rfl, rfl⟩ | ⟨rfl, rfl⟩ | ⟨rfl, rfl⟩ | ⟨rfl, rfl⟩ | ⟨rfl, rfl⟩ | ⟨rfl, rfl⟩ := hi <;> rfl
  rw [hpost, collPost, if_pos ⟨hlen, hop, htakes, hn⟩]

theorem postColl_refused {s : State} {n : Nat} {d : List Byte} {k : Nat × Bool}
    (hk : (descChecks s n d).find? (fun k => !k.2) = some k) :
    postColl s n d = collReport s n (collEntry (dId d) 6 k.1 0 s.drum.count 0 0 []) := by
  unfold postColl
  rw [hk]

theorem postColl_first {s : State} {n : Nat} {d : List Byte} (hok : (descChecks s n d).find? (fun k => !k.2) = none)
    (hnew : ∀ c ∈ s.colls.list, c.id ≠ dId d) (hports : dPorts d ≠ [n]) :
    postColl s n d = { s with colls :=
      { s.colls with list := s.colls.list ++ [newColl s.colls.made (dId d) n d s.drum.beats], made := s.colls.made + 1 } } := by
  have hposted : ¬ (s.colls.list.any fun c => c.id == dId d && c.posts.any fun p => p.1 == n) = true := fun h => by
    obtain ⟨c, hc, hid⟩ := List.any_eq_true.mp h
    exact hnew c hc (beq_iff_eq.mp (Bool.and_eq_true_iff.mp hid).1)
  have hwaits : s.colls.list.find? (fun c => c.phase == .posted && c.id == dId d) = none :=
    List.find?_eq_none.mpr fun c hc h => hnew c hc (beq_iff_eq.mp (Bool.and_eq_true_iff.mp h).2)
  unfold postColl
  rw [hok]
  dsimp only
  rw [if_neg hposted, hwaits]
  exact if_neg hports

/-! ### Unmatched collectives (R168) -/

theorem exec_collUnmatched {s : State} {c : Coll} (hc : s.colls.list.find? (fun e => e.phase == .posted && e.id == c.id) = some c)
    (hdue : c.since + max 2500 (regBits s rCollCtl 31 0) ≤ s.drum.beats) : exec (.collUnmatched c.id) s = .next (endColl s c 4 0) := by
  change execCollUnmatched c.id s = _
  rw [execCollUnmatched, hc]
  exact if_pos hdue

/-! ### Windows (R171, R173, R191) -/

/-- The record of a collective whose window opens. -/
def openedColl (s : State) (c : Coll) : Coll :=
  { c with phase := .opened, openBeat := s.drum.count, openMark := s.drum.beats, order := s.colls.opens }

/-- R171, R173: a window that is due and that nothing holds opens, next in the order of opening. -/
theorem openColl_opens {s : State} {c : Coll} (hphase : c.phase = .matched) (hdue : c.openAt.toNat ≤ s.drum.count.toNat)
    (hcut : cutHolds s (collPorts c) = false) (hheld : changeHolds s (collPorts c) = false) :
    (openColl s c).colls.list = replaceColl s.colls.list (openedColl s c) ∧ (openColl s c).colls.opens = s.colls.opens + 1 := by
  have hnow : ¬ (c.phase ≠ .matched ∨ ¬ c.openAt.ule s.drum.count = true) := fun h =>
    h.elim (fun h => h hphase) fun h => h (BitVec.ule_iff_toNat_le.mpr hdue)
  have hregs : ∀ u : State, u.colls = s.colls → u.drum = s.drum →
      replaceColl u.colls.list (openedColl u c) = replaceColl s.colls.list (openedColl s c) ∧ u.colls.opens + 1 = s.colls.opens + 1 :=
    fun u hcolls hdrum => by rw [openedColl, openedColl, hcolls, hdrum]; exact ⟨rfl, rfl⟩
  unfold openColl
  rw [if_neg hnow, hheld, hcut]
  simp only [Bool.false_eq_true, false_and, or_self, if_false]
  rw [putColls_colls]
  repeat' split
  · exact hregs s rfl rfl
  · exact hregs _ (by rw [regPut_colls, regAddSat_colls]) (by rw [regPut_drum, regAddSat_drum])
  · exact hregs _ (regAddSat_colls _ _ _ _ _) (regAddSat_drum _ _ _ _ _)

theorem exec_collWindowOpen {s : State} {slot : Nat} {c : Coll} (hc : collOf s slot = some c) :
    exec (.collWindowOpen slot) s = .next (openColl s c) := by
  change execCollWindowOpen slot s = _
  rw [execCollWindowOpen, hc]

/-! ### What is sent of a collective's data -/

/-- Two records of a collective that differ only in its data and in what has been sent. -/
structure SameWindow (c d : Coll) : Prop where
  uid : d.uid = c.uid
  slot : d.slot = c.slot
  phase : d.phase = c.phase
  served : d.served = c.served
  granted : d.granted = c.granted

theorem SameWindow.refl (c : Coll) : SameWindow c c := ⟨rfl, rfl, rfl, rfl, rfl⟩

theorem SameWindow.trans {c d e : Coll} (hcd : SameWindow c d) (hde : SameWindow d e) : SameWindow c e :=
  ⟨hde.uid.trans hcd.uid, hde.slot.trans hcd.slot, hde.phase.trans hcd.phase, hde.served.trans hcd.served, hde.granted.trans hcd.granted⟩

/-- What sending of a collective's data does: the state sends, and the record keeps its window. -/
def SendsOf (p q : State × Coll) : Prop := Sends p.1 q.1 ∧ SameWindow p.2 q.2

theorem SendsOf.refl (p : State × Coll) : SendsOf p p := ⟨Sends.refl _, SameWindow.refl _⟩

theorem SendsOf.trans {p q r : State × Coll} (hpq : SendsOf p q) (hqr : SendsOf q r) : SendsOf p r :=
  ⟨hpq.1.trans hqr.1, hpq.2.trans hqr.2⟩

theorem SendsOf.foldl {α : Type} {f : State × Coll → α → State × Coll} (h : ∀ p a, SendsOf p (f p a)) (l : List α) (p : State × Coll) :
    SendsOf p (l.foldl f p) :=
  List.foldlRecOn l f (SendsOf.refl p) fun q hq a _ => hq.trans (h q a)

theorem sendColl_sends (s : State) (uid n : Nat) (fl : List (Nat × List Byte)) : Sends s (sendColl s uid n fl) :=
  Sends.foldl (fun _ _ => sendTagged_sends _ _ _ _ _ _ _) _ _

theorem flushSeg_sendsOf (k result : Nat) (g : Seg) : ∀ (fuel : Nat) (s : State) (c : Coll), SendsOf (s, c) (flushSeg s c k result g fuel)
  | 0, _, _ => SendsOf.refl _
  | fuel + 1, s, c => by
    simp only [flushSeg]
    split
    · refine SendsOf.trans ?_ (flushSeg_sendsOf k result g fuel _ _)
      exact ⟨sendColl_sends _ _ _ _, ⟨rfl, rfl, rfl, rfl, rfl⟩⟩
    · exact SendsOf.refl _

/-- R187: units sent on over the P ports. -/
theorem flushX_sendsOf (s : State) (c : Coll) : SendsOf (s, c) (flushX s c) := by
  unfold flushX
  split
  · exact SendsOf.foldl (fun p e => (flushSeg_sendsOf _ _ _ _ _ _).trans (flushSeg_sendsOf _ _ _ _ _ _)) _ _
  · exact SendsOf.refl _

/-! ### Credits of a neighbour hub (R302) -/

/-- A list of keys set to one value: each of them reads as it. -/
theorem kget_foldl_kset_mem {α β : Type} [DecidableEq α] (d v : α) (key : β → Nat) {x : β} : ∀ {l : List β}, x ∈ l → ∀ m : KMap α,
    kget d (l.foldl (fun m y => kset d m (key y) v) m) (key x) = v := by
  have hkeep : ∀ (l : List β) (m : KMap α), kget d m (key x) = v → kget d (l.foldl (fun m y => kset d m (key y) v) m) (key x) = v :=
    fun l m hm => List.foldlRecOn (motive := fun m => kget d m (key x) = v) l _ hm fun m hm y _ => by
      rw [kget_kset]
      split
      · rfl
      · exact hm
  intro l hx
  induction l with
  | nil => exact absurd hx List.not_mem_nil
  | cons y l ih =>
    intro m
    obtain rfl | hx := List.mem_cons.mp hx
    · exact hkeep l _ (kget_kset_same _ _ _ _)
    · exact ih hx _

theorem granted_takeGrants (c : Coll) (g : EarlyGrant) {k : Nat} (hlo : g.first ≤ k) (hhi : k < g.first + g.count) :
    kget 0 (takeGrants c [g]).granted (2 ^ 32 * g.port + k) = 1 :=
  kget_foldl_kset_mem 0 1 (fun k => 2 ^ 32 * g.port + k) ((mem_rangeFrom _ _ _).mpr ⟨hlo, hhi⟩) c.granted

/-- The grant that a COLL_CREDIT brings. -/
def creditGrant (c : Ctl) : EarlyGrant := { port := c.port, slot := field c.msg 1 1, first := field c.msg 4 4, count := field c.msg 2 1 }

theorem exec_collCredit_matched {s u : State} {c : Ctl} {d : Coll} (hctl : takeCtl s c 0x11 (fromHub c) = (u, true))
    (hd : u.colls.list.find? (fun e => e.slot == field c.msg 1 1 && collCross u e) = some d) :
    exec (.collCredit c) s =
      .next (putColl (flushX u (takeGrants d [creditGrant c])).1 (flushX u (takeGrants d [creditGrant c])).2) := by
  change execCollCredit c s = _
  unfold execCollCredit
  rw [hctl]
  dsimp only
  rw [if_neg (by decide), hd]
  rfl

theorem exec_collCredit_early {s u : State} {c : Ctl} (hctl : takeCtl s c 0x11 (fromHub c) = (u, true))
    (hnone : u.colls.list.find? (fun e => e.slot == field c.msg 1 1 && collCross u e) = none) :
    exec (.collCredit c) s = .next { u with colls := { u.colls with grants := u.colls.grants ++ [creditGrant c] } } := by
  change execCollCredit c s = _
  unfold execCollCredit
  rw [hctl]
  dsimp only
  rw [if_neg (by decide), hnone]
  rfl

/-! ### Posts of a neighbour hub (R302) -/

/-- R302: a post that no collective here waits for is kept. -/
theorem exec_xhPost_kept {s u : State} {c : Ctl} (hctl : takeCtl s c 0x50 (fromHub c) = (u, true))
    (hnone : u.colls.list.find? (fun e => e.phase == .posted && e.id == field c.msg 4 4 && e.handed == [1]) = none) :
    ∃ v posts beat, Sends u v ∧ exec (.xhPost c) s = .next { v with colls := { v.colls with posts := posts ++
      [{ id := field c.msg 4 4, origin := field c.msg 2 2, digest := field c.msg 8 4, beat := beat }] } } := by
  have hsent : Sends u (if field c.msg 2 2 = (u.consist.cfg.topology.hubIndex + 1) % max 1 u.consist.cfg.topology.hubCount then u
      else sendFlit u 9 6 3 (2 ^ 54) c.msg) := by
    split
    · exact Sends.refl u
    · exact sendFlit_sends _ _ _ _ _ _
  change ∃ v posts beat, Sends u v ∧ execXhPost c s = _
  unfold execXhPost
  rw [hctl]
  dsimp only
  rw [if_neg (by decide)]
  generalize (if field c.msg 2 2 = (u.consist.cfg.topology.hubIndex + 1) % max 1 u.consist.cfg.topology.hubCount then u
    else sendFlit u 9 6 3 (2 ^ 54) c.msg) = v at hsent ⊢
  rw [← congrArg Colls.list hsent.colls] at hnone
  rw [hnone]
  exact ⟨v, _, _, hsent, rfl⟩

/-- Settles O46, by what a post, an end, an opening and a neighbour's messages make of the list of collectives. -/
theorem collectivePosts : Obligations.CollectivePosts := by
  refine ⟨fun s n op raw i hi hlen hop hn htakes => ?_, fun s c hc huid hdue => ?_, fun s slot c hc hphase hdue hcut hheld => ?_,
    fun s u c hctl => ⟨fun d hd => ?_, exec_collCredit_early hctl⟩, fun s u c hctl hnot => ?_⟩
  case refine_1 =>
    rw [exec_collective hi hlen hop hn htakes]
    exact ⟨fun k hk => congrArg _ (postColl_refused hk), fun hok hnew hports => congrArg _ (postColl_first hok hnew hports)⟩
  case refine_2 =>
    rw [exec_collUnmatched hc hdue]
    exact ⟨fun hroom => congrArg _ (endColl_waits huid 4 0 hroom), fun hroom => ⟨_, rfl, endColl_leaves huid 4 0 hroom⟩⟩
  case refine_3 =>
    obtain ⟨hlist, hopens⟩ := openColl_opens hphase hdue hcut hheld
    obtain ⟨-, hslot, -⟩ := collOf_some hc
    refine ⟨_, openedColl s c, exec_collWindowOpen hc, ?_, rfl, rfl, rfl, rfl, hopens, openColl_mem s c⟩
    rw [collOf_congr (hlist.trans (putColl_list s _).symm)]
    exact collOf_putColl hc rfl hslot CollPhase.noConfusion
  case refine_4 =>
    obtain ⟨hsends, hsame⟩ := flushX_sendsOf u (takeGrants d [creditGrant c])
    have hmatch := List.find?_some hd
    have hslot : d.slot = field c.msg 1 1 := beq_iff_eq.mp (Bool.and_eq_true_iff.mp hmatch).1
    refine ⟨_, _, exec_collCredit_matched hctl hd, ?_, hsame.uid, hsame.slot.trans hslot, hsends.mem, fun k hlo hhi => ?_⟩
    · have hmem := List.mem_of_find?_eq_some hd
      rw [putColl_list, hsends.colls]
      exact mem_replaceColl hmem hsame.uid
    · rw [hsame.granted]
      exact granted_takeGrants d (creditGrant c) hlo hhi
  case refine_5 =>
    have hnone : u.colls.list.find? (fun e => e.phase == .posted && e.id == field c.msg 4 4 && e.handed == [1]) = none :=
      List.find?_eq_none.mpr fun e he h => by
        simp only [Bool.and_eq_true, beq_iff_eq] at h
        obtain ⟨⟨hposted, hid⟩, hhanded⟩ := h
        exact (hnot e he).elim (fun h => h hposted) fun h => h.elim (fun h => h hid) fun h => h hhanded
    obtain ⟨v, posts, beat, hsends, hexec⟩ := exec_xhPost_kept hctl hnone
    have hlist : v.colls.list = u.colls.list := congrArg Colls.list hsends.colls
    exact ⟨_, _, hexec, List.mem_append_right _ List.mem_cons_self, rfl, rfl, rfl, hlist⟩

end Sys2Proof.Machine

/-! PROOFS. Collective data, chunks in turn, dispatches, completion and stalls (R170 to R186, R298 to R306). -/

namespace Sys2Proof.Machine

/-! ### A member's data (R175, R298) -/

theorem exec_collData {s u : State} {f : Flit} {c : Coll} (hzero : zeroFrom f.payload (nbits (flitHdr f) 18 11) = true)
    (hfree : nbits (flitHdr f) 5 0 = 0) (hlo : 1 ≤ nbits (flitHdr f) 18 11) (hhi : nbits (flitHdr f) 18 11 ≤ 240)
    (htake : takeFlit s f 7 2 true = (u, true)) (hjob : s.host.job.isSome = true)
    (hc : collOf u (nbits (flitHdr f) 57 52) = some c) (hport : f.port < 8) : exec (.collData f) s = .next (memberFlit u f c) := by
  have hok : (nbits (flitHdr f) 5 0 == 0 && decide (1 ≤ nbits (flitHdr f) 18 11) && decide (nbits (flitHdr f) 18 11 ≤ 240) &&
      zeroFrom f.payload (nbits (flitHdr f) 18 11)) = true := by simp [hzero, hfree, hlo, hhi]
  change execCollData f s = _
  unfold execCollData
  dsimp only
  rw [hok, htake]
  dsimp only
  rw [(takeFlit_sends htake).job, Option.isNone_eq_false_iff.mpr hjob, hc]
  exact congrArg Host.Outcome.next (if_pos hport : ite _ (memberFlit u f c) (neighbourFlit u f c) = _)

/-- R175: the flit that a member is to send next joins the staged chunk. -/
theorem memberFlit_stages {s : State} {f : Flit} {c : Coll} (hphase : c.phase = .opened) (hsender : f.port ∈ senders s c)
    (hnext : kget (0, 0) c.next f.port = (nbits (flitHdr f) 51 32, nbits (flitHdr f) 31 19))
    (hgrant : nbits (flitHdr f) 51 32 < kget 0 c.granted f.port) (hresult : nbit (flitHdr f) 6 = false)
    (hbytes : nbits (flitHdr f) 18 11 = min 240 (min (dChunk (collDesc c)) (sendBytes c - nbits (flitHdr f) 51 32 * dChunk (collDesc c)) -
      240 * nbits (flitHdr f) 31 19)) :
    ∃ rest old pois next, memberFlit s f c = putColl s { c with
      stage := rest ++ [{ port := f.port, chunk := nbits (flitHdr f) 51 32, bytes := old ++ f.payload.take (nbits (flitHdr f) 18 11),
                          pois := pois }]
      next := next } := by
  have hok : (!(senders s c).contains f.port || kget (0, 0) c.next f.port != (nbits (flitHdr f) 51 32, nbits (flitHdr f) 31 19) ||
      decide (kget 0 c.granted f.port ≤ nbits (flitHdr f) 51 32) || nbit (flitHdr f) 6 ||
      nbits (flitHdr f) 18 11 != min 240 (min (dChunk (collDesc c)) (sendBytes c - nbits (flitHdr f) 51 32 * dChunk (collDesc c)) -
        240 * nbits (flitHdr f) 31 19) || c.phase != .opened) = false := by
    rw [← hbytes]
    simp [hsender, hnext, hgrant, hresult, hphase]
  unfold memberFlit
  dsimp only
  rw [hok, if_neg Bool.false_ne_true]
  split
  · next g hg =>
    have hplace := List.find?_some hg
    simp only [Bool.and_eq_true, beq_iff_eq] at hplace
    rw [hplace.1, hplace.2]
    exact ⟨_, _, _, _, rfl⟩
  · exact ⟨_, _, _, _, rfl⟩

/-! ### The order in which chunks are served (R173) -/

theorem opensBefore_iff (a b : Coll) : opensBefore a b = true ↔
    a.startAt.toNat < b.startAt.toNat ∨ a.startAt.toNat = b.startAt.toNat ∧ a.id ≤ b.id := by
  simp [opensBefore, BitVec.toNat_inj]

theorem openedBefore_iff (a b : Coll) : openedBefore a b = true ↔
    a.phase = .opened ∧ (b.phase = .opened → a.order ≤ b.order) ∨
    a.phase ≠ .opened ∧ b.phase ≠ .opened ∧ opensBefore a b = true := by
  unfold openedBefore
  cases ha : a.phase == .opened <;> cases hb : b.phase == .opened <;>
    simp only [beq_iff_eq, beq_eq_false_iff_ne, ne_eq] at ha hb <;> simp [ha, hb]

theorem openedBefore_total (a b : Coll) : openedBefore a b = true ∨ openedBefore b a = true := by
  simp only [openedBefore_iff, opensBefore_iff]
  grind

theorem openedBefore_trans {a b c : Coll} (hab : openedBefore a b = true) (hbc : openedBefore b c = true) : openedBefore a c = true := by
  simp only [openedBefore_iff, opensBefore_iff] at *
  grind

theorem insColl_eq_orderedInsert (le : Coll → Coll → Bool) (c : Coll) : ∀ l : List Coll,
    insColl le c l = l.orderedInsert (fun a b => le a b = true) c
  | [] => rfl
  | a :: l => by rw [insColl, List.orderedInsert_cons, insColl_eq_orderedInsert le c l]

theorem sortColls_eq_insertionSort (le : Coll → Coll → Bool) : ∀ l : List Coll,
    sortColls le l = l.insertionSort fun a b => le a b = true
  | [] => rfl
  | a :: l => by
    rw [List.insertionSort_cons, ← sortColls_eq_insertionSort le l, ← insColl_eq_orderedInsert]
    rfl

theorem mem_sortColls {le : Coll → Coll → Bool} {l : List Coll} {c : Coll} : c ∈ sortColls le l ↔ c ∈ l := by
  rw [sortColls_eq_insertionSort, List.mem_insertionSort]

theorem pairwise_sortColls_openedBefore (l : List Coll) : (sortColls openedBefore l).Pairwise fun a b => openedBefore a b = true := by
  have htotal : Std.Total fun a b : Coll => openedBefore a b = true := ⟨openedBefore_total⟩
  have htrans : IsTrans Coll fun a b => openedBefore a b = true := ⟨fun _ _ _ => openedBefore_trans⟩
  rw [sortColls_eq_insertionSort]
  exact List.pairwise_insertionSort _ l

theorem opened_of_chunkReady {s : State} {c : Coll} (h : chunkReady s c = true) : c.phase = .opened := by
  by_contra hphase
  unfold chunkReady at h
  dsimp only at h
  rw [if_pos (Or.inl hphase)] at h
  exact Bool.false_ne_true h

/-- The collectives of which a chunk can be served, in the order in which their windows opened. -/
def servable (s : State) : List Coll := sortColls openedBefore (s.colls.list.filter fun c => chunkReady s c)

theorem mem_servable {s : State} {c : Coll} : c ∈ servable s ↔ c ∈ s.colls.list ∧ chunkReady s c = true := by
  rw [servable, mem_sortColls, List.mem_filter]

theorem pairwise_servable (s : State) : (servable s).Pairwise fun a b => a.order ≤ b.order :=
  List.Pairwise.imp_of_mem (fun ha hb hab =>
    ((openedBefore_iff _ _).mp hab).elim (fun h => h.2 (opened_of_chunkReady (mem_servable.mp hb).2))
      fun h => absurd (opened_of_chunkReady (mem_servable.mp ha).2) h.1)
    (pairwise_sortColls_openedBefore _)

/-- R173: the collective whose turn it is: the first whose window opened at the turn or later, else the first of all. -/
theorem nextServed_cases {s : State} {c : Coll} (h : nextServed s = some c) : c ∈ servable s ∧
    ((s.colls.turn ≤ c.order ∧ ∀ e ∈ servable s, s.colls.turn ≤ e.order → c.order ≤ e.order) ∨
     ((∀ e ∈ servable s, e.order < s.colls.turn) ∧ ∀ e ∈ servable s, c.order ≤ e.order)) := by
  have hsorted := pairwise_servable s
  change (match (servable s).find? (fun c => decide (s.colls.turn ≤ c.order)) with
    | some c => some c
    | none => (servable s).head?) = some c at h
  split at h
  · next d hd =>
    obtain rfl := Option.some.inj h
    obtain ⟨hturn, before, after, hlist, hbefore⟩ := List.find?_eq_some_iff_append.mp hd
    refine ⟨List.mem_of_find?_eq_some hd, .inl ⟨of_decide_eq_true hturn, fun e he hle => ?_⟩⟩
    rw [hlist] at he hsorted
    obtain he | he := List.mem_append.mp he
    · simpa [hle] using hbefore e he
    · obtain rfl | he := List.mem_cons.mp he
      · exact Nat.le_refl _
      · exact List.rel_of_pairwise_cons (List.pairwise_append.mp hsorted).2.1 he
  · next hnone =>
    have hpast : ∀ e ∈ servable s, e.order < s.colls.turn := fun e he => by simpa using List.find?_eq_none.mp hnone e he
    refine ⟨List.mem_of_mem_head? h, .inr ⟨hpast, fun e he => ?_⟩⟩
    obtain ⟨rest, hlist⟩ := List.head?_eq_some_iff.mp h
    rw [hlist] at he hsorted
    obtain rfl | he := List.mem_cons.mp he
    · exact Nat.le_refl _
    · exact List.rel_of_pairwise_cons hsorted he

/-! ### Chunks served (R173, R177, R205) -/

/-- The record of a SLOT, which is also the first of its UID. -/
def Leads (s : State) (slot : Nat) (c : Coll) : Prop :=
  collOf s slot = some c ∧ s.colls.list.find? (fun e => e.uid == c.uid) = some c

theorem Leads.congr {s t : State} {slot : Nat} {c : Coll} (h : Leads s slot c) (hlist : t.colls.list = s.colls.list) : Leads t slot c := by
  obtain ⟨hslot, huid⟩ := h
  exact ⟨(collOf_congr hlist slot).trans hslot, by rw [hlist]; exact huid⟩

theorem leads_putColl {s : State} {slot : Nat} {c d : Coll} (hc : collOf s slot = some c) (huid : d.uid = c.uid) (hslot : d.slot = slot)
    (hphase : d.phase ≠ .posted) : Leads (putColl s d) slot d := by
  refine ⟨collOf_putColl hc huid hslot hphase, ?_⟩
  obtain ⟨x, hx⟩ := Option.isSome_iff_exists.mp
    (List.find?_isSome (p := fun e : Coll => e.uid == d.uid).mpr ⟨c, (collOf_some hc).1, by simp [huid]⟩)
  exact findUid_putColl hx rfl

/-- Another collective's record replaced by one of the same SLOT and phase. -/
theorem leads_putColl_other {s : State} {slot : Nat} {c d x : Coll} (h : Leads s slot c) (huid : d.uid ≠ c.uid)
    (hx : s.colls.list.find? (fun e => e.uid == d.uid) = some x) (hslot : d.slot = x.slot) (hphase : d.phase = x.phase) :
    Leads (putColl s d) slot c := by
  obtain ⟨hc, hcu⟩ := h
  exact ⟨find_replaceColl_other huid (by rw [hslot, hphase]) hx hc, find_replaceColl_none huid (by simp [huid]) hcu⟩

/-- The record of a SLOT, whichever it is, that has served `k` chunks. -/
def LeadsAt (slot k : Nat) (s : State) : Prop := ∃ c, Leads s slot c ∧ c.served = k

theorem grantOne_leadsAt {slot k : Nat} {s : State} (uid : Nat) (h : LeadsAt slot k s) : LeadsAt slot k (grantOne s uid) := by
  obtain hsame | ⟨x, g, hx, hput⟩ := grantOne_cases s uid
  · rwa [hsame]
  obtain ⟨c, ⟨hc, hcu⟩, hk⟩ := h
  obtain ⟨-, hslot, hphase⟩ := collOf_some hc
  have hxu : x.uid = uid := by simpa using List.find?_some hx
  rw [hput]
  by_cases huid : x.uid = c.uid
  · have hxc : x = c := by
      rw [← huid, hxu, hx] at hcu
      exact Option.some.inj hcu
    subst hxc
    exact ⟨_, leads_putColl hc rfl hslot hphase, hk⟩
  · subst hxu
    exact ⟨c, leads_putColl_other ⟨hc, hcu⟩ huid hx rfl rfl, hk⟩

/-- R175: grants leave the collective of a SLOT with the chunks that it has served. -/
theorem grantAll_leadsAt {slot k : Nat} {s : State} (h : LeadsAt slot k s) : LeadsAt slot k (grantAll s) := by
  refine List.foldlRecOn _ _ h fun t ht e _ => ?_
  obtain ⟨c, hc, hk⟩ : LeadsAt slot k ((rangeFrom 0 4).foldl (fun s _ => grantOne s e.uid) t) :=
    List.foldlRecOn _ _ ht fun v hv _ _ => grantOne_leadsAt _ hv
  exact ⟨c, hc.congr (congrArg Colls.list (grantColl_sends t e.uid).colls), hk⟩

theorem SameWindow.foldl {α : Type} {f : Coll → α → Coll} (h : ∀ c a, SameWindow c (f c a)) (l : List α) (c : Coll) :
    SameWindow c (l.foldl f c) :=
  List.foldlRecOn l f (SameWindow.refl c) fun d hd a _ => hd.trans (h d a)

theorem finishUnit_same (s : State) (c : Coll) (g : Seg) (u : Nat) (v : Nat × Bool) : SameWindow c (finishUnit s c g u v) := by
  unfold finishUnit
  dsimp only
  split <;> exact ⟨rfl, rfl, rfl, rfl, rfl⟩

theorem emitTo_sendsOf (n : Nat) : ∀ (fuel : Nat) (s : State) (c : Coll), SendsOf (s, c) (emitTo s c n fuel)
  | 0, _, _ => SendsOf.refl _
  | fuel + 1, s, c => by
    simp only [emitTo]
    split
    · refine SendsOf.trans ?_ (emitTo_sendsOf n fuel _ _)
      exact ⟨sendColl_sends _ _ _ _, ⟨rfl, rfl, rfl, rfl, rfl⟩⟩
    · exact SendsOf.refl _

theorem emitResults_cases (s : State) (c : Coll) : ∃ p, SendsOf (s, c) p ∧ emitResults s c = putColl p.1 p.2 :=
  ⟨_, SendsOf.foldl (fun p n => emitTo_sendsOf n _ p.1 p.2) (receivers s c) (s, c), rfl⟩

/-- R187, R299: a record that replaces the collective of a SLOT stays there while its units and results are sent. -/
theorem sentOn_leadsAt {s : State} {slot : Nat} {c d : Coll} (hc : collOf s slot = some c) (huid : d.uid = c.uid) (hslot : d.slot = c.slot)
    (hphase : d.phase = c.phase) :
    LeadsAt slot d.served (emitResults (putColl (flushX s d).1 (flushX s d).2) (flushX s d).2) := by
  obtain ⟨hsends, hsame⟩ := flushX_sendsOf s d
  obtain ⟨p, ⟨hsends', hsame'⟩, hemit⟩ := emitResults_cases (putColl (flushX s d).1 (flushX s d).2) (flushX s d).2
  obtain ⟨-, hslotc, hphasec⟩ := collOf_some hc
  have hput : Leads (putColl (flushX s d).1 (flushX s d).2) slot (flushX s d).2 :=
    leads_putColl ((collOf_congr (congrArg Colls.list hsends.colls) slot).trans hc) (hsame.uid.trans huid)
      (hsame.slot.trans (hslot.trans hslotc)) (by rw [hsame.phase, hphase]; exact hphasec)
  have hsent := hput.congr (congrArg Colls.list hsends'.colls)
  obtain ⟨-, hslotf, hphasef⟩ := collOf_some hput.1
  rw [hemit]
  exact ⟨p.2, leads_putColl hsent.1 hsame'.uid (hsame'.slot.trans hslotf) (by rw [hsame'.phase]; exact hphasef),
    hsame'.served.trans hsame.served⟩

theorem copyChunk_leadsAt {s : State} {slot : Nat} {c : Coll} (hc : collOf s slot = some c) :
    LeadsAt slot (c.served + 1) (copyChunk s c) := by
  unfold copyChunk
  dsimp only
  generalize hd : List.foldl _ c (senders s c) = d
  have hsame : SameWindow c d := by
    rw [← hd]
    refine SameWindow.foldl (fun e n => ?_) _ _
    split
    · exact SameWindow.foldl (fun _ _ => finishUnit_same _ _ _ _ _) _ _
    · exact SameWindow.refl _
  exact sentOn_leadsAt (d := { d with served := c.served + 1, stage := _ }) hc hsame.uid hsame.slot hsame.phase

theorem hubChunk_leadsAt {s : State} {slot : Nat} {c : Coll} (hc : collOf s slot = some c) :
    LeadsAt slot (c.served + 1) (hubChunk s c) := by
  unfold hubChunk
  dsimp only
  generalize hd : List.foldl _ c (rangeFrom _ _) = d
  have hsame : SameWindow c d := by
    rw [← hd]
    exact SameWindow.foldl (fun _ _ => finishUnit_same _ _ _ _ _) _ _
  exact sentOn_leadsAt (d := { d with served := c.served + 1 }) hc hsame.uid hsame.slot hsame.phase

theorem serveChunk_reduces (s : State) {c : Coll} (hop : dOp (collDesc c) ≤ 3) : serveChunk s c = reduceChunk s c := by
  unfold serveChunk
  dsimp only
  split
  · omega
  · omega
  · omega
  · rfl

/-- R173: a chunk of a copy that no step makes comes from staging or from hub memory. -/
theorem serveChunk_copies (s : State) {c : Coll} (hlink : c.link = none) (hop : dOp (collDesc c) = 4 ∨ dOp (collDesc c) = 5) :
    serveChunk s c = copyChunk s c ∨ serveChunk s c = hubChunk s c := by
  unfold serveChunk
  dsimp only
  rw [hlink]
  obtain hop | hop := hop <;> rw [hop]
  · exact .inl rfl
  · by_cases hroot : dRoot (collDesc c) = 8
    · exact .inr (if_pos hroot)
    · exact .inl (if_neg hroot)

theorem serveChunk_copy_served {s : State} {slot : Nat} {c : Coll} (hc : collOf s slot = some c) (hlink : c.link = none)
    (hop : dOp (collDesc c) = 4 ∨ dOp (collDesc c) = 5) :
    LeadsAt slot (c.served + 1) (serveChunk s c) ∧ (serveChunk s c).mem = s.mem := by
  obtain h | h := serveChunk_copies s hlink hop <;> rw [h]
  · exact ⟨copyChunk_leadsAt hc, copyChunk_mem s c⟩
  · exact ⟨hubChunk_leadsAt hc, hubChunk_mem s c⟩

theorem exec_collChunkReduce_idle {s : State} {slot : Nat} (h : ∀ c, nextServed s = some c → c.slot ≠ slot ∨ collWaits s = true) :
    exec (.collChunkReduce slot) s = .next s := by
  change execCollChunkReduce slot s = _
  unfold execCollChunkReduce
  split
  · next c hc =>
    exact if_neg fun ⟨hslot, hwaits⟩ => (h c hc).elim (fun h => h hslot) fun h => by simp [h] at hwaits
  · rfl

/-- The state that serves a chunk of `c`: its turn has come. -/
def atTurn (s : State) (c : Coll) : State := { s with colls := { s.colls with turn := c.order + 1 } }

theorem exec_collChunkReduce_turn {s : State} {slot : Nat} {c : Coll} (hc : nextServed s = some c) (hslot : c.slot = slot)
    (hwaits : collWaits s = false) : exec (.collChunkReduce slot) s = .next (grantAll (serveChunk (atTurn s c) c)) := by
  change execCollChunkReduce slot s = _
  unfold execCollChunkReduce
  rw [hc]
  exact if_pos ⟨hslot, by rw [hwaits]; rfl⟩

/-! ### Dispatches (R185, R186, R300) -/

/-- The key of a dispatch flit's block: the ranks it goes from and to. -/
def dispatchKey (f : Flit) : Nat := 8 * nbits (flitHdr f) 51 49 + nbits (flitHdr f) 48 46

/-- A dispatch flit that is forwarded is counted against its pool, and its block in its collective. -/
theorem dispatchFlit_counts {s : State} {f : Flit} {kind slot : Nat} {c : Coll} {a b : Nat} (hc : collOf s slot = some c)
    (hphase : c.phase = .opened) (hop : dOp (collDesc c) = 6) (ha : (collPorts c)[nbits (flitHdr f) 51 49]? = some a)
    (hb : (collPorts c)[nbits (flitHdr f) 48 46]? = some b) (hport : a = f.port) (hne : a ≠ b) (hroom : poolUsed s a b < 64) :
    poolUsed (dispatchFlit s f kind c) a b = poolUsed s a b + 1 ∧ ∃ d, collOf (dispatchFlit s f kind c) slot = some d ∧
      (kind = 8 → kget 0 d.blocks (dispatchKey f) = kget 0 c.blocks (dispatchKey f) + nbits (flitHdr f) 25 18) ∧
      (kind = 9 → dispatchKey f ∈ d.ended) := by
  have hok : ¬ (a ≠ f.port ∨ a = b ∨ poolUsed s a b ≥ 64 ∨ dOp (collDesc c) ≠ 6 ∨ c.phase ≠ .opened) := by
    rintro (h | h | h | h | h)
    · exact h hport
    · exact hne h
    · exact Nat.not_lt.mpr h hroom
    · exact h hop
    · exact h hphase
  obtain ⟨-, hslot, hposted⟩ := collOf_some hc
  unfold dispatchFlit
  dsimp only
  rw [ha, hb]
  dsimp only
  rw [if_neg hok]
  have hcolls := fun (u : State) (low uid : Nat) => (sendTagged_sends u b kind 2 low f.payload [a + 1, uid]).colls
  refine ⟨?_, ?_⟩
  · rw [forwardFlit, poolUsed_congr (hcolls _ _ _)]
    exact kget_kset_same 0 s.colls.pools (8 * a + b) (poolUsed s a b + 1)
  · rw [forwardFlit, collOf_congr (congrArg Colls.list (hcolls _ _ _))]
    refine ⟨_, collOf_putColl (c := c) hc ?_ ?_ ?_, fun hkind => ?_, fun hkind => ?_⟩
    · split <;> rfl
    · split <;> exact hslot
    · split <;> exact hposted
    · rw [if_neg (by omega)]
      exact kget_kset_same _ _ _ _
    · rw [if_pos hkind]
      exact (mem_nadd _ _ _).mpr (.inl rfl)

theorem exec_dispatch {s u : State} {f : Flit} {c : Coll} (hport : f.port < 8) (hjob : s.host.job.isSome = true)
    (hc : collOf u (nbits (flitHdr f) 57 52) = some c) (htake : takeFlit s f 8 2 true = (u, true)) (hfree : nbits (flitHdr f) 13 0 = 0)
    (hlo : 1 ≤ nbits (flitHdr f) 25 18) (hhi : nbits (flitHdr f) 25 18 ≤ 240)
    (hzero : zeroFrom f.payload (nbits (flitHdr f) 25 18) = true) : exec (.dispatch f) s = .next (dispatchFlit u f 8 c) := by
  have hok : (nbits (flitHdr f) 13 0 == 0 && decide (1 ≤ nbits (flitHdr f) 25 18) && decide (nbits (flitHdr f) 25 18 ≤ 240) &&
      zeroFrom f.payload (nbits (flitHdr f) 25 18) && decide (f.port < 8)) = true := by simp [hzero, hfree, hlo, hhi, hport]
  change execDispatch f s = _
  unfold execDispatch
  dsimp only
  rw [hok, htake]
  dsimp only
  rw [(takeFlit_sends htake).job, Option.isNone_eq_false_iff.mpr hjob, hc]
  rfl

theorem exec_dispatchEnd {s u : State} {f : Flit} {c : Coll} (hport : f.port < 8) (hjob : s.host.job.isSome = true)
    (hc : collOf u (nbits (flitHdr f) 57 52) = some c) (htake : takeFlit s f 9 2 true = (u, true)) (hfree : nbits (flitHdr f) 45 0 = 0)
    (hzero : zeroFrom f.payload 8 = true) (hvar : dVariable (collDesc c) = true) :
    exec (.dispatchEnd f) s = .next (dispatchFlit u f 9 c) := by
  have hok : (nbits (flitHdr f) 45 0 == 0 && zeroFrom f.payload 8 && decide (f.port < 8)) = true := by simp [hzero, hfree, hport]
  change execDispatchEnd f s = _
  unfold execDispatchEnd
  dsimp only
  rw [hok, htake]
  dsimp only
  rw [(takeFlit_sends htake).job, Option.isNone_eq_false_iff.mpr hjob, hc]
  exact congrArg Host.Outcome.next (if_pos hvar : ite _ (dispatchFlit u f 9 c) (protocolError u f.port 9 0) = _)

/-- R186: the state in which a flit of a pool no longer counts. -/
def creditBack (s : State) (a b : Nat) : State :=
  { s with colls := { s.colls with pools := kset 0 s.colls.pools (8 * a + b) (poolUsed s a b - 1) } }

/-- R186: the credit of a flit that has left goes back to its sender. -/
theorem exec_dispatchCredit {s : State} {a b : Nat} (ha : a < 8) (hb : b < 8) (hleft : unsentFrom s a b < poolUsed s a b) :
    exec (.dispatchCredit a b) s = .next (sendCtl (creditBack s a b) a 0x12 [(1, b), (2, 1)]) :=
  if_pos ⟨ha, hb, hleft⟩

theorem exec_dispatchCredit_idle {s : State} {a b : Nat} (hleft : poolUsed s a b ≤ unsentFrom s a b) :
    exec (.dispatchCredit a b) s = .next s :=
  if_neg fun ⟨_, _, h⟩ => absurd h (Nat.not_lt.mpr hleft)

/-! ### Completion and stalls (R170, R182) -/

theorem exec_collComplete {s : State} {slot : Nat} {c : Coll} (hc : collOf s slot = some c) (hdone : collDone s c = true) :
    exec (.collComplete slot) s = .next (endColl s c (if poisonUnits s c ≠ 0 then 2 else if c.nan ≠ 0 then 1 else 0) 0) := by
  change execCollComplete slot s = _
  unfold execCollComplete
  rw [hc]
  exact if_pos hdone

theorem exec_collStall {s : State} {slot n : Nat} {c : Coll} (hc : collOf s slot = some c) (hphase : c.phase = .opened)
    (hfirst : c.stalled = false) (hdue : c.openMark + max 2500 (regBits s rCollCtl 63 32) ≤ s.drum.beats)
    (hmissing : missingMember s c = some n) :
    exec (.collStall slot) s = .next (putColl (raise s (srcTrain c.train) 0x0A 2 (n + c.id * 2 ^ 16)) { c with stalled := true }) := by
  change execCollStall slot s = _
  unfold execCollStall
  rw [hc]
  dsimp only
  rw [if_pos ⟨hphase, hfirst, hdue⟩, hmissing]

/-- Settles O47, by what a flit, a chunk, a credit and an end make of the collective of a SLOT. -/
theorem collectiveDataAndCompletion : Obligations.CollectiveDataAndCompletion := by
  refine ⟨fun s u f c hport hzero hfree hlo hhi htake hjob hc hphase hsender hnext hgrant hresult hbytes => ?_, fun s c hnext => ?_,
    fun s slot => ⟨exec_collChunkReduce_idle, fun c hnext hslot hwaits => ?_⟩,
    fun s u f c a b hport hjob hc hphase hop ha hb hsrc hne hroom => ?_, fun s a b ha hb => ⟨fun hleft => ?_, exec_dispatchCredit_idle⟩,
    fun s slot c hc huid hdone => ?_, fun s slot n c hc hphase hfirst hdue hmissing => exec_collStall hc hphase hfirst hdue hmissing⟩
  case refine_1 =>
    obtain ⟨rest, old, pois, next, hstage⟩ := memberFlit_stages hphase hsender hnext hgrant hresult hbytes
    obtain ⟨-, hslot, hposted⟩ := collOf_some hc
    have hexec := exec_collData hzero hfree hlo hhi htake hjob hc hport
    rw [hstage] at hexec
    exact ⟨_, _, hexec, collOf_putColl hc rfl hslot hposted, (takeFlit_sends htake).mem, _, List.mem_append_right _ List.mem_cons_self,
      rfl, rfl, old, rfl⟩
  case refine_2 =>
    obtain ⟨hmem, hcases⟩ := nextServed_cases hnext
    obtain ⟨hlist, hready⟩ := mem_servable.mp hmem
    refine ⟨hlist, hready, fun e he heready => ?_⟩
    have heserv : e ∈ servable s := mem_servable.mpr ⟨he, heready⟩
    obtain ⟨hturn, hleast⟩ | ⟨hpast, hleast⟩ := hcases
    · exact ⟨fun hle => ⟨hturn, hleast e heserv hle⟩, fun hlt => absurd hturn (Nat.not_le.mpr hlt)⟩
    · exact ⟨fun hle => absurd hle (Nat.not_le.mpr (hpast e heserv)), fun _ => hleast e heserv⟩
  case refine_3 =>
    have hexec := exec_collChunkReduce_turn hnext hslot hwaits
    refine ⟨hexec, fun hop => ?_, fun hc hlink hop => ?_⟩
    · rw [hexec, serveChunk_reduces _ hop]
      rfl
    · obtain ⟨hserved, hmem⟩ := serveChunk_copy_served (s := atTurn s c) hc hlink hop
      obtain ⟨d, ⟨hd, -⟩, hk⟩ := grantAll_leadsAt hserved
      exact ⟨_, d, hexec, hd, hk, (grantAll_mem _).trans hmem⟩
  case refine_4 =>
    have hcounts := fun kind => dispatchFlit_counts (kind := kind) hc hphase hop ha hb hsrc hne hroom
    refine ⟨fun htake hfree hlo hhi hzero => ?_, fun htake hfree hzero hvar => ?_⟩
    · obtain ⟨hpool, d, hd, hblocks, -⟩ := hcounts 8
      exact ⟨_, d, exec_dispatch hport hjob hc htake hfree hlo hhi hzero, hpool, hd, hblocks rfl⟩
    · obtain ⟨hpool, d, hd, -, hended⟩ := hcounts 9
      exact ⟨_, d, exec_dispatchEnd hport hjob hc htake hfree hzero hvar, hpool, hd, hended rfl⟩
  case refine_5 =>
    have hsent := sendCtl_sends (creditBack s a b) a 0x12 [(1, b), (2, 1)]
    have hlist : _ = (creditBack s a b).colls.list := congrArg Colls.list hsent.colls
    refine ⟨_, exec_dispatchCredit ha hb hleft, ?_, hlist, hsent.mem⟩
    rw [poolUsed_congr hsent.colls]
    exact kget_kset_same 0 s.colls.pools (8 * a + b) (poolUsed s a b - 1)
  case refine_6 =>
    rw [exec_collComplete hc hdone]
    exact ⟨fun hroom => congrArg _ (endColl_waits huid _ 0 hroom), fun hroom => ⟨_, rfl, endColl_leaves huid _ 0 hroom⟩⟩

end Sys2Proof.Machine

/-! PROOFS. State tables and commands taken: refused, defining, releasing, queued and posted (R196 to R203, R217, R220). -/

namespace Sys2Proof.Machine

/-! ### Tables read after sends, posts and writes -/

theorem Sends.tables {s t : State} (h : Sends s t) : t.tables = s.tables := by obtain ⟨_, _, _, rfl⟩ := h; rfl
theorem Posts.tables {s t : State} (h : Posts s t) : t.tables = s.tables := by obtain ⟨_, _, _, _, _, _, _, _, _, rfl⟩ := h; rfl

theorem getTable_congr {s t : State} (h : t.tables = s.tables) (j : Nat) : getTable t j = getTable s j := by rw [getTable, getTable, h]

@[simp] theorem getTable_putTable_same (s : State) (t : Nat) (x : Table) : getTable (putTable s t x) t = x := kget_kset_same _ _ _ _

theorem getTable_putTable_ne (s : State) {t j : Nat} (x : Table) (h : j ≠ t) : getTable (putTable s t x) j = getTable s j :=
  kget_kset_ne _ _ _ h

theorem regGet_putTable_stbl (s : State) (t : Nat) (x : Table) : regGet (putTable s t x) (rStbl t) = stblOf x :=
  regGet_regSet_same _ _ _

theorem endCmd_posts (s : State) (c : Cmd) (status fld : Nat) : Posts s (endCmd s c status fld) := postEntry_posts _ _ _

/-! ### Commands posted and taken (R199) -/

/-- R199: a command as it is taken from a ring. -/
def takenCmd (src : Origin) (raw : List Byte) : Cmd := { origin := src, raw := raw, start := none, late := false }

theorem stateCommand_posted {s : State} {src : Origin} {raw : List Byte} (hposts : postsState s src raw = true) :
    stateCommand s src raw true = takeState s src raw := by
  simp only [postsState, Bool.and_eq_true, decide_eq_true_eq] at hposts
  obtain ⟨⟨hlen, hhere⟩, htakes⟩ := hposts
  exact if_pos ⟨hlen, rfl, hhere, htakes⟩

/-- R199: each command of a kind of its own is taken where its CMD is that of the kind. -/
theorem exec_command {s : State} {src : Origin} {raw : List Byte} {i : Instr} {n : Nat} (hposts : postsState s src raw = true)
    (hi : (i, n) ∈ [(Instr.tableDefine src raw, 1), (.tableRelease src raw, 2), (.embGather src raw, 4), (.embScatterAdd src raw, 5),
      (.embApply src raw, 6)]) (hcmd : cmCmd raw = n) : exec i s = .next (takeState s src raw) := by
  have hexec : exec i s = .next (stateCommand s src raw (cmCmd raw == n)) := by
    simp only [List.mem_cons, Prod.mk.injEq, List.not_mem_nil, or_false] at hi
    obtain ⟨rfl, rfl⟩ | ⟨rfl, rfl⟩ | ⟨rfl, rfl⟩ | ⟨rfl, rfl⟩ | ⟨rfl, rfl⟩ := hi <;> rfl
  rw [hexec, beq_iff_eq.mpr hcmd, stateCommand_posted hposts]

/-- R202: each STEP is taken where its GMODE is that of its kind. -/
theorem exec_step {s : State} {src : Origin} {raw : List Byte} {i : Instr} {g : Nat} (hposts : postsState s src raw = true)
    (hi : (i, g) ∈ [(Instr.stepLinked src raw, 0), (.stepBuffered src raw, 1), (.stepEmitOnly src raw, 2)]) (hcmd : cmCmd raw = 3)
    (hmode : cmGmode raw = g) : exec i s = .next (takeState s src raw) := by
  have hexec : exec i s = .next (stateCommand s src raw (cmCmd raw == 3 && cmGmode raw == g)) := by
    simp only [List.mem_cons, Prod.mk.injEq, List.not_mem_nil, or_false] at hi
    obtain ⟨rfl, rfl⟩ | ⟨rfl, rfl⟩ | ⟨rfl, rfl⟩ := hi <;> rfl
  rw [hexec, beq_iff_eq.mpr hcmd, beq_iff_eq.mpr hmode, Bool.and_self, stateCommand_posted hposts]

theorem takeState_refused {s : State} {src : Origin} {raw : List Byte} {k : Nat × Bool}
    (hk : (cmdChecks raw).find? (fun k => !k.2) = some k) : takeState s src raw = endCmd s (takenCmd src raw) 2 k.1 := by
  unfold takeState
  rw [hk]
  rfl

section
variable {s : State} {src : Origin} {raw : List Byte} (hok : (cmdChecks raw).find? (fun k => !k.2) = none)
include hok

theorem takeState_table (hcmd : cmCmd raw = 1 ∨ cmCmd raw = 2) (hguard : guardRuns s 3 = true) :
    takeState s src raw = guardTable s (takenCmd src raw) := by
  unfold takeState
  rw [hok]
  dsimp only
  rw [if_pos hcmd, if_pos hguard]
  rfl

/-- R203: a STEP whose collectives have not matched before it joins its table's queue. -/
theorem takeState_step (hcmd : cmCmd raw = 3) (hready : (getTable s (cmTable raw)).st = .ready)
    (hdense : tbDense (getTable s (cmTable raw)) = true) (hgrad : cmGmode raw = 0 → matchedAlready s (cmGrad raw) = false)
    (hout : cmLinkOut raw = true → matchedAlready s (cmOut raw) = false) :
    takeState s src raw = queueCmd s (takenCmd src raw) := by
  have hunlinked : ¬ ((cmGmode raw = 0 ∧ matchedAlready s (cmGrad raw) = true) ∨
      (cmLinkOut raw = true ∧ matchedAlready s (cmOut raw) = true)) := by
    rintro (⟨hmode, hmatched⟩ | ⟨hlink, hmatched⟩)
    · rw [hgrad hmode] at hmatched
      exact Bool.noConfusion hmatched
    · rw [hout hlink] at hmatched
      exact Bool.noConfusion hmatched
  unfold takeState
  rw [hok]
  dsimp only
  rw [if_neg (by omega), if_neg (by simp [hready, hdense, hcmd]), if_neg (by simp [hready]), if_pos hcmd, if_neg hunlinked]
  rfl

theorem takeState_emb (hcmd : cmCmd raw = 4 ∨ cmCmd raw = 5 ∨ cmCmd raw = 6) (hready : (getTable s (cmTable raw)).st = .ready)
    (hdense : tbDense (getTable s (cmTable raw)) = false) : takeState s src raw = takeEmb s (takenCmd src raw) := by
  have hnot : (cmCmd raw == 3) = false := beq_eq_false_iff_ne.mpr (by omega)
  unfold takeState
  rw [hok]
  dsimp only
  rw [if_neg (by omega), if_neg (by simp [hready, hdense, hnot]), if_neg (by simp [hready]), if_neg (by omega)]
  rfl

end

/-! ### Tables defined and released (R196, R197) -/

/-- R197: the table that a TABLE_DEFINE makes of the block at an address. -/
def blockTable (s : State) (a : Nat) : Table :=
  { Table.init with st := .ready, raw := memBytes s a 256, last := memVal s (a + 4) 4 }

theorem defineTable_ready {s : State} {c : Cmd} (hidle : tableBusy (getTable s (cmTable c.raw)) = false)
    (hread : mayAccessRange s (.guard 3) (s.consist.cfg.worlds.guardSecure.getLsbD 3) (cmStep c.raw) 256 false = true)
    (hclean : (rangeFrom 0 4).find? (fun k => blockPoisoned s (cmStep c.raw / 64 + k)) = none)
    (hstands : (tableChecks s (cmTable c.raw) (blockTable s (cmStep c.raw))).find? (fun k => !k.2) = none) :
    defineTable s c = endCmd (putTable s (cmTable c.raw) (blockTable s (cmStep c.raw))) c 0 0 := by
  rw [blockTable] at hstands
  unfold defineTable
  dsimp only
  rw [hidle, if_neg Bool.false_ne_true, hread, if_neg (by decide), hclean]
  dsimp only
  rw [hstands]
  rfl

theorem releaseTable_frees {s : State} {c : Cmd} (hidle : tableBusy (getTable s (cmTable c.raw)) = false)
    (hused : (getTable s (cmTable c.raw)).st ≠ .free) :
    releaseTable s c = endCmd (putTable s (cmTable c.raw) Table.init) c 0 0 := by
  unfold releaseTable
  dsimp only
  rw [if_neg hused, hidle]
  exact if_neg Bool.false_ne_true

/-- A completion entry after a table was put: the table and its register hold it, the other tables are as they were. -/
theorem Posts.tablePut {s u : State} {t : Nat} {x : Table} (h : Posts (putTable s t x) u) :
    getTable u t = x ∧ regGet u (rStbl t) = stblOf x ∧ ∀ j, j ≠ t → getTable u j = getTable s j :=
  ⟨(getTable_congr h.tables t).trans (getTable_putTable_same s t x), (regGet_congr h.tells.regs _).trans (regGet_putTable_stbl s t x),
    fun j hj => (getTable_congr h.tables j).trans (getTable_putTable_ne s x hj)⟩

/-! ### Embedding commands taken (R217, R220, Table 7.10) -/

section
variable {s : State} {c : Cmd} (hnew : (getTable s (cmTable c.raw)).last < cmStep c.raw)
include hnew

theorem takeEmb_gather (hcmd : cmCmd c.raw = 4)
    (hnext : cmStep c.raw = (getTable s (cmTable c.raw)).last + 1 → (getTable s (cmTable c.raw)).applying = none) :
    takeEmb s c = queueCmd s c := by
  unfold takeEmb
  dsimp only
  rw [if_neg (Nat.not_le.mpr hnew), hcmd]
  exact if_neg fun ⟨hstep, happly⟩ => by simp [hnext hstep] at happly

theorem takeEmb_scatter (hcmd : cmCmd c.raw = 5) :
    takeEmb s c = if applyPosted (getTable s (cmTable c.raw)) (srcBit c.origin) (cmStep c.raw) = true ∧
        cmStep c.raw = (getTable s (cmTable c.raw)).last + 1 then endCmd s c 5 0
      else queueCmd s { c with late := applyPosted (getTable s (cmTable c.raw)) (srcBit c.origin) (cmStep c.raw) } := by
  unfold takeEmb
  dsimp only
  rw [if_neg (Nat.not_le.mpr hnew), hcmd]
  rfl

theorem takeEmb_apply (hcmd : cmCmd c.raw = 6)
    (honce : applyPosted (getTable s (cmTable c.raw)) (srcBit c.origin) (cmStep c.raw) = false) :
    takeEmb s c = if cmStep c.raw = (getTable s (cmTable c.raw)).last + 1 then joinApply s (cmTable c.raw) c else queueCmd s c := by
  unfold takeEmb
  dsimp only
  rw [if_neg (Nat.not_le.mpr hnew), hcmd]
  exact if_neg (ne_true_of_eq_false honce)

end

/-- R220: an apply that agrees with those posted before it waits with them. -/
theorem joinApply_agrees {s : State} {t : Nat} {c : Cmd}
    (hagree : applyAgrees { getTable s t with applies := (getTable s t).applies ++ [c] } = true) :
    joinApply s t c = putTable s t { getTable s t with applies := (getTable s t).applies ++ [c] } := by
  unfold joinApply
  dsimp only
  exact if_neg fun ⟨_, hdiffer⟩ => hdiffer hagree

/-- Settles O48, by what taking makes of a refused command, of a table command, of a STEP and of an embedding command. -/
theorem stateCommandsTaken : Obligations.StateCommandsTaken := by
  refine ⟨fun s src raw k i hposts hi hk => ?_, fun s src raw hposts hok hguard hidle => ⟨fun hcmd => ?_, fun hcmd hused => ?_⟩,
    fun s src raw i g hposts hi hcmd hmode hok hready hdense hgrad hout => ?_, fun s src raw hposts hok => ?_⟩
  case refine_1 =>
    rw [exec_command hposts hi rfl, takeState_refused hk]
    rfl
  case refine_2 =>
    intro hread hclean x hstands
    have hexec : exec (.tableDefine src raw) s = .next (defineTable s { takenCmd src raw with start := some s.drum.count }) := by
      rw [exec_command hposts (by simp) hcmd, takeState_table hok (.inl hcmd) hguard]
      exact congrArg _ (if_pos hcmd)
    exact ⟨_, hexec.trans (congrArg _ (defineTable_ready hidle hread hclean hstands)), (endCmd_posts _ _ _ _).tablePut⟩
  case refine_3 =>
    have hexec : exec (.tableRelease src raw) s = .next (releaseTable s { takenCmd src raw with start := some s.drum.count }) := by
      rw [exec_command hposts (by simp) hcmd, takeState_table hok (.inr hcmd) hguard]
      exact congrArg _ (if_neg (show cmCmd raw ≠ 1 by omega))
    obtain ⟨hfree, -, hothers⟩ := (endCmd_posts (putTable s (cmTable raw) Table.init) _ 0 0).tablePut
    exact ⟨_, hexec.trans (congrArg _ (releaseTable_frees hidle hused)), hfree, hothers⟩
  case refine_4 =>
    rw [exec_step hposts hi hcmd hmode, takeState_step hok hcmd hready hdense (fun h => hgrad (hmode.symm.trans h)) hout]
    rfl
  case refine_5 =>
    intro x c hready hdense hnew
    refine ⟨fun hcmd hnext => ?_, fun hcmd => ?_, fun hcmd honce => ?_⟩
    · rw [exec_command hposts (by simp) hcmd, takeState_emb hok (.inl hcmd) hready hdense, takeEmb_gather hnew hcmd hnext]
      rfl
    · rw [exec_command hposts (by simp) hcmd, takeState_emb hok (.inr (.inl hcmd)) hready hdense, takeEmb_scatter hnew hcmd]
      refine ⟨fun hwaits => congrArg _ (if_neg fun ⟨hlate, hstep⟩ => ?_), fun hlate hstep => congrArg _ (if_pos ⟨hlate, hstep⟩)⟩
      exact hwaits.elim (fun hearly => Bool.false_ne_true (hearly.symm.trans hlate)) fun hlater => hlater hstep
    · rw [exec_command hposts (by simp) hcmd, takeState_emb hok (.inr (.inr hcmd)) hready hdense, takeEmb_apply hnew hcmd honce]
      exact ⟨fun hlater => congrArg _ (if_neg (Nat.ne_of_gt hlater)),
        fun hnext hagree => congrArg _ ((if_pos hnext.symm).trans (joinApply_agrees hagree))⟩

end Sys2Proof.Machine

/-! PROOFS. State commands at work: the head of a queue, steps, applies and the hubs' checks (R199 to R201, R206, R213 to R222, R302). -/

namespace Sys2Proof.Machine

/-! ### The head of a dense table's queue (R199, R201) -/

/-- R201: the step that a command of a table's queue begins. -/
def begunRun (s : State) (x : Table) (c : Cmd) : StepRun :=
  { cmd := { c with start := some s.drum.count }, done := 0, began := false, norm := 0, normBad := false, nan := 0, rowSum := [],
    skipped := [], pass2 := false, reduced := false, outStatus := waitingOut x c.raw, checked := false, kernel := none, pushed := [] }

theorem startStep_plain {s : State} {t : Nat} {x : Table} {c : Cmd} {rest : List Cmd} (hbuiltin : tbKind x ≠ 0xF)
    (hwhole : tbSharded x = false) :
    startStep s t x c rest = putTable s t (forgetOut { x with queue := rest, run := some (begunRun s x c) } c.raw) := by
  unfold startStep
  dsimp only
  rw [if_neg hbuiltin, hwhole]
  exact if_neg Bool.false_ne_true

theorem headDense_starts {s : State} {t : Nat} {c : Cmd} {rest : List Cmd} (hready : (getTable s t).st = .ready)
    (hbuiltin : tbKind (getTable s t) ≠ 0xF) (hidle : (getTable s t).run = none) (hqueue : (getTable s t).queue = c :: rest)
    (hnext : cmStep c.raw = if cmGmode c.raw = 2 then (getTable s t).last else (getTable s t).last + 1)
    (hranges : rangeRefused s (getTable s t) (stepRanges (getTable s t) c.raw) = none)
    (hcut : cmGmode c.raw ≠ 2 → cutHoldsTable s t = false) :
    headDense s t = startStep s t (getTable s t) c rest := by
  have hstep : ¬ (if cmGmode c.raw = 2 then cmStep c.raw ≠ (getTable s t).last else cmStep c.raw ≠ (getTable s t).last + 1) := by
    split at hnext
    · next hemit =>
      rw [if_pos hemit]
      exact not_not_intro hnext
    · next hwrites =>
      rw [if_neg hwrites]
      exact not_not_intro hnext
  unfold headDense
  dsimp only
  rw [hidle, hqueue]
  dsimp only
  rw [if_neg (by simp [hready]), if_neg hstep, hranges]
  dsimp only
  rw [if_neg fun ⟨hwrites, hheld⟩ => by simp [hcut hwrites] at hheld, if_neg fun h => hbuiltin h.1]

theorem exec_stateCommandHead {s : State} {t : Nat} (ht : t < 64) (hready : (getTable s t).st = .ready)
    (hdense : tbDense (getTable s t) = true) (hroom : svcWaits s 8 = false) : exec (.stateCommandHead t) s = .next (headDense s t) := by
  change execStateCommandHead t s = _
  unfold execStateCommandHead
  dsimp only
  rw [if_neg (by simp [Nat.not_le.mpr ht, hready, hroom]), hdense]
  exact congrArg _ (if_pos rfl)

/-! ### Commands at work and steps that end (R200, R206, R213) -/

theorem exec_stateCommandComplete {s : State} {t : Nat} {c : Cmd} (hroom : svcWaits s 8 = false)
    (hfirst : (getTable s t).queue.find? (fun c => c.start.isSome) = some c) :
    ∃ u, exec (.stateCommandComplete t) s = .next u ∧
      Posts (putTable s t { getTable s t with queue := (getTable s t).queue.erase c }) u := by
  change ∃ u, execStateCommandComplete t s = .next u ∧ _
  unfold execStateCommandComplete
  dsimp only
  rw [hroom, if_neg Bool.false_ne_true, hfirst]
  exact ⟨_, rfl, postEntry_posts _ _ _⟩

/-- R202, R215: a linked step, checked where it is sharded, has no weights to produce but from its gradients. -/
theorem produceAll_linked {s : State} {t : Nat} {r : StepRun} (hrun : (getTable s t).run = some r)
    (hbuiltin : tbKind (getTable s t) ≠ 0xF) (honepass : tbKind (getTable s t) ≠ 4) (hlinked : cmGmode r.cmd.raw = 0)
    (hchecked : tbSharded (getTable s t) = true → r.checked = true) :
    produceAll s t = putTable s t { getTable s t with run := some r } := by
  unfold produceAll
  dsimp only
  rw [hrun]
  dsimp only
  rw [if_neg fun h => h.elim hbuiltin fun ⟨hsharded, hopen⟩ => by simp [hchecked hsharded] at hopen, if_pos hlinked]
  dsimp only
  rw [if_neg fun h => honepass h.1]

theorem exec_stepEnd_linked {s : State} {t : Nat} {r : StepRun} (hrun : (getTable s t).run = some r)
    (hbuiltin : tbKind (getTable s t) ≠ 0xF) (honepass : tbKind (getTable s t) ≠ 4) (hlinked : cmGmode r.cmd.raw = 0)
    (hreduced : r.reduced = true) (hdone : localCount s (getTable s t) ≤ r.done)
    (hout : cmLinkOut r.cmd.raw = false ∨ r.outStatus.isSome = true) (hchecked : tbSharded (getTable s t) = true → r.checked = true)
    (hroom : svcWaits s 8 = false) :
    exec (.stepEnd t) s = .next (finishStep (putTable s t (getTable s t)) t (getTable s t) r) := by
  have hsame : { getTable s t with run := some r } = getTable s t := by rw [← hrun]
  have hcount : localCount (putTable s t (getTable s t)) (getTable s t) = localCount s (getTable s t) := rfl
  change execStepEnd t s = _
  unfold execStepEnd
  dsimp only
  rw [produceAll_linked hrun hbuiltin honepass hlinked hchecked, hsame, getTable_putTable_same, hroom, if_neg Bool.false_ne_true, hrun]
  dsimp only
  rw [if_neg hbuiltin, hcount, if_pos]
  refine ⟨?_, by simpa using hout⟩
  cases hsharded : tbSharded (getTable s t)
  · simp [hdone, hreduced, honepass]
  · simp [hdone, hreduced, honepass, hchecked hsharded]

theorem getTable_finishStep_linked {s : State} {t : Nat} {x : Table} {r : StepRun} (hlinked : cmGmode r.cmd.raw = 0) :
    getTable (finishStep s t x r) t = { x with run := none, last := cmStep r.cmd.raw } := by
  unfold finishStep
  dsimp only
  rw [getTable_putTable_same, hlinked]
  rfl

/-! ### Applies (R220 to R222) -/

theorem getTable_closeApply (s : State) (t status nan rows : Nat) :
    getTable (closeApply s t status nan rows) t =
      { getTable s t with applies := [], applying := none, appRows := 0, appNan := 0, overflow := false, last := (getTable s t).last + 1 } :=
  getTable_putTable_same _ _ _

theorem exec_embApplyBegin {s : State} {t : Nat} {c : Cmd} {l : List Cmd} (happlies : (getTable s t).applies = c :: l)
    (hready : (getTable s t).st = .ready) (hidle : (getTable s t).applying = none) (hmatched : applyMatched (getTable s t) = true)
    (hcut : cutHoldsTable s t = false)
    (hadds : ((getTable s t).queue.any fun e => cmCmd e.raw == 5 && !e.late && cmStep e.raw == (getTable s t).last + 1 &&
      (getTable s t).applies.any fun a => srcBit a.origin == srcBit e.origin) = false) (hroom : svcWaits s 8 = false) :
    ((getTable s t).overflow = false → ∃ v rows nan, exec (.embApplyBegin t) s =
      .next (putTable v t { getTable s t with applying := some s.drum.count, appRows := rows, appNan := nan })) ∧
    ((getTable s t).overflow = true → ∃ v, exec (.embApplyBegin t) s =
      .next (closeApply (putTable v t { getTable s t with applying := some s.drum.count }) t 8 0 0)) := by
  change (_ → ∃ v rows nan, execEmbApplyBegin t s = _) ∧ (_ → ∃ v, execEmbApplyBegin t s = _)
  unfold execEmbApplyBegin
  dsimp only
  rw [hadds, happlies]
  dsimp only
  rw [if_pos ⟨hroom, hready, by simp [hidle], hmatched, Bool.false_ne_true, by simp [hcut]⟩]
  exact ⟨fun hfits => ⟨_, _, _, if_neg (ne_true_of_eq_false hfits)⟩, fun hover => ⟨_, if_pos hover⟩⟩

theorem exec_embApplyComplete {s : State} {t : Nat} (hroom : svcWaits s 8 = false) (hready : (getTable s t).st = .ready)
    (happlying : (getTable s t).applying.isSome = true) :
    exec (.embApplyComplete t) s =
      .next (closeApply s t (if (getTable s t).appNan = 0 then 0 else 1) (getTable s t).appNan (getTable s t).appRows) :=
  if_pos ⟨hroom, hready, happlying⟩

/-! ### The hubs' checks of a sharded step (R215, R302) -/

theorem checkSharded_idle {s : State} {t : Nat} (hidle : (getTable s t).run = none) : checkSharded s t = s := by
  unfold checkSharded
  dsimp only
  rw [hidle]

/-- R302: a neighbour's check, passed on around the ring where it has not gone round, is spent or compared. -/
theorem exec_xhStep {s u : State} {c : Ctl} (hctl : takeCtl s c 0x51 (fromHub c) = (u, true)) :
    ∃ v, Sends u v ∧ exec (.xhStep c) s =
      if v.colls.stale.contains (field c.msg 1 1, field c.msg 2 2) = true then
        .next { v with colls := { v.colls with stale := v.colls.stale.erase (field c.msg 1 1, field c.msg 2 2) } }
      else .next (checkSharded { v with colls := { v.colls with steps := v.colls.steps ++
        [{ table := field c.msg 1 1, origin := field c.msg 2 2, grad := field c.msg 4 4, digest := field c.msg 8 8 }] } }
        (field c.msg 1 1)) := by
  have hsent : Sends u (if field c.msg 2 2 = (u.consist.cfg.topology.hubIndex + 1) % max 1 u.consist.cfg.topology.hubCount then u
      else sendFlit u 9 6 3 (2 ^ 54) c.msg) := by
    split
    · exact Sends.refl u
    · exact sendFlit_sends _ _ _ _ _ _
  refine ⟨_, hsent, ?_⟩
  change execXhStep c s = _
  unfold execXhStep
  rw [hctl]
  rfl

/-- Settles O49, by what the head of a queue, an end, an apply and a neighbour's check make of the table. -/
theorem stateCommandsAtWork : Obligations.StateCommandsAtWork := by
  refine ⟨fun s t c rest ht => ?_, fun s t c hroom hfirst => ?_, fun s t r => ?_, fun s t c l => ?_, fun s t hroom hready happlying => ?_,
    fun s u c hctl => ?_⟩
  case refine_1 =>
    intro x hready hdense hbuiltin hwhole hidle hqueue hnext hranges hcut hroom
    have hexec := exec_stateCommandHead ht hready hdense hroom
    rw [headDense_starts hready hbuiltin hidle hqueue hnext hranges hcut, startStep_plain hbuiltin hwhole] at hexec
    exact ⟨_, begunRun s x c, hexec, getTable_putTable_same _ _ _, rfl, rfl, rfl, rfl, putTable_mem _ _ _, putTable_outbox _ _ _⟩
  case refine_2 =>
    obtain ⟨u, hexec, hposts⟩ := exec_stateCommandComplete hroom hfirst
    obtain ⟨htable, -, -⟩ := hposts.tablePut
    exact ⟨u, hexec, htable⟩
  case refine_3 =>
    intro x hrun hbuiltin honepass hlinked hreduced hdone hout hchecked hroom
    exact ⟨_, exec_stepEnd_linked hrun hbuiltin honepass hlinked hreduced hdone hout hchecked hroom, getTable_finishStep_linked hlinked⟩
  case refine_4 =>
    intro x happlies hready hidle hmatched hcut hadds hroom
    obtain ⟨hbegins, hfull⟩ := exec_embApplyBegin happlies hready hidle hmatched hcut hadds hroom
    cases hover : x.overflow
    · obtain ⟨v, rows, nan, hexec⟩ := hbegins hover
      refine ⟨_, hexec, fun _ => ?_, Bool.noConfusion⟩
      rw [getTable_putTable_same]
      exact ⟨rfl, rfl⟩
    · obtain ⟨v, hexec⟩ := hfull hover
      refine ⟨_, hexec, Bool.noConfusion, fun _ => ?_⟩
      rw [getTable_closeApply, getTable_putTable_same]
      exact ⟨rfl, rfl⟩
  case refine_5 =>
    refine ⟨_, exec_embApplyComplete hroom hready happlying, ?_⟩
    rw [getTable_closeApply]
    exact ⟨rfl, rfl, rfl, rfl⟩
  case refine_6 =>
    obtain ⟨v, hsends, hexec⟩ := exec_xhStep hctl
    rw [hsends.colls] at hexec
    refine ⟨fun hfresh hidle => ?_, fun hstale => ?_⟩
    · rw [if_neg (by simpa using hfresh), checkSharded_idle] at hexec
      · exact ⟨_, _, hexec, rfl, rfl, rfl, rfl, rfl⟩
      · exact (congrArg Table.run (getTable_congr hsends.tables _)).trans hidle
    · rw [if_pos (by simpa using hstale)] at hexec
      exact ⟨_, hexec, rfl, rfl⟩

end Sys2Proof.Machine

/-! PROOFS. Restores, and the mirrors that hubs send, hold and fetch (R240, R241, R244 to R247, R301). -/

namespace Sys2Proof.Machine

@[simp] theorem putRestore_restore (s : State) (r : Option Restore) : (putRestore s r).snap.restore = r := by rw [putRestore, putSnap_snap]

theorem emptySlot_snap (s : State) (i : Nat) : (emptySlot s i).snap = s.snap := setSlotState_snap s i 0

theorem setOrigin_posts (s : State) (i o : Nat) : Posts s (setOrigin s i o) := (slotWrite_posts _ _ _ _ _).trans (slotWrite_posts _ _ _ _ _)

/-! ### Restores -/

/-- R240, R301: what is asked for, and nothing else of the restore, is new. -/
theorem askMirror_wants (s : State) (r : Restore) (want : Nat) :
    (askMirror s r want).snap.restore = some { r with want := want } ∧ (askMirror s r want).mem = s.mem := by
  have hsent : Sends (putRestore s (some { r with want := want })) (askMirror s r want) := sendCtl_sends _ _ _ _
  exact ⟨by rw [hsent.snap, putRestore_restore], by rw [hsent.mem, putRestore_mem]⟩

/-- R244: the mirror's record is fetched first where the mirror may be a candidate. -/
theorem beginRestore_eq (s : State) (r : Nat) (raw : List Byte) :
    beginRestore s (.ring r) raw =
      if snapMode s = 2 ∧ snFlag raw 0 = false ∧ portActive s 9 = true then
        askMirror (putRestore s (some (newRestore r raw))) (newRestore r raw) (2 ^ 21)
      else restorePump (startLoad (putRestore s (some (newRestore r raw)))
        { newRestore r raw with cands := candidates s (newRestore r raw) }) := rfl

/-- A RESTORE that is accepted begins a restore. -/
theorem exec_restore_next {s : State} {r : Nat} {raw : List Byte} (h : postsSnap s r raw = true) (hc : snCmd raw = 2)
    (hjob : s.host.job = none) : exec (.restore (.ring r) raw) s = .next (beginRestore s (.ring r) raw) := by
  show Host.Outcome.next (snapCommand s (.ring r) raw (snCmd raw == 2)) = _
  rw [hc, beq_self_eq_true, snapCommand_of_postsSnap h, acceptSnap_of_postsSnap h _ (by omega) fun _ => hjob, if_neg (by omega), if_pos hc]

theorem exec_snapPcredit_next {s u : State} {c : Ctl} {r : Restore} (hctl : takeCtl s c 0x39 (fromPartner c) = (u, true))
    (hrest : u.snap.restore = some r) : exec (.snapPcredit c) s = .next
      (if loadGen u r = some (field c.msg 4 4) then
        restorePump (putRestore u (some { r with grants := kset 0 r.grants c.port (kget 0 r.grants c.port + field c.msg 8 4) }))
      else u) := by
  show execSnapPcredit c s = _
  simp only [execSnapPcredit, hctl, hrest]
  split <;> rfl

theorem exec_snapLoadedAck_stale {s u : State} {c : Ctl} {r : Restore} (hctl : takeCtl s c 0x38 (fromPartner c) = (u, true))
    (hrest : u.snap.restore = some r) (hgen : loadGen u r ≠ some (field c.msg 4 4)) : exec (.snapLoadedAck c) s = .next u := by
  show execSnapLoadedAck c s = _
  simp only [execSnapLoadedAck, hctl, hrest, if_pos hgen]

theorem exec_snapLoadedAck_told {s u : State} {c : Ctl} {r : Restore} (hctl : takeCtl s c 0x38 (fromPartner c) = (u, true))
    (hrest : u.snap.restore = some r) (hgen : loadGen u r = some (field c.msg 4 4)) (htold : c.port ∈ r.told) :
    exec (.snapLoadedAck c) s = .next (putRestore u (some { r with acked := nadd r.acked c.port })) := by
  show execSnapLoadedAck c s = _
  simp only [execSnapLoadedAck, hctl, hrest, if_neg (not_not_intro hgen), if_pos (List.contains_iff_mem.mpr htold)]

theorem snapFail_posts (s : State) (o : Origin) (r : List Byte) (status fld : Nat) : Posts s (snapFail s o r status fld) :=
  snapEntry_posts _ _ _ _ _ _ _ _ _ _

theorem takeFree_snap (s : State) : (takeFree s).1.snap = s.snap := rfl

/-- R233, R247: a restore that ends is over, and the free value that numbers the neighbour's slot (log 111) and its entry leave it so. -/
theorem endRestore_over (s : State) (r : Restore) (status : Nat) : (endRestore s r status).snap.restore = none := by
  have hover := putRestore_restore s none
  have hfree := takeFree_snap (putRestore s none)
  unfold endRestore
  dsimp only
  -- whatever the free value is: only that taking it keeps the service matters
  generalize takeFree (putRestore s none) = free at hfree ⊢
  split
  · rw [(snapEntry_posts _ _ _ _ _ _ _ _ _ _).snap]
    split
    · exact hover
    · rw [hfree, hover]
  · rw [(snapFail_posts _ _ _ _ _).snap, hover]

/-- R246: a whole restore is of a copy, its first candidate. -/
theorem restoreWhole_cands {s : State} {r : Restore} (h : restoreWhole s r = true) : ∃ src rest, r.cands = src :: rest := by
  unfold restoreWhole at h
  split at h
  · next hcands => exact ⟨_, _, hcands⟩
  · cases h

theorem finishRestore_over {s : State} {r : Restore} (h : restoreWhole s r = true) : (finishRestore s r).snap.restore = none := by
  obtain ⟨src, rest, hcands⟩ := restoreWhole_cands h
  simp only [finishRestore, hcands]
  exact endRestore_over _ _ _

theorem exec_restoreComplete_next {s : State} {r : Restore} (hrest : s.snap.restore = some r) (hwhole : restoreWhole s r = true)
    (hwaits : svcWaits s 9 = false) : exec .restoreComplete s = .next (finishRestore s r) := by
  show execRestoreComplete s = _
  simp only [execRestoreComplete, hrest, if_pos (And.intro hwhole hwaits)]

/-! ### Mirrors that come in over P0 -/

/-- R240, R301: the transfer that a MIR_BEGIN on P0 starts, and the flits granted for it. -/
theorem exec_mirBegin_starts {s u : State} {c : Ctl} (hctl : takeCtl s c 0x60 (fromHub c) = (u, true)) (hport : c.port = 8)
    (hmode : snapMode u = 2) (hfits : 2 ^ 21 + field c.msg 8 8 ≤ slotUnits u * 2 ^ 21) :
    ∃ t, exec (.mirBegin c) s = .next t ∧
      t.snap.mirIn = some { gen := field c.msg 4 4, slot := mirrorTarget u, total := field c.msg 8 8, got := 0 } := by
  have hready : ¬ (snapMode u ≠ 2 ∨ slotUnits u * 2 ^ 21 < 2 ^ 21 + field c.msg 8 8) := by omega
  have hexec : exec (.mirBegin c) s = execMirBegin c s := rfl
  simp only [execMirBegin, hctl, hport, if_neg hready, Bool.not_true, bne_self_eq_false, Bool.or_self, Bool.false_eq_true, if_false] at hexec
  exact ⟨_, hexec, by rw [(sendCtl_sends _ _ _ _).snap, putSnap_snap]⟩

/-- R240: a MIR_END ends the transfer, whether its copy is whole or not. -/
theorem exec_mirEnd_ends {s u : State} {c : Ctl} {m : MirrorIn} (hctl : takeCtl s c 0x61 (fromHub c) = (u, true)) (hport : c.port = 8)
    (hin : u.snap.mirIn = some m) (hgen : field c.msg 4 4 = m.gen) : ∃ t, exec (.mirEnd c) s = .next t ∧ t.snap.mirIn = none := by
  have hexec : exec (.mirEnd c) s = execMirEnd c s := rfl
  simp only [execMirEnd, hctl, hport, hin, hgen, Bool.not_true, bne_self_eq_false, Bool.or_self, Bool.false_eq_true, if_false] at hexec
  split at hexec
  · exact ⟨_, hexec, by
      rw [(sendCtl_sends _ _ _ _).snap, emptySlot_snap, setSlotState_snap, (setOrigin_posts _ _ _).snap, putSnap_snap]⟩
  · exact ⟨_, hexec, by rw [(sendCtl_sends _ _ _ _).snap, setSlotState_snap, putSnap_snap]⟩

/-! ### Mirrors that go out over P1 -/

/-- R240: the neighbour holds the generation, and the mirror is no longer late. -/
theorem exec_mirAck_next {s u : State} {c : Ctl} {m : MirrorOut} (hctl : takeCtl s c 0x62 (fromHub c) = (u, true)) (hport : c.port = 9)
    (hout : u.snap.mirOut = some m) (hgen : field c.msg 4 4 = m.gen % 2 ^ 32) :
    exec (.mirAck c) s = .next (regPut (putSnap u
      { u.snap with mirOut := none, acked := some m.gen, peerGen := max u.snap.peerGen m.gen }) rSnapMirror 63 32 0) := by
  show execMirAck c s = _
  simp only [execMirAck, hctl, hport, hout, hgen, Bool.not_true, bne_self_eq_false, Bool.or_self, Bool.false_eq_true, if_false]

/-- R238: the neighbour's readiness is told by the registers of the port and the store, and by the slot size it has sent. -/
theorem SameStore.mirrorReady {s t : State} (h : SameStore s t) (hport : portActive t 9 = portActive s 9)
    (hpeer : t.snap.peerUnits = s.snap.peerUnits) : mirrorReady t = mirrorReady s := by
  rw [Machine.mirrorReady, Machine.mirrorReady, hport, hpeer, h.units]

theorem portActive_putSnap (s : State) (x : Snap) : portActive (putSnap s x) 9 = portActive s 9 := by
  rw [portActive, portActive, portSt, portSt, regBits, regBits, regGet_putSnap s x (by decide)]

theorem Sends.portActive {s t : State} (h : Sends s t) (n : Nat) : portActive t n = portActive s n := by
  rw [Machine.portActive, Machine.portActive, portSt, portSt, regBits_congr h.regs]

/-- R240: the mirror begins where the neighbour is ready, and waits where it is not. -/
theorem startMirror_snap {s : State} {m : MirrorOut} (hout : s.snap.mirOut = some m) (hbegun : m.begun = false) :
    (startMirror s).snap =
      { s.snap with mirOut := some (if mirrorReady s then { newMirror m.gen m.slot with begun := true } else m) } := by
  simp only [startMirror, hout, hbegun, Bool.false_eq_true, false_or]
  cases hready : mirrorReady s
  · simp [← hout]
  · simp [(sendCtl_sends _ _ _ _).snap]

/-- R240, R241: the mirror being sent is made new, and begins again where the neighbour is ready. -/
theorem restartMirror_snap {s : State} {m : MirrorOut} (hout : s.snap.mirOut = some m) :
    (restartMirror s).snap = { s.snap with mirOut := some { newMirror m.gen m.slot with begun := mirrorReady s } } := by
  have hdrop : Sends s (dropMirror s) := dropMirror_sends s
  simp only [restartMirror, hout]
  rw [startMirror_snap (m := newMirror m.gen m.slot) (by rw [putSnap_snap]) rfl, putSnap_snap,
    (hdrop.sameStore.trans (putSnap_sameStore _ _)).mirrorReady
      ((portActive_putSnap _ _).trans (hdrop.portActive 9)) (by rw [putSnap_snap, hdrop.snap]), hdrop.snap]
  cases mirrorReady s <;> rfl

/-- R241: a new start of the mirror leaves what the neighbour has told of its slots. -/
theorem restartMirror_peerUnits (s : State) : (restartMirror s).snap.peerUnits = s.snap.peerUnits := by
  cases hout : s.snap.mirOut with
  | none => simp only [restartMirror, hout]
  | some m => rw [restartMirror_snap hout]

/-- R240: a MIR_NAK of the generation being sent. -/
theorem exec_mirNak_restarts {s u : State} {c : Ctl} {m : MirrorOut} (hctl : takeCtl s c 0x63 (fromHub c) = (u, true))
    (hport : c.port = 9) (hout : u.snap.mirOut = some m) (hgen : field c.msg 4 4 = m.gen % 2 ^ 32) (hbegun : m.begun = true) :
    exec (.mirNak c) s = .next (restartMirror u) := by
  show execMirNak c s = _
  simp [execMirNak, hctl, hport, hout, hgen, hbegun]

/-- R240, R301: what goes out of a mirror leaves its generation and its credits as they are. -/
theorem mirPump_mirOut {s : State} {m : MirrorOut} (hout : s.snap.mirOut = some m) :
    ∃ q, (mirPump s).snap.mirOut = some q ∧ q.gen = m.gen ∧ q.credits = m.credits := by
  simp only [mirPump, hout]
  split
  · exact ⟨_, congrArg Snap.mirOut (putSnap_snap _ _), rfl, rfl⟩
  · exact ⟨m, hout, rfl, rfl⟩

/-- R301: a MIR_CREDIT on P1 for the generation being sent. -/
theorem exec_mirCredit_sent {s u : State} {c : Ctl} {m : MirrorOut} (hctl : takeCtl s c 0x64 (fromHub c) = (u, true))
    (hport : c.port = 9) (hout : u.snap.mirOut = some m) (hgen : field c.msg 4 4 = m.gen % 2 ^ 32) :
    exec (.mirCredit c) s =
      .next (mirPump (putSnap u { u.snap with mirOut := some { m with credits := m.credits + field c.msg 8 4 } })) := by
  show execMirCredit c s = _
  simp [execMirCredit, hctl, hport, hout, hgen]

/-- R241, R301: the neighbour's slot size is kept, and a mirror starts again. -/
theorem exec_mirSlots_next {s u : State} {c : Ctl} (hctl : takeCtl s c 0x65 (fromHub c) = (u, true)) (hport : c.port = 9) :
    exec (.mirSlots c) s = .next (restartMirror (putSnap u { u.snap with peerUnits := some (field c.msg 8 8) })) := by
  show execMirSlots c s = _
  simp only [execMirSlots, hctl, hport, Bool.not_true, bne_self_eq_false, Bool.or_self, Bool.false_eq_true, if_false]

/-! ### The mirror held here, fetched over P0 -/

section
variable {s u : State} {c : Ctl} (hport : c.port = 8)
include hport

/-- Log 51: GEN 0 begins a fetch of the newest mirror held here from its first byte; where there is none the hub is told. -/
theorem exec_mirCredit_opens (hctl : takeCtl s c 0x64 (fromHub c) = (u, true)) (hgen : field c.msg 4 4 = 0) :
    exec (.mirCredit c) s = .next (match newestMirror u with
      | some i => servePump (openServe u i) (field c.msg 8 4)
      | none => sendCtl u 8 0x63 [(4, 0)]) := by
  show execMirCredit c s = _
  cases hnewest : newestMirror u <;> simp [execMirCredit, hctl, hport, hgen, hnewest]

/-- R301: a grant for the generation that is being fetched. -/
theorem exec_mirCredit_serves (hctl : takeCtl s c 0x64 (fromHub c) = (u, true)) {i n : Nat} (hgen : field c.msg 4 4 ≠ 0)
    (hserve : u.snap.serve = some (i, n)) (hslot : slotGen u i % 2 ^ 32 = field c.msg 4 4) :
    exec (.mirCredit c) s = .next (servePump u (field c.msg 8 4)) := by
  obtain ⟨g, hg⟩ := Nat.exists_eq_succ_of_ne_zero hgen
  have hheld : slotGen u i % 2 ^ 32 = g.succ := hslot.trans hg
  show execMirCredit c s = _
  simp only [execMirCredit, hctl, hport, hg, hserve, if_pos hheld, Bool.not_true, Bool.false_eq_true, if_false, Nat.reduceEqDiff]

/-- Log 51: the mirror held here that the hub behind P0 could not use. -/
theorem exec_mirNak_damages (hctl : takeCtl s c 0x63 (fromHub c) = (u, true)) {i : Nat}
    (hheld : [1, 2].find? (fun i => snapMode u == 2 && slotState u i == 2 && slotGen u i % 2 ^ 32 == field c.msg 4 4) = some i) :
    exec (.mirNak c) s = .next (setSlotState (putSnap u { u.snap with serve := none }) i 4) := by
  show execMirNak c s = _
  simp only [execMirNak, hctl, hheld, Bool.not_true, Bool.false_eq_true, if_false, if_pos hport]
end

/-! ### The obligation -/

/-- Settles O51: each command and event by its own lemma above; a mirror that starts again is read off `restartMirror_snap`. -/
theorem restoresAndMirrors : Obligations.RestoresAndMirrors := by
  unfold Obligations.RestoresAndMirrors
  refine ⟨?begin, ?members, ?complete, fun s u c => exec_mirBegin_starts, fun s u c m => exec_mirEnd_ends, ?sent, ?fetched, ?slots,
    fun s u c i hctl hport => exec_mirNak_damages hport hctl⟩
  case begin =>
    intro s r raw hposts hc hjob
    rw [exec_restore_next hposts hc hjob, beginRestore_eq]
    refine ⟨fun hmode hflag hactive => ?_, fun hlocal => ?_⟩
    · obtain ⟨hasked, hmem⟩ := askMirror_wants (putRestore s (some (newRestore r raw))) (newRestore r raw) (2 ^ 21)
      rw [if_pos ⟨hmode, hflag, hactive⟩]
      exact ⟨_, _, rfl, hasked, rfl, rfl, rfl, rfl, by rw [hmem, putRestore_mem]⟩
    · rw [if_neg]
      rintro ⟨hmode, hflag, hactive⟩
      rcases hlocal with h | h | h
      · omega
      · exact Bool.false_ne_true (hflag.symm.trans h)
      · exact Bool.false_ne_true (h.symm.trans hactive)
  case members =>
    intro s u c r hrest
    refine ⟨fun hctl => ?_, fun hctl hgen => exec_snapLoadedAck_stale hctl hrest hgen, fun hctl hgen htold =>
      ⟨_, exec_snapLoadedAck_told hctl hrest hgen htold, putRestore_restore _ _, ?_⟩⟩
    · rw [exec_snapPcredit_next hctl hrest]
      exact ⟨fun hgen => by rw [if_pos hgen], fun hgen => by rw [if_neg hgen]⟩
    · rw [putRestore_mem, (takeCtl_accepted hctl).2.mem]
  case complete =>
    intro s r hrest hwhole hwaits
    exact ⟨_, exec_restoreComplete_next hrest hwhole hwaits, finishRestore_over hwhole⟩
  case sent =>
    intro s u c m hport hout hgen
    refine ⟨fun hctl => ⟨_, exec_mirAck_next hctl hport hout hgen, ?_⟩, fun hctl hbegun => ?_, fun hctl => ?_⟩
    · rw [regPut_snap, putSnap_snap, regBits_regPut_same _ _ _ (by decide) (by decide)]
      exact ⟨rfl, rfl, rfl, rfl⟩
    · refine ⟨_, _, exec_mirNak_restarts hctl hport hout hgen hbegun, congrArg Snap.mirOut (restartMirror_snap hout), rfl, ?_⟩
      exact ⟨fun hready => ⟨hready, rfl⟩, fun hready => hready⟩
    · obtain ⟨q, hq, hqgen, hcredits⟩ := mirPump_mirOut
        (s := putSnap u { u.snap with mirOut := some { m with credits := m.credits + field c.msg 8 4 } }) (by rw [putSnap_snap])
      exact ⟨_, q, exec_mirCredit_sent hctl hport hout hgen, hq, hqgen, hcredits⟩
  case fetched =>
    intro s u c hctl hport
    refine ⟨fun i hgen hnewest => ?_, fun hgen hnewest => ?_, fun i n => exec_mirCredit_serves hport hctl⟩
    · rw [exec_mirCredit_opens hport hctl hgen, hnewest]
    · rw [exec_mirCredit_opens hport hctl hgen, hnewest]
  case slots =>
    intro s u c hctl hport
    exact ⟨_, exec_mirSlots_next hctl hport, by rw [restartMirror_peerUnits, putSnap_snap]⟩

end Sys2Proof.Machine

/-! PROOFS. The beat edge: the count, a pending step and the outputs, then the work of the beat (R249 to R251, R254, R258, R362). -/

namespace Sys2Proof.Machine

/-! ### What follows the count at an edge -/

/-- What an edge does once the Drum has its count: registers, flits that go out and the grants of power change, and of the Drum what
neither the count, a step nor the outputs' delays show in. -/
def EdgeWork (s t : State) : Prop := ∃ regs ports outbox conns free power aligned ones sync0 sync1,
  t = { s with regs := regs, ports := ports, outbox := outbox, host := { s.host with conns := conns }, free := free, power := power,
               drum := { s.drum with aligned := aligned, ones := ones, sync0 := sync0, sync1 := sync1 } }

theorem EdgeWork.refl (s : State) : EdgeWork s s := ⟨_, _, _, _, _, _, _, _, _, _, rfl⟩

theorem EdgeWork.trans {s t u : State} (hst : EdgeWork s t) (htu : EdgeWork t u) : EdgeWork s u := by
  obtain ⟨_, _, _, _, _, _, _, _, _, _, rfl⟩ := hst
  obtain ⟨_, _, _, _, _, _, _, _, _, _, rfl⟩ := htu
  exact ⟨_, _, _, _, _, _, _, _, _, _, rfl⟩

theorem EdgeWork.ite {c : Prop} [Decidable c] {s t u : State} (ht : EdgeWork s t) (hu : EdgeWork s u) : EdgeWork s (if c then t else u) := by
  split
  · exact ht
  · exact hu

theorem EdgeWork.foldl {α : Type} {f : State → α → State} (h : ∀ s a, EdgeWork s (f s a)) (l : List α) (s : State) :
    EdgeWork s (l.foldl f s) :=
  List.foldlRecOn l f (EdgeWork.refl s) fun t ht a _ => ht.trans (h t a)

theorem Sends.edgeWork {s t : State} (h : Sends s t) : EdgeWork s t := by
  obtain ⟨_, _, _, rfl⟩ := h
  exact ⟨_, _, _, _, _, _, _, _, _, _, rfl⟩

theorem regPut_edgeWork (s : State) (a hi lo x : Nat) : EdgeWork s (regPut s a hi lo x) := ⟨_, _, _, _, _, _, _, _, _, _, rfl⟩

/-- R258, R287: a beat-sync flit sent. -/
theorem sendBeatSync_edgeWork (s : State) (port : Nat) : EdgeWork s (sendBeatSync s port) := by
  have hplain : ∀ (t : State) (n header : Nat) (payload : List Byte), Sends t (sendPlain t n header payload) := fun t _ _ _ =>
    (emit_sends t _ _ _).trans (lineFlit_sends _ _ _ _)
  have hrecord : ∀ (t : State) (r : SyncRec),
      EdgeWork t { t with drum := if port = 0 then { t.drum with sync0 := r } else { t.drum with sync1 := r } } := fun t r => by
    split <;> exact ⟨_, _, _, _, _, _, _, _, _, _, rfl⟩
  have hfree : EdgeWork s { s with free := s.free + 1 } := ⟨_, _, _, _, _, _, _, _, _, _, rfl⟩
  rw [sendBeatSync]
  exact EdgeWork.ite ((hfree.trans (hplain _ _ _ _).edgeWork).trans (hrecord _ _)) (EdgeWork.refl s)

/-- R280: PART 0 repeated on a port. -/
theorem repeatPart0_edgeWork (s : State) (n : Nat) : EdgeWork s (repeatPart0 s n) :=
  EdgeWork.ite ((emit_sends s _ _ _).trans (lineFlit_sends _ _ _ _)).edgeWork (EdgeWork.refl s)

/-! ### The Drum at an edge -/

/-- R249, R250, R254: the Drum that an edge of a running Drum leaves, before what follows the count. -/
def edgeDrum (s : State) : Drum :=
  { s.drum with
    count := (nextCount s).1
    beats := s.drum.beats + 1
    stepMark := (nextCount s).2 || s.drum.stepMark && decide ((nextCount s).1.toNat % 64 ≠ 0)
    step := if (nextCount s).2 then none else s.drum.step
    pinDly := pinDelays s }

theorem drumEdge_edgeWork (s : State) : EdgeWork { s with drum := edgeDrum s } (drumEdge s) := by
  simp only [drumEdge]
  refine EdgeWork.trans ?_ (EdgeWork.ite (EdgeWork.foldl repeatPart0_edgeWork _ _) (EdgeWork.refl _))
  refine EdgeWork.trans ?_ (EdgeWork.ite ((sendBeatSync_edgeWork _ _).trans (sendBeatSync_edgeWork _ _)) (EdgeWork.refl _))
  have haligned : ∀ (t : State) (n : Nat), EdgeWork t { t with drum := { t.drum with aligned := n } } := fun _ _ =>
    ⟨_, _, _, _, _, _, _, _, _, _, rfl⟩
  refine EdgeWork.trans ?_ (EdgeWork.ite (EdgeWork.ite ((haligned _ _).trans (regPut_edgeWork _ _ _ _ _)) (haligned _ _)) (haligned _ _))
  refine EdgeWork.trans ?_ (EdgeWork.ite (regPut_edgeWork _ _ _ _ _) (EdgeWork.refl _))
  convert EdgeWork.refl _ using 2
  cases hstepped : (nextCount s).2 <;> by_cases hmarker : (nextCount s).1.toNat % 64 = 0 <;> simp [edgeDrum, hstepped, hmarker]

/-! ### The whole edge -/

/-- R249, R251, R430: a beat edge up to the work of the main domain. -/
def beatEdge (s : State) : State := refillBuckets (sendPulse (if s.drum.running then drumEdge s else firstEdge s))

/-- Log 41: the main domain's work and the datagrams that wait come after the edge. -/
theorem exec_drumBeat_next {s : State} (hstby : s.stbyDom = .up) :
    exec .drumBeat s = .next ((heldRoles (mainBeat (beatEdge s))).foldl serveHeld (mainBeat (beatEdge s))) :=
  if_neg (not_not_intro hstby)

theorem beatEdge_running {s : State} (hrun : s.drum.running = true) : EdgeWork { s with drum := edgeDrum s } (beatEdge s) := by
  have hpulse : ∀ t, EdgeWork t (refillBuckets (sendPulse t)) := fun t => ⟨_, _, _, _, _, _, _, _, _, _, rfl⟩
  rw [beatEdge, if_pos hrun]
  exact (drumEdge_edgeWork s).trans (hpulse _)

/-- R14: nothing of a beat's work is done while the main domain is not up. -/
theorem beatWork_down {s : State} (hdown : s.mainDom ≠ .up) : (heldRoles (mainBeat s)).foldl serveHeld (mainBeat s) = s := by
  have hmain : mainBeat s = s := if_pos hdown
  have hserve : ∀ role, serveHeld s role = s := fun _ => if_pos (Or.inl hdown)
  rw [hmain, List.foldl_fixed' hserve]

/-- Settles O25, by the Drum that an edge leaves (`edgeDrum`) and what follows it (`EdgeWork`). -/
theorem drumBeatAdvancesTheCount : Obligations.DrumBeatAdvancesTheCount := by
  unfold Obligations.DrumBeatAdvancesTheCount
  refine ⟨?counts, ?steps, ?starts⟩
  case counts =>
    intro s hstby hrun hstep
    refine ⟨_, exec_drumBeat_next hstby, ?_⟩
    have hnext : nextCount s = (s.drum.count + 1, false) := by rw [nextCount, hstep]
    obtain ⟨_, _, _, _, _, _, _, _, _, _, hu⟩ := beatEdge_running hrun
    rw [hu]
    exact ⟨congrArg Prod.fst hnext, rfl, rfl, rfl, rfl, rfl, fun hdown => beatWork_down hdown⟩
  case steps =>
    intro s off hstby hrun hstep hjob
    refine ⟨_, exec_drumBeat_next hstby, ?_⟩
    have hnext : nextCount s = (BitVec.ofInt 64 ((s.drum.count.toNat + 1 : Nat) - (off * 8 / 5 + 320) / 640), true) := by
      simp [nextCount, hstep, jobRunning, hjob]
    obtain ⟨_, _, _, _, _, _, _, _, _, _, hu⟩ := beatEdge_running hrun
    rw [hu]
    exact ⟨by simp only [edgeDrum, hnext, if_true], by simp only [edgeDrum, hnext, Bool.true_or], rfl, rfl, congrArg Prod.fst hnext⟩
  case starts =>
    intro s hstby hrun
    refine ⟨_, exec_drumBeat_next hstby, ?_⟩
    rw [beatEdge, if_neg (by rw [hrun]; exact Bool.false_ne_true)]
    exact ⟨rfl, rfl, rfl, rfl, rfl, rfl⟩

end Sys2Proof.Machine

/-! PROOFS. The Drum's sources: beat-sync flits, PTP exchanges, the choice and the loss of a source (R252, R255 to R260). -/

namespace Sys2Proof.Machine

/-! ### Messages of the Drum (R446 to R459) -/

/-- What a message that the Drum raises changes: the Belfry, and of the registers only those of the Belfry's block and above. -/
def Reports (s t : State) : Prop :=
  (∃ regs belfry, t = { s with regs := regs, belfry := belfry }) ∧ ∀ b, b < 0x200000 → regGet t b = regGet s b

theorem Reports.refl (s : State) : Reports s s := ⟨⟨_, _, rfl⟩, fun _ _ => rfl⟩

theorem Reports.trans {s t u : State} (hst : Reports s t) (htu : Reports t u) : Reports s u := by
  obtain ⟨⟨_, _, rfl⟩, hregs⟩ := hst
  obtain ⟨⟨_, _, rfl⟩, hregs'⟩ := htu
  exact ⟨⟨_, _, rfl⟩, fun b hb => (hregs' b hb).trans (hregs b hb)⟩

theorem Reports.ite {c : Prop} [Decidable c] {s t u : State} (ht : Reports s t) (hu : Reports s u) : Reports s (if c then t else u) := by
  split
  · exact ht
  · exact hu

theorem reports_belfry (s : State) (b : Belfry) : Reports s { s with belfry := b } := ⟨⟨_, _, rfl⟩, fun _ _ => rfl⟩

theorem regPut_reports {a : Nat} (s : State) (hi lo x : Nat) (ha : 0x200000 ≤ a) : Reports s (regPut s a hi lo x) :=
  ⟨⟨_, _, rfl⟩, fun _ hb => regGet_regPut_ne s hi lo x (by omega)⟩

/-- R457: the accounting of a message of the Drum, whose fatal latch names no unit. -/
theorem accountMsg_reports (s : State) (cls : Nat) (escd : Bool) : Reports s (accountMsg s srcDrum cls escd) := by
  have hput : ∀ t hi lo x, Reports t (regPut t (rSrc srcDrum) hi lo x) := fun t hi lo x => regPut_reports t hi lo x (by decide)
  have hlatch : ∀ t, latchUnit t srcDrum = t := fun _ => rfl
  simp only [accountMsg, hlatch]
  refine Reports.trans ?_ (Reports.ite (regPut_reports _ _ _ _ (by decide)) (Reports.refl _))
  refine Reports.trans ?_ (Reports.ite (Reports.refl _) (hput _ _ _ _))
  refine Reports.trans ?_ (Reports.ite (hput _ _ _ _) (Reports.refl _))
  exact (regPut_reports s _ _ _ (by decide)).trans (Reports.ite (hput _ _ _ _) (hput _ _ _ _))

/-- R449, R452: a message of the Drum waits, is merged, or, while the main domain is down, is not kept. -/
theorem raise_reports (s : State) (kind cls addr : Nat) : Reports s (raise s srcDrum kind cls addr) := by
  have hsrc : (newMsg s srcDrum kind cls addr).source = srcDrum := rfl
  rw [raise]
  generalize newMsg s srcDrum kind cls addr = m at hsrc ⊢
  have hstandby : isStandbySource srcDrum = false := by decide
  simp only [raiseMsg, hsrc, hstandby, Bool.false_eq_true, if_false]
  refine Reports.ite (Reports.refl s) (Reports.ite (Reports.ite (reports_belfry s _) ?_) (Reports.refl s))
  exact (accountMsg_reports s _ _).trans (regPut_reports _ _ _ _ (by decide))

/-! ### The source in effect and its offset (R255, R259, R260) -/

/-- What the choice of a source and the offset that it shows change: DRUM_STATUS, the step that waits and the tally of aligned beats,
and what the messages raised change. -/
def Steers (s t : State) : Prop :=
  (∃ regs belfry aligned shown step,
    t = { s with regs := regs, belfry := belfry, drum := { s.drum with aligned := aligned, shown := shown, step := step } }) ∧
  ∀ b, b < 0x200000 → b ≠ rDrumStatus → regGet t b = regGet s b

theorem Steers.refl (s : State) : Steers s s := ⟨⟨_, _, _, _, _, rfl⟩, fun _ _ _ => rfl⟩

theorem Steers.trans {s t u : State} (hst : Steers s t) (htu : Steers t u) : Steers s u := by
  obtain ⟨⟨_, _, _, _, _, rfl⟩, hregs⟩ := hst
  obtain ⟨⟨_, _, _, _, _, rfl⟩, hregs'⟩ := htu
  exact ⟨⟨_, _, _, _, _, rfl⟩, fun b hb hne => (hregs' b hb hne).trans (hregs b hb hne)⟩

theorem Steers.ite {c : Prop} [Decidable c] {s t u : State} (ht : Steers s t) (hu : Steers s u) : Steers s (if c then t else u) := by
  split
  · exact ht
  · exact hu

theorem Steers.mem {s t : State} (h : Steers s t) : t.mem = s.mem := by obtain ⟨⟨_, _, _, _, _, rfl⟩, -⟩ := h; rfl
theorem Steers.coaches {s t : State} (h : Steers s t) : t.coaches = s.coaches := by obtain ⟨⟨_, _, _, _, _, rfl⟩, -⟩ := h; rfl
theorem Steers.ptp {s t : State} (h : Steers s t) : t.drum.ptp = s.drum.ptp := by obtain ⟨⟨_, _, _, _, _, rfl⟩, -⟩ := h; rfl
theorem Steers.sync0 {s t : State} (h : Steers s t) : t.drum.sync0 = s.drum.sync0 := by obtain ⟨⟨_, _, _, _, _, rfl⟩, -⟩ := h; rfl
theorem Steers.sync1 {s t : State} (h : Steers s t) : t.drum.sync1 = s.drum.sync1 := by obtain ⟨⟨_, _, _, _, _, rfl⟩, -⟩ := h; rfl

/-- DRUM_PTP does not show the source in effect. -/
theorem Steers.regBits_rPtp {s t : State} (h : Steers s t) (hi lo : Nat) : regBits t rPtp hi lo = regBits s rPtp hi lo := by
  rw [regBits, regBits, h.2 rPtp (by decide) (by decide)]

theorem Reports.steers {s t : State} (h : Reports s t) : Steers s t := by
  obtain ⟨⟨_, _, rfl⟩, hregs⟩ := h
  exact ⟨⟨_, _, _, _, _, rfl⟩, fun b hb _ => hregs b hb⟩

theorem steers_drum (s : State) (aligned : Nat) (shown : Bool) (step : Option Int) :
    Steers s { s with drum := { s.drum with aligned := aligned, shown := shown, step := step } } :=
  ⟨⟨_, _, _, _, _, rfl⟩, fun _ _ _ => rfl⟩

theorem regPut_steers (s : State) (hi lo x : Nat) : Steers s (regPut s rDrumStatus hi lo x) :=
  ⟨⟨_, _, _, _, _, rfl⟩, fun _ _ hne => regGet_regPut_ne s hi lo x hne⟩

theorem setSource_steers (s : State) : Steers s (setSource s) := by
  simp only [setSource]
  refine Steers.trans ?_ (Steers.ite (regPut_steers _ _ _ _) (Steers.ite (regPut_steers _ _ _ _)
    ((regPut_steers _ _ _ _).trans (regPut_steers _ _ _ _))))
  exact Steers.trans (Steers.ite (Steers.refl s) (steers_drum s _ _ _)) (regPut_steers _ _ _ _)

theorem measured_steers (s : State) (off : Int) (regained : Bool) : Steers s (measured s off regained) := by
  have hraise : ∀ t kind cls addr, Steers t (raise t srcDrum kind cls addr) := fun t kind cls addr => (raise_reports t kind cls addr).steers
  simp only [measured]
  refine Steers.trans ?_ (steers_drum _ _ _ _)
  refine Steers.trans ?_ (Steers.ite (hraise _ _ _ _) (Steers.refl _))
  refine (regPut_steers s _ _ _).trans (Steers.ite ?_ (Steers.refl _))
  exact ((Steers.ite (hraise _ _ _ _) (Steers.refl _)).trans (steers_drum _ _ _ _)).trans (regPut_steers _ _ _ _)

theorem unaligned_steers (s : State) (off : Int) : Steers s (unaligned s off) := by
  rw [unaligned]
  exact Steers.ite (raise_reports s _ _ _).steers (Steers.refl s)

theorem loseSource_steers (s : State) : Steers s (loseSource s) := by
  simp only [loseSource]
  refine ((setSource_steers s).trans (steers_drum _ _ _ _)).trans (Steers.ite ?_ (Steers.refl _))
  exact (Steers.ite (raise_reports _ _ _ _).steers (Steers.refl _)).trans (regPut_steers _ _ _ _)

/-! ### SOURCE and STATE of DRUM_STATUS -/

/-- R255: SOURCE is the source chosen, and STATE stays. -/
theorem setSource_status (s : State) : drumSource (setSource s) = chooseSource s ∧ drumState (setSource s) = drumState s := by
  have hlow : ∀ (t : State) (hi lo x : Nat), lo ≤ hi → hi < 58 →
      drumSource (regPut t rDrumStatus hi lo x) = drumSource t ∧ drumState (regPut t rDrumStatus hi lo x) = drumState t := fun t hi lo x hle hhi =>
    ⟨regBits_regPut_apart t _ x hle (by omega) (by omega), regBits_regPut_apart t _ x hle (by omega) (by omega)⟩
  have hput : ∀ t, drumState t = drumState s →
      drumSource (regPut t rDrumStatus 59 58 (chooseSource s)) = chooseSource s ∧
      drumState (regPut t rDrumStatus 59 58 (chooseSource s)) = drumState s := fun t ht => by
    have hsmall : chooseSource s < 4 := by rw [chooseSource]; split_ifs <;> decide
    exact ⟨(regBits_regPut_same t _ _ (by decide) (by decide)).trans (Nat.mod_eq_of_lt hsmall),
      (regBits_regPut_apart t _ _ (by decide) (by decide) (by decide)).trans ht⟩
  have hchosen := hput (if drumSource s = chooseSource s then s else { s with drum := { s.drum with aligned := 0, shown := false } })
    (by split <;> rfl)
  simp only [setSource]
  generalize regPut _ rDrumStatus 59 58 (chooseSource s) = t at hchosen ⊢
  obtain ⟨hsrc, hst⟩ := hchosen
  split_ifs <;> simp [hlow, hsrc, hst]

/-- R259, log 136: the next source is chosen, no step waits, and a Drum that followed the lost one holds over. -/
theorem loseSource_status (s : State) :
    drumSource (loseSource s) = chooseSource s ∧ (loseSource s).drum.step = none ∧
      (drumState s = 1 ∨ drumState s = 2 → drumState (loseSource s) = 3) := by
  obtain ⟨hsrc, -⟩ := setSource_status s
  simp only [loseSource]
  generalize hquiet : ({ setSource s with
    drum := { (setSource s).drum with aligned := 0, shown := false, step := none } } : State) = t
  have ht : drumSource t = chooseSource s ∧ t.drum.step = none := by rw [← hquiet]; exact ⟨hsrc, rfl⟩
  have htold : Reports t (if drumState s = 2 then raise t srcDrum 0x0E 1 0 else t) := Reports.ite (raise_reports t _ _ _) (Reports.refl t)
  split
  case isTrue =>
    generalize (if drumState s = 2 then raise t srcDrum 0x0E 1 0 else t) = u at htold ⊢
    obtain ⟨⟨_, _, rfl⟩, hregs⟩ := htold
    refine ⟨?_, ht.2, fun _ => regBits_regPut_same _ _ _ (by decide) (by decide)⟩
    rw [← ht.1, drumSource, putDrumState, regBits_regPut_apart _ _ _ (by decide) (by decide) (by decide), regBits,
      hregs rDrumStatus (by decide)]
    rfl
  case isFalse hfree => exact ⟨ht.1, ht.2, fun h => absurd h hfree⟩

/-! ### Beat-sync flits (R258) -/

/-- R258: the record of a port on which a beat-sync flit has arrived. -/
def takenSync (s : State) (old : SyncRec) (p : List Byte) (phase : Nat) : SyncRec :=
  { old with rxSeq := field p 0 2, rxCount := s.drum.count, rxPhase := phase, depth := field p 0x1D 1, last := s.drum.beats + 1,
             offset := ((syncOffset s old p phase).map fun o => o * 5 / 8).getD old.offset }

theorem takeSync_p0 (s : State) (p : List Byte) (phase : Nat) :
    Steers { s with drum := { s.drum with sync0 := takenSync s s.drum.sync0 p phase } } (takeSync s 0 p phase) := by
  simp only [takeSync, if_true, Nat.zero_ne_one, if_false]
  refine Steers.ite (setSource_steers _) ((setSource_steers _).trans ?_)
  split
  · exact measured_steers _ _ _
  · exact Steers.ite (unaligned_steers _ _) (Steers.refl _)

theorem takeSync_p1 (s : State) (p : List Byte) (phase : Nat) :
    takeSync s 1 p phase = { s with drum := { s.drum with sync1 := takenSync s s.drum.sync1 p phase } } := rfl

section
variable {s : State} {port seq echoSeq txCount txPhase rxCount rxPhase info phase : Nat} {header crc : W64} {rest : List Byte} {f : Flit}
  (hf : syncFlit port header seq echoSeq txCount txPhase rxCount rxPhase info rest crc = f)
  (h8 : 8 ≤ port) (h10 : port < 10) (hactive : portActive s port = true) (hkind : flitKind f = 0xC)
include hf h8 h10 hactive hkind

/-- R286: a beat-sync flit on an ACTIVE P port is judged by its CRC, its unused fields and BEAT_SYNC. -/
theorem exec_beatSync_active :
    exec (.beatSync port header seq echoSeq txCount txPhase rxCount rxPhase info rest crc phase) s =
      if !crcOk f then .next (crcFailed s port 0xC)
      else if !syncOk f then .next (protocolError s port 0xC 0)
      else if !s.consist.cfg.drum.beatSync.getLsbD (port - 8) then .next s
      else .next (takeSync s (port - 8) f.payload phase) := by
  subst hf
  refine if_neg ?_
  rintro (h | h | h | h)
  · exact absurd h8 (Nat.not_le.mpr h)
  · exact absurd h10 (Nat.not_lt.mpr h)
  · exact absurd (hactive.symm.trans (Bool.not_eq_true' _ |>.mp h)) (by decide)
  · exact h hkind

theorem exec_beatSync_next (hcrc : crcOk f = true) (hsync : syncOk f = true)
    (hon : s.consist.cfg.drum.beatSync.getLsbD (port - 8) = true) :
    exec (.beatSync port header seq echoSeq txCount txPhase rxCount rxPhase info rest crc phase) s =
      .next (takeSync s (port - 8) f.payload phase) := by
  rw [exec_beatSync_active hf h8 h10 hactive hkind, hcrc, hsync, hon]
  rfl

theorem exec_beatSync_crcFailed (hcrc : crcOk f = false) :
    exec (.beatSync port header seq echoSeq txCount txPhase rxCount rxPhase info rest crc phase) s = .next (crcFailed s port 0xC) := by
  rw [exec_beatSync_active hf h8 h10 hactive hkind, hcrc]
  rfl
end

/-! ### PTP exchanges (R256, R257) -/

/-- A saturated field fits its bits. -/
theorem satSigned_lt {w : Nat} (hw : 0 < w) (x : Int) : satSigned w x < 2 ^ w := by
  obtain ⟨k, rfl⟩ : ∃ k, w = k + 1 := ⟨w - 1, by omega⟩
  have hpow : (2 : Int) ^ k = ((2 ^ k : Nat) : Int) := by push_cast; rfl
  have hpos := Nat.two_pow_pos k
  simp only [satSigned, Nat.add_sub_cancel, pow_succ, hpow]
  split_ifs <;> omega

/-- R256: one Delay_Req leaves. -/
theorem sendDelayReq_outbox_length (s : State) : (sendDelayReq s).outbox.length = s.outbox.length + 1 :=
  List.length_append

/-- R256: the exchange that a Sync begins. -/
def syncedPtp (s : State) (twoStep : Bool) (t1 : Int) (phase : Nat) : State :=
  { s with drum := { s.drum with ptp := { s.drum.ptp with
      t1 := if twoStep then none else some t1, t2 := some (timeNs s.drum.count phase), t3 := none, needFollowUp := twoStep } } }

theorem exec_ptpSync_next {s : State} {p : PtpIn} {m : Nat} (hacc : ptpAccepts s p 319 = true) (hm : s.drum.ptp.master = some m)
    (twoStep : Bool) (t1 : Int) (phase : Nat) :
    exec (.ptpSync p m twoStep t1 phase) s =
      .next (if twoStep then syncedPtp s twoStep t1 phase else sendDelayReq (syncedPtp s twoStep t1 phase)) :=
  if_pos (by simp [hacc, hm])

theorem exec_ptpFollowUp_next {s : State} {p : PtpIn} {m : Nat} (hacc : ptpAccepts s p 320 = true) (hm : s.drum.ptp.master = some m)
    (hneed : s.drum.ptp.needFollowUp = true) (t1 : Int) :
    exec (.ptpFollowUp p m t1) s =
      .next (sendDelayReq { s with drum := { s.drum with ptp := { s.drum.ptp with t1 := some t1, needFollowUp := false } } }) :=
  if_pos (by simp [hacc, hm, hneed])

theorem exec_ptpDelayResp_next {s : State} {p : PtpIn} {m : Nat} {t1 t2 t3 : Int} (hacc : ptpAccepts s p 320 = true)
    (hm : s.drum.ptp.master = some m) (h1 : s.drum.ptp.t1 = some t1) (h2 : s.drum.ptp.t2 = some t2) (h3 : s.drum.ptp.t3 = some t3)
    (own : Bool) (t4 : Int) :
    exec (.ptpDelayResp p m own t4) s = .next (if own then ptpOffset s t1 t2 t3 t4 else s) := by
  show execPtpDelayResp p m own t4 s = _
  cases own <;> simp [execPtpDelayResp, h1, h2, h3, hacc, hm]

/-- R256: a whole exchange leaves DRUM_PTP with its offset and clears its times. -/
theorem ptpOffset_steers (s : State) (t1 t2 t3 t4 : Int) :
    Steers (regPut (regPut { s with drum := { s.drum with ptp := { s.drum.ptp with t1 := none, t2 := none, t3 := none } } }
      rPtp 31 0 (satSigned 32 (linkOffset t1 t2 t3 t4))) rPtp 63 56 9) (ptpOffset s t1 t2 t3 t4) := by
  simp only [ptpOffset]
  exact Steers.ite ((setSource_steers _).trans (measured_steers _ _ _)) (setSource_steers _)

/-- R256: a first master is selected. -/
theorem exec_ptpAnnounce_first {s : State} {p : PtpIn} (hacc : ptpAccepts s p 320 = true) (hm : s.drum.ptp.master = none) (m rank : Nat) :
    exec (.ptpAnnounce p m rank) s = .next (setSource (regPut
      { s with drum := { s.drum with ptp := { Ptp.init with master := some m, priority := rank } } } rPtp 63 56 7)) := by
  show execPtpAnnounce p m rank s = _
  simp [execPtpAnnounce, hacc, hm]

/-! ### Sources lost (R259) -/

theorem exec_drumSourceLost_p0 {s : State} (hsrc : drumSource s = 2) (hsilent : (p0Receiving s && portActive s 8) = false) :
    exec .drumSourceLost s = .next (loseSource s) :=
  if_pos ⟨hsrc, by rw [hsilent]; rfl⟩

theorem exec_drumSourceLost_ptp {s : State} (hm : s.drum.ptp.master.isSome = true)
    (hp0 : drumSource s ≠ 2 ∨ (p0Receiving s && portActive s 8) = true) :
    ∃ t, exec .drumSourceLost s = .next t ∧ Steers (regPut { s with drum := { s.drum with ptp := Ptp.init } } rPtp 63 56 4) t := by
  have hother : ¬(drumSource s = 2 ∧ (!(p0Receiving s && portActive s 8)) = true) := by
    rintro ⟨hsrc, hsilent⟩
    rcases hp0 with h | h
    · exact h hsrc
    · rw [h] at hsilent
      exact Bool.false_ne_true hsilent
  have hsome : ¬s.drum.ptp.master.isNone = true := by rw [Option.isNone_eq_false_iff.mpr hm]; exact Bool.false_ne_true
  refine ⟨_, (if_neg hother).trans (if_neg hsome), ?_⟩
  exact Steers.ite (loseSource_steers _) (Steers.refl _)

/-- R255: without beat-sync flits on P0 the source is the PTP master, if there is one. -/
theorem chooseSource_of_silent {s : State} (hsilent : (p0Receiving s && portActive s 8) = false) :
    chooseSource s = if s.drum.ptp.master.isSome then 1 else 0 := by
  refine if_neg ?_
  rintro ⟨-, -, hactive, hreceiving⟩
  rw [hactive, hreceiving] at hsilent
  exact Bool.false_ne_true hsilent.symm

/-! ### The obligation -/

/-- Settles O26: each exchange by its own lemma above; what it leaves of the records and of DRUM_PTP is read off `Steers`. -/
theorem drumSources : Obligations.DrumSources := by
  unfold Obligations.DrumSources
  refine ⟨?taken, fun s port seq echoSeq txCount txPhase rxCount rxPhase info phase header crc rest h8 h10 hactive hkind =>
    exec_beatSync_crcFailed rfl h8 h10 hactive hkind, ?sync, ?followUp, ?delayResp, ?announce, ?ptpLost, ?p0Lost, ?report⟩
  case taken =>
    intro s port seq echoSeq txCount txPhase rxCount rxPhase info phase header crc rest f h8 h10 hactive hkind hcrc hsync hon
    refine ⟨_, exec_beatSync_next rfl h8 h10 hactive hkind hcrc hsync hon, ?_⟩
    obtain rfl | rfl : port = 8 ∨ port = 9 := by omega
    · have htaken := takeSync_p0 s f.payload phase
      refine ⟨htaken.mem, htaken.coaches, ?_⟩
      simp only [if_true]
      rw [htaken.sync0]
      exact ⟨rfl, rfl, rfl, rfl, rfl, rfl⟩
    · exact ⟨rfl, rfl, rfl, rfl, rfl, rfl, rfl, rfl⟩
  case sync =>
    intro s p m t1 phase hacc hm
    exact ⟨_, exec_ptpSync_next hacc hm false t1 phase, rfl, rfl, sendDelayReq_outbox_length _, rfl,
      _, exec_ptpSync_next hacc hm true t1 phase, rfl, rfl, rfl, rfl, rfl⟩
  case followUp =>
    intro s p m t1 hacc hm hneed
    exact ⟨_, exec_ptpFollowUp_next hacc hm hneed t1, rfl, rfl, rfl, sendDelayReq_outbox_length _⟩
  case delayResp =>
    intro s p m t1 t2 t3 t4 hacc hm h1 h2 h3
    have hdone := ptpOffset_steers s t1 t2 t3 t4
    refine ⟨exec_ptpDelayResp_next hacc hm h1 h2 h3 false t4, _, exec_ptpDelayResp_next hacc hm h1 h2 h3 true t4, ?_⟩
    rw [if_pos rfl, hdone.ptp, hdone.regBits_rPtp, hdone.regBits_rPtp, regBits_regPut_apart _ _ _ (by decide) (by decide) (by decide),
      regBits_regPut_same _ _ _ (by decide) (by decide), regBits_regPut_same _ _ _ (by decide) (by decide)]
    exact ⟨rfl, rfl, rfl, Nat.mod_eq_of_lt (satSigned_lt (by decide) _), rfl⟩
  case announce =>
    intro s p m rank hacc hm
    refine ⟨_, exec_ptpAnnounce_first hacc hm m rank, ?_⟩
    rw [(setSource_steers _).ptp, (setSource_steers _).regBits_rPtp, regBits_regPut_same _ _ _ (by decide) (by decide)]
    exact ⟨rfl, rfl, rfl⟩
  case ptpLost =>
    intro s hm hp0
    obtain ⟨t, hexec, hlost⟩ := exec_drumSourceLost_ptp hm hp0
    exact ⟨t, hexec, hlost.ptp, (hlost.regBits_rPtp _ _).trans (regBits_regPut_same _ _ _ (by decide) (by decide))⟩
  case p0Lost =>
    intro s hsrc hsilent
    obtain ⟨hnext, hstep, hstate⟩ := loseSource_status s
    exact ⟨_, exec_drumSourceLost_p0 hsrc hsilent, hnext.trans (chooseSource_of_silent hsilent), hstep, hstate, (loseSource_steers s).mem⟩
  case report =>
    intro s u c hctl
    show execDrumReport c s = _
    rw [execDrumReport, hctl]

end Sys2Proof.Machine

/-! PROOFS. The side-band and link words: two states in which a slot of the snapshot store decides (R241, R485, R239). -/

namespace Sys2Proof.Machine

/-! ### HOLD of a partner while a take is under way -/

theorem exec_sideCtlHold {s : State} {n : Nat} (hn : n < 8) : exec (.sideCtlHold n) s = .next (sideHold s n) := by
  show Host.Outcome.next (if n < 8 then sideHold s n else s) = _
  rw [if_pos hn]

/-- A job that names port 0, and a take whose slot number is none of the store's three (R227): the register `rSnapSlot` of that slot
has the offset of `rSideCtl`. -/
def straySideState : State :=
  { State.reset with
    host := { HostSt.init with job := some { id := 0, seed := 0, firstBeat := 0, ports := 1 } }
    snap := { Snap.init with take := some { strayTake with slot := 0xB001F } } }

/-- The end of the job empties the take's slot, whose register is then that of an empty slot: HOLD of SIDE_CTL is clear again. -/
theorem straySideState_hold : holdBit (sideHold straySideState 0) 0 = false := by decide +kernel

/-- Refutes O33: its clause on HOLD asks of every state that the bit stays set. HOLD of a partner that the job names ends the job, and
the end of the job writes the register of the take's slot; nothing in the clause holds that slot to the store's three, and in
`straySideState` that register is SIDE_CTL itself. -/
theorem not_sideBand : ¬ Obligations.SideBand := by
  rintro ⟨-, -, -, -, -, -, -, -, -, -, hhold, -⟩
  obtain ⟨t, hexec, -, hset⟩ := hhold straySideState 0 (by decide)
  rw [exec_sideCtlHold (by decide)] at hexec
  obtain rfl := Host.Outcome.next.inj hexec
  rw [straySideState_hold] at hset
  exact absurd hset (by decide)

/-! ### Codewords that fail while a mirror comes in -/

/-- R273, R283: a codeword with more symbol errors than the FEC corrects: it is counted, with the beat-sync flits that it touches, and
the flits after it have no number. -/
def codewordFailed (s : State) (n : Nat) (second : Bool) (kinds : List Nat) : State :=
  let s' := regAddSat (regAddSat s (rCplErr n) 31 16 1) (rCplErr2 n) 47 32
    ((touchedFlits second).filter fun i => lget 0 kinds i == 0xC).length
  putLink s' n { getLink s n with nak := true, rxSeq := none, bad := (getLink s n).bad + 1 }

/-- R283: the 64th such codeword in a row makes the port leave ACTIVE. -/
theorem exec_failedFlit_retrains {s : State} {n symbols : Nat} (second : Bool) (kinds : List Nat) (hact : portActive s n = true)
    (hmany : 15 < symbols) (hrun : 64 ≤ (getLink s n).bad + 1) :
    exec (.failedFlit n (.codeword second symbols) kinds) s = .next (retrain (codewordFailed s n second kinds) n) := by
  show execFailedFlit n (.codeword second symbols) kinds s = _
  simp only [execFailedFlit, if_pos hact, if_neg (Nat.not_le.mpr hmany), if_pos hrun]
  rfl

/-- R227: the area of a store of three slots of 64 units in mode MIRRORED. -/
def mirrorArea : Region :=
  { base := 1024, size := 192, secure := false, owner := 0x33, access := 0, snapArea := true, rakeLocal := false, rake := 0 }

/-- A hub with that store: a mirror comes in over P0 into slot 1, whose STATE is 3 (RECEIVING). -/
def receivingState : State :=
  setSlotState (regPut { State.reset with
    stbyDom := .up
    mainDom := .up
    consist := { ConsistSt.init with cfg := { ConsistSt.init.cfg with regionsGiven := true, regions := [mirrorArea] } }
    snap := { Snap.init with mirIn := some { gen := 1, slot := 1, total := 0, got := 0 } } } rSnapStat 63 0 (2 * 2 ^ 60 + 64)) 1 3

/-- The same with P0 ACTIVE after 63 codewords in a row that the FEC could not correct. -/
def mirroredState : State := putLink (setPortSt receivingState 8 6) 8 { Link.init with bad := 63 }

/-- R241: the port leaves ACTIVE and the slot that the mirror was to fill is EMPTY. -/
theorem mirroredState_empties : (retrain (codewordFailed mirroredState 8 false []) 8).mem = [] := by decide +kernel

/-- Refutes O35: its clause on codewords that the FEC cannot correct keeps memory in every case. The 64th in a row on port 8 takes the
link of a mirror away that comes in, and the slot of that mirror becomes EMPTY (R241): the STATE of its record, a byte of memory, is
written, as `mirroredState` shows. -/
theorem not_flitsAndLinkWords : ¬ Obligations.FlitsAndLinkWords := by
  rintro ⟨-, -, -, -, -, -, hcodeword, -⟩
  have hact : portActive mirroredState 8 = true := by decide +kernel
  obtain ⟨t, hexec, hmem, -⟩ := (hcodeword mirroredState 8 16 false [] (by decide) hact).2 (by decide)
  rw [exec_failedFlit_retrains _ _ hact (by decide) (by decide +kernel)] at hexec
  obtain rfl := Host.Outcome.next.inj hexec
  rw [mirroredState_empties] at hmem
  exact absurd hmem (by decide +kernel)

end Sys2Proof.Machine

/-! PROOFS. The Coupler ports: what the parts of a port read after each operation of the line and the link, and what a raised message, a
port that falls quiet and one that enters DETECT leave as they were (R275 to R295, R446 to R459). -/

namespace Sys2Proof.Machine

/-! ### The parts of a port -/

theorem getPort_putPort (s : State) (n m : Nat) (p : Port) : getPort (putPort s n p) m = if m = n then p else getPort s m :=
  kget_kset _ _ _ _ _

theorem getLink_congr {s t : State} (h : t.ports = s.ports) (n : Nat) : getLink t n = getLink s n := by
  rw [getLink, getLink, getPort, getPort, h]

theorem getTraining_congr {s t : State} (h : t.ports = s.ports) (n : Nat) : getTraining t n = getTraining s n := by
  rw [getTraining, getTraining, getPort, getPort, h]

@[simp] theorem getLink_putLink_same (s : State) (n : Nat) (l : Link) : getLink (putLink s n l) n = l := by
  rw [getLink, putLink, getPort_putPort, if_pos rfl]

@[simp] theorem getTraining_putTraining_same (s : State) (n : Nat) (x : Training) : getTraining (putTraining s n x) n = x := by
  rw [getTraining, putTraining, getPort_putPort, if_pos rfl]

/-- The line of a port is no part of its link. -/
@[simp] theorem getLink_putLine (s : State) (n m : Nat) (l : Line) : getLink (putLine s n l) m = getLink s m := by
  rw [getLink, putLine, getPort_putPort]
  split
  · next h => rw [h, getLink]
  · rfl

@[simp] theorem getLink_putTraining (s : State) (n m : Nat) (x : Training) : getLink (putTraining s n x) m = getLink s m := by
  rw [getLink, putTraining, getPort_putPort]
  split
  · next h => rw [h, getLink]
  · rfl

@[simp] theorem getTraining_putLine (s : State) (n m : Nat) (l : Line) : getTraining (putLine s n l) m = getTraining s m := by
  rw [getTraining, putLine, getPort_putPort]
  split
  · next h => rw [h, getTraining]
  · rfl

@[simp] theorem getTraining_putLink (s : State) (n m : Nat) (l : Link) : getTraining (putLink s n l) m = getTraining s m := by
  rw [getTraining, putLink, getPort_putPort]
  split
  · next h => rw [h, getTraining]
  · rfl

/-! ### The status register of a port -/

theorem portSt_congr {s t : State} {n : Nat} (h : regGet t (rCplStatus n) = regGet s (rCplStatus n)) : portSt t n = portSt s n := by
  rw [portSt, portSt, regBits, regBits, h]

theorem portActive_iff {s : State} {n : Nat} : portActive s n = true ↔ portSt s n = 6 := beq_iff_eq

theorem portActive_of_st {s : State} {n st : Nat} (h : portSt s n = st) (hne : st ≠ 6) : portActive s n = false :=
  beq_eq_false_iff_ne.mpr (h ▸ hne)

theorem portSt_setPortSt (s : State) (n : Nat) {st : Nat} (h : st < 16) : portSt (setPortSt s n st) n = st := by
  rw [portSt, setPortSt, regBits_regPut_same _ _ _ (by decide) (by decide)]
  exact Nat.mod_eq_of_lt h

theorem getTraining_setPortSt (s : State) (n st m : Nat) : getTraining (setPortSt s n st) m = getTraining s m :=
  getTraining_congr (regPut_ports _ _ _ _ _) m

/-- The other fields of the status register. -/
theorem regBits_setPortSt (s : State) (n st : Nat) {hi lo : Nat} (h : hi < 60) :
    regBits (setPortSt s n st) (rCplStatus n) hi lo = regBits s (rCplStatus n) hi lo :=
  regBits_regPut_apart _ _ _ (by decide) (by decide) (.inl h)

/-- A field of the status register below the state is no part of it. -/
theorem portSt_regPut (s : State) (n : Nat) {hi lo : Nat} (x : Nat) (h : lo ≤ hi) (hst : hi < 60) :
    portSt (regPut s (rCplStatus n) hi lo x) n = portSt s n :=
  regBits_regPut_apart _ _ _ h (by omega) (.inr hst)

/-! ### Messages that a port raises (R446 to R459) -/

/-- What a message found changes: the Belfry, and no register above those of its block. -/
def Notes (s t : State) : Prop :=
  (∃ regs belfry, t = { s with regs := regs, belfry := belfry }) ∧ ∀ b, 0x300000 ≤ b → regGet t b = regGet s b

theorem Notes.refl (s : State) : Notes s s := ⟨⟨_, _, rfl⟩, fun _ _ => rfl⟩

theorem Notes.trans {s t u : State} (hst : Notes s t) (htu : Notes t u) : Notes s u := by
  obtain ⟨⟨_, _, rfl⟩, hregs⟩ := hst
  obtain ⟨⟨_, _, rfl⟩, hregs'⟩ := htu
  exact ⟨⟨_, _, rfl⟩, fun b hb => (hregs' b hb).trans (hregs b hb)⟩

theorem Notes.ite {c : Prop} [Decidable c] {s t u : State} (ht : Notes s t) (hu : Notes s u) : Notes s (if c then t else u) := by
  split
  · exact ht
  · exact hu

section
variable {s t : State} (h : Notes s t)
include h

theorem Notes.ports : t.ports = s.ports := by obtain ⟨⟨_, _, rfl⟩, -⟩ := h; rfl
theorem Notes.mem : t.mem = s.mem := by obtain ⟨⟨_, _, rfl⟩, -⟩ := h; rfl
theorem Notes.poison : t.poison = s.poison := by obtain ⟨⟨_, _, rfl⟩, -⟩ := h; rfl
theorem Notes.consist : t.consist = s.consist := by obtain ⟨⟨_, _, rfl⟩, -⟩ := h; rfl

theorem Notes.regBits {a : Nat} (ha : 0x300000 ≤ a) (hi lo : Nat) : regBits t a hi lo = regBits s a hi lo := by
  rw [Machine.regBits, Machine.regBits, h.2 a ha]

theorem Notes.portSt (n : Nat) : portSt t n = portSt s n := portSt_congr (h.2 _ (by unfold rCplStatus; omega))
end

theorem notes_belfry (s : State) (b : Belfry) : Notes s { s with belfry := b } := ⟨⟨_, _, rfl⟩, fun _ _ => rfl⟩

theorem regPut_notes {a : Nat} (s : State) (hi lo x : Nat) (ha : a < 0x300000) : Notes s (regPut s a hi lo x) :=
  ⟨⟨_, _, rfl⟩, fun _ hb => regGet_regPut_ne s hi lo x (by omega)⟩

/-- R457: the accounting of a message of a port, whose fatal latch names no unit of Table 2.5. -/
theorem accountMsg_notes (s : State) {n : Nat} (hn : n < 10) (cls : Nat) (escd : Bool) : Notes s (accountMsg s (srcPort n) cls escd) := by
  have hput : ∀ t hi lo x, Notes t (regPut t (rSrc (srcPort n)) hi lo x) := fun t hi lo x =>
    regPut_notes t hi lo x (by unfold rSrc srcPort; omega)
  have hlatch : ∀ t, latchUnit t (srcPort n) = t := fun t => by
    have h1 : ¬ srcPort n < 0x200 := by unfold srcPort; omega
    have h2 : ¬ srcPort n < 0x210 := by unfold srcPort; omega
    have h3 : ¬ srcPort n < 0x240 := by unfold srcPort; omega
    simp only [latchUnit, if_neg h1, if_neg h2, if_neg h3]
  simp only [accountMsg, hlatch]
  refine Notes.trans ?_ (Notes.ite (regPut_notes _ _ _ _ (by unfold rFatal srcPort; omega)) (Notes.refl _))
  refine Notes.trans ?_ (Notes.ite (Notes.refl _) (hput _ _ _ _))
  refine Notes.trans ?_ (Notes.ite (hput _ _ _ _) (Notes.refl _))
  exact (regPut_notes s _ _ _ (by unfold rSticky srcPort; omega)).trans (Notes.ite (hput _ _ _ _) (hput _ _ _ _))

/-- R449, R452: a message of a port waits, is merged, or, while the main domain is down, is not kept. -/
theorem raise_notes (s : State) {n : Nat} (hn : n < 10) (kind cls addr : Nat) : Notes s (raise s (srcPort n) kind cls addr) := by
  have hsrc : (newMsg s (srcPort n) kind cls addr).source = srcPort n := rfl
  rw [raise]
  generalize newMsg s (srcPort n) kind cls addr = m at hsrc ⊢
  have hstandby : isStandbySource (srcPort n) = false := by
    simp only [isStandbySource, srcPort, Bool.or_eq_false_iff, beq_eq_false_iff_ne]
    omega
  simp only [raiseMsg, hsrc, hstandby, Bool.false_eq_true, if_false]
  refine Notes.ite (Notes.refl s) (Notes.ite (Notes.ite (notes_belfry s _) ?_) (Notes.refl s))
  exact (accountMsg_notes s hn _ _).trans (regPut_notes _ _ _ _ (by decide))

/-! ### Frames of training (R276) -/

/-- What is sent and nothing else. -/
def Emits (s t : State) : Prop := ∃ l, t = { s with outbox := s.outbox ++ l }

theorem Emits.refl (s : State) : Emits s s := ⟨[], by rw [List.append_nil]⟩

theorem Emits.trans {s t u : State} (hst : Emits s t) (htu : Emits t u) : Emits s u := by
  obtain ⟨l, rfl⟩ := hst
  obtain ⟨m, rfl⟩ := htu
  exact ⟨l ++ m, by rw [← List.append_assoc]⟩

theorem Emits.foldl {α : Type} {f : State → α → State} (h : ∀ s a, Emits s (f s a)) (l : List α) (s : State) : Emits s (l.foldl f s) :=
  List.foldlRecOn l f (Emits.refl s) fun t ht a _ => ht.trans (h t a)

section
variable {s t : State} (h : Emits s t)
include h

theorem Emits.regs : t.regs = s.regs := by obtain ⟨_, rfl⟩ := h; rfl
theorem Emits.ports : t.ports = s.ports := by obtain ⟨_, rfl⟩ := h; rfl
theorem Emits.mem : t.mem = s.mem := by obtain ⟨_, rfl⟩ := h; rfl
theorem Emits.consist : t.consist = s.consist := by obtain ⟨_, rfl⟩ := h; rfl

theorem Emits.portSt (n : Nat) : portSt t n = portSt s n := portSt_congr (regGet_congr h.regs _)

theorem Emits.mem_outbox {o : Out} (ho : o ∈ s.outbox) : o ∈ t.outbox := by
  obtain ⟨_, rfl⟩ := h
  exact List.mem_append_left _ ho
end

theorem emit_emits (s : State) (k : OutKind) (args : List Nat) (data : List Byte) : Emits s (emit s k args data) := ⟨_, rfl⟩

theorem hubFrame_emits (s : State) (n phase lane : Nat) (ready : Bool) (req good : Nat) :
    Emits s (hubFrame s n phase lane ready req good) := by
  rw [hubFrame, sendTrainFrame]
  generalize List.map _ _ = bytes
  exact emit_emits _ _ _ _

theorem hubFrames_emits (s : State) (n phase good : Nat) : Emits s (hubFrames s n phase good) :=
  Emits.foldl (fun _ _ => hubFrame_emits _ _ _ _ _ _ _) _ _

/-! ### A port that falls quiet -/

theorem emptySlot_ports (s : State) (i : Nat) : (emptySlot s i).ports = s.ports := by
  rw [emptySlot, setSlotState, syncSlot, regSet_ports, slotWrite, storeCells_ports]

theorem mirrorLost_ports (s : State) (n : Nat) : (mirrorLost s n).ports = s.ports := by
  unfold mirrorLost
  repeat' split
  all_goals simp only [putSnap_ports, emptySlot_ports]

/-- R305, R306: of the flits of a port that falls quiet those of a partner's rings wait. -/
theorem getLink_quietPort (s : State) (n st : Nat) :
    getLink (quietPort s n st) n = { Link.init with wait := if st = 0 then [] else keptFlits (getLink s n) } := by
  have hmirror : getLink (if portActive s n then mirrorLost s n else s) n = getLink s n := by
    split
    · exact getLink_congr (mirrorLost_ports s n) n
    · rfl
  simp only [quietPort, setPortSt]
  rw [getLink_congr (regPut_ports _ _ _ _ _), getLink_congr (regPut_ports _ _ _ _ _), getLink_putLine, getLink_putLink_same, hmirror]

theorem portSt_quietPort (s : State) (n : Nat) {st : Nat} (h : st < 16) : portSt (quietPort s n st) n = st :=
  portSt_setPortSt _ _ h

/-- A port that falls quiet keeps the fields of its status but for its state, its width and its lanes in use. -/
theorem regBits_quietPort (s : State) {n : Nat} (hn : n < 10) (st : Nat) {hi lo : Nat} (h : hi < 48) :
    regBits (quietPort s n st) (rCplStatus n) hi lo = regBits s (rCplStatus n) hi lo := by
  have hlow : rCplStatus n < 0x880000 := by unfold rCplStatus; omega
  simp only [quietPort]
  rw [regBits_setPortSt _ _ _ (by omega), regBits_regPut_apart _ _ _ (by decide) (by decide) (.inl h),
    regBits_congr (putLine_regs _ _ _), regBits_congr (putLink_regs _ _ _)]
  split
  · rw [regBits, regGet_mirrorLost s n hlow, regBits]
  · rfl

/-- Only a port that carries flits loses a mirror. -/
theorem quietPort_mem {s : State} {n : Nat} (h : portActive s n = false) (st : Nat) : (quietPort s n st).mem = s.mem := by
  simp only [quietPort, h, Bool.false_eq_true, if_false]
  rw [setPortSt_mem, regPut_mem, putLine_mem, putLink_mem]

/-! ### Entry into DETECT -/

theorem regBits_enterDetect (s : State) {n : Nat} (hn : n < 10) {hi lo : Nat} (h : hi < 16 ∨ 31 < lo) (h48 : hi < 48) :
    regBits (enterDetect s n) (rCplStatus n) hi lo = regBits s (rCplStatus n) hi lo := by
  simp only [enterDetect]
  rw [regBits_congr (hubFrames_emits _ _ _ _).regs, regBits_congr (putTraining_regs _ _ _),
    regBits_regAddSat_apart _ _ _ (by decide) (by decide) h, regBits_quietPort _ hn _ h48]

theorem enterDetect_mem {s : State} {n : Nat} (h : portActive s n = false) : (enterDetect s n).mem = s.mem := by
  simp only [enterDetect]
  rw [(hubFrames_emits _ _ _ _).mem, putTraining_mem, regAddSat_mem, quietPort_mem h]

/-- Table 10.3: entry into DETECT, counted on from a state `s` of the same count. -/
theorem retrain_detects {s u : State} {n : Nat} {l : Link} (hn : n < 10) (hlink : getLink u n = l)
    (hcount : regBits u (rCplStatus n) 31 16 = regBits s (rCplStatus n) 31 16) : detects s (retrain u n) n l := by
  simp only [retrain, enterDetect]
  have hlast := hubFrames_emits (putTraining (regAddSat (quietPort u n 1) (rCplStatus n) 31 16 1) n
    { Training.init with failRun := (getTraining u n).failRun }) n 1 0
  refine ⟨?st, ?link, ?seen, ?count⟩
  case st =>
    rw [hlast.portSt, portSt_congr (regGet_congr (putTraining_regs _ _ _) _), regAddSat, portSt_regPut _ _ _ (by decide) (by decide),
      portSt_quietPort _ _ (by decide)]
  case link =>
    rw [linkQuiet, getLink_congr hlast.ports, getLink_putTraining, getLink_congr (regAddSat_ports _ _ _ _ _), getLink_quietPort, hlink,
      if_neg (by decide)]
  case seen =>
    rw [getTraining_congr hlast.ports, getTraining_putTraining_same]
    rfl
  case count =>
    rw [regBits_congr hlast.regs, regBits_congr (putTraining_regs _ _ _), regBits_regAddSat_same _ _ _ (by decide) (by decide),
      regBits_quietPort _ hn _ (by decide), hcount]

/-- R309: a protocol error counts itself and one more training. -/
theorem protocolError_detects (s : State) {n : Nat} (hn : n < 10) (kind code : Nat) :
    detects s (protocolError s n kind code) n (getLink s n) := by
  have hraise := raise_notes (regAddSat s (rCplErr2 n) 31 16 1) hn 0x15 2 (kind % 16 + code % 256 * 16)
  refine retrain_detects hn ?_ ?_
  · rw [getLink_congr hraise.ports, getLink_congr (regAddSat_ports _ _ _ _ _)]
  · rw [hraise.regBits (by unfold rCplStatus; omega), regBits, regGet_regAddSat_ne _ _ _ _ (by unfold rCplStatus rCplErr2; omega), regBits]

/-! ### A step of training that fails -/

/-- What a failed port has kept: the mask of its good lanes. -/
theorem portFail_fails {s u : State} {n code : Nat} (hn : n < 10) (hcode : code < 256) (hlink : getLink u n = getLink s n) :
    failsWith s (portFail u n code) n code ∧
      regBits (portFail u n code) (rCplStatus n) 39 32 = regBits u (rCplStatus n) 39 32 := by
  have hstatus : 0x300000 ≤ rCplStatus n := by unfold rCplStatus; omega
  -- what follows the register of the cause: a message, and for all causes but IDENT the mark of this run of failures
  have hlast : ∃ v, v.regs = (regPut (quietPort u n 8) (rCplStatus n) 15 8 code).regs ∧
      getLink v n = getLink (regPut (quietPort u n 8) (rCplStatus n) 15 8 code) n ∧ Notes v (portFail u n code) := by
    unfold portFail
    dsimp only
    split
    · exact ⟨_, rfl, rfl, raise_notes _ hn _ _ _⟩
    · split
      · exact ⟨_, rfl, rfl, Notes.refl _⟩
      · exact ⟨_, putTraining_regs _ _ _, getLink_putTraining _ _ _ _, raise_notes _ hn _ _ _⟩
  obtain ⟨v, hregs, hv, hnotes⟩ := hlast
  refine ⟨⟨?_, ?_, ?_⟩, ?_⟩
  · rw [hnotes.portSt, portSt_congr (regGet_congr hregs _), portSt_regPut _ _ _ (by decide) (by decide), portSt_quietPort _ _ (by decide)]
  · rw [hnotes.regBits hstatus, regBits_congr hregs, regBits_regPut_same _ _ _ (by decide) (by decide)]
    exact Nat.mod_eq_of_lt hcode
  · rw [linkQuiet, getLink_congr hnotes.ports, hv, getLink_congr (regPut_ports _ _ _ _ _), getLink_quietPort, hlink]
    rfl
  · rw [hnotes.regBits hstatus, regBits_congr hregs, regBits_regPut_apart _ _ _ (by decide) (by decide) (by decide),
      regBits_quietPort _ hn _ (by decide)]

end Sys2Proof.Machine

/-! PROOFS. Training of a Coupler port (R275 to R284). -/

namespace Sys2Proof.Machine

/-! ### What goes out while a port trains -/

/-- What a flit that takes a slot of a port's line changes: only what sends change, of a port's parts not its training, and the
outbox grows. -/
structure Carries (s t : State) : Prop where
  sends : Sends s t
  train : ∀ m, getTraining t m = getTraining s m
  grows : ∃ l, t.outbox = s.outbox ++ l

theorem Carries.refl (s : State) : Carries s s := ⟨Sends.refl s, fun _ => rfl, [], (List.append_nil _).symm⟩

theorem Carries.trans {s t u : State} (hst : Carries s t) (htu : Carries t u) : Carries s u := by
  obtain ⟨l, hl⟩ := hst.grows
  obtain ⟨m, hm⟩ := htu.grows
  exact ⟨hst.sends.trans htu.sends, fun n => (htu.train n).trans (hst.train n), l ++ m, by rw [hm, hl, List.append_assoc]⟩

theorem Carries.foldl {α : Type} {f : State → α → State} (h : ∀ s a, Carries s (f s a)) (l : List α) (s : State) :
    Carries s (l.foldl f s) :=
  List.foldlRecOn l f (Carries.refl s) fun t ht a _ => ht.trans (h t a)

theorem putLink_carries (s : State) (n : Nat) (l : Link) : Carries s (putLink s n l) :=
  ⟨putLink_sends _ _ _, fun _ => getTraining_putLink _ _ _ _, [], (List.append_nil _).symm⟩

theorem putLine_carries (s : State) (n : Nat) (l : Line) : Carries s (putLine s n l) :=
  ⟨putLine_sends _ _ _, fun _ => getTraining_putLine _ _ _ _, [], (List.append_nil _).symm⟩

theorem emit_carries (s : State) (k : OutKind) (args : List Nat) (data : List Byte) : Carries s (emit s k args data) :=
  ⟨emit_sends _ _ _ _, fun _ => rfl, _, rfl⟩

theorem lineOut_carries (s : State) (n : Nat) : Carries s (lineOut s n) := by
  simp only [lineOut]
  split
  · exact Carries.refl s
  · refine (putLine_carries s n _).trans ⟨⟨_, _, _, rfl⟩, fun _ => rfl, _, rfl⟩

theorem sendFrame_carries (s : State) (n word : Nat) (flits : List (List Byte)) : Carries s (sendFrame s n word flits) :=
  ((emit_carries s _ _ _).trans (putLine_carries _ _ _)).trans (lineOut_carries _ _)

theorem sendFrames_carries (n : Nat) (l : Link) (replay : Bool) (fseq : Nat) :
    ∀ (k : Nat) (fs : List (Option Nat × List Byte)) (s : State), Carries s (sendFrames n l replay fseq k fs s)
  | 0, _, s => Carries.refl s
  | k + 1, fs, s => by
    simp only [sendFrames]
    split
    · exact sendFrame_carries _ _ _ _
    · exact (sendFrame_carries _ _ _ _).trans (sendFrames_carries n l replay fseq k _ _)

theorem sendLinkWord_carries (s : State) (n : Nat) (replay : Bool) (fseq : Nat) : Carries s (sendLinkWord s n replay fseq) :=
  ((putLine_carries s _ _).trans (putLink_carries _ _ _)).trans (sendFrames_carries _ _ _ _ _ _ _)

theorem lineFlit_carries (s : State) (n : Nat) (seq : Option Nat) (bytes : List Byte) : Carries s (lineFlit s n seq bytes) := by
  simp only [lineFlit]
  split
  · exact (putLine_carries _ _ _).trans (sendLinkWord_carries _ _ _ _)
  · exact putLine_carries _ _ _

theorem sendPlain_carries (s : State) (n header : Nat) (payload : List Byte) : Carries s (sendPlain s n header payload) :=
  (emit_carries s _ _ _).trans (lineFlit_carries _ _ _ _)

theorem fillAlign_carries (s : State) (n : Nat) : Carries s (fillAlign s n) :=
  Carries.foldl (fun _ _ => sendPlain_carries _ _ _ _) _ _

/-- What goes out after it leaves the first output first. -/
theorem sends_carries {s t u : State} {k : OutKind} {args : List Nat} (h : sends s t k args) (htu : Carries t u) : sends s u k args := by
  obtain ⟨data, rest, hout⟩ := h
  obtain ⟨l, hl⟩ := htu.grows
  exact ⟨data, rest ++ l, by rw [hl, hout, List.append_assoc, List.cons_append]⟩

/-- The first output of a state that has sent as much as another is new to that one too. -/
theorem sends_congr {s t u : State} {k : OutKind} {args : List Nat} (h : t.outbox = s.outbox) (hu : sends t u k args) : sends s u k args := by
  obtain ⟨data, rest, hout⟩ := hu
  exact ⟨data, rest, by rw [hout, h]⟩

/-- An unsequenced flit goes out before the frame that it fills. -/
theorem sends_sendPlain (s : State) (n header : Nat) (payload : List Byte) :
    sends s (sendPlain s n header payload) .ctlFlit [n, header] :=
  sends_carries (t := emit s .ctlFlit [n, header] (flitBytes header payload)) ⟨_, [], rfl⟩ (lineFlit_carries _ _ _ _)

/-- R279: the first of the slots filled holds an ALIGN flit, KIND 0xE. -/
theorem sends_fillAlign (s : State) (n : Nat) : ∃ h, nbits h 63 60 = 0xE ∧ sends s (fillAlign s n) .ctlFlit [n, h] := by
  have hfill : fillAlign s n = (rangeFrom 1 7).foldl (fun s _ => sendAlign s n) (sendAlign s n) := rfl
  have hkind : ∀ x, nbits (0xE * 2 ^ 60 + 3 * 2 ^ 58 + x % 40) 63 60 = 0xE := fun x => by unfold nbits; omega
  rw [hfill]
  exact ⟨_, hkind _, sends_carries (sends_sendPlain _ _ _ _) (Carries.foldl (fun _ _ => sendPlain_carries _ _ _ _) _ _)⟩

/-! ### Masks of lanes -/

theorem nbit_eq_testBit (v i : Nat) : nbit v i = v.testBit i := (Nat.testBit_eq_decide_div_mod_eq ..).symm

/-- A set bit of a field lies in the field. -/
theorem lt_of_nbit {x i k : Nat} (hx : x < 2 ^ k) (h : nbit x i = true) : i < k := by
  rw [nbit_eq_testBit] at h
  exact (Nat.pow_lt_pow_iff_right (by decide)).mp (lt_of_le_of_lt (Nat.ge_two_pow_of_testBit h) hx)

theorem nbit_regBits_regPut_bit (s : State) (a : Nat) {hi lo i : Nat} (h : lo + i ≤ hi) (h64 : hi < 64) :
    nbit (regBits (regPut s a (lo + i) (lo + i) 1) a hi lo) i = true := by
  rw [nbit_eq_testBit, regBits, regGet_regPut_same, testBit_bits, testBit_setBits _ _ _ (Nat.le_refl _) (by omega),
    if_pos ⟨Nat.le_refl _, Nat.le_refl _⟩, Nat.sub_self, decide_eq_true (by omega)]
  rfl

theorem lsum_filter_le (p : Nat → Bool) (f : Nat → Nat) : ∀ l : List Nat, lsum ((l.filter p).map f) ≤ lsum (l.map f)
  | [] => Nat.le_refl _
  | a :: l => by
    have ih := lsum_filter_le p f l
    by_cases hp : p a = true
    · rw [List.filter_cons_of_pos hp]
      exact Nat.add_le_add_left ih _
    · rw [List.filter_cons_of_neg hp]
      exact Nat.le_trans ih (Nat.le_add_left _ _)

theorem laneAnd_lt (a b : Nat) : laneAnd a b < 256 :=
  Nat.lt_of_le_of_lt (lsum_filter_le _ _ _) (by decide)

theorem laneCount_le (m : Nat) : laneCount m ≤ 8 :=
  Nat.le_trans (List.length_filter_le _ _) (by decide)

/-- The lanes that train follow from the status and LANE_CTL of the port. -/
theorem lanesUsable_congr {s t : State} {n : Nat} (hst : regBits t (rCplStatus n) 47 40 = regBits s (rCplStatus n) 47 40)
    (hctl : regGet t (rLaneCtl n) = regGet s (rLaneCtl n)) : lanesUsable t n = lanesUsable s n := by
  have hlane : regBits t (rLaneCtl n) 7 0 = regBits s (rLaneCtl n) 7 0 := by rw [regBits, regBits, hctl]
  rw [lanesUsable, lanesUsable, hst, hlane]

theorem lanesUsable_regs {s t : State} (h : t.regs = s.regs) (n : Nat) : lanesUsable t n = lanesUsable s n :=
  lanesUsable_congr (regBits_congr h _ _ _) (regGet_congr h _)

/-! ### The width of a port (R278) -/

theorem enterAlign_regs (s : State) (n : Nat) : (enterAlign s n).regs = (setPortSt s n 4).regs := by
  simp only [enterAlign, (fillAlign_carries _ _).sends.regs, putLine_regs]

/-- R34, R278: the width fixed from a state `u` that has the link and the Consist of `s`. -/
theorem fixWidth_widthFixed {s u : State} {n used : Nat} (hn : n < 10) (hlink : getLink u n = getLink s n) (hcfg : u.consist = s.consist)
    (hused : used < 256) : widthFixed s (fixWidth u n used) n used := by
  have hmask : regBits (regPut u (rCplStatus n) 39 32 used) (rCplStatus n) 39 32 = used := by
    rw [regBits_regPut_same _ _ _ (by decide) (by decide)]
    exact Nat.mod_eq_of_lt hused
  have hcount := laneCount_le used
  unfold fixWidth widthFixed
  dsimp only
  by_cases hfew : laneCount used < 4 ∨ (8 ≤ n ∧ used ≠ 0xF)
  · have hwidth : (if n ≥ 8 ∧ used ≠ 0xF then 0 else laneCount used) < 4 := by
      split
      · decide
      · next h => exact hfew.resolve_right h
    rw [if_pos hwidth, if_pos hfew]
    obtain ⟨hfails, hkept⟩ := portFail_fails (code := 3) hn (by decide) ((getLink_congr (regPut_ports u _ 39 32 used) n).trans hlink)
    exact ⟨hkept.trans hmask, hfails⟩
  · have hwidth : (if n ≥ 8 ∧ used ≠ 0xF then 0 else laneCount used) = laneCount used := if_neg fun h => hfew (.inr h)
    rw [hwidth, if_neg hfew, if_neg fun h => hfew (.inl h), regPut_consist, hcfg]
    split
    · refine ⟨?_, ?_⟩
      · rw [regBits_regPut_apart _ _ _ (by decide) (by decide) (by decide), regBits_quietPort _ hn _ (by decide), hmask]
      · rw [portSt_regPut _ _ _ (by decide) (by decide), portSt_quietPort _ _ (by decide)]
    · refine ⟨?_, ?_, ?_, ?_⟩
      · rw [regBits_congr (enterAlign_regs _ _), regBits_setPortSt _ _ _ (by decide),
          regBits_regPut_apart _ _ _ (by decide) (by decide) (by decide), regBits_regPut_apart _ _ _ (by decide) (by decide) (by decide), hmask]
      · rw [portSt_congr (regGet_congr (enterAlign_regs _ _) _), portSt_setPortSt _ _ (by decide)]
      · rw [regBits_congr (enterAlign_regs _ _), regBits_setPortSt _ _ _ (by decide),
          regBits_regPut_apart _ _ _ (by decide) (by decide) (by decide), regBits_regPut_same _ _ _ (by decide) (by decide)]
        exact Nat.mod_eq_of_lt (by omega)
      · rw [regBits_congr (enterAlign_regs _ _), regBits_setPortSt _ _ _ (by decide), regBits_regPut_same _ _ _ (by decide) (by decide)]
        exact Nat.mod_eq_of_lt hused

/-- R278: a closing frame of the far end, once the hub's own test has ended, fixes the width. -/
theorem closingFrame_fixes {s u : State} {n w good : Nat} (hn : n < 10) (hlink : getLink u n = getLink s n) (hcfg : u.consist = s.consist)
    (hphase : nbits w 63 60 = 3) (hgood : (getTraining u n).good = some good) :
    widthFixed s (closingFrame u n w) n (laneAnd good (nbits w 46 39)) := by
  unfold closingFrame
  dsimp only
  rw [if_pos ⟨hphase, .inl (by rw [hgood]; rfl)⟩]
  unfold masksMet
  rw [getTraining_putTraining_same, hgood]
  exact fixWidth_widthFixed hn ((getLink_putTraining _ _ _ _).trans hlink) hcfg (laneAnd_lt _ _)

/-! ### Commands that bring a port into DETECT -/

theorem exec_portEnable {s : State} {n : Nat} (hn : n < 10) (hrun : portMayRun s n = true) (hst : portSt s n = 0) :
    exec (.portEnable n) s = .next (retrain s n) :=
  if_pos ⟨hn, hst, hrun⟩

theorem exec_portFailedRetry {s : State} {n : Nat} (hrun : portMayRun s n = true) (hst : portSt s n = 8) :
    exec (.portFailedRetry n) s = .next (retrain s n) :=
  if_pos ⟨hst, hrun⟩

/-- A port that is not ACTIVE and enters DETECT. -/
theorem retrain_quiet {s : State} {n st : Nat} (hn : n < 10) (hst : portSt s n = st) (hne : st ≠ 6) :
    detects s (retrain s n) n (getLink s n) ∧ (retrain s n).mem = s.mem :=
  ⟨retrain_detects hn rfl rfl, enterDetect_mem (portActive_of_st hst hne)⟩

/-- R283: the port retrains, its lane lost. -/
theorem exec_cplLaneLost {s : State} {n lane : Nat} (hn : n < 10) (hact : portActive s n = true)
    (hused : nbit (regBits s (rCplStatus n) 55 48) lane = true) :
    ∃ t, exec (.cplLaneLost n lane) s = .next t ∧ detects s t n (getLink s n) ∧ nbit (regBits t (rCplStatus n) 47 40) lane = true := by
  have hlane : lane < 8 := lt_of_nbit (bits_lt _ _ _) hused
  have hstatus : 0x300000 ≤ rCplStatus n := by unfold rCplStatus; omega
  have hraise := raise_notes (regPut s (rCplStatus n) (40 + lane) (40 + lane) 1) hn 0x14 2 lane
  refine ⟨_, if_pos ⟨hact, hused⟩, retrain_detects hn ?_ ?_, ?_⟩
  · rw [getLink_congr hraise.ports, getLink_congr (regPut_ports _ _ _ _ _)]
  · rw [hraise.regBits hstatus, regBits_regPut_apart _ _ _ (Nat.le_refl _) (by omega) (by omega)]
  · rw [retrain, regBits_enterDetect _ hn (by decide) (by decide), hraise.regBits hstatus]
    exact nbit_regBits_regPut_bit s _ (by omega) (by decide)

/-! ### RETEST (R284) -/

theorem exec_cplRetest {s : State} {n : Nat} (hn : n < 10) (hup : s.mainDom = .up) : exec (.cplRetest n) s = .next (retest s n) :=
  congrArg Host.Outcome.next (if_pos ⟨hn, hup⟩)

/-- What RETEST clears: the lanes lost, and its own bit. -/
def retestCleared (s : State) (n : Nat) : State := regPut (regPut s (rCplStatus n) 47 40 0) (rLaneCtl n) 8 8 0

theorem rLaneCtl_ne_rCplStatus (n : Nat) : rLaneCtl n ≠ rCplStatus n := by unfold rLaneCtl rCplStatus; omega

theorem retestCleared_status (s : State) (n : Nat) :
    regGet (retestCleared s n) (rCplStatus n) = setBits (regGet s (rCplStatus n)) 47 40 0 := by
  rw [retestCleared, regGet_regPut_ne _ _ _ _ (rLaneCtl_ne_rCplStatus n).symm, regGet_regPut_same]

theorem retestCleared_lost (s : State) (n : Nat) : regBits (retestCleared s n) (rCplStatus n) 47 40 = 0 := by
  rw [regBits, retestCleared_status, bits_setBits_same _ _ (by decide) (by decide), Nat.zero_mod]

theorem retestCleared_apart (s : State) (n : Nat) {hi lo : Nat} (h : hi < 40 ∨ 47 < lo) :
    regBits (retestCleared s n) (rCplStatus n) hi lo = regBits s (rCplStatus n) hi lo := by
  rw [regBits, retestCleared_status, bits_setBits_ne _ _ (by decide) (by decide) h, regBits]

theorem retestCleared_laneCtl (s : State) (n : Nat) : regBits (retestCleared s n) (rLaneCtl n) 8 8 = 0 := by
  rw [retestCleared, regBits_regPut_same _ _ _ (by decide) (by decide), Nat.zero_mod]

/-- RETEST that retrains nothing writes these two registers alone. -/
theorem retestCleared_frame (s : State) (n : Nat) : { retestCleared s n with regs := s.regs } = s := by
  rw [retestCleared, regPut, regSet, regPut, regSet]

/-- R34, R462: with no job, RETEST retrains the port unless that is disabled, held out or latched. -/
theorem retest_noJob {s : State} {n : Nat} (hn : n < 10) (hjob : s.host.job = none) :
    retest s n = if portSt s n = 0 ∨ portSt s n = 7 ∨ nbit (regGet s (rFatal 9)).toNat n then retestCleared s n
      else retrain (retestCleared s n) n := by
  have hst : portSt (retestCleared s n) n = portSt s n := retestCleared_apart s n (by decide)
  have hfatal : regGet (retestCleared s n) (rFatal 9) = regGet s (rFatal 9) := by
    rw [retestCleared, regGet_regPut_ne _ _ _ _ (by unfold rFatal rLaneCtl; omega), regGet_regPut_ne _ _ _ _ (by unfold rFatal rCplStatus; omega)]
  rw [retest, hjob, Option.isSome_none, if_neg (by decide)]
  show (if portSt (retestCleared s n) n = 0 ∨ portSt (retestCleared s n) n = 7 ∨ nbit (regGet (retestCleared s n) (rFatal 9)).toNat n
    then retestCleared s n else retrain (retestCleared s n) n) = _
  rw [hst, hfatal]

theorem retrain_retestCleared (s : State) {n : Nat} (hn : n < 10) :
    detects s (retrain (retestCleared s n) n) n (getLink s n) ∧
      regBits (retrain (retestCleared s n) n) (rCplStatus n) 47 40 = 0 ∧ regBits (retrain (retestCleared s n) n) (rLaneCtl n) 8 8 = 0 := by
  refine ⟨retrain_detects hn ?_ (retestCleared_apart s n (by decide)), ?_, ?_⟩
  · rw [retestCleared, getLink_congr (regPut_ports _ _ _ _ _), getLink_congr (regPut_ports _ _ _ _ _)]
  · rw [retrain, regBits_enterDetect _ hn (by decide) (by decide), retestCleared_lost]
  · rw [retrain, regBits, regGet_enterDetect _ _ (by unfold rLaneCtl; omega) (rLaneCtl_ne_rCplStatus n), ← regBits, retestCleared_laneCtl]

/-! ### Training frames (R276 to R278, R283) -/

/-- A lane on which a frame has been received. -/
def laneSeen (s : State) (n lane : Nat) : State := putTraining s n { getTraining s n with seen := laneAdd (getTraining s n).seen lane }

theorem laneSeen_portSt (s : State) (n lane : Nat) : portSt (laneSeen s n lane) n = portSt s n :=
  portSt_congr (regGet_congr (putTraining_regs _ _ _) _)

theorem laneSeen_seen (s : State) (n lane : Nat) : (getTraining (laneSeen s n lane) n).seen = laneAdd (getTraining s n).seen lane := by
  rw [laneSeen, getTraining_putTraining_same]

section
variable {s : State} {n lane : Nat} {w : W64} (hn : n < 10) (hlane : lane < portLanes n) (hok : frameOk n lane w.toNat = true)
include hn hlane hok

/-- A frame that the hub reads is heard. -/
theorem frame_heard : ¬ (n ≥ 10 ∨ lane ≥ portLanes n ∨ (!frameOk n lane w.toNat) = true) := by
  rw [hok]
  simp only [Bool.not_true, Bool.false_eq_true, or_false, not_or]
  omega

theorem exec_trainingFrame_active (hact : portActive s n = true) (ready : Bool) (op tap : Nat) :
    exec (.trainingFrame n lane w ready op tap) s = .next (retrain s n) := by
  show execTrainingFrame n lane w ready op tap s = _
  unfold execTrainingFrame
  dsimp only
  rw [if_neg (frame_heard hn hlane hok), if_pos hact]

/-- Table 10.3: in DETECT the lane is seen, and four lanes seen lead to EQUALIZE. -/
theorem exec_trainingFrame_detect (hst : portSt s n = 1) (huse : nbit (lanesUsable s n) lane = true) (ready : Bool) (op tap : Nat) :
    exec (.trainingFrame n lane w ready op tap) s =
      .next (if 4 ≤ laneCount (laneAdd (getTraining s n).seen lane) then setPortSt (laneSeen s n lane) n 2
        else hubFrame (laneSeen s n lane) n 1 lane false 0 0) := by
  have hquiet := portActive_of_st hst (by decide)
  have htrains : portSt s n = 1 ∨ portSt s n = 2 := .inl hst
  show execTrainingFrame n lane w ready op tap s = _
  unfold execTrainingFrame
  dsimp only
  rw [if_neg (frame_heard hn hlane hok), hquiet, if_neg (by decide), if_neg (not_not_intro huse), if_pos htrains,
    ← laneSeen, if_pos ((laneSeen_portSt s n lane).trans hst)]

theorem exec_trainingFrame_test (hst : portSt s n = 3) (huse : nbit (lanesUsable s n) lane = true) (ready : Bool) (op tap : Nat) :
    exec (.trainingFrame n lane w ready op tap) s = .next (closingFrame s n w.toNat) := by
  have hquiet := portActive_of_st hst (by decide)
  have hnot : ¬ (portSt s n = 1 ∨ portSt s n = 2) := by omega
  show execTrainingFrame n lane w ready op tap s = _
  unfold execTrainingFrame
  dsimp only
  rw [if_neg (frame_heard hn hlane hok), hquiet, if_neg (by decide), if_neg (not_not_intro huse), if_neg hnot, if_neg fun h => hnot (.inl h),
    if_neg fun h => hnot (.inr h), if_pos hst]

theorem trainingFrame_detect (hst : portSt s n = 1) (huse : nbit (lanesUsable s n) lane = true) (ready : Bool) (op tap : Nat) :
    ∃ t, exec (.trainingFrame n lane w ready op tap) s = .next t ∧ (getTraining t n).seen = laneAdd (getTraining s n).seen lane ∧
      portSt t n = (if 4 ≤ laneCount (laneAdd (getTraining s n).seen lane) then 2 else 1) ∧ t.mem = s.mem := by
  refine ⟨_, exec_trainingFrame_detect hn hlane hok hst huse ready op tap, ?_⟩
  split
  · exact ⟨by rw [getTraining_setPortSt, laneSeen_seen], portSt_setPortSt _ _ (by decide),
      (setPortSt_mem _ _ _).trans (putTraining_mem _ _ _)⟩
  · have hframe := hubFrame_emits (laneSeen s n lane) n 1 lane false 0 0
    exact ⟨by rw [getTraining_congr hframe.ports, laneSeen_seen], by rw [hframe.portSt, laneSeen_portSt, hst],
      hframe.mem.trans (putTraining_mem _ _ _)⟩
end

/-! ### Time-outs (R275, R278, R282) -/

theorem mem_emit (s : State) (k : OutKind) (args : List Nat) (data : List Byte) : (⟨k, args, data⟩ : Out) ∈ (emit s k args data).outbox :=
  List.mem_append_right _ List.mem_cons_self

theorem mem_emit_foldl (k : OutKind) (args : Nat → List Nat) (data : List Byte) {i : Nat} {l : List Nat} (h : i ∈ l) (s : State) :
    (⟨k, args i, data⟩ : Out) ∈ (l.foldl (fun s i => emit s k (args i) data) s).outbox := by
  induction l generalizing s with
  | nil => exact absurd h List.not_mem_nil
  | cons j l ih =>
    rcases List.mem_cons.mp h with rfl | h
    · exact (Emits.foldl (fun u i => emit_emits u k (args i) data) l _).mem_outbox (mem_emit s k (args i) data)
    · exact ih h _

/-- Table 10.3, R278: LANE_TEST begins with a pattern on every lane that trains. -/
theorem enterLaneTest_tests (s : State) (n : Nat) :
    portSt (enterLaneTest s n) n = 3 ∧
      ∀ i, i < portLanes n → nbit (lanesUsable s n) i = true → (⟨.pattern, [n, i, 2 ^ 28], []⟩ : Out) ∈ (enterLaneTest s n).outbox := by
  have hframes := hubFrames_emits (setPortSt s n 3) n 3 0
  have huse : lanesUsable (hubFrames (setPortSt s n 3) n 3 0) n = lanesUsable s n := by
    refine (lanesUsable_regs hframes.regs n).trans (lanesUsable_congr (regBits_setPortSt _ _ _ (by decide)) ?_)
    exact regGet_regPut_ne _ _ _ _ (rLaneCtl_ne_rCplStatus n)
  have hpatterns : Emits (hubFrames (setPortSt s n 3) n 3 0) (enterLaneTest s n) := Emits.foldl (fun u i => emit_emits u _ _ _) _ _
  refine ⟨?_, fun i hi hlane => ?_⟩
  · rw [hpatterns.portSt, hframes.portSt, portSt_setPortSt _ _ (by decide)]
  · refine mem_emit_foldl .pattern (fun i => [n, i, 2 ^ 28]) [] (List.mem_filter.mpr ⟨(mem_rangeFrom _ _ _).mpr ⟨Nat.zero_le i, by omega⟩, ?_⟩) _
    rw [huse]
    exact hlane

theorem trainingTimeout_detect {s : State} {n : Nat} (hn : n < 10) (hst : portSt s n = 1) :
    ∃ t, exec (.trainingTimeout n) s = .next t ∧
      if laneCount (lanesUsable s n) < 4 then failsWith s t n 3
      else if laneCount (getTraining s n).seen < 4 then failsWith s t n 1 else portSt t n = 2 := by
  refine ⟨_, if_pos hst, ?_⟩
  split
  · exact (portFail_fails hn (by decide) rfl).1
  · split
    · exact (portFail_fails hn (by decide) rfl).1
    · exact portSt_setPortSt _ _ (by decide)

theorem trainingTimeout_equalize {s : State} {n : Nat} (hn : n < 10) (hst : portSt s n = 2) :
    ∃ t, exec (.trainingTimeout n) s = .next t ∧
      if laneCount (laneAnd (getTraining s n).rxHub (getTraining s n).rxPeer) < 4 then failsWith s t n 2
      else portSt t n = 3 ∧
        ∀ i, i < portLanes n → nbit (lanesUsable s n) i = true → (⟨.pattern, [n, i, 2 ^ 28], []⟩ : Out) ∈ t.outbox := by
  refine ⟨_, (if_neg (by omega)).trans (if_pos hst), ?_⟩
  split
  · exact (portFail_fails hn (by decide) rfl).1
  · exact enterLaneTest_tests s n

/-! ### The end of LANE_TEST (R278) -/

/-- The results of the lanes, in CPL_LANE. -/
def testResults (s : State) (n : Nat) (errors snr : List Nat) : State :=
  (rangeFrom 0 (portLanes n)).foldl (fun s i =>
    regPut (regPut s (rCplLane n i) 63 32 (satTo 0xFFFFFFFF (lget 0 errors i))) (rCplLane n i) 31 24 (satTo 0xFF (lget 0 snr i))) s

/-- The hub's own test has ended: its results, its GOOD mask, and the frames that bring it to the far end. -/
def testEnded (s : State) (n : Nat) (errors snr : List Nat) : State :=
  hubFrames (putTraining (testResults s n errors snr) n
    { getTraining (testResults s n errors snr) n with good := some (goodMask s n errors) }) n 3 (goodMask s n errors)

theorem exec_laneTestEnd {s : State} {n : Nat} (hst : portSt s n = 3) (hgood : (getTraining s n).good = none) (errors snr : List Nat)
    (closing : List (Nat × W64)) : exec (.laneTestEnd n errors snr closing) s =
      .next (closing.foldl (fun s e => testFrame n e.1 e.2 s) (masksMet (testEnded s n errors snr) n)) :=
  if_pos ⟨hst, hgood⟩

/-- The results change registers of CPL_LANE alone. -/
theorem testResults_keeps (s : State) (n : Nat) (errors snr : List Nat) : (testResults s n errors snr).ports = s.ports ∧
    (testResults s n errors snr).mem = s.mem ∧ (testResults s n errors snr).consist = s.consist := by
  rw [← Prod.mk.injEq, ← Prod.mk.injEq]
  unfold testResults
  refine foldl_keeps (fun t => (t.ports, t.mem, t.consist)) _ (fun t i => ?_) _ s
  simp only [regPut_ports, regPut_mem, regPut_consist]

theorem regGet_testResults (s : State) {n a : Nat} (ha : ∀ i, a ≠ rCplLane n i) (errors snr : List Nat) :
    regGet (testResults s n errors snr) a = regGet s a := by
  unfold testResults
  exact foldl_keeps (fun t => regGet t a) _ (fun t i => by rw [regGet_regPut_ne _ _ _ _ (ha i), regGet_regPut_ne _ _ _ _ (ha i)]) _ s

section
variable (s : State) (n : Nat) (errors snr : List Nat)

theorem testEnded_emits : Emits (putTraining (testResults s n errors snr) n
    { getTraining (testResults s n errors snr) n with good := some (goodMask s n errors) }) (testEnded s n errors snr) :=
  hubFrames_emits _ _ _ _

theorem getLink_testEnded : getLink (testEnded s n errors snr) n = getLink s n := by
  rw [getLink_congr (testEnded_emits s n errors snr).ports, getLink_putTraining, getLink_congr (testResults_keeps s n errors snr).1]

theorem getTraining_testEnded : getTraining (testEnded s n errors snr) n = { getTraining s n with good := some (goodMask s n errors) } := by
  rw [getTraining_congr (testEnded_emits s n errors snr).ports, getTraining_putTraining_same,
    getTraining_congr (testResults_keeps s n errors snr).1]

theorem testEnded_mem : (testEnded s n errors snr).mem = s.mem := by
  rw [(testEnded_emits s n errors snr).mem, putTraining_mem, (testResults_keeps s n errors snr).2.1]

theorem testEnded_consist : (testEnded s n errors snr).consist = s.consist := by
  rw [(testEnded_emits s n errors snr).consist, putTraining_consist, (testResults_keeps s n errors snr).2.2]

theorem regGet_testEnded {a : Nat} (ha : ∀ i, a ≠ rCplLane n i) : regGet (testEnded s n errors snr) a = regGet s a := by
  rw [regGet_congr (testEnded_emits s n errors snr).regs, regGet_congr (putTraining_regs _ _ _), regGet_testResults s ha]

theorem regGet_testEnded_status : regGet (testEnded s n errors snr) (rCplStatus n) = regGet s (rCplStatus n) :=
  regGet_testEnded s n errors snr fun i => by unfold rCplStatus rCplLane; omega

theorem lanesUsable_testEnded : lanesUsable (testEnded s n errors snr) n = lanesUsable s n :=
  lanesUsable_congr (by rw [regBits, regGet_testEnded_status, regBits])
    (regGet_testEnded s n errors snr fun i => by unfold rLaneCtl rCplLane; omega)
end

/-- Without the far end's mask the port waits for it. -/
theorem masksMet_waits {s : State} {n : Nat} (h : (getTraining s n).peerGood = none) : masksMet s n = s := by
  unfold masksMet
  rw [h]
  split
  · next hsome => cases hsome
  · rfl

theorem masksMet_fixes {s : State} {n a b : Nat} (ha : (getTraining s n).good = some a) (hb : (getTraining s n).peerGood = some b) :
    masksMet s n = fixWidth s n (laneAnd a b) := by
  unfold masksMet
  rw [ha, hb]

section
variable {s : State} {n : Nat} (hn : n < 10) (hst : portSt s n = 3) (hgood : (getTraining s n).good = none) (errors snr : List Nat)
include hn hst hgood

omit hn in
theorem laneTestEnd_waits (hpeer : (getTraining s n).peerGood = none) :
    ∃ t, exec (.laneTestEnd n errors snr []) s = .next t ∧ portSt t n = 3 ∧ (getTraining t n).good = some (goodMask s n errors) ∧
      t.mem = s.mem := by
  refine ⟨testEnded s n errors snr, ?_, ?_, ?_, testEnded_mem s n errors snr⟩
  · rw [exec_laneTestEnd hst hgood, masksMet_waits (by rw [getTraining_testEnded]; exact hpeer)]
    rfl
  · rw [portSt_congr (regGet_testEnded_status s n errors snr), hst]
  · rw [getTraining_testEnded]

theorem laneTestEnd_fixes {peer : Nat} (hpeer : (getTraining s n).peerGood = some peer) :
    ∃ t, exec (.laneTestEnd n errors snr []) s = .next t ∧ widthFixed s t n (laneAnd (goodMask s n errors) peer) := by
  refine ⟨fixWidth (testEnded s n errors snr) n (laneAnd (goodMask s n errors) peer), ?_,
    fixWidth_widthFixed hn (getLink_testEnded s n errors snr) (testEnded_consist s n errors snr) (laneAnd_lt _ _)⟩
  rw [exec_laneTestEnd hst hgood, masksMet_fixes (by rw [getTraining_testEnded]) (by rw [getTraining_testEnded]; exact hpeer)]
  rfl

theorem laneTestEnd_closes {lane : Nat} {w : W64} (hpeer : (getTraining s n).peerGood = none) (hlane : lane < portLanes n)
    (hok : frameOk n lane w.toNat = true) (huse : nbit (lanesUsable s n) lane = true) (hphase : nbits w.toNat 63 60 = 3) :
    ∃ t, exec (.laneTestEnd n errors snr [(lane, w)]) s = .next t ∧
      widthFixed s t n (laneAnd (goodMask s n errors) (nbits w.toNat 46 39)) := by
  have hcloses : testFrame n lane w (testEnded s n errors snr) = closingFrame (testEnded s n errors snr) n w.toNat :=
    if_pos ⟨(portSt_congr (regGet_testEnded_status s n errors snr)).trans hst, hlane, hok, by rw [lanesUsable_testEnded]; exact huse⟩
  refine ⟨closingFrame (testEnded s n errors snr) n w.toNat, ?_,
    closingFrame_fixes hn (getLink_testEnded s n errors snr) (testEnded_consist s n errors snr) hphase (by rw [getTraining_testEnded])⟩
  rw [exec_laneTestEnd hst hgood, masksMet_waits (by rw [getTraining_testEnded]; exact hpeer), ← hcloses]
  rfl
end

/-! ### ALIGN and CONFIG (R279, R280, R286) -/

/-- One NONCE more drawn. -/
def drawNonce (s : State) : State := { s with trust := { s.trust with draws := s.trust.draws + 1 } }

theorem drawNonce_regs (s : State) : (drawNonce s).regs = s.regs := rfl
theorem drawNonce_ports (s : State) : (drawNonce s).ports = s.ports := rfl
theorem drawNonce_mem (s : State) : (drawNonce s).mem = s.mem := rfl
theorem drawNonce_outbox (s : State) : (drawNonce s).outbox = s.outbox := rfl

/-- A state of CONFIG, with the part that holds the hub's NONCE. -/
def configBegun (s : State) (n : Nat) : State :=
  putTraining (drawNonce s) n { getTraining (drawNonce s) n with
    parts := [(4, if n < 8 then [] else (Config.nonce s.trust.draws).take 16)] }

theorem configBegun_regs (s : State) (n : Nat) : (configBegun s n).regs = s.regs := by rw [configBegun, putTraining_regs, drawNonce_regs]
theorem configBegun_mem (s : State) (n : Nat) : (configBegun s n).mem = s.mem := by rw [configBegun, putTraining_mem, drawNonce_mem]
theorem configBegun_outbox (s : State) (n : Nat) : (configBegun s n).outbox = s.outbox := by
  rw [configBegun, putTraining_outbox, drawNonce_outbox]

theorem getTraining_configBegun_rxSlot (s : State) (n : Nat) : (getTraining (configBegun s n) n).rxSlot = (getTraining s n).rxSlot := by
  rw [configBegun, getTraining_putTraining_same, getTraining_congr (drawNonce_ports s)]

theorem enterConfig_eq (s : State) (n : Nat) : enterConfig s n = sendPart0 (configBegun (setPortSt s n 5) n) n := rfl

theorem sendPart0_carries (s : State) (n : Nat) : Carries s (sendPart0 s n) := sendPlain_carries _ _ _ _

/-- R280: PART 0 is a flit of KIND 0xD. -/
theorem sends_sendPart0 (s : State) (n : Nat) : ∃ h, nbits h 63 60 = 0xD ∧ sends s (sendPart0 s n) .ctlFlit [n, h] := by
  unfold sendPart0 sendConfig
  exact ⟨_, by unfold nbits; omega, sends_sendPlain _ _ _ _⟩

/-- R280: entry into CONFIG sends PART 0, KIND 0xD. -/
theorem enterConfig_configures (s : State) (n : Nat) :
    portSt (enterConfig s n) n = 5 ∧ (∃ h, nbits h 63 60 = 0xD ∧ sends s (enterConfig s n) .ctlFlit [n, h]) ∧
      (getTraining (enterConfig s n) n).rxSlot = (getTraining s n).rxSlot ∧ (enterConfig s n).mem = s.mem := by
  rw [enterConfig_eq]
  have hout : (configBegun (setPortSt s n 5) n).outbox = s.outbox := (configBegun_outbox _ _).trans (regPut_outbox _ _ _ _ _)
  have hsent := sendPart0_carries (configBegun (setPortSt s n 5) n) n
  obtain ⟨h, hkind, hsends⟩ := sends_sendPart0 (configBegun (setPortSt s n 5) n) n
  refine ⟨?_, ⟨h, hkind, sends_congr hout hsends⟩, ?_, ?_⟩
  · rw [portSt_congr (regGet_congr (hsent.sends.regs.trans (configBegun_regs _ _)) _), portSt_setPortSt _ _ (by decide)]
  · rw [hsent.train, getTraining_configBegun_rxSlot, getTraining_setPortSt]
  · rw [hsent.sends.mem, configBegun_mem, setPortSt_mem]

section
variable {s : State} {f : Flit} (hst : portSt s f.port = 4)
include hst

theorem exec_align_unlocked : exec (.align f false) s = .next (portFail s f.port 4) :=
  if_pos ⟨hst, rfl⟩

theorem exec_align_nonzero (halign : isAlign f = true) (hzero : alignZero f = false) :
    exec (.align f true) s = .next (protocolError s f.port 0xE 0) :=
  (if_neg fun h => Bool.false_ne_true h.2).trans (if_pos ⟨.inl hst, halign, by rw [hzero]; rfl⟩)

theorem exec_align_locked (h : ¬ (isAlign f = true ∧ (!alignZero f) = true)) :
    exec (.align f true) s = .next (if isAlign f ∧ alignSlot f < 40 then
        enterConfig (putTraining s f.port { getTraining s f.port with rxSlot := some (alignSlot f) }) f.port
      else fillAlign s f.port) :=
  (if_neg fun h => Bool.false_ne_true h.2).trans ((if_neg fun hbad => h hbad.2).trans (if_pos hst))

/-- R279: an ALIGN flit aligns the receiver. -/
theorem align_aligns (halign : isAlign f = true) (hzero : alignZero f = true) (hslot : alignSlot f < 40) :
    ∃ t h, exec (.align f true) s = .next t ∧ portSt t f.port = 5 ∧ nbits h 63 60 = 0xD ∧ sends s t .ctlFlit [f.port, h] ∧
      (getTraining t f.port).rxSlot = some (alignSlot f) ∧ t.mem = s.mem := by
  obtain ⟨hconf, ⟨h, hkind, hsends⟩, hrx, hmem⟩ :=
    enterConfig_configures (putTraining s f.port { getTraining s f.port with rxSlot := some (alignSlot f) }) f.port
  refine ⟨_, h, exec_align_locked hst (by rw [hzero]; simp), ?_⟩
  rw [if_pos ⟨halign, hslot⟩]
  exact ⟨hconf, hkind, sends_congr (putTraining_outbox _ _ _) hsends, by rw [hrx, getTraining_putTraining_same],
    hmem.trans (putTraining_mem _ _ _)⟩

/-- R279: until one aligns it the hub fills its slots. -/
theorem align_waits (halign : isAlign f = false) :
    ∃ t h, exec (.align f true) s = .next t ∧ portSt t f.port = 4 ∧ nbits h 63 60 = 0xE ∧ sends s t .ctlFlit [f.port, h] ∧ t.mem = s.mem := by
  obtain ⟨h, hkind, hsends⟩ := sends_fillAlign s f.port
  refine ⟨_, h, exec_align_locked hst (by rw [halign]; simp), ?_⟩
  rw [if_neg (by rw [halign]; simp)]
  have hfill := (fillAlign_carries s f.port).sends
  exact ⟨(portSt_congr (regGet_congr hfill.regs _)).trans hst, hkind, hsends, hfill.mem⟩
end

/-- R280: the credits that PART 0 names, as CPL_CREDIT holds them. -/
theorem creditWord_fields {a b c d : Nat} (ha : a < 1024) (hb : b < 256) (hc : c < 256) (hd : d < 64) :
    let v := BitVec.ofNat 64 (a * 2 ^ 48 + b * 2 ^ 40 + c * 2 ^ 32 + d * 2 ^ 24)
    bits v 47 40 = b ∧ bits v 39 32 = c ∧ bits v 63 48 = a ∧ bits v 31 24 = d := by
  simp only [bits, BitVec.toNat_ofNat]
  omega

/-- A port without flits that wait keeps its link when it tries them. -/
theorem getLink_pump_empty {s : State} {n : Nat} (h : (getLink s n).wait = []) : getLink (pump s n) n = { getLink s n with wait := [] } := by
  rw [pump, h]
  exact getLink_putLink_same _ _ _

theorem pump_sends (s : State) (n : Nat) : Sends s (pump s n) := (putLink_sends _ _ _).trans (pumpList_sends _ _ _ _)

/-- The credits of the accepted PART 0, in CPL_CREDIT. -/
def creditsTaken (s : State) (n : Nat) : State :=
  let p := kget [] (getTraining s n).parts 0
  regSet s (rCplCredit n) (BitVec.ofNat 64 (field p 8 2 * 2 ^ 48 + field p 4 2 * 2 ^ 40 + field p 6 2 * 2 ^ 32 + field p 0xA 2 * 2 ^ 24))

/-- The link and the training of a port that becomes ACTIVE begin anew, but for what waits. -/
def portBegun (s : State) (n : Nat) : State :=
  putTraining (putLink (creditsTaken s n) n { Link.init with wait := (getLink (creditsTaken s n) n).wait }) n
    { getTraining (creditsTaken s n) n with parts := [], failRun := false }

/-- The state ACTIVE, before what waits is tried. -/
def portOpened (s : State) (n : Nat) : State := setPortSt (regPut (portBegun s n) (rCplStatus n) 15 8 0) n 6

theorem portUp_eq {s : State} {n : Nat} (hn : n < 8) : portUp s n = pump (portOpened s n) n := by
  show mirrorUp (pump (portOpened s n) n) n = _
  rw [mirrorUp, if_neg (by omega), if_neg (by omega)]

theorem getLink_portOpened (s : State) (n : Nat) : getLink (portOpened s n) n = { Link.init with wait := (getLink s n).wait } := by
  rw [portOpened, setPortSt, getLink_congr (regPut_ports _ _ _ _ _), getLink_congr (regPut_ports _ _ _ _ _), portBegun, getLink_putTraining,
    getLink_putLink_same, getLink_congr (t := creditsTaken s n) (regSet_ports s _ _)]

/-- R280, R306: an A port that becomes ACTIVE, by the PART 0 that it has accepted. -/
theorem portUp_active {s : State} {n : Nat} (hn : n < 8) :
    portActive (portUp s n) n = true ∧ ((getLink s n).wait = [] → getLink (portUp s n) n = Link.init) ∧
      regGet (portUp s n) (rCplCredit n) = (let p := kget [] (getTraining s n).parts 0
        BitVec.ofNat 64 (field p 8 2 * 2 ^ 48 + field p 4 2 * 2 ^ 40 + field p 6 2 * 2 ^ 32 + field p 0xA 2 * 2 ^ 24)) := by
  have hcredit : rCplCredit n ≠ rCplStatus n := by unfold rCplCredit rCplStatus; omega
  have hregs : (portBegun s n).regs = (creditsTaken s n).regs := (putTraining_regs _ _ _).trans (putLink_regs _ _ _)
  rw [portUp_eq hn]
  refine ⟨?_, fun hwait => ?_, ?_⟩
  · rw [portActive_iff, portSt_congr (regGet_congr (pump_sends _ _).regs _)]
    exact portSt_setPortSt _ _ (by decide)
  · rw [getLink_pump_empty (by rw [getLink_portOpened, hwait]), getLink_portOpened]
    rfl
  · rw [regGet_congr (pump_sends _ _).regs, portOpened, setPortSt, regGet_regPut_ne _ _ _ _ hcredit, regGet_regPut_ne _ _ _ _ hcredit,
      regGet_congr hregs]
    exact regGet_regSet_same _ _ _

/-- R280: the ranges in which PART 0 is accepted hold the credits in their fields. -/
theorem part0Ok_credits {s : State} {n : Nat} {p : List Byte} (h : part0Ok s n p = true) :
    field p 8 2 < 1024 ∧ field p 4 2 < 256 ∧ field p 6 2 < 256 ∧ field p 0xA 2 < 64 := by
  simp only [part0Ok, Bool.and_eq_true, decide_eq_true_eq] at h
  omega

section
variable {s : State} {port : Nat} {header : W64} {rest : List Byte} (hport : port < 8) (hst : portSt s port = 5)
  (hcrc : crcOk (flitOf port header rest) = true) (hkind : flitKind (flitOf port header rest) = 0xD)
  (hvc : flitVc (flitOf port header rest) = 3) (hpart : nbits (flitHdr (flitOf port header rest)) 57 56 = 0)
  (hzero : configZero 0 (flitOf port header rest) = true) (hnone : kget [] (getTraining s port).parts 0 = [])
include hst hcrc hkind hvc hpart hzero

theorem exec_config : exec (.config port header rest) s = .next (takePart s port 0 (flitOf port header rest).payload) := by
  have hheard : portSt s (flitOf port header rest).port = 5 ∧ crcOk (flitOf port header rest) = true ∧
      flitKind (flitOf port header rest) = 0xD := ⟨hst, hcrc, hkind⟩
  show execConfig port header rest s = _
  unfold execConfig
  dsimp only
  rw [if_pos hheard, hpart, if_pos ⟨hvc, hzero⟩]
  rfl

include hport hnone

theorem config_accepts (hok : part0Ok s port (flitOf port header rest).payload = true) :
    ∃ t, exec (.config port header rest) s = .next t ∧ portActive t port = true ∧
      ((getLink s port).wait = [] → getLink t port = Link.init) ∧
      peerCredits t port 0 = field (flitOf port header rest).payload 4 2 ∧ peerCredits t port 1 = field (flitOf port header rest).payload 6 2 ∧
      peerCredits t port 2 = field (flitOf port header rest).payload 8 2 ∧ peerCredits t port 3 = field (flitOf port header rest).payload 10 2 := by
  generalize hp : (flitOf port header rest).payload = p at hok ⊢
  let u := putTraining s port { getTraining s port with parts := kset [] (getTraining s port).parts 0 p }
  obtain ⟨hactive, hlink, hcredit⟩ := portUp_active (s := u) hport
  obtain ⟨ha, hb, hc, hd⟩ := part0Ok_credits hok
  obtain ⟨h0, h1, h2, h3⟩ := creditWord_fields ha hb hc hd
  have htake : takePart s port 0 p = portUp u port := by
    unfold takePart
    dsimp only
    rw [if_pos ⟨rfl, hnone⟩, if_pos hok, if_pos hport]
  rw [getTraining_putTraining_same, kget_kset_same] at hcredit
  refine ⟨portUp u port, ?_, hactive, fun hwait => hlink ((congrArg Link.wait (getLink_putTraining _ _ _ _)).trans hwait), ?_, ?_, ?_, ?_⟩
  · rw [exec_config hst hcrc hkind hvc hpart hzero, hp, htake]
  · exact (congrArg (bits · 47 40) hcredit).trans h0
  · exact (congrArg (bits · 39 32) hcredit).trans h1
  · exact (congrArg (bits · 63 48) hcredit).trans h2
  · exact (congrArg (bits · 31 24) hcredit).trans h3

theorem config_refuses (hbad : part0Ok s port (flitOf port header rest).payload = false) :
    ∃ t, exec (.config port header rest) s = .next t ∧ failsWith s t port 5 := by
  have htake : takePart s port 0 (flitOf port header rest).payload = portFail s port 5 := by
    unfold takePart
    dsimp only
    rw [if_pos ⟨rfl, hnone⟩, hbad, if_neg Bool.false_ne_true]
  exact ⟨_, (exec_config hst hcrc hkind hvc hpart hzero).trans (congrArg _ htake), (portFail_fails (by omega) (by decide) rfl).1⟩
end

/-! ### The obligation -/

/-- Settles O34: each state of Table 10.3 by its command's lemmas above; DETECT by `retrain_detects`, FAILED by `portFail_fails`, the
width by `fixWidth_widthFixed`. -/
theorem portTraining : Obligations.PortTraining := by
  refine ⟨?start, ?laneLost, ?retest, ?detect, ?active, ?timeout, ?testEnd, ?closing, ?align, ?config⟩
  case start =>
    intro s n hn hrun
    refine ⟨fun hst => ?_, fun hst => ?_⟩
    · exact ⟨_, exec_portEnable hn hrun hst, retrain_quiet hn hst (by decide)⟩
    · exact ⟨_, exec_portFailedRetry hrun hst, retrain_quiet hn hst (by decide)⟩
  case laneLost => exact fun s n lane hn hact hused => exec_cplLaneLost hn hact hused
  case retest =>
    intro s n hn hup
    refine ⟨fun hjob hst0 hst7 hfatal => ?_, fun hjob hheld => ?_, fun hjob => ?_⟩
    · refine ⟨_, exec_cplRetest hn hup, ?_⟩
      rw [retest_noJob hn hjob, if_neg (by rw [hfatal]; simp [hst0, hst7])]
      exact retrain_retestCleared s hn
    · refine ⟨_, exec_cplRetest hn hup, ?_⟩
      rw [retest_noJob hn hjob, if_pos hheld]
      exact ⟨retestCleared_apart s n (by decide), retestCleared_lost s n, retestCleared_laneCtl s n, retestCleared_frame s n⟩
    · rw [exec_cplRetest hn hup, retest, if_pos hjob]
  case detect =>
    exact fun s n lane w ready op tap hn hlane hok hst huse => trainingFrame_detect hn hlane hok hst huse ready op tap
  case active =>
    exact fun s n lane w ready op tap hn hlane hok hact =>
      ⟨_, exec_trainingFrame_active hn hlane hok hact ready op tap, retrain_detects hn rfl rfl⟩
  case timeout => exact fun s n hn => ⟨trainingTimeout_detect hn, trainingTimeout_equalize hn⟩
  case testEnd =>
    intro s n errors snr hn hst hgood
    exact ⟨laneTestEnd_waits hst hgood errors snr, fun peer => laneTestEnd_fixes hn hst hgood errors snr,
      fun lane w => laneTestEnd_closes hn hst hgood errors snr⟩
  case closing =>
    intro s n lane good w ready op tap hn hlane hok hst huse hphase hgood
    exact ⟨_, exec_trainingFrame_test hn hlane hok hst huse ready op tap, closingFrame_fixes hn rfl rfl hphase hgood⟩
  case align =>
    intro s f hport hst
    exact ⟨align_aligns hst, fun halign hzero => ⟨_, exec_align_nonzero hst halign hzero, protocolError_detects s hport _ _⟩,
      align_waits hst, _, exec_align_unlocked hst, (portFail_fails hport (by decide) rfl).1⟩
  case config =>
    intro s port header rest f hport hst hcrc hkind hvc hpart hzero hnone
    exact ⟨config_accepts hport hst hcrc hkind hvc hpart hzero hnone, config_refuses hport hst hcrc hkind hvc hpart hzero hnone⟩

end Sys2Proof.Machine

/-! PROOFS. Writes, reads, ring messages and job aborts of a partner (R303 to R308). -/

namespace Sys2Proof.Machine

theorem Sends.poison {s t : State} (h : Sends s t) : t.poison = s.poison := by obtain ⟨_, _, _, rfl⟩ := h; rfl
theorem Sends.subCredit {s t : State} (h : Sends s t) : t.host.subCredit = s.host.subCredit := by obtain ⟨_, _, _, rfl⟩ := h; rfl

/-! ### Units of a WRITE (R303) -/

/-- What a partner may reach follows from the Consist and MEM_STATUS. -/
theorem partnerMay_congr {s t : State} (hcfg : t.consist = s.consist) (hreg : regGet t rMemStatus = regGet s rMemStatus) (n a : Nat) (write : Bool) :
    partnerMay t n a write = partnerMay s n a write := by
  have htop : memTop t = memTop s := by rw [memTop, memTop, regBits, regBits, hreg]
  have hregion : regionOf t a = regionOf s a := by rw [regionOf, regionOf, effRegions, effRegions, hcfg, htop]
  rw [partnerMay, partnerMay, mayAccess, mayAccess, htop, hregion, portSecure, portSecure, hcfg]

theorem Sends.partnerMay {s t : State} (h : Sends s t) (n a : Nat) (write : Bool) : partnerMay t n a write = partnerMay s n a write :=
  partnerMay_congr h.consist (regGet_congr h.regs _) n a write

theorem partnerMay_storeBytes (s : State) (b : Nat) (bs : List Byte) (p : Bool) (n a : Nat) (write : Bool) :
    partnerMay (storeBytes s b bs p) n a write = partnerMay s n a write :=
  partnerMay_congr (storeBytes_consist _ _ _ _) (regGet_congr (storeBytes_regs _ _ _ _) _) n a write

/-- Whether a WRITE carries the unit of a number. -/
def unitOn (f : Flit) (i : Nat) : Bool := nbit (nbits (flitHdr f) 57 55) i

/-- The bytes of a unit of a WRITE. -/
def unitPayload (f : Flit) (i : Nat) : List Byte := (f.payload.drop (48 + 64 * i)).take 64

theorem length_unitPayload {f : Flit} {i : Nat} (hlen : f.payload.length = 240) (hi : i < 3) : (unitPayload f i).length = 64 := by
  rw [unitPayload, List.length_take, List.length_drop]
  omega

theorem lget_drop {α : Type} (d : α) : ∀ (l : List α) (k i : Nat), lget d (l.drop k) i = lget d l (k + i)
  | l, 0, i => by rw [List.drop_zero, Nat.zero_add]
  | [], _ + 1, _ => by rw [List.drop_nil, lget, lget]
  | _ :: l, k + 1, i => by rw [List.drop_succ_cons, lget_drop d l k i, Nat.add_right_comm, lget]

theorem lget_take {α : Type} (d : α) : ∀ (l : List α) {k i : Nat}, i < k → lget d (l.take k) i = lget d l i
  | [], _, _, _ => by rw [List.take_nil]
  | _ :: _, _ + 1, 0, _ => rfl
  | _ :: l, _ + 1, _ + 1, h => lget_take d l (Nat.lt_of_succ_lt_succ h)

theorem lget_unitPayload (f : Flit) {i j : Nat} (hj : j < 64) : lget 0 (unitPayload f i) j = lget 0 f.payload (48 + 64 * i + j) := by
  rw [unitPayload, lget_take _ _ hj, lget_drop]

theorem writeUnit_off {s : State} {f : Flit} {a i : Nat} (h : unitOn f i = false) : writeUnit s f a i = s :=
  if_pos (by rw [← unitOn, h]; rfl)

theorem writeUnit_stored {s : State} {f : Flit} {a i : Nat} (hon : unitOn f i = true) (hmay : partnerMay s f.port (a + 64 * i) true = true) :
    writeUnit s f a i = storeBytes s (a + 64 * i) (unitPayload f i) (nbit (nbits (flitHdr f) 54 52) i) :=
  (if_neg (by rw [← unitOn, hon]; simp)).trans (if_pos hmay)

theorem writeUnit_refused {s : State} {f : Flit} {a i : Nat} (hon : unitOn f i = true) (hmay : partnerMay s f.port (a + 64 * i) true = false) :
    writeUnit s f a i = sendCtl (refuseUnit s f.port (a + 64 * i)) f.port 0x22 [(1, 1), (8, a + 64 * i)] :=
  (if_neg (by rw [← unitOn, hon]; simp)).trans (if_neg (by rw [hmay]; exact Bool.false_ne_true))

/-- Nothing but bytes of memory and their poison differs. -/
def OnlyStores (u t : State) : Prop := { t with mem := u.mem, poison := u.poison } = u

theorem OnlyStores.trans {s t u : State} (hst : OnlyStores s t) (htu : OnlyStores t u) : OnlyStores s u := by
  have h : { u with mem := s.mem, poison := s.poison } = { { u with mem := t.mem, poison := t.poison } with mem := s.mem, poison := s.poison } := rfl
  rw [OnlyStores, h, show _ = t from htu]
  exact hst

theorem storeBytes_onlyStores (s : State) (a : Nat) (bs : List Byte) (p : Bool) : OnlyStores s (storeBytes s a bs p) := rfl

/-- R303: the units that a WRITE carries are stored, where the partner may reach them all. -/
theorem foldl_writeUnit_stores {f : Flit} {a : Nat} (hlen : f.payload.length = 240) :
    ∀ (l : List Nat) (s : State), (∀ i ∈ l, i < 3) → (∀ i ∈ l, unitOn f i = true → partnerMay s f.port (a + 64 * i) true = true) →
      OnlyStores s (l.foldl (fun s i => writeUnit s f a i) s) ∧
        ∀ x, memByte (l.foldl (fun s i => writeUnit s f a i) s) x =
          if a ≤ x ∧ (x - a) / 64 ∈ l ∧ unitOn f ((x - a) / 64) = true then lget 0 f.payload (48 + (x - a)) else memByte s x
  | [], s, _, _ => ⟨rfl, fun x => (if_neg fun h => List.not_mem_nil h.2.1).symm⟩
  | i :: l, s, hl, hmay => by
    have hi := hl i List.mem_cons_self
    have htail : ∀ j ∈ l, j < 3 := fun j hj => hl j (List.mem_cons_of_mem _ hj)
    by_cases hon : unitOn f i = true
    · have hstep := writeUnit_stored hon (hmay i List.mem_cons_self hon)
      obtain ⟨honly, hbyte⟩ := foldl_writeUnit_stores hlen l (storeBytes s (a + 64 * i) (unitPayload f i) (nbit (nbits (flitHdr f) 54 52) i)) htail
        fun j hj h => (partnerMay_storeBytes _ _ _ _ _ _ _).trans (hmay j (List.mem_cons_of_mem _ hj) h)
      simp only [List.foldl_cons, hstep]
      refine ⟨(storeBytes_onlyStores _ _ _ _).trans honly, fun x => ?_⟩
      rw [hbyte, memByte_storeBytes, length_unitPayload hlen hi]
      by_cases hx : a + 64 * i ≤ x ∧ x < a + 64 * i + 64
      · have hunit : (x - a) / 64 = i := by omega
        have hplace : 48 + 64 * i + (x - (a + 64 * i)) = 48 + (x - a) := by omega
        rw [if_pos hx, lget_unitPayload f (by omega), hplace, ite_self, hunit, if_pos ⟨by omega, List.mem_cons_self, hon⟩]
      · have hunit : a ≤ x → (x - a) / 64 ≠ i := by omega
        rw [if_neg hx]
        refine if_congr ?_ rfl rfl
        refine ⟨fun h => ⟨h.1, List.mem_cons_of_mem _ h.2.1, h.2.2⟩, fun h => ⟨h.1, ?_, h.2.2⟩⟩
        exact (List.mem_cons.mp h.2.1).resolve_left (hunit h.1)
    · rw [Bool.not_eq_true] at hon
      obtain ⟨honly, hbyte⟩ := foldl_writeUnit_stores hlen l s htail fun j hj => hmay j (List.mem_cons_of_mem _ hj)
      simp only [List.foldl_cons, writeUnit_off hon]
      refine ⟨honly, fun x => (hbyte x).trans (if_congr ?_ rfl rfl)⟩
      refine ⟨fun h => ⟨h.1, List.mem_cons_of_mem _ h.2.1, h.2.2⟩, fun h => ⟨h.1, ?_, h.2.2⟩⟩
      exact (List.mem_cons.mp h.2.1).resolve_left fun he => Bool.false_ne_true (hon.symm.trans (he ▸ h.2.2))

theorem rMemStatus_high : 0x300000 ≤ rMemStatus := by unfold rMemStatus; omega

theorem worldFault_notes (s : State) {n : Nat} (hn : n < 10) (secure : Bool) (a : Nat) : Notes s (worldFault s (srcPort n) secure a) :=
  Notes.ite (raise_notes s hn _ _ _) (Notes.refl s)

/-- R303, R395: a refused unit is counted and reported. -/
theorem refuseUnit_notes (s : State) {n : Nat} (hn : n < 10) (a : Nat) : Notes (regAddSat s (rCplErr2 n) 15 0 1) (refuseUnit s n a) :=
  (raise_notes _ hn _ _ _).trans (worldFault_notes _ hn _ _)

/-- R303: a unit that the partner may not reach leaves memory and what the partner may reach. -/
theorem writeUnit_refused_keeps {s : State} {f : Flit} {a i : Nat} (hport : f.port < 8)
    (hmay : unitOn f i = true → partnerMay s f.port (a + 64 * i) true = false) :
    (writeUnit s f a i).mem = s.mem ∧ (writeUnit s f a i).poison = s.poison ∧
      ∀ b, partnerMay (writeUnit s f a i) f.port b true = partnerMay s f.port b true := by
  by_cases hon : unitOn f i = true
  · have hnotes := refuseUnit_notes s (n := f.port) (by omega) (a + 64 * i)
    have hsent := sendCtl_sends (refuseUnit s f.port (a + 64 * i)) f.port 0x22 [(1, 1), (8, a + 64 * i)]
    have hcount : rMemStatus ≠ rCplErr2 f.port := by unfold rMemStatus rCplErr2; omega
    rw [writeUnit_refused hon (hmay hon)]
    refine ⟨by rw [hsent.mem, hnotes.mem, regAddSat_mem], by rw [hsent.poison, hnotes.poison]; rfl, fun b => ?_⟩
    rw [hsent.partnerMay]
    exact partnerMay_congr (hnotes.consist.trans (regPut_consist _ _ _ _ _))
      ((hnotes.2 _ rMemStatus_high).trans (regGet_regAddSat_ne _ _ _ _ hcount)) _ _ _
  · rw [writeUnit_off (by simpa using hon)]
    exact ⟨rfl, rfl, fun _ => rfl⟩

/-- R303: units that the partner may not reach leave memory as it was. -/
theorem foldl_writeUnit_refused {f : Flit} {a : Nat} (hport : f.port < 8) :
    ∀ (l : List Nat) (s : State), (∀ i ∈ l, unitOn f i = true → partnerMay s f.port (a + 64 * i) true = false) →
      (l.foldl (fun s i => writeUnit s f a i) s).mem = s.mem ∧ (l.foldl (fun s i => writeUnit s f a i) s).poison = s.poison
  | [], _, _ => ⟨rfl, rfl⟩
  | i :: l, s, hmay => by
    obtain ⟨hmem, hpoison, hkeeps⟩ := writeUnit_refused_keeps hport (hmay i List.mem_cons_self)
    obtain ⟨hmem', hpoison'⟩ := foldl_writeUnit_refused hport l (writeUnit s f a i) fun j hj hon =>
      (hkeeps _).trans (hmay j (List.mem_cons_of_mem _ hj) hon)
    exact ⟨hmem'.trans hmem, hpoison'.trans hpoison⟩

theorem exec_write {s u : State} {f : Flit} (hport : f.port < 8) (hlen : f.payload.length = 240) (hlow : nbits (flitHdr f) 51 0 = 0)
    (hgap : gapZero f 8 48 = true)
    (hoff : ∀ i, i < 3 → unitOn f i = false → nbit (nbits (flitHdr f) 54 52) i = false ∧ gapZero f (48 + 64 * i) (112 + 64 * i) = true)
    (htake : takeFlit s f 1 0 true = (u, true)) :
    exec (.write f) s = .next ((rangeFrom 0 3).foldl (fun s i => writeUnit s f (field f.payload 0 8) i) u) := by
  have hunits : ((rangeFrom 0 3).all fun i => nbit (nbits (flitHdr f) 57 55) i ||
      (!nbit (nbits (flitHdr f) 54 52) i && gapZero f (48 + 64 * i) (112 + 64 * i))) = true := by
    refine List.all_eq_true.mpr fun i hi => ?_
    cases hon : unitOn f i with
    | true => exact Bool.or_eq_true_iff.mpr (.inl hon)
    | false =>
      obtain ⟨hpoi, hzero⟩ := hoff i (by have := (mem_rangeFrom _ _ _).mp hi; omega) hon
      rw [hpoi, hzero]
      simp
  have hexec : exec (.write f) s = execWrite f s := rfl
  rw [hexec, execWrite, hunits, decide_eq_true hport, decide_eq_true hlen, hlow, hgap,
    show (true && true && (0 == 0) && true && true) = true from rfl, htake]

/-! ### READ_REQ (R303) -/

theorem exec_readReq {s u : State} {f : Flit} (hport : f.port < 8) (hlow : nbits (flitHdr f) 39 0 = 0) (hzero : zeroFrom f.payload 8 = true)
    (htake : takeFlit s f 2 0 true = (u, true)) (hfree : tagBusy u f.port (nbits (flitHdr f) 57 46) = false)
    (hunits : ∀ x ∈ (rangeFrom 0 (nbits (flitHdr f) 45 40 + 1)).map fun i => field f.payload 0 8 + 64 * i, (readUnit u f.port x).isSome = true) :
    exec (.readReq f) s = .next (sendRead u f.port (nbits (flitHdr f) 57 46) 0
      (((rangeFrom 0 (nbits (flitHdr f) 45 40 + 1)).map fun i => field f.payload 0 8 + 64 * i).filterMap fun x => readUnit u f.port x)) := by
  have hfind : (((rangeFrom 0 (nbits (flitHdr f) 45 40 + 1)).map fun i => field f.payload 0 8 + 64 * i).find? fun x =>
      (readUnit u f.port x).isNone) = none :=
    List.find?_eq_none.mpr fun x hx => by rw [Option.isNone_iff_eq_none]; exact Option.isSome_iff_ne_none.mp (hunits x hx)
  have hexec : exec (.readReq f) s = execReadReq f s := rfl
  rw [hexec, execReadReq, decide_eq_true hport, hlow, hzero, show (true && (0 == 0) && true) = true from rfl, htake]
  dsimp only
  rw [hfree, hfind]
  rfl

/-! ### RING_SUB (R305) -/

theorem ringEnabled_congr {s t : State} (h : t.regs = s.regs) (q : Nat) : ringEnabled t q = ringEnabled s q := by
  rw [ringEnabled, ringEnabled, regBits_congr h, regBits_congr h]

theorem ringBase_congr {s t : State} (h : t.regs = s.regs) (q : Nat) : ringBase t q = ringBase s q := by
  rw [ringBase, ringBase, regBits_congr h, regBits_congr h]

theorem ringDepth_congr {s t : State} (h : t.regs = s.regs) (q : Nat) : ringDepth t q = ringDepth s q := by
  rw [ringDepth, ringDepth, regBits_congr h, regBits_congr h]

/-- A ring has a power of two of slots. -/
theorem ringDepth_eq_two_pow (s : State) (q : Nat) : ∃ d, ringDepth s q = 2 ^ d := ⟨_, rfl⟩

/-- The slot of a ring that entry `p` takes. -/
def ringSlot (s : State) (q : Nat) (p : W32) : Nat := ringBase s q + 64 * (p.toNat % ringDepth s q)

/-- One descriptor of RING_SUB, put into the ring. -/
def putDesc (q : Nat) (f : Flit) (s : State) (i : Nat) : State :=
  setProd (storeBytes s (ringSlot s q (getProd s q)) ((f.payload.drop (64 * i)).take 64) false) q (getProd s q + 1)

/-- Entries nearer to each other than the ring's size take different slots. -/
theorem entry_slots_differ (p : W32) {d i k : Nat} (hik : i < k) (hk : k < 2 ^ d) (hk32 : k < 2 ^ 32) :
    (p + BitVec.ofNat 32 i).toNat % 2 ^ d ≠ (p + BitVec.ofNat 32 k).toNat % 2 ^ d := by
  have hmod : ∀ x, x % 2 ^ 32 % 2 ^ d = x % 2 ^ min 32 d := fun x =>
    Nat.eq_of_testBit_eq fun j => by
      simp only [Nat.testBit_mod_two_pow, lt_min_iff, Bool.decide_and]
      rw [← Bool.and_assoc, Bool.and_comm (decide (j < d))]
  have hplace : ∀ j, j < 2 ^ 32 → (p + BitVec.ofNat 32 j).toNat % 2 ^ d = (p.toNat + j) % 2 ^ min 32 d := fun j hj => by
    rw [BitVec.toNat_add, BitVec.toNat_ofNat, Nat.mod_eq_of_lt hj, hmod]
  have hksmall : k < 2 ^ min 32 d := by
    obtain h | h := Nat.le_total 32 d
    · rwa [Nat.min_eq_left h]
    · rwa [Nat.min_eq_right h]
  rw [hplace i (hik.trans hk32), hplace k hk32]
  intro heq
  exact hik.ne ((Nat.ModEq.add_left_cancel' p.toNat heq).eq_of_lt_of_lt (hik.trans hksmall) hksmall)

/-- R305: descriptors put into a ring one after another: they read back, and the producer index counts them. -/
theorem foldl_putDesc {q : Nat} {f : Flit} {s : State} (hlen : f.payload.length = 240) : ∀ n, n ≤ 3 → n ≤ ringDepth s q →
    let t := (rangeFrom 0 n).foldl (putDesc q f) s
    getProd t q = getProd s q + BitVec.ofNat 32 n ∧ (∀ r, r ≠ q → getProd t r = getProd s r) ∧ t.host.subCredit = s.host.subCredit ∧
      t.regs = s.regs ∧
      ∀ i, i < n → memBytes t (ringSlot s q (getProd s q + BitVec.ofNat 32 i)) 64 = (f.payload.drop (64 * i)).take 64
  | 0, _, _ => ⟨(BitVec.add_zero _).symm, fun _ _ => rfl, rfl, rfl, fun i hi => absurd hi (Nat.not_lt_zero i)⟩
  | n + 1, hn, hdepth => by
    obtain ⟨hprod, hother, hcredit, hregs, hread⟩ := foldl_putDesc (q := q) (s := s) hlen n (by omega) (by omega)
    dsimp only
    rw [rangeFrom_zero_eq_range, List.range_succ, List.foldl_append, ← rangeFrom_zero_eq_range]
    generalize (rangeFrom 0 n).foldl (putDesc q f) s = t at hprod hother hcredit hregs hread
    have hchunk : ((f.payload.drop (64 * n)).take 64).length = 64 := by
      rw [List.length_take, List.length_drop]
      omega
    have hslot : ringSlot t q (getProd t q) = ringSlot s q (getProd s q + BitVec.ofNat 32 n) := by
      rw [ringSlot, ringSlot, ringBase_congr hregs, ringDepth_congr hregs, hprod]
    have hmem : ∀ x, memByte (putDesc q f t n) x = memByte (storeBytes t (ringSlot s q (getProd s q + BitVec.ofNat 32 n))
        ((f.payload.drop (64 * n)).take 64) false) x := fun x => by rw [putDesc, hslot]; rfl
    refine ⟨?_, fun r hr => (kget_kset_ne _ _ _ hr).trans (hother r hr), hcredit, hregs, fun i hi => ?_⟩
    · show kget 0 (kset 0 t.host.prod q (getProd t q + 1)) q = _
      rw [kget_kset_same, hprod]
      bv_omega
    · show memBytes (putDesc q f t n) _ 64 = _
      rw [memBytes_congr fun x _ _ => hmem x]
      obtain rfl | hin := Nat.eq_or_lt_of_le (Nat.le_of_lt_succ hi)
      · have hback := memBytes_storeBytes_same t (ringSlot s q (getProd s q + BitVec.ofNat 32 i)) ((f.payload.drop (64 * i)).take 64) false
        rwa [hchunk] at hback
      · obtain ⟨d, hd⟩ := ringDepth_eq_two_pow s q
        have hne := entry_slots_differ (getProd s q) hin (hd ▸ Nat.lt_of_succ_le hdepth) (by omega)
        rw [← hd] at hne
        refine (memBytes_congr fun x hlo hhi => ?_).trans (hread i hin)
        rw [memByte_storeBytes, hchunk, if_neg]
        unfold ringSlot at *
        omega

/-- R305: the credits of a ring that its partner's descriptors take. -/
def takeCredits (s : State) (q n : Nat) : State :=
  putHost s { s.host with subCredit := kset 0 s.host.subCredit q (kget 0 s.host.subCredit q - n) }

section
variable {s u : State} {f : Flit} (hport : f.port < 8) (hlow : nbits (flitHdr f) 51 0 = 0) (hn : 1 ≤ nbits (flitHdr f) 53 52)
  (hzero : zeroFrom f.payload (64 * nbits (flitHdr f) 53 52) = true) (htake : takeFlit s f 4 0 true = (u, true))
include hport hlow hn hzero htake

theorem exec_ringSub : exec (.ringSub f) s =
    (let q := partnerRing f.port (nbits (flitHdr f) 57 54)
    if nbits (flitHdr f) 57 54 % 2 = 0 ∧ ringEnabled u q ∧ nbits (flitHdr f) 53 52 ≤ kget 0 u.host.subCredit q then
      .next ((rangeFrom 0 (nbits (flitHdr f) 53 52)).foldl (putDesc q f) (takeCredits u q (nbits (flitHdr f) 53 52)))
    else .next (protocolError u f.port 4 0)) := by
  have hexec : exec (.ringSub f) s = execRingSub f s := rfl
  rw [hexec, execRingSub, decide_eq_true hport, hlow, decide_eq_true hn, hzero, show (true && (0 == 0) && true && true) = true from rfl, htake]
  rfl

/-- R305: RING_SUB of a partner without the credits. -/
theorem ringSub_without_credits (hcredit : kget 0 s.host.subCredit (partnerRing f.port (nbits (flitHdr f) 57 54)) < nbits (flitHdr f) 53 52) :
    ∃ t, exec (.ringSub f) s = .next t ∧ detects u t f.port (getLink u f.port) := by
  refine ⟨_, (exec_ringSub hport hlow hn hzero htake).trans (if_neg fun ⟨_, _, h⟩ => ?_), protocolError_detects u (by omega) _ _⟩
  rw [(takeFlit_sends htake).subCredit] at h
  omega

/-- R305: RING_SUB of a partner that holds the credits. -/
theorem ringSub_puts {q : Nat} (hq : partnerRing f.port (nbits (flitHdr f) 57 54) = q) (hlen : f.payload.length = 240)
    (heven : nbits (flitHdr f) 57 54 % 2 = 0) (hring : ringEnabled s q = true)
    (hcredit : nbits (flitHdr f) 53 52 ≤ kget 0 s.host.subCredit q) (hdepth : nbits (flitHdr f) 53 52 ≤ ringDepth s q) :
    ∃ t, exec (.ringSub f) s = .next t ∧ getProd t q = getProd s q + BitVec.ofNat 32 (nbits (flitHdr f) 53 52) ∧
      (∀ r, r ≠ q → getProd t r = getProd s r) ∧
      kget 0 t.host.subCredit q = kget 0 s.host.subCredit q - nbits (flitHdr f) 53 52 ∧
      ∀ i, i < nbits (flitHdr f) 53 52 → memBytes t (ringSlot s q (getProd s q + BitVec.ofNat 32 i)) 64 = (f.payload.drop (64 * i)).take 64 := by
  have hexec := exec_ringSub hport hlow hn hzero htake
  dsimp only at hexec
  have hsent := takeFlit_sends htake
  have hprod : ∀ r, getProd (takeCredits u q (nbits (flitHdr f) 53 52)) r = getProd s r := fun r => congrArg (kget 0 · r) hsent.prod
  have hregs : (takeCredits u q (nbits (flitHdr f) 53 52)).regs = s.regs := hsent.regs
  have hslot : ∀ p, ringSlot (takeCredits u q (nbits (flitHdr f) 53 52)) q p = ringSlot s q p := fun p => by
    rw [ringSlot, ringSlot, ringBase_congr hregs, ringDepth_congr hregs]
  have hfew : nbits (flitHdr f) 53 52 ≤ 3 := Nat.le_of_lt_succ (Nat.mod_lt _ (by decide))
  rw [hq, if_pos ⟨heven, by rw [ringEnabled_congr hsent.regs, hring], by rwa [hsent.subCredit]⟩] at hexec
  obtain ⟨hindex, hother, hleft, -, hread⟩ := foldl_putDesc (q := q) (f := f) (s := takeCredits u q (nbits (flitHdr f) 53 52)) hlen _ hfew
    (by rwa [ringDepth_congr hregs])
  refine ⟨_, hexec, by rw [hindex, hprod], fun r hr => by rw [hother r hr, hprod], ?_, fun i hi => ?_⟩
  · rw [hleft, ← hsent.subCredit]
    exact kget_kset_same _ _ _ _
  · rw [← hslot, ← hprod]
    exact hread i hi
end

/-! ### RING_FREE (R306): what follows from a consumer's advance keeps the consumer indices -/

/-- The consumer indices of the rings. -/
def consumers (s : State) : KMap W32 := s.host.cons

theorem consumers_congr {s t : State} (h : t.host = s.host) : consumers t = consumers s := by rw [consumers, consumers, h]

theorem Sends.consumers {s t : State} (h : Sends s t) : consumers t = consumers s := h.cons
theorem Posts.consumers {s t : State} (h : Posts s t) : consumers t = consumers s := by obtain ⟨_, _, _, _, _, _, _, _, _, rfl⟩ := h; rfl

theorem consumers_postWaiting (q : Nat) : ∀ (l : List (List Byte)) (s : State), consumers (postWaiting s q l) = consumers s
  | [], _ => rfl
  | e :: l, s => by
    rw [postWaiting]
    dsimp only
    split
    · exact (consumers_postWaiting q l _).trans (putEntry_posts _ q e).consumers
    · rfl

theorem consumers_takeSteps (s : State) (t : Nat) : consumers (takeSteps s t) = consumers s :=
  foldl_keeps consumers _ (fun u o => by dsimp only; split <;> rfl) _ s

theorem consumers_putTable (s : State) (t : Nat) (x : Table) : consumers (putTable s t x) = consumers s := consumers_congr (putTable_host _ _ _)

theorem consumers_endCmd (s : State) (c : Cmd) (status fld : Nat) : consumers (endCmd s c status fld) = consumers s :=
  (postEntry_posts _ _ _).consumers

theorem consumers_endStep (s : State) (x : Table) (r : StepRun) (status : Nat) : consumers (endStep s x r status) = consumers s :=
  (postEntry_posts _ _ _).consumers

theorem consumers_failLink (s : State) (t : Nat) (raw : List Byte) : consumers (failLink s t raw) = consumers s := by
  unfold failLink
  dsimp only
  repeat' split
  · rw [consumers_putTable, consumers_endStep, consumers_takeSteps]
  · rw [consumers_putTable, consumers_endStep]
  · rw [consumers_putTable, consumers_endCmd]
  · rfl
  · rw [consumers_putTable, consumers_endCmd]
  · rfl

theorem consumers_onRun (s : State) (t : Nat) (g : StepRun → StepRun) : consumers (onRun s t g) = consumers s := by
  rw [onRun]
  split
  · exact consumers_putTable _ _ _
  · rfl

theorem consumers_outFailed (s : State) (t : Nat) (raw : List Byte) (status : Nat) : consumers (outFailed s t raw status) = consumers s := by
  unfold outFailed
  dsimp only
  repeat' split
  · exact consumers_onRun _ _ _
  · exact consumers_putTable _ _ _
  · exact consumers_putTable _ _ _

theorem consumers_linkEnded (s : State) (id status : Nat) : consumers (linkEnded s id status) = consumers s :=
  (foldl_keeps consumers _ (fun _ _ => consumers_outFailed _ _ _ _) _ _).trans
    (foldl_keeps consumers _ (fun _ _ => consumers_failLink _ _ _) _ s)

theorem consumers_collTold (s : State) (c : Coll) : consumers (collTold s c) = consumers s := by
  unfold collTold
  repeat' split
  · exact consumers_linkEnded _ _ _
  · rfl
  · exact consumers_onRun _ _ _
  · exact consumers_onRun _ _ _
  · rfl

theorem consumers_syncLevels (s : State) : consumers (syncLevels s) = consumers s :=
  foldl_keeps consumers _ (fun _ _ => consumers_congr (by simp only [regPut_host])) _ s

/-- R191: held changes that apply are those of power; beats of collectives follow. -/
theorem releaseHeld_eq (s : State) : ∃ p x, releaseHeld s = { syncLevels (putPower s p) with colls := x } := ⟨_, _, rfl⟩

theorem consumers_with_colls (s : State) (x : Colls) : consumers { s with colls := x } = consumers s := rfl

theorem consumers_releaseHeld (s : State) : consumers (releaseHeld s) = consumers s := by
  obtain ⟨p, x, h⟩ := releaseHeld_eq s
  rw [h, consumers_with_colls, consumers_syncLevels, consumers_congr (putPower_host s p)]

theorem consumers_grantOne (s : State) (uid : Nat) : consumers (grantOne s uid) = consumers s := by
  obtain h | ⟨c, g, -, h⟩ := grantOne_cases s uid
  · rw [h]
  · rw [h, consumers_congr (putColl_host _ _)]

theorem consumers_grantAll (s : State) : consumers (grantAll s) = consumers s :=
  foldl_keeps consumers (fun u (c : Coll) => grantColl u c.uid)
    (fun u c => (grantColl_sends u c.uid).consumers.trans (foldl_keeps consumers _ (fun u _ => consumers_grantOne u c.uid) _ u)) _ s

theorem consumers_tellColl (s : State) (uid : Nat) : consumers (tellColl s uid) = consumers s := by
  have hposts : ∀ (c : Coll) (e : State → Nat → List Byte), consumers (c.due.foldl (fun s n => collReport s n (e s n)) s) = consumers s :=
    fun c e => foldl_keeps consumers _ (fun _ _ => (postEntry_posts _ _ _).consumers) _ s
  unfold tellColl
  split
  · rfl
  · next c _ =>
    split
    · dsimp only
      rw [consumers_grantAll]
      split
      · rw [consumers_collTold, consumers_congr (putColls_host _ _), hposts]
      · rw [consumers_releaseHeld, consumers_collTold, consumers_congr (putColls_host _ _), hposts]
    · rfl

/-- R306: a consumer that has advanced has the index that it gave. -/
theorem getCons_ringFree (s : State) (q : Nat) (i : W32) : getCons (tellColls (ringDrained (setCons s q i) q)) q = i := by
  have hkept : consumers (tellColls (ringDrained (setCons s q i) q)) = consumers (setCons s q i) :=
    (foldl_keeps consumers _ consumers_tellColl _ _).trans (consumers_postWaiting q _ _)
  exact (congrArg (kget 0 · q) hkept).trans (kget_kset_same _ _ _ _)

theorem exec_ringFree {s u : State} {c : Ctl} (htake : takeCtl s c 0x21 (fromPartner c) = (u, true)) (hk : field c.msg 1 1 < 16)
    (hodd : field c.msg 1 1 % 2 = 1) (hring : ringEnabled u (partnerRing c.port (field c.msg 1 1)) = true)
    (hfill : (BitVec.ofNat 32 (field c.msg 4 4) - getCons u (partnerRing c.port (field c.msg 1 1))).toNat ≤
      ringFill u (partnerRing c.port (field c.msg 1 1))) :
    exec (.ringFree c) s = .next (tellColls (ringDrained (setCons u (partnerRing c.port (field c.msg 1 1)) (BitVec.ofNat 32 (field c.msg 4 4)))
      (partnerRing c.port (field c.msg 1 1)))) := by
  have hexec : exec (.ringFree c) s = execRingFree c s := rfl
  rw [hexec, execRingFree, htake]
  dsimp only
  rw [Nat.mod_eq_of_lt hk, if_pos ⟨hk, hodd, hring, hfill⟩]

/-! ### Job abort (R307, R308) -/

theorem exec_jobAbort {s u : State} {c : Ctl} (htake : takeCtl s c 0x01 (fromPartner c || fromHub c) = (u, true)) :
    exec (.jobAbort c) s = if c.port < 8 then .next (raise u (srcPort c.port) 0x19 2 0) else .next (endJob u (field c.msg 1 1) none false) := by
  have hexec : exec (.jobAbort c) s = execJobAbort c s := rfl
  rw [hexec, execJobAbort, htake]

/-- Settles O32: each message of a partner by its command's lemmas above. -/
theorem partnerRequestsOverThePort : Obligations.PartnerRequestsOverThePort := by
  refine ⟨?write, ?read, ?sub, ?free, ?abort, ?ack⟩
  case write =>
    intro s u f hport hlen hlow hgap hoff htake
    have hexec := exec_write hport hlen hlow hgap hoff htake
    have hsent := takeFlit_sends htake
    have hrange : ∀ i ∈ rangeFrom 0 3, i < 3 := fun i hi => by have := (mem_rangeFrom _ _ _).mp hi; omega
    refine ⟨fun hmay => ?_, fun hmay => ?_⟩
    · obtain ⟨honly, hbyte⟩ := foldl_writeUnit_stores hlen (rangeFrom 0 3) u hrange
        fun i hi hon => (hsent.partnerMay _ _ _).trans (hmay i (hrange i hi) hon)
      refine ⟨_, hexec, honly, fun x => (hbyte x).trans (if_congr ?_ rfl (memByte_congr hsent.mem x))⟩
      rw [mem_rangeFrom]
      exact ⟨fun ⟨hlo, hunit, hon⟩ => ⟨hlo, by omega, hon⟩, fun ⟨hlo, hhi, hon⟩ => ⟨hlo, by omega, hon⟩⟩
    · obtain ⟨hmem, hpoison⟩ := foldl_writeUnit_refused (a := field f.payload 0 8) hport (rangeFrom 0 3) u
        fun i hi hon => (hsent.partnerMay _ _ _).trans (hmay i (hrange i hi) hon)
      exact ⟨_, hexec, hmem.trans hsent.mem, hpoison.trans hsent.poison⟩
  case read =>
    intro s u f hport hlow hzero htake hfree units hunits
    exact ⟨_, exec_readReq hport hlow hzero htake hfree hunits, rfl, (sendRead_mem _ _ _ _ _).trans (takeFlit_sends htake).mem⟩
  case sub =>
    intro s u f hport hlen hlow n q hn hzero htake heven hring
    exact ⟨ringSub_without_credits hport hlow hn hzero htake, ringSub_puts hport hlow hn hzero htake rfl hlen heven hring⟩
  case free =>
    intro s u c htake q i hk hodd hring hfill
    exact ⟨_, exec_ringFree htake hk hodd hring hfill, getCons_ringFree _ _ _⟩
  case abort =>
    intro s u c htake
    refine ⟨fun hport => (exec_jobAbort htake).trans (if_pos hport), fun hport => ?_⟩
    exact ⟨_, (exec_jobAbort htake).trans (if_neg (Nat.not_lt.mpr hport)), endJob_job _ _ _ _⟩
  case ack =>
    intro s u c htake
    exact congrArg (fun r : State × Bool => Host.Outcome.next r.1) htake

end Sys2Proof.Machine
